-- ==== Sys2Proof/Word.lean ====
section
/-!
DEFINITION. Words, bytes and the plainest arithmetic on them (R5, R7 of spec/00_scope.md).
-/

namespace Sys2Proof

/-- One byte. -/
abbrev Byte := BitVec 8

/-- A 64-bit double: a temporary, a control-core register, a payload word. -/
abbrev Double := BitVec 64

/-- A 32-bit instruction word (R55). -/
abbrev Word := BitVec 32

end Sys2Proof
end

