-- ==== Sys2Proof/Syntax.lean ====
section
/-!
DEFINITION. The instructions and steps of the device (spec/opcode_table.json) as data: operand kinds, then the one
inductive `Instr`. Operand kinds follow R58 to R73 of spec/03_encoding.md.
-/

namespace Sys2Proof

/-- Where a station stands: its die and its position there (R15, R16, R20). -/
structure Loc where
  die : Fin 2
  x : Fin 64
  y : Fin 80
deriving DecidableEq, Repr

/-- The two kinds of station (R20): compute where x + y is even, bobbin where it is odd. -/
inductive Kind where
  | compute
  | bobbin
deriving DecidableEq, Repr

/-- Source selectors (R59). -/
inductive Sel where
  /-- t0 to t7, a temporary of the firing. -/
  | t (n : Fin 8)
  /-- i0 to i3, an input of the firing. -/
  | i (n : Fin 4)
  /-- tg, the tag of the firing. -/
  | tg
  /-- z, zero. -/
  | z
  /-- q0 and q1, the queue registers of a bobbin station. -/
  | q (n : Fin 2)
deriving DecidableEq, Repr

/-- The width of an integer operation (R161): .d is 64 bits, .w is 32 bits. -/
inductive Width where
  | w64
  | w32
deriving DecidableEq, Repr

/-- The source width of EXTS and EXTZ (R67). -/
inductive XWidth where
  | x8
  | x16
  | x32
deriving DecidableEq, Repr

/-- Scopes (R62). -/
inductive Scope where
  | firing
  | plot
  | die
  | device
  | system
deriving DecidableEq, Repr

/-- Rounding modes (R62). -/
inductive Rm where
  | rne
  | rz
  | ru
  | rd
  | sr
deriving DecidableEq, Repr

/-- Kinds of fence (R68, R70). -/
inductive FenceKind where
  | acq
  | rel
  | full
deriving DecidableEq, Repr

/-- Access sizes of 1, 2, 4 and 8 bytes (R68, R69). -/
inductive Size where
  | b1
  | b2
  | b4
  | b8
deriving DecidableEq, Repr

/-- Element sizes of a strand, in bytes (R69). -/
inductive ESize where
  | e1
  | e2
  | e4
  | e8
  | e16
  | e64
  | e128
  | e384
deriving DecidableEq, Repr

/-- The destination field of SDEF (R69): the scratchpad, a queue register, or code 3, which is an arc for a load and
fed for a store. -/
inductive StrandDest where
  | sp
  | q (n : Fin 2)
  | arc (a : Fin 16)
deriving DecidableEq, Repr

/-- The order and scope of a station's atomic (R70, R284): a relaxed atomic has no scope. -/
inductive AtomOrder where
  | relaxed
  | acq (s : Scope)
  | rel (s : Scope)
deriving DecidableEq, Repr

/-- The order of GAMO (R68). -/
inductive GOrder where
  | relaxed
  | acq
  | rel
deriving DecidableEq, Repr

/-- The operation of GAMO (R68). -/
inductive GamoOp where
  | add
  | min
  | max
  | minn
  | maxn
  | and
  | or
  | xor
  | xchg
  | fadd
deriving DecidableEq, Repr

/-- Tag fields of TGET, TSET and TADD (R65). -/
inductive TagField where
  | iter
  | thread
  | ctx
  | inst
  | block
  | tag
  | nulls
deriving DecidableEq, Repr

/-- Scalar floating-point formats of FADD and its kin (R71). -/
inductive FpFmt where
  | f32
  | f16
  | bf16
deriving DecidableEq, Repr

/-- Scalar formats of FCVT (R64). -/
inductive CvtFmt where
  | f32
  | f16
  | bf16
  | i32
  | i64
  | n32
  | n64
deriving DecidableEq, Repr

/-- Predicates of VCMP and FCMP (R71). -/
inductive Pred where
  | eq
  | lt
  | le
  | un
  | ne
deriving DecidableEq, Repr

/-- Registers of a hash family (R73). -/
inductive HReg where
  | kind
  | dim
  | fmt
  | bits
  | tables
  | seed
deriving DecidableEq, Repr

/-- Overflow policies of a Thicket table (R73). -/
inductive OvPolicy where
  | refuse
  | evictOldest
  | chain
deriving DecidableEq, Repr

/-- Meters of EMTR (R440). -/
inductive Meter where
  | charged
  | site
  | resid
  | shared
deriving DecidableEq, Repr

/-- Types of a scatter-add (R69). -/
inductive ScType where
  | i64
  | f32
  | i32
deriving DecidableEq, Repr

/-- Element widths of a tile register, in bits (R72). -/
inductive TWidth where
  | w4
  | w8
  | w16
  | w32
deriving DecidableEq, Repr

/-- System registers of a control core (R183). -/
inductive SysReg where
  | status
  | epc
  | cause
  | eval
  | hvec
  | curvf
  | coreno
  | events
  | iemask
  | snkflag
  | knottab
  | knotcnt
  | knotreg
  | hfree
  | cycle
deriving DecidableEq, Repr


/-- The instructions and steps of spec/opcode_table.json, one constructor for each row: the instructions
with operands (names ending in Cr or Ci are control-core forms that share an opcode with a station instruction),
the instructions without operands, and the steps that have no encoding. STILE, PRIO and ACCCLR have one constructor
for each value of their one operand. The operands of a step stand in the state (`Arg`). -/
inductive Instr where
  /-- EMIT (R152). Claims a counted arc and sends a word token carrying the outgoing tag. -/
  | emit (s : Sel) (r : Fin 16)
  /-- EMIT2 (R152). Claims two arcs and sends one value read on both of them. -/
  | emit2 (s : Sel) (r q : Fin 16)
  /-- EMITT (R152). Claims an arc and sends a tile register as a tile token. -/
  | emitt (s r : Fin 16)
  /-- EMITN (R152). Claims an arc and sends a null token. -/
  | emitn (r : Fin 16)
  /-- EMITR (R152). Claims an arc and sends a word token as a release at the scope given. -/
  | emitr (s : Sel) (r : Fin 16) (p : Scope)
  /-- EXIT (R154). Sends the continuation token on exit k; the .n form also sends nulls on the other exits. -/
  | exit (s : Sel) (k : Fin 16) (n : Bool)
  /-- EXITS (R155). Takes exit k and hands a spawn-table entry to the area arbiter at the body's end. -/
  | exits (s : Sel) (k : Fin 16) (i : BitVec 16)
  /-- TGET (R156). Reads a field of the outgoing tag, or the null mask, into a temporary. -/
  | tget (d : Fin 8) (f : TagField)
  /-- TSET (R156). Sets ITER or THREAD of the outgoing tag. -/
  | tset (a : Sel) (f : TagField)
  /-- TADD (R156). Adds a value to ITER or THREAD of the outgoing tag. -/
  | tadd (a : Sel) (f : TagField)
  /-- LGATE (R157). Takes one unit of loop allowance and gives the outgoing tag the next ITER. -/
  | lgate (d : Fin 8)
  /-- STEER (R158). Sends the value on one arc and a null on the other, as the predicate selects. -/
  | steer (s : Sel) (t f : Fin 16) (p : Sel)
  /-- THIN (R159). Passes a survivor with a dense ITER taken from the thinning counter. -/
  | thin (s : Sel) (r : Fin 16) (p : Sel) (g : BitVec 8)
  /-- THEND (R159). Pads the last thinning group with nulls. -/
  | thend (r : Fin 16)
  /-- SINKW (R153). Sends a value over the control network to a sink register of the instance. -/
  | sinkw (s : Sel) (k : Fin 8)
  /-- DROP (R152). Claims an arc as served and sends nothing on it. -/
  | drop (r : Fin 16)
  /-- TRAP (R160). Ends the firing with a frame trap that carries code 0x21 and the immediate. -/
  | trap (c : BitVec 16)
  /-- ADD (R168). Wrapping sum of two sources. -/
  | add (d : Fin 8) (a b : Sel) (w : Width)
  /-- SUB (R168). Wrapping difference of two sources. -/
  | sub (d : Fin 8) (a b : Sel) (w : Width)
  /-- ADDI (R168). Adds a sign-extended immediate at 64 bits. -/
  | addi (d : Fin 8) (a : Sel) (i : BitVec 16)
  /-- MUL (R169). Low half of the product. -/
  | mul (d : Fin 8) (a b : Sel) (w : Width)
  /-- MULH (R169). Signed high half of the product. -/
  | mulh (d : Fin 8) (a b : Sel) (w : Width)
  /-- MULHN (R169). Natural high half of the product. -/
  | mulhn (d : Fin 8) (a b : Sel) (w : Width)
  /-- DIV (R170). Signed quotient rounded toward zero, with the fixed results for zero and overflow. -/
  | div (d : Fin 8) (a b : Sel) (w : Width)
  /-- DIVN (R170). Natural quotient. -/
  | divn (d : Fin 8) (a b : Sel) (w : Width)
  /-- REM (R170). Signed remainder, taking the sign of the dividend. -/
  | rem (d : Fin 8) (a b : Sel) (w : Width)
  /-- REMN (R170). Natural remainder; the dividend when the divisor is zero. -/
  | remn (d : Fin 8) (a b : Sel) (w : Width)
  /-- AND (R171). Bitwise and. -/
  | and (d : Fin 8) (a b : Sel) (w : Width)
  /-- OR (R171). Bitwise or. -/
  | or (d : Fin 8) (a b : Sel) (w : Width)
  /-- XOR (R171). Bitwise exclusive or. -/
  | xor (d : Fin 8) (a b : Sel) (w : Width)
  /-- ANDN (R171). a and not b. -/
  | andn (d : Fin 8) (a b : Sel) (w : Width)
  /-- ANDI (R171). And with a zero-extended immediate. -/
  | andi (d : Fin 8) (a : Sel) (i : BitVec 16)
  /-- ORI (R171). Or with a zero-extended immediate. -/
  | ori (d : Fin 8) (a : Sel) (i : BitVec 16)
  /-- XORI (R171). Exclusive or with a zero-extended immediate. -/
  | xori (d : Fin 8) (a : Sel) (i : BitVec 16)
  /-- SHL (R172). Shift left by a register amount. -/
  | shl (d : Fin 8) (a b : Sel) (w : Width)
  /-- SHR (R172). Logical shift right by a register amount. -/
  | shr (d : Fin 8) (a b : Sel) (w : Width)
  /-- SRA (R172). Arithmetic shift right by a register amount. -/
  | sra (d : Fin 8) (a b : Sel) (w : Width)
  /-- SHLI (R172). Shift left by an immediate amount. -/
  | shli (d : Fin 8) (a : Sel) (w : Width) (m : Fin 64)
  /-- SHRI (R172). Logical shift right by an immediate amount. -/
  | shri (d : Fin 8) (a : Sel) (w : Width) (m : Fin 64)
  /-- SRAI (R172). Arithmetic shift right by an immediate amount. -/
  | srai (d : Fin 8) (a : Sel) (w : Width) (m : Fin 64)
  /-- ROTL (R172). Rotate left. -/
  | rotl (d : Fin 8) (a b : Sel) (w : Width)
  /-- CLZ (R173). Counts leading zero bits. -/
  | clz (d : Fin 8) (a : Sel) (w : Width)
  /-- CTZ (R173). Counts trailing zero bits. -/
  | ctz (d : Fin 8) (a : Sel) (w : Width)
  /-- POPC (R173). Counts one bits. -/
  | popc (d : Fin 8) (a : Sel) (w : Width)
  /-- MIN (R174). Signed minimum. -/
  | min (d : Fin 8) (a b : Sel) (w : Width)
  /-- MINN (R174). Natural minimum. -/
  | minn (d : Fin 8) (a b : Sel) (w : Width)
  /-- MAX (R174). Signed maximum. -/
  | max (d : Fin 8) (a b : Sel) (w : Width)
  /-- MAXN (R174). Natural maximum. -/
  | maxn (d : Fin 8) (a b : Sel) (w : Width)
  /-- SLT (R174). 1 if a is less than b, signed. -/
  | slt (d : Fin 8) (a b : Sel) (w : Width)
  /-- SLTN (R174). 1 if a is less than b, natural. -/
  | sltn (d : Fin 8) (a b : Sel) (w : Width)
  /-- SLTI (R174). 1 if a is less than a sign-extended immediate. -/
  | slti (d : Fin 8) (a : Sel) (i : BitVec 16)
  /-- SEQ (R174). 1 if the sources are equal. -/
  | seq (d : Fin 8) (a b : Sel) (w : Width)
  /-- SNE (R174). 1 if the sources differ. -/
  | sne (d : Fin 8) (a b : Sel) (w : Width)
  /-- CSEL (R174). Selects b when a is non-zero, else c. -/
  | csel (d : Fin 8) (a b c : Sel) (w : Width)
  /-- MOV (R175). Copies a source. -/
  | mov (d : Fin 8) (a : Sel) (w : Width)
  /-- MOVI (R175). Loads a sign-extended immediate. -/
  | movi (d : Fin 8) (i : BitVec 16)
  /-- MOVK (R175). Writes a 16-bit immediate into one lane and keeps the other bits. -/
  | movk (d : Fin 8) (k : Fin 4) (i : BitVec 16)
  /-- EXTS (R175). Sign-extends the low 8, 16 or 32 bits. -/
  | exts (d : Fin 8) (a : Sel) (x : XWidth) (w : Width)
  /-- EXTZ (R175). Zero-extends the low 8, 16 or 32 bits. -/
  | extz (d : Fin 8) (a : Sel) (x : XWidth) (w : Width)
  /-- BFI (R175). Inserts a bit field into an old value. -/
  | bfi (d : Fin 8) (a b c : Sel) (l : Fin 64)
  /-- ADDS (R168). Saturating sum, signed or natural. -/
  | adds (d : Fin 8) (a b : Sel) (n : Bool) (w : Width)
  /-- SUBS (R168). Saturating difference, signed or natural. -/
  | subs (d : Fin 8) (a b : Sel) (n : Bool) (w : Width)
  /-- ABS (R168). Absolute value, wrapping. -/
  | abs (d : Fin 8) (a : Sel) (w : Width)
  /-- NEG (R168). Negation, wrapping. -/
  | neg (d : Fin 8) (a : Sel) (w : Width)
  /-- LEA (R176). Forms a + (b << sh) without any access. -/
  | lea (d : Fin 8) (a b : Sel) (s : Fin 8) (w : Width)
  /-- ADD_CR (R168). Control-core wrapping sum. -/
  | addCr (d a b : Fin 32) (w : Width)
  /-- SUB_CR (R168). Control-core wrapping difference. -/
  | subCr (d a b : Fin 32) (w : Width)
  /-- ADDI_CI (R168). Control-core add of a sign-extended 14-bit immediate. -/
  | addiCi (d a : Fin 32) (i : BitVec 14)
  /-- MUL_CR (R169). Control-core low half of the product. -/
  | mulCr (d a b : Fin 32) (w : Width)
  /-- MULH_CR (R169). Control-core signed high half of the product. -/
  | mulhCr (d a b : Fin 32) (w : Width)
  /-- MULHN_CR (R169). Control-core natural high half of the product. -/
  | mulhnCr (d a b : Fin 32) (w : Width)
  /-- DIV_CR (R170). Control-core signed quotient. -/
  | divCr (d a b : Fin 32) (w : Width)
  /-- DIVN_CR (R170). Control-core natural quotient. -/
  | divnCr (d a b : Fin 32) (w : Width)
  /-- REM_CR (R170). Control-core signed remainder. -/
  | remCr (d a b : Fin 32) (w : Width)
  /-- REMN_CR (R170). Control-core natural remainder. -/
  | remnCr (d a b : Fin 32) (w : Width)
  /-- AND_CR (R171). Control-core bitwise and. -/
  | andCr (d a b : Fin 32) (w : Width)
  /-- OR_CR (R171). Control-core bitwise or. -/
  | orCr (d a b : Fin 32) (w : Width)
  /-- XOR_CR (R171). Control-core bitwise exclusive or. -/
  | xorCr (d a b : Fin 32) (w : Width)
  /-- ANDN_CR (R171). Control-core a and not b. -/
  | andnCr (d a b : Fin 32) (w : Width)
  /-- ANDI_CI (R171). Control-core and with a zero-extended immediate. -/
  | andiCi (d a : Fin 32) (i : BitVec 14)
  /-- ORI_CI (R171). Control-core or with a zero-extended immediate. -/
  | oriCi (d a : Fin 32) (i : BitVec 14)
  /-- XORI_CI (R171). Control-core exclusive or with a zero-extended immediate. -/
  | xoriCi (d a : Fin 32) (i : BitVec 14)
  /-- SHL_CR (R172). Control-core shift left. -/
  | shlCr (d a b : Fin 32) (w : Width)
  /-- SHR_CR (R172). Control-core logical shift right. -/
  | shrCr (d a b : Fin 32) (w : Width)
  /-- SRA_CR (R172). Control-core arithmetic shift right. -/
  | sraCr (d a b : Fin 32) (w : Width)
  /-- SHLI_CI (R172). Control-core shift left by an immediate. -/
  | shliCi (d a : Fin 32) (w : Width) (m : Fin 64)
  /-- SHRI_CI (R172). Control-core logical shift right by an immediate. -/
  | shriCi (d a : Fin 32) (w : Width) (m : Fin 64)
  /-- SRAI_CI (R172). Control-core arithmetic shift right by an immediate. -/
  | sraiCi (d a : Fin 32) (w : Width) (m : Fin 64)
  /-- ROTL_CR (R172). Control-core rotate left. -/
  | rotlCr (d a b : Fin 32) (w : Width)
  /-- CLZ_CR (R173). Control-core leading-zero count. -/
  | clzCr (d a : Fin 32) (w : Width)
  /-- CTZ_CR (R173). Control-core trailing-zero count. -/
  | ctzCr (d a : Fin 32) (w : Width)
  /-- POPC_CR (R173). Control-core population count. -/
  | popcCr (d a : Fin 32) (w : Width)
  /-- MIN_CR (R174). Control-core signed minimum. -/
  | minCr (d a b : Fin 32) (w : Width)
  /-- MINN_CR (R174). Control-core natural minimum. -/
  | minnCr (d a b : Fin 32) (w : Width)
  /-- MAX_CR (R174). Control-core signed maximum. -/
  | maxCr (d a b : Fin 32) (w : Width)
  /-- MAXN_CR (R174). Control-core natural maximum. -/
  | maxnCr (d a b : Fin 32) (w : Width)
  /-- SLT_CR (R174). Control-core signed less-than. -/
  | sltCr (d a b : Fin 32) (w : Width)
  /-- SLTN_CR (R174). Control-core natural less-than. -/
  | sltnCr (d a b : Fin 32) (w : Width)
  /-- SLTI_CI (R174). Control-core signed less-than against an immediate. -/
  | sltiCi (d a : Fin 32) (i : BitVec 14)
  /-- SEQ_CR (R174). Control-core equality test. -/
  | seqCr (d a b : Fin 32) (w : Width)
  /-- SNE_CR (R174). Control-core inequality test. -/
  | sneCr (d a b : Fin 32) (w : Width)
  /-- CSEL_CR (R174). Control-core select that keeps gd when ga is zero. -/
  | cselCr (d a b : Fin 32) (w : Width)
  /-- MOV_CR (R175). Control-core register copy. -/
  | movCr (d a : Fin 32) (w : Width)
  /-- MOVI_CI (R175). Control-core load of a sign-extended 14-bit immediate. -/
  | moviCi (d : Fin 32) (i : BitVec 14)
  /-- MOVK_CI (R175). Control-core write of a 14-bit immediate into one 16-bit lane. -/
  | movkCi (d : Fin 32) (k : Fin 4) (i : BitVec 14)
  /-- EXTS_CR (R175). Control-core sign extension. -/
  | extsCr (d a : Fin 32) (x : XWidth) (w : Width)
  /-- EXTZ_CR (R175). Control-core zero extension. -/
  | extzCr (d a : Fin 32) (x : XWidth) (w : Width)
  /-- BFI_CR (R175). Control-core bit-field insert into gd at position gb. -/
  | bfiCr (d a b : Fin 32) (l : Fin 64)
  /-- ADDS_CR (R168). Control-core saturating sum. -/
  | addsCr (d a b : Fin 32) (n : Bool) (w : Width)
  /-- SUBS_CR (R168). Control-core saturating difference. -/
  | subsCr (d a b : Fin 32) (n : Bool) (w : Width)
  /-- ABS_CR (R168). Control-core absolute value. -/
  | absCr (d a : Fin 32) (w : Width)
  /-- NEG_CR (R168). Control-core negation. -/
  | negCr (d a : Fin 32) (w : Width)
  /-- LEA_CR (R176). Control-core scaled address. -/
  | leaCr (d a b : Fin 32) (s : Fin 8) (w : Width)
  /-- BEQ (R191). Branches when ga equals gb. -/
  | beq (a b : Fin 32) (o : BitVec 14)
  /-- BNE (R191). Branches when ga differs from gb. -/
  | bne (a b : Fin 32) (o : BitVec 14)
  /-- BLT (R191). Branches on signed less-than. -/
  | blt (a b : Fin 32) (o : BitVec 14)
  /-- BGE (R191). Branches on signed greater-or-equal. -/
  | bge (a b : Fin 32) (o : BitVec 14)
  /-- BLTN (R191). Branches on natural less-than. -/
  | bltn (a b : Fin 32) (o : BitVec 14)
  /-- BGEN (R191). Branches on natural greater-or-equal. -/
  | bgen (a b : Fin 32) (o : BitVec 14)
  /-- JMP (R192). Jumps by a signed word offset. -/
  | jmp (o : BitVec 24)
  /-- JAL (R192). Jumps and writes the return address to g31. -/
  | jal (o : BitVec 24)
  /-- JR (R192). Jumps to ga; traps ALIGN if it is misaligned. -/
  | jr (a : Fin 32)
  /-- LDG (R193). Control-core load of 1 to 8 bytes. -/
  | ldg (d a : Fin 32) (o : BitVec 12) (z : Size)
  /-- STG (R193). Control-core store of 1 to 8 bytes. -/
  | stg (d a : Fin 32) (o : BitVec 12) (z : Size)
  /-- LDGF (R194). Waits until an F/E granule is full, then reads it and optionally empties it. -/
  | ldgf (d a : Fin 32) (o : BitVec 12) (c : Bool)
  /-- STGF (R194). Stores 8 bytes and sets the granule full as a DEVICE release. -/
  | stgf (d a : Fin 32) (o : BitVec 12)
  /-- LNCH (R196). Queues a launch for CURVF and returns an instance handle or a refusal code. -/
  | lnch (d a b : Fin 32)
  /-- INJ (R197). Sends or holds a word token on an entry of a root instance as a DEVICE release. -/
  | inj (a b : Fin 32) (e : Fin 16)
  /-- SNKR (R198). Reads a sink register of a root record and sets SNKFLAG. -/
  | snkr (d a : Fin 32) (k : Fin 8)
  /-- KNWAIT (R199). Waits for the root record to retire and returns its status as a DEVICE acquire. -/
  | knwait (d a : Fin 32)
  /-- SRR (R200). Reads a system register. -/
  | srr (d : Fin 32) (r : SysReg)
  /-- SRW (R200). Writes a system register. -/
  | srw (d : Fin 32) (r : SysReg)
  /-- QPOP (R202). Takes the oldest accepted packet and returns its intake-slot address. -/
  | qpop (d a : Fin 32)
  /-- QDONE (R203). Completes a packet, writes its completion record and frees its slot. -/
  | qdone (a b : Fin 32)
  /-- IRQ (R204). Sends an interrupt message through the remap table. -/
  | irq (a : Fin 32)
  /-- GFENCE (R205). Control-core fence of kind acq, rel or full at a scope. -/
  | gfence (k : FenceKind) (s : Scope)
  /-- GAMO (R206). Atomic read-modify-write at the home L2 or in local memory. -/
  | gamo (d a b : Fin 32) (w : Width) (r : GOrder) (o : GamoOp)
  /-- SDEF (R250). Defines a strand record and makes it IDLE. -/
  | sdef (v : Fin 8) (a b : Sel) (y : StrandDest) (t w : Bool) (z : ESize)
  /-- SLEN (R250). Sets a strand's element count. -/
  | slen (v : Fin 8) (a : Sel)
  /-- SGO (R250). Starts a strand after earlier scratchpad accesses and claims its arc. -/
  | sgo (v : Fin 8) (a : Sel)
  /-- LDS (R251). Reads a delivered element of an ordered strand, parking until it is delivered. -/
  | lds (d : Fin 8) (a : Sel) (b : Fin 8) (i : Fin 32)
  /-- STS (R251). Supplies an element of an ordered fed store strand. -/
  | sts (v a : Sel) (b : Fin 8) (i : Fin 32)
  /-- LDSP (R255). Scratchpad load that ignores the full/empty bits. -/
  | ldsp (d : Fin 8) (a b : Sel) (i : Fin 32) (x : Bool) (z : Size)
  /-- STSP (R255). Scratchpad store that ignores the full/empty bits. -/
  | stsp (v a b : Sel) (i : Fin 32) (z : Size)
  /-- LDF (R256). Scratchpad sync load that parks until the granule is full. -/
  | ldf (d : Fin 8) (a b : Sel) (i : Fin 32) (c x : Bool) (z : Size)
  /-- STF (R256). Scratchpad store that sets the granule full as a PLOT release. -/
  | stf (v a b : Sel) (i : Fin 32) (z : Size)
  /-- FEC (R258). Sets a range of granules empty. -/
  | fec (a b : Sel) (i : Fin 32) (m : Bool)
  /-- FEQ (R258). Reads a granule's full/empty bit. -/
  | feq (d : Fin 8) (a : Sel) (i : Fin 32) (m : Bool)
  /-- GATH (R252). Issues an element of a tagged load strand. -/
  | gath (v : Sel) (b : Fin 8)
  /-- SCAT (R252). Issues an element of a tagged fed store strand. -/
  | scat (v a : Sel) (b : Fin 8) (i : Fin 32)
  /-- SCADD (R253). Sends an add update into a bin at the element's home port. -/
  | scadd (v a : Sel) (b : Fin 8) (i : Fin 32) (t : ScType)
  /-- SCFLUSH (R254). Makes earlier SCADDs of a strand apply and perform at a scope. -/
  | scflush (b : Fin 8) (s : Scope)
  /-- COPY (R259). Hands a copy to the copy engine of the issuing port. -/
  | copy (v a b : Sel) (i : Fin 32) (y x : Bool)
  /-- CPSTAT (R259). Reads the bytes of a COPY not yet performed. -/
  | cpstat (d : Fin 8) (i : Fin 32)
  /-- PREF (R260). Asks the home slices to fill lines; it never faults. -/
  | pref (a b : Sel)
  /-- SBAR (R261). Orders later elements of the named strands after earlier ones. -/
  | sbar (m n : BitVec 4) (s : Scope)
  /-- LDM (R255). Memory load through the border port. -/
  | ldm (d : Fin 8) (a b : Sel) (i : Fin 32) (x : Bool) (z : Size)
  /-- STM (R255). Memory store through the border port. -/
  | stm (v a b : Sel) (i : Fin 32) (z : Size)
  /-- LDMF (R256). Memory sync load that parks until the granule is full; a DEVICE acquire. -/
  | ldmf (d : Fin 8) (a b : Sel) (i : Fin 32) (c x : Bool) (z : Size)
  /-- STMF (R256). Memory store that sets the granule full as a DEVICE release. -/
  | stmf (v a b : Sel) (i : Fin 32) (z : Size)
  /-- TLD (R262). Loads the rows of a tile register from memory or a neighbouring scratchpad. -/
  | tld (t : Fin 16) (a b : Sel) (i : Fin 32) (p : Bool)
  /-- TST (R262). Stores the rows of a tile register. -/
  | tst (t : Fin 16) (a b : Sel) (i : Fin 32) (p : Bool)
  /-- FENCE (R280). Orders the firing's accesses and tokens by kind and scope. -/
  | fence (k : FenceKind) (s : Scope)
  /-- BARJ (R282). Releases, sends a join to the gate station and parks until the generation completes. -/
  | barj (d : Fin 8) (a : Sel) (s : Scope)
  /-- AADD (R284). Atomic add. -/
  | aadd (d : Fin 8) (a b : Sel) (i : Fin 32) (o : AtomOrder) (w : Width)
  /-- AMIN (R284). Atomic signed minimum. -/
  | amin (d : Fin 8) (a b : Sel) (i : Fin 32) (o : AtomOrder) (w : Width)
  /-- AMAX (R284). Atomic signed maximum. -/
  | amax (d : Fin 8) (a b : Sel) (i : Fin 32) (o : AtomOrder) (w : Width)
  /-- AMINN (R284). Atomic natural minimum. -/
  | aminn (d : Fin 8) (a b : Sel) (i : Fin 32) (o : AtomOrder) (w : Width)
  /-- AMAXN (R284). Atomic natural maximum. -/
  | amaxn (d : Fin 8) (a b : Sel) (i : Fin 32) (o : AtomOrder) (w : Width)
  /-- AAND (R284). Atomic and. -/
  | aand (d : Fin 8) (a b : Sel) (i : Fin 32) (o : AtomOrder) (w : Width)
  /-- AOR (R284). Atomic or. -/
  | aor (d : Fin 8) (a b : Sel) (i : Fin 32) (o : AtomOrder) (w : Width)
  /-- AXOR (R284). Atomic exclusive or. -/
  | axor (d : Fin 8) (a b : Sel) (i : Fin 32) (o : AtomOrder) (w : Width)
  /-- AXCHG (R284). Atomic exchange. -/
  | axchg (d : Fin 8) (a b : Sel) (i : Fin 32) (o : AtomOrder) (w : Width)
  /-- ACAS (R284). Atomic compare and swap. -/
  | acas (d : Fin 8) (a b : Sel) (i : Fin 32) (o : AtomOrder) (w : Width)
  /-- AFADD (R284). Atomic FP32 add. -/
  | afadd (d : Fin 8) (a b : Sel) (i : Fin 32) (o : AtomOrder)
  /-- CALL (R317). Creates a callee record and queues the call request at the body's end. -/
  | call (n : Fin 16) (i : BitVec 16)
  /-- CALLF (R317). As CALL, but the callee is placed only by folding or eviction. -/
  | callf (n : Fin 16) (i : BitVec 16)
  /-- INSTID (R320). Reads the instance's placement and id. -/
  | instid (d : Fin 8)
  /-- AREAQ (R321). Asks the Pricking engine whether a w x h plot fits. -/
  | areaq (d : Fin 8) (h w : BitVec 8)
  /-- KNOTQ (R322). Reads a knot-table entry's interface, validating the image if needed. -/
  | knotq (d : Fin 8) (i : BitVec 16)
  /-- VADD (R334). Elementwise sum of two tiles. -/
  | vadd (d a b : Fin 16) (r : Rm)
  /-- VSUB (R334). Elementwise difference of two tiles. -/
  | vsub (d a b : Fin 16) (r : Rm)
  /-- VMUL (R334). Elementwise product of two tiles. -/
  | vmul (d a b : Fin 16) (r : Rm)
  /-- VFMA (R334). Elementwise fused multiply-add into Td. -/
  | vfma (d a b : Fin 16) (r : Rm)
  /-- VMIN (R334). Elementwise minimum. -/
  | vmin (d a b : Fin 16)
  /-- VMAX (R334). Elementwise maximum. -/
  | vmax (d a b : Fin 16)
  /-- VABS (R335). Elementwise absolute value. -/
  | vabs (d a : Fin 16)
  /-- VNEG (R335). Elementwise negation. -/
  | vneg (d a : Fin 16)
  /-- VRCP (R335). Elementwise reciprocal, correctly rounded. -/
  | vrcp (d a : Fin 16) (r : Rm)
  /-- VRSQ (R335). Elementwise reciprocal square root. -/
  | vrsq (d a : Fin 16) (r : Rm)
  /-- VEXP2 (R335). Elementwise power of two. -/
  | vexp2 (d a : Fin 16) (r : Rm)
  /-- VLOG2 (R335). Elementwise base-2 logarithm. -/
  | vlog2 (d a : Fin 16) (r : Rm)
  /-- VCVT (R336). Converts a tile to another format and sends the overflow token. -/
  | vcvt (d a b : Fin 16) (f : BitVec 6) (r : Rm)
  /-- VSCL (R338). Multiplies a window of each row by its E5M2 block scales. -/
  | vscl (d a b k : Fin 16) (r : Rm)
  /-- VREDS (R339). Sums one row into a temporary. -/
  | vreds (d : Fin 8) (a b : Fin 16)
  /-- VREDX (R339). Writes the largest element of one row to a temporary. -/
  | vredx (d : Fin 8) (a b : Fin 16)
  /-- VCMP (R340). Elementwise comparison into a mask tile. -/
  | vcmp (d a b : Fin 16) (p : Pred)
  /-- VSEL (R340). Elementwise bit-exact selection by a mask tile. -/
  | vsel (d a b m : Fin 16)
  /-- VBCAST (R341). Writes a selector's low bits into every element of Td. -/
  | vbcast (d : Fin 16) (a : Sel)
  /-- VEXT (R341). Extracts one raw element code into a temporary. -/
  | vext (d : Fin 8) (a b : Fin 16) (c : BitVec 12)
  /-- VDOT (R339). Dot product of one row of two tiles. -/
  | vdot (d : Fin 8) (a b r : Fin 16)
  /-- VSHF (R341). Permutes elements by an index tile. -/
  | vshf (d a b : Fin 16)
  /-- FADD (R343). Scalar floating-point sum. -/
  | fadd (d : Fin 8) (a b : Sel) (f : FpFmt) (r : Rm)
  /-- FSUB (R343). Scalar floating-point difference. -/
  | fsub (d : Fin 8) (a b : Sel) (f : FpFmt) (r : Rm)
  /-- FMUL (R343). Scalar floating-point product. -/
  | fmul (d : Fin 8) (a b : Sel) (f : FpFmt) (r : Rm)
  /-- FFMA (R343). Scalar fused multiply-add. -/
  | ffma (d : Fin 8) (a b c : Sel) (f : FpFmt) (r : Rm)
  /-- FCVT (R344). Scalar conversion between float and integer codes. -/
  | fcvt (d : Fin 8) (a : Sel) (s x : CvtFmt) (r : Rm)
  /-- FCMP (R345). Scalar comparison writing 1 or 0. -/
  | fcmp (d : Fin 8) (a b : Sel) (p : Pred) (f : FpFmt)
  /-- FMIN (R343). Scalar floating-point minimum. -/
  | fmin (d : Fin 8) (a b : Sel) (f : FpFmt)
  /-- FMAX (R343). Scalar floating-point maximum. -/
  | fmax (d : Fin 8) (a b : Sel) (f : FpFmt)
  /-- VSEED (R342). Seeds the context's rounding generator and clears its counter. -/
  | vseed (a : Sel)
  /-- TCFG (R360). Sets a tile register's shape and keeps its bits. -/
  | tcfg (d a : Fin 16) (w : TWidth) (b : Fin 12)
  /-- TZERO (R360). Clears a tile register and keeps its shape. -/
  | tzero (d : Fin 16)
  /-- TMOV (R361). Copies a tile register's bits and shape. -/
  | tmov (d a : Fin 16)
  /-- TXP (R361). Transposes each 16 x 16 block of a tile. -/
  | txp (d a : Fin 16)
  /-- MMA (R362). Queues a matrix product into an accumulator. -/
  | mma (a b : Fin 16) (c : Fin 8)
  /-- MMAS (R362). Queues a block-scaled E2M1 product into an accumulator. -/
  | mmas (s a b : Fin 16) (c : Fin 8)
  /-- ACCRD (R364). Queues a read of an accumulator that is sent as a tile token on a counted arc. -/
  | accrd (n : Fin 16) (s : Sel) (c : Fin 8) (r : Rm) (f : BitVec 6)
  /-- ACCLD (R363). Queues the loading of an accumulator from a tile. -/
  | accld (a : Fin 16) (c : Fin 8)
  /-- WPRE (R365). Copies a tile into the weight register after the context's queued products. -/
  | wpre (a : Fin 16)
  /-- AFEED (R365). Queues a pleach product against WR that passes a partial down the chain. -/
  | afeed (a : Fin 16)
  /-- PLSTAT (R366). Reads the context's matrix status. -/
  | plstat (d : Fin 8)
  /-- HFW (R390). Writes a hash-family register and waits until all engines hold it. -/
  | hfw (a : Sel) (r : HReg) (f : Fin 16)
  /-- HFR (R390). Reads a hash-family register. -/
  | hfr (d : Fin 8) (r : HReg) (f : Fin 16)
  /-- HASH (R391). Hashes a vector and sends L index tokens on a claimed arc. -/
  | hash (n : Fin 16) (a b : Sel) (f : Fin 16)
  /-- TINS (R392). Inserts a row into the table's buckets at the home engine. -/
  | tins (v a b : Sel) (i : Fin 32) (f : Fin 16)
  /-- TDEL (R392). Deletes a row by tombstones at the home engine. -/
  | tdel (v a b : Sel) (i : Fin 32) (f : Fin 16)
  /-- TPRB (R391). Probes a table and sends row tokens and an end token on a claimed arc. -/
  | tprb (n : Fin 16) (a b : Sel) (f : Fin 16)
  /-- TRHS (R393). Starts a migration or migrates n old bucket indices. -/
  | trhs (v a : Sel) (i : Fin 32)
  /-- TFEN (R395). Waits until the context's earlier updates on a descriptor are performed at a scope. -/
  | tfen (a : Sel) (s : Scope)
  /-- TSTAT (R396). Reads a descriptor's migration and overflow state. -/
  | tstat (d : Fin 8) (a : Sel)
  /-- TOVP (R394). Sets a table's overflow policy as an update. -/
  | tovp (a : Sel) (i : Fin 32) (p : OvPolicy)
  /-- QRD (R436). Reads QUOTA or WARN as of the last broadcast. -/
  | qrd (d : Fin 8) (s : Bool)
  /-- QARM (R436). Writes WARN and arms the warning. -/
  | qarm (a : Sel)
  /-- TRC (R437). Writes a trace sampler record. -/
  | trc (a : Sel) (c : BitVec 14)
  /-- TIME (R438). Reads the time counter, or the latched fraction and lock flag. -/
  | time (d : Fin 8) (f : Bool)
  /-- EMTR (R440). Reads an energy counter. -/
  | emtr (d : Fin 8) (c : Meter)
  /-- HEATQ (R441). Reads the supply column's heat-bucket state. -/
  | heatq (d : Fin 8)
  /-- QRD_CI (R436). Control-core read of QUOTA or WARN for CURVF. -/
  | qrdCi (d : Fin 32) (s : Bool)
  /-- QARM_CI (R436). Control-core arming of the quota warning. -/
  | qarmCi (a : Fin 32)
  /-- TRC_CI (R437). Control-core trace record. -/
  | trcCi (a : Fin 32) (c : BitVec 14)
  /-- TIME_CI (R438). Control-core read of the time counter. -/
  | timeCi (d : Fin 32) (f : Bool)
  /-- EMTR_CI (R440). Control-core read of an energy counter. -/
  | emtrCi (d : Fin 32) (c : Meter)
  /-- HEATQ_CI (R441). Control-core read of the emptiest heat bucket of its die. -/
  | heatqCi (d : Fin 32)
  /-- NOP (R151). Does nothing for one issue cycle. -/
  | nop
  /-- LFREE (R157). Records a loop credit that is sent to the gate station at commit. -/
  | lfree
  /-- ERET (R201). Returns from a trap, restoring PC, MODE and IE. -/
  | eret
  /-- WFE (R201). Waits until an enabled event is pending. -/
  | wfe
  /-- STILE, operand 1 (R281). Performs a stile sprig's release and lets its crossing tokens leave. -/
  | stilePlot
  /-- STILE, operand 2 (R281). Performs a stile sprig's release and lets its crossing tokens leave. -/
  | stileDie
  /-- STILE, operand 3 (R281). Performs a stile sprig's release and lets its crossing tokens leave. -/
  | stileDevice
  /-- STILE, operand 4 (R281). Performs a stile sprig's release and lets its crossing tokens leave. -/
  | stileSystem
  /-- RET (R319). Makes the instance RETURNING when the firing commits. -/
  | ret
  /-- ACCCLR, operand 0 (R363). Queues the clearing of an accumulator. -/
  | accclr0
  /-- ACCCLR, operand 1 (R363). Queues the clearing of an accumulator. -/
  | accclr1
  /-- ACCCLR, operand 2 (R363). Queues the clearing of an accumulator. -/
  | accclr2
  /-- ACCCLR, operand 3 (R363). Queues the clearing of an accumulator. -/
  | accclr3
  /-- ACCCLR, operand 4 (R363). Queues the clearing of an accumulator. -/
  | accclr4
  /-- ACCCLR, operand 5 (R363). Queues the clearing of an accumulator. -/
  | accclr5
  /-- ACCCLR, operand 6 (R363). Queues the clearing of an accumulator. -/
  | accclr6
  /-- ACCCLR, operand 7 (R363). Queues the clearing of an accumulator. -/
  | accclr7
  /-- PRIO, operand 0 (R439). Sets the instance's context priority at commit. -/
  | prio0
  /-- PRIO, operand 1 (R439). Sets the instance's context priority at commit. -/
  | prio1
  /-- PRIO, operand 2 (R439). Sets the instance's context priority at commit. -/
  | prio2
  /-- PRIO, operand 3 (R439). Sets the instance's context priority at commit. -/
  | prio3
  /-- PRIO, operand 4 (R439). Sets the instance's context priority at commit. -/
  | prio4
  /-- PRIO, operand 5 (R439). Sets the instance's context priority at commit. -/
  | prio5
  /-- PRIO, operand 6 (R439). Sets the instance's context priority at commit. -/
  | prio6
  /-- PRIO, operand 7 (R439). Sets the instance's context priority at commit. -/
  | prio7
  /-- YIELD (R439). Makes the context skip its next selection while others are ready. -/
  | yield
  /-- TOKEN_ARRIVAL (R123). A token arriving at a station is checked and written into a frame on-die, in the Hedgerow or in the spill arena. -/
  | tokenArrival
  /-- FRAME_FIRE (R135). The station selects a ready frame, makes its registers resident, copies tile payloads and starts the firing. -/
  | frameFire
  /-- FIRING_COMMIT (R143). A firing commits once its stores, emits and exit are done, releasing LFREE credits. -/
  | firingCommit
  /-- FRAME_RESUME (R142). A parked frame whose condition has cleared reserves its emit need and resumes at its instruction. -/
  | frameResume
  /-- ENTRY_RETURN (R131). An overflowed frame entry lands back in the on-die store. -/
  | entryReturn
  /-- LOOP_CREDIT (R146). A loop credit arrives at the gate station and raises the allowance. -/
  | loopCredit
  /-- BARRIER_JOIN (R282). A join arrives at the gate station and may complete the generation and notify the joiners. -/
  | barrierJoin
  /-- SINK_WRITE (R153). A sink write arrives at the instance record and sets the register. -/
  | sinkWrite
  /-- CALL_REQUEST (R317). A call request reaches the Pricking engine and is placed or left pending. -/
  | callRequest
  /-- SPAWN_REQUEST (R311). An EXITS spawn request reaches the area arbiter and queues its successors. -/
  | spawnRequest
  /-- PLACEMENT_START (R300). The Pricking engine searches, validates the image and loads the shadow slots of a placement. -/
  | placementStart
  /-- PLACEMENT_COMMIT (R312). The commit broadcast sets VALID on every recorded station in one cycle. -/
  | placementCommit
  /-- COMMIT_ACKNOWLEDGED (R312). Once every station acknowledges, the argument tokens and held INJ tokens are released. -/
  | commitAcknowledged
  /-- PLACEMENT_ABORT (R314). A placement aborts, discarding its shadows, with nulls or requeueing as its cause dictates. -/
  | placementAbort
  /-- EVICTION_START (R306). A candidate becomes EVICTING and the region fence of its rectangle is raised. -/
  | evictionStart
  /-- EVICTION_COMPLETE (R306). The save image is written, and the slots and quads are freed; the instance is SAVED. -/
  | evictionComplete
  /-- SAVED_GRANULE_TEST (R307). Every 65,536 cycles the engine tests the granule a saved frame waits on. -/
  | savedGranuleTest
  /-- AREA_ARBITER_PASS (R309). The arbiter tries queued launches, successors and relinks in rank order and admits the first that fits. -/
  | areaArbiterPass
  /-- FENCED_TOKEN (R315). A token diverted by a region fence is handled by its instance's state. -/
  | fencedToken
  /-- SWEEP_ARRIVAL (R316). A sweep marker arrives, and the fence and id may be released. -/
  | sweepArrival
  /-- STRAND_ELEMENT_ISSUE (R224). A strand engine issues one element request of an armed strand. -/
  | strandElementIssue
  /-- MEMORY_REQUEST (R231). A border port translates, checks and serves or forwards an access. -/
  | memoryRequest
  /-- WALK_READ_COMPLETE (R470). A descriptor read of a stage-1 or stage-2 walk returns. -/
  | walkReadComplete
  /-- ACCESS_RETURN (R470). A load value or store acknowledgement returns to the station. -/
  | accessReturn
  /-- RDC_INVALIDATION (R265). An RDC copy's invalidation completes and the waiting write is performed at DEVICE scope. -/
  | rdcInvalidation
  /-- BIN_APPLY (R253). A scatter-add bin is applied at its border port. -/
  | binApply
  /-- COPY_GRANULE (R259). The copy engine reads and writes one granule of a COPY. -/
  | copyGranule
  /-- HEAT_BUCKET_CYCLE (R354). Each cycle a heat bucket refills and grants waiting product requests round-robin. -/
  | heatBucketCycle
  /-- MATRIX_ENTRY_START (R350). A matrix-queue entry starts once its ordering and heat tokens allow. -/
  | matrixEntryStart
  /-- MATRIX_ENTRY_END (R351). A matrix-queue entry ends and writes its accumulator or sends its token. -/
  | matrixEntryEnd
  /-- PARTIAL_ARRIVAL (R358). A pleach partial arrives and waits to pair with an AFEED of its tag. -/
  | partialArrival
  /-- THICKET_PROBE (R382). A Thicket engine runs a probe or hash and sends its tokens. -/
  | thicketProbe
  /-- THICKET_UPDATE (R384). The home engine applies one update to a descriptor. -/
  | thicketUpdate
  /-- INTERRUPT (R186). An enabled pending event makes the control core take an INTR trap. -/
  | interrupt
  /-- NOTIFY_WRITE (R210). A write to a notify page gives new work to a queue interface. -/
  | notifyWrite
  /-- PACKET_READ (R211). The intake unit reads a packet, checks its PASID and queues or refuses it. -/
  | packetRead
  /-- HOST_RING_POLL (R208). At a microsecond boundary the device rereads R of the host rings and writes held records. -/
  | hostRingPoll
  /-- FAULT_RING_POLL (R418). At a microsecond boundary the hub rereads R of a fault ring and writes held records. -/
  | faultRingPoll
  /-- FLIT_CRC_FAIL (R216). A flit that fails its CRC is replayed, and after eight failures the port retrains. -/
  | flitCrcFail
  /-- TIME_MESSAGE (R435). An IEEE 1588 time message adjusts the time counter by slewing or stepping. -/
  | timeMessage
  /-- COLUMN_MEASUREMENT (R426). Each microsecond the power die measures a column's energy and computes the residuals. -/
  | columnMeasurement
  /-- ENERGY_DEBIT (R428). At the end of each microsecond the hub debits QUOTA and broadcasts the counters. -/
  | energyDebit
  /-- GRANT_UPDATE (R462). At a microsecond boundary a column's refill grant moves toward its request or limits. -/
  | grantUpdate
  /-- SLICE_TICK (R414). The time-slice count advances and starts a save when it reaches SLICE. -/
  | sliceTick
  /-- MARKER_INJECTION (R408). 64 cycles after a save starts, stitch markers enter at every source. -/
  | markerInjection
  /-- STATION_SAVE (R409). A station saves a context slot once markers and firings allow, then forwards markers. -/
  | stationSave
  /-- HEDGEROW_DRAIN_COMPLETE (R411). The Hedgerow rows of a saving context have been drained and VALID is cleared. -/
  | hedgerowDrainComplete
  /-- PARTITION_SAVE_COMPLETE (R412). Every instance is SAVED and STATE becomes SAVED. -/
  | partitionSaveComplete
  /-- CORRECTED_ERROR (R421). A corrected storage or link error is counted. -/
  | correctedError
  /-- SRAM_UNCORRECTABLE (R421). An uncorrectable station SRAM error kills the affected instances. -/
  | sramUncorrectable
  /-- TAG_UNCORRECTABLE (R422). An uncorrectable L2 or RDC tag error drops the line or kills the owners. -/
  | tagUncorrectable
  /-- HBM_POISON (R423). An uncorrectable HBM read poisons its line. -/
  | hbmPoison
  /-- REMAP_TABLE_LOSS (R424). A Hedgerow remap copy is repaired, or the bank is retired. -/
  | remapTableLoss
  /-- POWER_ON_RESET (R464). Power-on or reset starts the boot chain. -/
  | powerOnReset
  /-- FALADE_VERIFY (R464). Voxit verifies the Falade image signature. -/
  | faladeVerify
  /-- SUPPLY_RAISE (R464). Falade raises the supply columns and resets COLRATE. -/
  | supplyRaise
  /-- HBM_TRAIN (R464). Falade trains the HBM, frees every FOT entry and loads the remap tables. -/
  | hbmTrain
  /-- MICROCODE_VERIFY (R464). Repair and map-out are applied, the Pricking microcode is verified and the engines start. -/
  | microcodeVerify
  /-- SIMIOW_TRAIN (R464). The Simiow ports train and the register window opens. -/
  | simiowTrain
  /-- POWER_DIE_FAULT (R464). A power-die fault sets ERR 3 and stops bring-up. -/
  | powerDieFault
  /-- FLASH_RECOVERY (R464). The host writes a new Falade image through the recovery mailbox. -/
  | flashRecovery
  /-- REGISTER_WRITE (R208). A host write to a register-window location with no behaviour of its own. -/
  | registerWrite
  /-- SCRUB (R245). FOTCMD SCRUB zeroes FREE frames and invalidates their cached lines. -/
  | scrub
  /-- ASSIGN (R245). FOTCMD ASSIGN makes ZEROED frames OWNED. -/
  | assign
  /-- RELEASE (R245). FOTCMD RELEASE drops cached copies and frees OWNED frames. -/
  | release
  /-- FOT_FRAME_COMPLETE (R244). One frame of a FOT command finishes, or the command stops with ERR. -/
  | fotFrameComplete
  /-- TLBINV_ALL (R238). Invalidates every translation of a VF. -/
  | tlbinvAll
  /-- TLBINV_STAGE1 (R238). Invalidates one stage-1 page. -/
  | tlbinvStage1
  /-- TLBINV_STAGE2 (R238). Invalidates one stage-2 page. -/
  | tlbinvStage2
  /-- TLBINV_COMPLETE (R238). An invalidation finishes and TLBSTAT.BUSY falls. -/
  | tlbinvComplete
  /-- PAGE_RESPONSE_RESOLVED (R214). A resolved page response retries the walk. -/
  | pageResponseResolved
  /-- PAGE_RESPONSE_FAILED_HOST (R214). A failed-for-host response ends the access with STAGE2 to the host. -/
  | pageResponseFailedHost
  /-- PAGE_RESPONSE_FAILED_TENANT (R214). A failed-for-tenant response ends the access with STAGE1 to the partition. -/
  | pageResponseFailedTenant
  /-- QI_CFG_WRITE (R209). A write to a queue interface's CFG changes its binding or stops notifies. -/
  | qiCfgWrite
  /-- CECOUNT_CLEAR (R208). A write clears the corrected-error counter. -/
  | cecountClear
  /-- UECOUNT_CLEAR (R208). A write clears the uncorrectable-error counter. -/
  | uecountClear
  /-- ATTREQ (R466). A write to ATTREQ makes Voxit read a nonce and start a report. -/
  | attreq
  /-- ATTESTATION_REPORT (R466). Voxit writes the signed report and sets ATTREQ[0]. -/
  | attestationReport
  /-- RUN (R465). CORECTL.RUN releases a control core at PC 0 in host mode. -/
  | run
  /-- DOORBELL (R465). CORECTL.DOORBELL sets HOSTDB in the core's EVENTS. -/
  | doorbell
  /-- CTL_WRITE (R401). A write to a VF's CTL enables or disables it and broadcasts its counters. -/
  | ctlWrite
  /-- QUOTA_WRITE (R400). A write sets QUOTA and causes a broadcast. -/
  | quotaWrite
  /-- QADD (R400). A write adds a signed value to QUOTA in one step. -/
  | qadd
  /-- WARN_WRITE (R428). A write sets WARN and causes a broadcast. -/
  | warnWrite
  /-- AREA_WRITE (R414). A write to AREA sets the quad limits and restarts the slice count. -/
  | areaWrite
  /-- SAVE (R407). CMD SAVE starts a partition save. -/
  | save
  /-- RESUME (R413). CMD RESUME resumes a saved partition and queues its relinks. -/
  | resume
  /-- KILLALL (R406). CMD KILLALL kills every instance of the VF and discards its queued launches. -/
  | killall
  /-- RESET (R406). CMD RESET kills everything, raises GEN, releases root records and clears the families. -/
  | reset
  /-- KILLINST (R294). CMD KILLINST kills one instance and its callees. -/
  | killinst
  /-- RESUMEINST (R406). CMD RESUMEINST unparks an instance parked by the spill limit or a relink fetch fault. -/
  | resumeinst
  /-- RESUME_FAULT (R420). CMD RESUME_FAULT resumes the frame, strand or update that a record names. -/
  | resumeFault
  /-- DISCARD_FAULT (R420). CMD DISCARD_FAULT ends the parked firing as null mode does. -/
  | discardFault
  /-- KNOTREG (R185). A write to KNOTREG discards the engine's validated copy of an index. -/
  | knotreg
  /-- HFREE (R199). A write to HFREE releases a root record. -/
  | hfree
  /-- EVENTS_CLEAR (R183). A write of ones clears pending events. -/
  | eventsClear
  /-- CURVF_WRITE (R200). A write to CURVF changes the function the core acts for and loads its range entries. -/
  | curvfWrite
  /-- ILLEGAL (R86). A control core fetches a word that is not a control-core instruction, or holds a reserved field value, and takes an ILLEGAL trap without executing it. -/
  | illegal
  /-- FETCH (R180). A control-core fetch outside the fetchable range, or one that fails translation, takes a FETCH trap at the target. -/
  | fetch
  /-- PORT_RETRAIN (R216). A Simiow port that has retrained after eight failed replays comes back at full width, at reduced width or down, and WIDTH in DEVCAPS changes. -/
  | portRetrain
  /-- HOST_WINDOW_ACCESS (R217). The host reads or writes device memory through the physical function's windows, by physical address and without an FOT check. -/
  | hostWindowAccess
  /-- POWER_OFF (R464). The main rails fall and the whole module, Falade and Voxit included, loses every piece of state. -/
  | powerOff
  /-- MAP_OUT_LIST_CLEAR (R467). The host clears the field map-out list in flash through Falade's mailbox, to take effect at the next reset. -/
  | mapOutListClear
deriving DecidableEq, Repr

end Sys2Proof
end

