-- ==== Sys2Proof/Config.lean ====
section
/-!
DEFINITION. What an implementation fixes and what the spec leaves open. A constant without a body is a FREE VALUE: nothing
can be proved of its value. The functions are applied to the counter `Sched.fresh` of the state or to the operands that the
value depends on.
-/

namespace Sys2Proof.Config

/-- The next turn of the free schedule, by its index: 0 mod 4 the clock, 1 a control core, 2 a station, 3 an event, with the
numbers that choose among them (LOG 1). -/
opaque turn : Nat → Nat

/-- The operands of a step that has no encoding, by the index of its turn and the place of the operand (LOG 1). -/
opaque operand : Nat → Nat → Nat

/-- A free number, by the index of its use (LOG 9, LOG 10, LOG 11, LOG 7). -/
opaque pick : Nat → Nat

/-- The set of a cache that an address falls into, by cache (0 an L2 slice, 1 an RDC slice, 2 a stage-1 translation cache) and line
or frame number (LOG 10, LOG 11). -/
opaque cacheSet : Nat → Nat → Nat

/-- Whether a temporary that a firing has not written holds zero or what the slot's earlier firing left (LOG 6). -/
opaque keepTemp : Nat → Bool

/-- Bits of a tile register beyond the shape of a tile delivered into it (LOG 22). -/
opaque tileRest : Nat → BitVec 49152

/-- The word index in the fault record of a sprig word or routing word that validation rejects (LOG 16). -/
opaque rejectWord : Nat → Nat

/-- The class coefficient of a piece of work, fused at test: die and work class (LOG 15, R425). -/
opaque coeff : Nat → Nat → Nat

/-- The rates of R427 as a die's fused coefficient scales them, in pJ per microsecond: 0 a stack, 1 a Hedgerow row, 2 a held quad,
3 a control core, 4 a quad that is not held, whose rate the spec does not give (LOG 15). -/
opaque rate : Nat → Nat → Nat

/-- The supply column, of the 16 of its die, on which an HBM stack's shared cost is measured (LOG 15). -/
opaque stackCol : Nat → Nat

/-- The Pricking microcode in flash (LOG 14, R464). -/
opaque microcode : List Byte

/-- Whether an Ed448 signature block verifies over a digest (LOG 14, R79, R84). -/
opaque ed448Ok : List Byte → List Byte → Bool

/-- The Ed448 signature of the device identity key over bytes, as a number whose low 114 bytes stand in a report (LOG 14, R466). -/
opaque sign : List Byte → Nat

/-- Bytes of IDCERT, fused at test (LOG 14, R208). -/
opaque idcert : Nat → Byte

end Sys2Proof.Config
end

