-- ==== Sys2Proof/WellFormed.lean ====
section
/-!
DEFINITION. What makes an instruction well formed: the engine that accepts it (R66 to R73), the selectors it may name
there (R59, R84) and the values that the instruction entries reserve (R61 and the edge cases of each entry).
-/

namespace Sys2Proof

/-- The sets of engines of the opcode map: S, C, B, K, and the steps that no engine fetches. -/
inductive Engines where
  /-- Either kind of station. -/
  | station
  /-- Compute stations. -/
  | compute
  /-- Bobbin stations. -/
  | bobbin
  /-- Control cores. -/
  | core
  /-- No engine: a step without an encoding. -/
  | step
deriving DecidableEq, Repr

/-- An engine that fetches instruction words. -/
inductive Engine where
  | station (k : Kind)
  | core
deriving DecidableEq, Repr

/-- The engine belongs to the set. -/
def Engines.has : Engines → Engine → Bool
  | .station, .station _ => true
  | .compute, .station .compute => true
  | .bobbin, .station .bobbin => true
  | .core, .core => true
  | .station, .core => false
  | .compute, .station .bobbin => false
  | .compute, .core => false
  | .bobbin, .station .compute => false
  | .bobbin, .core => false
  | .core, .station _ => false
  | .step, _ => false

/-- A queue register is named only on a bobbin station (R59). -/
def Sel.okOn : Sel → Engine → Bool
  | .q _, .station .bobbin => true
  | .q _, .station .compute => false
  | .q _, .core => false
  | .t _, _ => true
  | .i _, _ => true
  | .tg, _ => true
  | .z, _ => true

/-- A format code of R63 that is not reserved. -/
abbrev fmtOk (f : BitVec 6) : Prop := f.toNat < 7 ∨ 0x24 ≤ f.toNat

/-- An atomic's order and scope (R284): acquire and release name a scope from PLOT to SYSTEM. -/
def AtomOrder.ok : AtomOrder → Bool
  | .relaxed => true
  | .acq s => decide (s ≠ .firing)
  | .rel s => decide (s ≠ .firing)

/-- Bytes of an element (R69). -/
def ESize.bytes : ESize → Nat
  | .e1 => 1
  | .e2 => 2
  | .e4 => 4
  | .e8 => 8
  | .e16 => 16
  | .e64 => 64
  | .e128 => 128
  | .e384 => 384

/-- The combinations of SDEF that R224 lists. -/
def sdefOk (y : StrandDest) (tagged store : Bool) (z : ESize) : Bool :=
  match store, y with
  | false, .sp => true
  | false, .q _ => decide (z.bytes ≤ 8)
  | false, .arc _ => decide (z ≠ .e16)
  | true, .sp => !tagged
  | true, .q _ => false
  | true, .arc a => decide (a = 0) && decide (z.bytes ≤ 8)


/-- Which engines accept an instruction (the engine columns of R66 to R73). -/
def Instr.engines : Instr → Engines
  | .emit _ _ => .station
  | .emit2 _ _ _ => .station
  | .emitt _ _ => .station
  | .emitn _ => .station
  | .emitr _ _ _ => .station
  | .exit _ _ _ => .station
  | .exits _ _ _ => .station
  | .tget _ _ => .station
  | .tset _ _ => .station
  | .tadd _ _ => .station
  | .lgate _ => .station
  | .steer _ _ _ _ => .station
  | .thin _ _ _ _ => .station
  | .thend _ => .station
  | .sinkw _ _ => .station
  | .drop _ => .station
  | .trap _ => .station
  | .add _ _ _ _ => .station
  | .sub _ _ _ _ => .station
  | .addi _ _ _ => .station
  | .mul _ _ _ _ => .station
  | .mulh _ _ _ _ => .station
  | .mulhn _ _ _ _ => .station
  | .div _ _ _ _ => .station
  | .divn _ _ _ _ => .station
  | .rem _ _ _ _ => .station
  | .remn _ _ _ _ => .station
  | .and _ _ _ _ => .station
  | .or _ _ _ _ => .station
  | .xor _ _ _ _ => .station
  | .andn _ _ _ _ => .station
  | .andi _ _ _ => .station
  | .ori _ _ _ => .station
  | .xori _ _ _ => .station
  | .shl _ _ _ _ => .station
  | .shr _ _ _ _ => .station
  | .sra _ _ _ _ => .station
  | .shli _ _ _ _ => .station
  | .shri _ _ _ _ => .station
  | .srai _ _ _ _ => .station
  | .rotl _ _ _ _ => .station
  | .clz _ _ _ => .station
  | .ctz _ _ _ => .station
  | .popc _ _ _ => .station
  | .min _ _ _ _ => .station
  | .minn _ _ _ _ => .station
  | .max _ _ _ _ => .station
  | .maxn _ _ _ _ => .station
  | .slt _ _ _ _ => .station
  | .sltn _ _ _ _ => .station
  | .slti _ _ _ => .station
  | .seq _ _ _ _ => .station
  | .sne _ _ _ _ => .station
  | .csel _ _ _ _ _ => .station
  | .mov _ _ _ => .station
  | .movi _ _ => .station
  | .movk _ _ _ => .station
  | .exts _ _ _ _ => .station
  | .extz _ _ _ _ => .station
  | .bfi _ _ _ _ _ => .station
  | .adds _ _ _ _ _ => .station
  | .subs _ _ _ _ _ => .station
  | .abs _ _ _ => .station
  | .neg _ _ _ => .station
  | .lea _ _ _ _ _ => .station
  | .addCr _ _ _ _ => .core
  | .subCr _ _ _ _ => .core
  | .addiCi _ _ _ => .core
  | .mulCr _ _ _ _ => .core
  | .mulhCr _ _ _ _ => .core
  | .mulhnCr _ _ _ _ => .core
  | .divCr _ _ _ _ => .core
  | .divnCr _ _ _ _ => .core
  | .remCr _ _ _ _ => .core
  | .remnCr _ _ _ _ => .core
  | .andCr _ _ _ _ => .core
  | .orCr _ _ _ _ => .core
  | .xorCr _ _ _ _ => .core
  | .andnCr _ _ _ _ => .core
  | .andiCi _ _ _ => .core
  | .oriCi _ _ _ => .core
  | .xoriCi _ _ _ => .core
  | .shlCr _ _ _ _ => .core
  | .shrCr _ _ _ _ => .core
  | .sraCr _ _ _ _ => .core
  | .shliCi _ _ _ _ => .core
  | .shriCi _ _ _ _ => .core
  | .sraiCi _ _ _ _ => .core
  | .rotlCr _ _ _ _ => .core
  | .clzCr _ _ _ => .core
  | .ctzCr _ _ _ => .core
  | .popcCr _ _ _ => .core
  | .minCr _ _ _ _ => .core
  | .minnCr _ _ _ _ => .core
  | .maxCr _ _ _ _ => .core
  | .maxnCr _ _ _ _ => .core
  | .sltCr _ _ _ _ => .core
  | .sltnCr _ _ _ _ => .core
  | .sltiCi _ _ _ => .core
  | .seqCr _ _ _ _ => .core
  | .sneCr _ _ _ _ => .core
  | .cselCr _ _ _ _ => .core
  | .movCr _ _ _ => .core
  | .moviCi _ _ => .core
  | .movkCi _ _ _ => .core
  | .extsCr _ _ _ _ => .core
  | .extzCr _ _ _ _ => .core
  | .bfiCr _ _ _ _ => .core
  | .addsCr _ _ _ _ _ => .core
  | .subsCr _ _ _ _ _ => .core
  | .absCr _ _ _ => .core
  | .negCr _ _ _ => .core
  | .leaCr _ _ _ _ _ => .core
  | .beq _ _ _ => .core
  | .bne _ _ _ => .core
  | .blt _ _ _ => .core
  | .bge _ _ _ => .core
  | .bltn _ _ _ => .core
  | .bgen _ _ _ => .core
  | .jmp _ => .core
  | .jal _ => .core
  | .jr _ => .core
  | .ldg _ _ _ _ => .core
  | .stg _ _ _ _ => .core
  | .ldgf _ _ _ _ => .core
  | .stgf _ _ _ => .core
  | .lnch _ _ _ => .core
  | .inj _ _ _ => .core
  | .snkr _ _ _ => .core
  | .knwait _ _ => .core
  | .srr _ _ => .core
  | .srw _ _ => .core
  | .qpop _ _ => .core
  | .qdone _ _ => .core
  | .irq _ => .core
  | .gfence _ _ => .core
  | .gamo _ _ _ _ _ _ => .core
  | .sdef _ _ _ _ _ _ _ => .bobbin
  | .slen _ _ => .bobbin
  | .sgo _ _ => .bobbin
  | .lds _ _ _ _ => .bobbin
  | .sts _ _ _ _ => .bobbin
  | .ldsp _ _ _ _ _ _ => .bobbin
  | .stsp _ _ _ _ _ => .bobbin
  | .ldf _ _ _ _ _ _ _ => .bobbin
  | .stf _ _ _ _ _ => .bobbin
  | .fec _ _ _ _ => .bobbin
  | .feq _ _ _ _ => .bobbin
  | .gath _ _ => .bobbin
  | .scat _ _ _ _ => .bobbin
  | .scadd _ _ _ _ _ => .bobbin
  | .scflush _ _ => .bobbin
  | .copy _ _ _ _ _ _ => .bobbin
  | .cpstat _ _ => .bobbin
  | .pref _ _ => .bobbin
  | .sbar _ _ _ => .bobbin
  | .ldm _ _ _ _ _ _ => .bobbin
  | .stm _ _ _ _ _ => .bobbin
  | .ldmf _ _ _ _ _ _ _ => .bobbin
  | .stmf _ _ _ _ _ => .bobbin
  | .tld _ _ _ _ _ => .compute
  | .tst _ _ _ _ _ => .compute
  | .fence _ _ => .station
  | .barj _ _ _ => .station
  | .aadd _ _ _ _ _ _ => .bobbin
  | .amin _ _ _ _ _ _ => .bobbin
  | .amax _ _ _ _ _ _ => .bobbin
  | .aminn _ _ _ _ _ _ => .bobbin
  | .amaxn _ _ _ _ _ _ => .bobbin
  | .aand _ _ _ _ _ _ => .bobbin
  | .aor _ _ _ _ _ _ => .bobbin
  | .axor _ _ _ _ _ _ => .bobbin
  | .axchg _ _ _ _ _ _ => .bobbin
  | .acas _ _ _ _ _ _ => .bobbin
  | .afadd _ _ _ _ _ => .bobbin
  | .call _ _ => .station
  | .callf _ _ => .station
  | .instid _ => .station
  | .areaq _ _ _ => .station
  | .knotq _ _ => .station
  | .vadd _ _ _ _ => .compute
  | .vsub _ _ _ _ => .compute
  | .vmul _ _ _ _ => .compute
  | .vfma _ _ _ _ => .compute
  | .vmin _ _ _ => .compute
  | .vmax _ _ _ => .compute
  | .vabs _ _ => .compute
  | .vneg _ _ => .compute
  | .vrcp _ _ _ => .compute
  | .vrsq _ _ _ => .compute
  | .vexp2 _ _ _ => .compute
  | .vlog2 _ _ _ => .compute
  | .vcvt _ _ _ _ _ => .compute
  | .vscl _ _ _ _ _ => .compute
  | .vreds _ _ _ => .compute
  | .vredx _ _ _ => .compute
  | .vcmp _ _ _ _ => .compute
  | .vsel _ _ _ _ => .compute
  | .vbcast _ _ => .compute
  | .vext _ _ _ _ => .compute
  | .vdot _ _ _ _ => .compute
  | .vshf _ _ _ => .compute
  | .fadd _ _ _ _ _ => .compute
  | .fsub _ _ _ _ _ => .compute
  | .fmul _ _ _ _ _ => .compute
  | .ffma _ _ _ _ _ _ => .compute
  | .fcvt _ _ _ _ _ => .compute
  | .fcmp _ _ _ _ _ => .compute
  | .fmin _ _ _ _ => .compute
  | .fmax _ _ _ _ => .compute
  | .vseed _ => .compute
  | .tcfg _ _ _ _ => .compute
  | .tzero _ => .compute
  | .tmov _ _ => .compute
  | .txp _ _ => .compute
  | .mma _ _ _ => .compute
  | .mmas _ _ _ _ => .compute
  | .accrd _ _ _ _ _ => .compute
  | .accld _ _ => .compute
  | .wpre _ => .compute
  | .afeed _ => .compute
  | .plstat _ => .compute
  | .hfw _ _ _ => .bobbin
  | .hfr _ _ _ => .bobbin
  | .hash _ _ _ _ => .bobbin
  | .tins _ _ _ _ _ => .bobbin
  | .tdel _ _ _ _ _ => .bobbin
  | .tprb _ _ _ _ => .bobbin
  | .trhs _ _ _ => .bobbin
  | .tfen _ _ => .bobbin
  | .tstat _ _ => .bobbin
  | .tovp _ _ _ => .bobbin
  | .qrd _ _ => .station
  | .qarm _ => .station
  | .trc _ _ => .station
  | .time _ _ => .station
  | .emtr _ _ => .station
  | .heatq _ => .station
  | .qrdCi _ _ => .core
  | .qarmCi _ => .core
  | .trcCi _ _ => .core
  | .timeCi _ _ => .core
  | .emtrCi _ _ => .core
  | .heatqCi _ => .core
  | .nop => .station
  | .lfree => .station
  | .eret => .core
  | .wfe => .core
  | .stilePlot => .station
  | .stileDie => .station
  | .stileDevice => .station
  | .stileSystem => .station
  | .ret => .station
  | .accclr0 => .compute
  | .accclr1 => .compute
  | .accclr2 => .compute
  | .accclr3 => .compute
  | .accclr4 => .compute
  | .accclr5 => .compute
  | .accclr6 => .compute
  | .accclr7 => .compute
  | .prio0 => .station
  | .prio1 => .station
  | .prio2 => .station
  | .prio3 => .station
  | .prio4 => .station
  | .prio5 => .station
  | .prio6 => .station
  | .prio7 => .station
  | .yield => .station
  | .tokenArrival => .step
  | .frameFire => .step
  | .firingCommit => .step
  | .frameResume => .step
  | .entryReturn => .step
  | .loopCredit => .step
  | .barrierJoin => .step
  | .sinkWrite => .step
  | .callRequest => .step
  | .spawnRequest => .step
  | .placementStart => .step
  | .placementCommit => .step
  | .commitAcknowledged => .step
  | .placementAbort => .step
  | .evictionStart => .step
  | .evictionComplete => .step
  | .savedGranuleTest => .step
  | .areaArbiterPass => .step
  | .fencedToken => .step
  | .sweepArrival => .step
  | .strandElementIssue => .step
  | .memoryRequest => .step
  | .walkReadComplete => .step
  | .accessReturn => .step
  | .rdcInvalidation => .step
  | .binApply => .step
  | .copyGranule => .step
  | .heatBucketCycle => .step
  | .matrixEntryStart => .step
  | .matrixEntryEnd => .step
  | .partialArrival => .step
  | .thicketProbe => .step
  | .thicketUpdate => .step
  | .interrupt => .step
  | .notifyWrite => .step
  | .packetRead => .step
  | .hostRingPoll => .step
  | .faultRingPoll => .step
  | .flitCrcFail => .step
  | .timeMessage => .step
  | .columnMeasurement => .step
  | .energyDebit => .step
  | .grantUpdate => .step
  | .sliceTick => .step
  | .markerInjection => .step
  | .stationSave => .step
  | .hedgerowDrainComplete => .step
  | .partitionSaveComplete => .step
  | .correctedError => .step
  | .sramUncorrectable => .step
  | .tagUncorrectable => .step
  | .hbmPoison => .step
  | .remapTableLoss => .step
  | .powerOnReset => .step
  | .faladeVerify => .step
  | .supplyRaise => .step
  | .hbmTrain => .step
  | .microcodeVerify => .step
  | .simiowTrain => .step
  | .powerDieFault => .step
  | .flashRecovery => .step
  | .registerWrite => .step
  | .scrub => .step
  | .assign => .step
  | .release => .step
  | .fotFrameComplete => .step
  | .tlbinvAll => .step
  | .tlbinvStage1 => .step
  | .tlbinvStage2 => .step
  | .tlbinvComplete => .step
  | .pageResponseResolved => .step
  | .pageResponseFailedHost => .step
  | .pageResponseFailedTenant => .step
  | .qiCfgWrite => .step
  | .cecountClear => .step
  | .uecountClear => .step
  | .attreq => .step
  | .attestationReport => .step
  | .run => .step
  | .doorbell => .step
  | .ctlWrite => .step
  | .quotaWrite => .step
  | .qadd => .step
  | .warnWrite => .step
  | .areaWrite => .step
  | .save => .step
  | .resume => .step
  | .killall => .step
  | .reset => .step
  | .killinst => .step
  | .resumeinst => .step
  | .resumeFault => .step
  | .discardFault => .step
  | .knotreg => .step
  | .hfree => .step
  | .eventsClear => .step
  | .curvfWrite => .step
  | .illegal => .step
  | .fetch => .step
  | .portRetrain => .step
  | .hostWindowAccess => .step
  | .powerOff => .step
  | .mapOutListClear => .step

/-- The source selectors that an instruction names (R59). -/
def Instr.sels : Instr → List Sel
  | .emit s _ => [s]
  | .emit2 s _ _ => [s]
  | .emitt _ _ => []
  | .emitn _ => []
  | .emitr s _ _ => [s]
  | .exit s _ _ => [s]
  | .exits s _ _ => [s]
  | .tget _ _ => []
  | .tset a _ => [a]
  | .tadd a _ => [a]
  | .lgate _ => []
  | .steer s _ _ p => [s, p]
  | .thin s _ p _ => [s, p]
  | .thend _ => []
  | .sinkw s _ => [s]
  | .drop _ => []
  | .trap _ => []
  | .add _ a b _ => [a, b]
  | .sub _ a b _ => [a, b]
  | .addi _ a _ => [a]
  | .mul _ a b _ => [a, b]
  | .mulh _ a b _ => [a, b]
  | .mulhn _ a b _ => [a, b]
  | .div _ a b _ => [a, b]
  | .divn _ a b _ => [a, b]
  | .rem _ a b _ => [a, b]
  | .remn _ a b _ => [a, b]
  | .and _ a b _ => [a, b]
  | .or _ a b _ => [a, b]
  | .xor _ a b _ => [a, b]
  | .andn _ a b _ => [a, b]
  | .andi _ a _ => [a]
  | .ori _ a _ => [a]
  | .xori _ a _ => [a]
  | .shl _ a b _ => [a, b]
  | .shr _ a b _ => [a, b]
  | .sra _ a b _ => [a, b]
  | .shli _ a _ _ => [a]
  | .shri _ a _ _ => [a]
  | .srai _ a _ _ => [a]
  | .rotl _ a b _ => [a, b]
  | .clz _ a _ => [a]
  | .ctz _ a _ => [a]
  | .popc _ a _ => [a]
  | .min _ a b _ => [a, b]
  | .minn _ a b _ => [a, b]
  | .max _ a b _ => [a, b]
  | .maxn _ a b _ => [a, b]
  | .slt _ a b _ => [a, b]
  | .sltn _ a b _ => [a, b]
  | .slti _ a _ => [a]
  | .seq _ a b _ => [a, b]
  | .sne _ a b _ => [a, b]
  | .csel _ a b c _ => [a, b, c]
  | .mov _ a _ => [a]
  | .movi _ _ => []
  | .movk _ _ _ => []
  | .exts _ a _ _ => [a]
  | .extz _ a _ _ => [a]
  | .bfi _ a b c _ => [a, b, c]
  | .adds _ a b _ _ => [a, b]
  | .subs _ a b _ _ => [a, b]
  | .abs _ a _ => [a]
  | .neg _ a _ => [a]
  | .lea _ a b _ _ => [a, b]
  | .addCr _ _ _ _ => []
  | .subCr _ _ _ _ => []
  | .addiCi _ _ _ => []
  | .mulCr _ _ _ _ => []
  | .mulhCr _ _ _ _ => []
  | .mulhnCr _ _ _ _ => []
  | .divCr _ _ _ _ => []
  | .divnCr _ _ _ _ => []
  | .remCr _ _ _ _ => []
  | .remnCr _ _ _ _ => []
  | .andCr _ _ _ _ => []
  | .orCr _ _ _ _ => []
  | .xorCr _ _ _ _ => []
  | .andnCr _ _ _ _ => []
  | .andiCi _ _ _ => []
  | .oriCi _ _ _ => []
  | .xoriCi _ _ _ => []
  | .shlCr _ _ _ _ => []
  | .shrCr _ _ _ _ => []
  | .sraCr _ _ _ _ => []
  | .shliCi _ _ _ _ => []
  | .shriCi _ _ _ _ => []
  | .sraiCi _ _ _ _ => []
  | .rotlCr _ _ _ _ => []
  | .clzCr _ _ _ => []
  | .ctzCr _ _ _ => []
  | .popcCr _ _ _ => []
  | .minCr _ _ _ _ => []
  | .minnCr _ _ _ _ => []
  | .maxCr _ _ _ _ => []
  | .maxnCr _ _ _ _ => []
  | .sltCr _ _ _ _ => []
  | .sltnCr _ _ _ _ => []
  | .sltiCi _ _ _ => []
  | .seqCr _ _ _ _ => []
  | .sneCr _ _ _ _ => []
  | .cselCr _ _ _ _ => []
  | .movCr _ _ _ => []
  | .moviCi _ _ => []
  | .movkCi _ _ _ => []
  | .extsCr _ _ _ _ => []
  | .extzCr _ _ _ _ => []
  | .bfiCr _ _ _ _ => []
  | .addsCr _ _ _ _ _ => []
  | .subsCr _ _ _ _ _ => []
  | .absCr _ _ _ => []
  | .negCr _ _ _ => []
  | .leaCr _ _ _ _ _ => []
  | .beq _ _ _ => []
  | .bne _ _ _ => []
  | .blt _ _ _ => []
  | .bge _ _ _ => []
  | .bltn _ _ _ => []
  | .bgen _ _ _ => []
  | .jmp _ => []
  | .jal _ => []
  | .jr _ => []
  | .ldg _ _ _ _ => []
  | .stg _ _ _ _ => []
  | .ldgf _ _ _ _ => []
  | .stgf _ _ _ => []
  | .lnch _ _ _ => []
  | .inj _ _ _ => []
  | .snkr _ _ _ => []
  | .knwait _ _ => []
  | .srr _ _ => []
  | .srw _ _ => []
  | .qpop _ _ => []
  | .qdone _ _ => []
  | .irq _ => []
  | .gfence _ _ => []
  | .gamo _ _ _ _ _ _ => []
  | .sdef _ a b _ _ _ _ => [a, b]
  | .slen _ a => [a]
  | .sgo _ a => [a]
  | .lds _ a _ _ => [a]
  | .sts v a _ _ => [v, a]
  | .ldsp _ a b _ _ _ => [a, b]
  | .stsp v a b _ _ => [v, a, b]
  | .ldf _ a b _ _ _ _ => [a, b]
  | .stf v a b _ _ => [v, a, b]
  | .fec a b _ _ => [a, b]
  | .feq _ a _ _ => [a]
  | .gath v _ => [v]
  | .scat v a _ _ => [v, a]
  | .scadd v a _ _ _ => [v, a]
  | .scflush _ _ => []
  | .copy v a b _ _ _ => [v, a, b]
  | .cpstat _ _ => []
  | .pref a b => [a, b]
  | .sbar _ _ _ => []
  | .ldm _ a b _ _ _ => [a, b]
  | .stm v a b _ _ => [v, a, b]
  | .ldmf _ a b _ _ _ _ => [a, b]
  | .stmf v a b _ _ => [v, a, b]
  | .tld _ a b _ _ => [a, b]
  | .tst _ a b _ _ => [a, b]
  | .fence _ _ => []
  | .barj _ a _ => [a]
  | .aadd _ a b _ _ _ => [a, b]
  | .amin _ a b _ _ _ => [a, b]
  | .amax _ a b _ _ _ => [a, b]
  | .aminn _ a b _ _ _ => [a, b]
  | .amaxn _ a b _ _ _ => [a, b]
  | .aand _ a b _ _ _ => [a, b]
  | .aor _ a b _ _ _ => [a, b]
  | .axor _ a b _ _ _ => [a, b]
  | .axchg _ a b _ _ _ => [a, b]
  | .acas _ a b _ _ _ => [a, b]
  | .afadd _ a b _ _ => [a, b]
  | .call _ _ => []
  | .callf _ _ => []
  | .instid _ => []
  | .areaq _ _ _ => []
  | .knotq _ _ => []
  | .vadd _ _ _ _ => []
  | .vsub _ _ _ _ => []
  | .vmul _ _ _ _ => []
  | .vfma _ _ _ _ => []
  | .vmin _ _ _ => []
  | .vmax _ _ _ => []
  | .vabs _ _ => []
  | .vneg _ _ => []
  | .vrcp _ _ _ => []
  | .vrsq _ _ _ => []
  | .vexp2 _ _ _ => []
  | .vlog2 _ _ _ => []
  | .vcvt _ _ _ _ _ => []
  | .vscl _ _ _ _ _ => []
  | .vreds _ _ _ => []
  | .vredx _ _ _ => []
  | .vcmp _ _ _ _ => []
  | .vsel _ _ _ _ => []
  | .vbcast _ a => [a]
  | .vext _ _ _ _ => []
  | .vdot _ _ _ _ => []
  | .vshf _ _ _ => []
  | .fadd _ a b _ _ => [a, b]
  | .fsub _ a b _ _ => [a, b]
  | .fmul _ a b _ _ => [a, b]
  | .ffma _ a b c _ _ => [a, b, c]
  | .fcvt _ a _ _ _ => [a]
  | .fcmp _ a b _ _ => [a, b]
  | .fmin _ a b _ => [a, b]
  | .fmax _ a b _ => [a, b]
  | .vseed a => [a]
  | .tcfg _ _ _ _ => []
  | .tzero _ => []
  | .tmov _ _ => []
  | .txp _ _ => []
  | .mma _ _ _ => []
  | .mmas _ _ _ _ => []
  | .accrd _ s _ _ _ => [s]
  | .accld _ _ => []
  | .wpre _ => []
  | .afeed _ => []
  | .plstat _ => []
  | .hfw a _ _ => [a]
  | .hfr _ _ _ => []
  | .hash _ a b _ => [a, b]
  | .tins v a b _ _ => [v, a, b]
  | .tdel v a b _ _ => [v, a, b]
  | .tprb _ a b _ => [a, b]
  | .trhs v a _ => [v, a]
  | .tfen a _ => [a]
  | .tstat _ a => [a]
  | .tovp a _ _ => [a]
  | .qrd _ _ => []
  | .qarm a => [a]
  | .trc a _ => [a]
  | .time _ _ => []
  | .emtr _ _ => []
  | .heatq _ => []
  | .qrdCi _ _ => []
  | .qarmCi _ => []
  | .trcCi _ _ => []
  | .timeCi _ _ => []
  | .emtrCi _ _ => []
  | .heatqCi _ => []
  | .nop => []
  | .lfree => []
  | .eret => []
  | .wfe => []
  | .stilePlot => []
  | .stileDie => []
  | .stileDevice => []
  | .stileSystem => []
  | .ret => []
  | .accclr0 => []
  | .accclr1 => []
  | .accclr2 => []
  | .accclr3 => []
  | .accclr4 => []
  | .accclr5 => []
  | .accclr6 => []
  | .accclr7 => []
  | .prio0 => []
  | .prio1 => []
  | .prio2 => []
  | .prio3 => []
  | .prio4 => []
  | .prio5 => []
  | .prio6 => []
  | .prio7 => []
  | .yield => []
  | .tokenArrival => []
  | .frameFire => []
  | .firingCommit => []
  | .frameResume => []
  | .entryReturn => []
  | .loopCredit => []
  | .barrierJoin => []
  | .sinkWrite => []
  | .callRequest => []
  | .spawnRequest => []
  | .placementStart => []
  | .placementCommit => []
  | .commitAcknowledged => []
  | .placementAbort => []
  | .evictionStart => []
  | .evictionComplete => []
  | .savedGranuleTest => []
  | .areaArbiterPass => []
  | .fencedToken => []
  | .sweepArrival => []
  | .strandElementIssue => []
  | .memoryRequest => []
  | .walkReadComplete => []
  | .accessReturn => []
  | .rdcInvalidation => []
  | .binApply => []
  | .copyGranule => []
  | .heatBucketCycle => []
  | .matrixEntryStart => []
  | .matrixEntryEnd => []
  | .partialArrival => []
  | .thicketProbe => []
  | .thicketUpdate => []
  | .interrupt => []
  | .notifyWrite => []
  | .packetRead => []
  | .hostRingPoll => []
  | .faultRingPoll => []
  | .flitCrcFail => []
  | .timeMessage => []
  | .columnMeasurement => []
  | .energyDebit => []
  | .grantUpdate => []
  | .sliceTick => []
  | .markerInjection => []
  | .stationSave => []
  | .hedgerowDrainComplete => []
  | .partitionSaveComplete => []
  | .correctedError => []
  | .sramUncorrectable => []
  | .tagUncorrectable => []
  | .hbmPoison => []
  | .remapTableLoss => []
  | .powerOnReset => []
  | .faladeVerify => []
  | .supplyRaise => []
  | .hbmTrain => []
  | .microcodeVerify => []
  | .simiowTrain => []
  | .powerDieFault => []
  | .flashRecovery => []
  | .registerWrite => []
  | .scrub => []
  | .assign => []
  | .release => []
  | .fotFrameComplete => []
  | .tlbinvAll => []
  | .tlbinvStage1 => []
  | .tlbinvStage2 => []
  | .tlbinvComplete => []
  | .pageResponseResolved => []
  | .pageResponseFailedHost => []
  | .pageResponseFailedTenant => []
  | .qiCfgWrite => []
  | .cecountClear => []
  | .uecountClear => []
  | .attreq => []
  | .attestationReport => []
  | .run => []
  | .doorbell => []
  | .ctlWrite => []
  | .quotaWrite => []
  | .qadd => []
  | .warnWrite => []
  | .areaWrite => []
  | .save => []
  | .resume => []
  | .killall => []
  | .reset => []
  | .killinst => []
  | .resumeinst => []
  | .resumeFault => []
  | .discardFault => []
  | .knotreg => []
  | .hfree => []
  | .eventsClear => []
  | .curvfWrite => []
  | .illegal => []
  | .fetch => []
  | .portRetrain => []
  | .hostWindowAccess => []
  | .powerOff => []
  | .mapOutListClear => []

/-- The temporary that an instruction writes, when it names one (R59). -/
def Instr.dst : Instr → Option (Fin 8)
  | .emit _ _ => none
  | .emit2 _ _ _ => none
  | .emitt _ _ => none
  | .emitn _ => none
  | .emitr _ _ _ => none
  | .exit _ _ _ => none
  | .exits _ _ _ => none
  | .tget d _ => some d
  | .tset _ _ => none
  | .tadd _ _ => none
  | .lgate d => some d
  | .steer _ _ _ _ => none
  | .thin _ _ _ _ => none
  | .thend _ => none
  | .sinkw _ _ => none
  | .drop _ => none
  | .trap _ => none
  | .add d _ _ _ => some d
  | .sub d _ _ _ => some d
  | .addi d _ _ => some d
  | .mul d _ _ _ => some d
  | .mulh d _ _ _ => some d
  | .mulhn d _ _ _ => some d
  | .div d _ _ _ => some d
  | .divn d _ _ _ => some d
  | .rem d _ _ _ => some d
  | .remn d _ _ _ => some d
  | .and d _ _ _ => some d
  | .or d _ _ _ => some d
  | .xor d _ _ _ => some d
  | .andn d _ _ _ => some d
  | .andi d _ _ => some d
  | .ori d _ _ => some d
  | .xori d _ _ => some d
  | .shl d _ _ _ => some d
  | .shr d _ _ _ => some d
  | .sra d _ _ _ => some d
  | .shli d _ _ _ => some d
  | .shri d _ _ _ => some d
  | .srai d _ _ _ => some d
  | .rotl d _ _ _ => some d
  | .clz d _ _ => some d
  | .ctz d _ _ => some d
  | .popc d _ _ => some d
  | .min d _ _ _ => some d
  | .minn d _ _ _ => some d
  | .max d _ _ _ => some d
  | .maxn d _ _ _ => some d
  | .slt d _ _ _ => some d
  | .sltn d _ _ _ => some d
  | .slti d _ _ => some d
  | .seq d _ _ _ => some d
  | .sne d _ _ _ => some d
  | .csel d _ _ _ _ => some d
  | .mov d _ _ => some d
  | .movi d _ => some d
  | .movk d _ _ => some d
  | .exts d _ _ _ => some d
  | .extz d _ _ _ => some d
  | .bfi d _ _ _ _ => some d
  | .adds d _ _ _ _ => some d
  | .subs d _ _ _ _ => some d
  | .abs d _ _ => some d
  | .neg d _ _ => some d
  | .lea d _ _ _ _ => some d
  | .addCr _ _ _ _ => none
  | .subCr _ _ _ _ => none
  | .addiCi _ _ _ => none
  | .mulCr _ _ _ _ => none
  | .mulhCr _ _ _ _ => none
  | .mulhnCr _ _ _ _ => none
  | .divCr _ _ _ _ => none
  | .divnCr _ _ _ _ => none
  | .remCr _ _ _ _ => none
  | .remnCr _ _ _ _ => none
  | .andCr _ _ _ _ => none
  | .orCr _ _ _ _ => none
  | .xorCr _ _ _ _ => none
  | .andnCr _ _ _ _ => none
  | .andiCi _ _ _ => none
  | .oriCi _ _ _ => none
  | .xoriCi _ _ _ => none
  | .shlCr _ _ _ _ => none
  | .shrCr _ _ _ _ => none
  | .sraCr _ _ _ _ => none
  | .shliCi _ _ _ _ => none
  | .shriCi _ _ _ _ => none
  | .sraiCi _ _ _ _ => none
  | .rotlCr _ _ _ _ => none
  | .clzCr _ _ _ => none
  | .ctzCr _ _ _ => none
  | .popcCr _ _ _ => none
  | .minCr _ _ _ _ => none
  | .minnCr _ _ _ _ => none
  | .maxCr _ _ _ _ => none
  | .maxnCr _ _ _ _ => none
  | .sltCr _ _ _ _ => none
  | .sltnCr _ _ _ _ => none
  | .sltiCi _ _ _ => none
  | .seqCr _ _ _ _ => none
  | .sneCr _ _ _ _ => none
  | .cselCr _ _ _ _ => none
  | .movCr _ _ _ => none
  | .moviCi _ _ => none
  | .movkCi _ _ _ => none
  | .extsCr _ _ _ _ => none
  | .extzCr _ _ _ _ => none
  | .bfiCr _ _ _ _ => none
  | .addsCr _ _ _ _ _ => none
  | .subsCr _ _ _ _ _ => none
  | .absCr _ _ _ => none
  | .negCr _ _ _ => none
  | .leaCr _ _ _ _ _ => none
  | .beq _ _ _ => none
  | .bne _ _ _ => none
  | .blt _ _ _ => none
  | .bge _ _ _ => none
  | .bltn _ _ _ => none
  | .bgen _ _ _ => none
  | .jmp _ => none
  | .jal _ => none
  | .jr _ => none
  | .ldg _ _ _ _ => none
  | .stg _ _ _ _ => none
  | .ldgf _ _ _ _ => none
  | .stgf _ _ _ => none
  | .lnch _ _ _ => none
  | .inj _ _ _ => none
  | .snkr _ _ _ => none
  | .knwait _ _ => none
  | .srr _ _ => none
  | .srw _ _ => none
  | .qpop _ _ => none
  | .qdone _ _ => none
  | .irq _ => none
  | .gfence _ _ => none
  | .gamo _ _ _ _ _ _ => none
  | .sdef _ _ _ _ _ _ _ => none
  | .slen _ _ => none
  | .sgo _ _ => none
  | .lds d _ _ _ => some d
  | .sts _ _ _ _ => none
  | .ldsp d _ _ _ _ _ => some d
  | .stsp _ _ _ _ _ => none
  | .ldf d _ _ _ _ _ _ => some d
  | .stf _ _ _ _ _ => none
  | .fec _ _ _ _ => none
  | .feq d _ _ _ => some d
  | .gath _ _ => none
  | .scat _ _ _ _ => none
  | .scadd _ _ _ _ _ => none
  | .scflush _ _ => none
  | .copy _ _ _ _ _ _ => none
  | .cpstat d _ => some d
  | .pref _ _ => none
  | .sbar _ _ _ => none
  | .ldm d _ _ _ _ _ => some d
  | .stm _ _ _ _ _ => none
  | .ldmf d _ _ _ _ _ _ => some d
  | .stmf _ _ _ _ _ => none
  | .tld _ _ _ _ _ => none
  | .tst _ _ _ _ _ => none
  | .fence _ _ => none
  | .barj d _ _ => some d
  | .aadd d _ _ _ _ _ => some d
  | .amin d _ _ _ _ _ => some d
  | .amax d _ _ _ _ _ => some d
  | .aminn d _ _ _ _ _ => some d
  | .amaxn d _ _ _ _ _ => some d
  | .aand d _ _ _ _ _ => some d
  | .aor d _ _ _ _ _ => some d
  | .axor d _ _ _ _ _ => some d
  | .axchg d _ _ _ _ _ => some d
  | .acas d _ _ _ _ _ => some d
  | .afadd d _ _ _ _ => some d
  | .call _ _ => none
  | .callf _ _ => none
  | .instid d => some d
  | .areaq d _ _ => some d
  | .knotq d _ => some d
  | .vadd _ _ _ _ => none
  | .vsub _ _ _ _ => none
  | .vmul _ _ _ _ => none
  | .vfma _ _ _ _ => none
  | .vmin _ _ _ => none
  | .vmax _ _ _ => none
  | .vabs _ _ => none
  | .vneg _ _ => none
  | .vrcp _ _ _ => none
  | .vrsq _ _ _ => none
  | .vexp2 _ _ _ => none
  | .vlog2 _ _ _ => none
  | .vcvt _ _ _ _ _ => none
  | .vscl _ _ _ _ _ => none
  | .vreds d _ _ => some d
  | .vredx d _ _ => some d
  | .vcmp _ _ _ _ => none
  | .vsel _ _ _ _ => none
  | .vbcast _ _ => none
  | .vext d _ _ _ => some d
  | .vdot d _ _ _ => some d
  | .vshf _ _ _ => none
  | .fadd d _ _ _ _ => some d
  | .fsub d _ _ _ _ => some d
  | .fmul d _ _ _ _ => some d
  | .ffma d _ _ _ _ _ => some d
  | .fcvt d _ _ _ _ => some d
  | .fcmp d _ _ _ _ => some d
  | .fmin d _ _ _ => some d
  | .fmax d _ _ _ => some d
  | .vseed _ => none
  | .tcfg _ _ _ _ => none
  | .tzero _ => none
  | .tmov _ _ => none
  | .txp _ _ => none
  | .mma _ _ _ => none
  | .mmas _ _ _ _ => none
  | .accrd _ _ _ _ _ => none
  | .accld _ _ => none
  | .wpre _ => none
  | .afeed _ => none
  | .plstat d => some d
  | .hfw _ _ _ => none
  | .hfr d _ _ => some d
  | .hash _ _ _ _ => none
  | .tins _ _ _ _ _ => none
  | .tdel _ _ _ _ _ => none
  | .tprb _ _ _ _ => none
  | .trhs _ _ _ => none
  | .tfen _ _ => none
  | .tstat d _ => some d
  | .tovp _ _ _ => none
  | .qrd d _ => some d
  | .qarm _ => none
  | .trc _ _ => none
  | .time d _ => some d
  | .emtr d _ => some d
  | .heatq d => some d
  | .qrdCi _ _ => none
  | .qarmCi _ => none
  | .trcCi _ _ => none
  | .timeCi _ _ => none
  | .emtrCi _ _ => none
  | .heatqCi _ => none
  | .nop => none
  | .lfree => none
  | .eret => none
  | .wfe => none
  | .stilePlot => none
  | .stileDie => none
  | .stileDevice => none
  | .stileSystem => none
  | .ret => none
  | .accclr0 => none
  | .accclr1 => none
  | .accclr2 => none
  | .accclr3 => none
  | .accclr4 => none
  | .accclr5 => none
  | .accclr6 => none
  | .accclr7 => none
  | .prio0 => none
  | .prio1 => none
  | .prio2 => none
  | .prio3 => none
  | .prio4 => none
  | .prio5 => none
  | .prio6 => none
  | .prio7 => none
  | .yield => none
  | .tokenArrival => none
  | .frameFire => none
  | .firingCommit => none
  | .frameResume => none
  | .entryReturn => none
  | .loopCredit => none
  | .barrierJoin => none
  | .sinkWrite => none
  | .callRequest => none
  | .spawnRequest => none
  | .placementStart => none
  | .placementCommit => none
  | .commitAcknowledged => none
  | .placementAbort => none
  | .evictionStart => none
  | .evictionComplete => none
  | .savedGranuleTest => none
  | .areaArbiterPass => none
  | .fencedToken => none
  | .sweepArrival => none
  | .strandElementIssue => none
  | .memoryRequest => none
  | .walkReadComplete => none
  | .accessReturn => none
  | .rdcInvalidation => none
  | .binApply => none
  | .copyGranule => none
  | .heatBucketCycle => none
  | .matrixEntryStart => none
  | .matrixEntryEnd => none
  | .partialArrival => none
  | .thicketProbe => none
  | .thicketUpdate => none
  | .interrupt => none
  | .notifyWrite => none
  | .packetRead => none
  | .hostRingPoll => none
  | .faultRingPoll => none
  | .flitCrcFail => none
  | .timeMessage => none
  | .columnMeasurement => none
  | .energyDebit => none
  | .grantUpdate => none
  | .sliceTick => none
  | .markerInjection => none
  | .stationSave => none
  | .hedgerowDrainComplete => none
  | .partitionSaveComplete => none
  | .correctedError => none
  | .sramUncorrectable => none
  | .tagUncorrectable => none
  | .hbmPoison => none
  | .remapTableLoss => none
  | .powerOnReset => none
  | .faladeVerify => none
  | .supplyRaise => none
  | .hbmTrain => none
  | .microcodeVerify => none
  | .simiowTrain => none
  | .powerDieFault => none
  | .flashRecovery => none
  | .registerWrite => none
  | .scrub => none
  | .assign => none
  | .release => none
  | .fotFrameComplete => none
  | .tlbinvAll => none
  | .tlbinvStage1 => none
  | .tlbinvStage2 => none
  | .tlbinvComplete => none
  | .pageResponseResolved => none
  | .pageResponseFailedHost => none
  | .pageResponseFailedTenant => none
  | .qiCfgWrite => none
  | .cecountClear => none
  | .uecountClear => none
  | .attreq => none
  | .attestationReport => none
  | .run => none
  | .doorbell => none
  | .ctlWrite => none
  | .quotaWrite => none
  | .qadd => none
  | .warnWrite => none
  | .areaWrite => none
  | .save => none
  | .resume => none
  | .killall => none
  | .reset => none
  | .killinst => none
  | .resumeinst => none
  | .resumeFault => none
  | .discardFault => none
  | .knotreg => none
  | .hfree => none
  | .eventsClear => none
  | .curvfWrite => none
  | .illegal => none
  | .fetch => none
  | .portRetrain => none
  | .hostWindowAccess => none
  | .powerOff => none
  | .mapOutListClear => none

/-- The values that the instruction entries call reserved, beyond those that an operand kind already leaves out. -/
def Instr.valuesOk : Instr → Bool
  | .emit _ _ => true
  | .emit2 _ r q => decide (r ≠ q)
  | .emitt _ _ => true
  | .emitn _ => true
  | .emitr _ _ p => decide (p ≠ .firing)
  | .exit _ _ _ => true
  | .exits _ _ _ => true
  | .tget _ _ => true
  | .tset _ f => decide (f = .iter ∨ f = .thread)
  | .tadd _ f => decide (f = .iter ∨ f = .thread)
  | .lgate _ => true
  | .steer _ t f _ => decide (t ≠ f)
  | .thin _ _ _ g => decide (g ≠ 0)
  | .thend _ => true
  | .sinkw _ _ => true
  | .drop _ => true
  | .trap _ => true
  | .add _ _ _ _ => true
  | .sub _ _ _ _ => true
  | .addi _ _ _ => true
  | .mul _ _ _ _ => true
  | .mulh _ _ _ _ => true
  | .mulhn _ _ _ _ => true
  | .div _ _ _ _ => true
  | .divn _ _ _ _ => true
  | .rem _ _ _ _ => true
  | .remn _ _ _ _ => true
  | .and _ _ _ _ => true
  | .or _ _ _ _ => true
  | .xor _ _ _ _ => true
  | .andn _ _ _ _ => true
  | .andi _ _ _ => true
  | .ori _ _ _ => true
  | .xori _ _ _ => true
  | .shl _ _ _ _ => true
  | .shr _ _ _ _ => true
  | .sra _ _ _ _ => true
  | .shli _ _ w m => decide (w = .w32 → m.val < 32)
  | .shri _ _ w m => decide (w = .w32 → m.val < 32)
  | .srai _ _ w m => decide (w = .w32 → m.val < 32)
  | .rotl _ _ _ _ => true
  | .clz _ _ _ => true
  | .ctz _ _ _ => true
  | .popc _ _ _ => true
  | .min _ _ _ _ => true
  | .minn _ _ _ _ => true
  | .max _ _ _ _ => true
  | .maxn _ _ _ _ => true
  | .slt _ _ _ _ => true
  | .sltn _ _ _ _ => true
  | .slti _ _ _ => true
  | .seq _ _ _ _ => true
  | .sne _ _ _ _ => true
  | .csel _ _ _ _ _ => true
  | .mov _ _ _ => true
  | .movi _ _ => true
  | .movk _ _ _ => true
  | .exts _ _ _ _ => true
  | .extz _ _ _ _ => true
  | .bfi _ _ _ _ _ => true
  | .adds _ _ _ _ _ => true
  | .subs _ _ _ _ _ => true
  | .abs _ _ _ => true
  | .neg _ _ _ => true
  | .lea _ _ _ _ _ => true
  | .addCr _ _ _ _ => true
  | .subCr _ _ _ _ => true
  | .addiCi _ _ _ => true
  | .mulCr _ _ _ _ => true
  | .mulhCr _ _ _ _ => true
  | .mulhnCr _ _ _ _ => true
  | .divCr _ _ _ _ => true
  | .divnCr _ _ _ _ => true
  | .remCr _ _ _ _ => true
  | .remnCr _ _ _ _ => true
  | .andCr _ _ _ _ => true
  | .orCr _ _ _ _ => true
  | .xorCr _ _ _ _ => true
  | .andnCr _ _ _ _ => true
  | .andiCi _ _ _ => true
  | .oriCi _ _ _ => true
  | .xoriCi _ _ _ => true
  | .shlCr _ _ _ _ => true
  | .shrCr _ _ _ _ => true
  | .sraCr _ _ _ _ => true
  | .shliCi _ _ w m => decide (w = .w32 → m.val < 32)
  | .shriCi _ _ w m => decide (w = .w32 → m.val < 32)
  | .sraiCi _ _ w m => decide (w = .w32 → m.val < 32)
  | .rotlCr _ _ _ _ => true
  | .clzCr _ _ _ => true
  | .ctzCr _ _ _ => true
  | .popcCr _ _ _ => true
  | .minCr _ _ _ _ => true
  | .minnCr _ _ _ _ => true
  | .maxCr _ _ _ _ => true
  | .maxnCr _ _ _ _ => true
  | .sltCr _ _ _ _ => true
  | .sltnCr _ _ _ _ => true
  | .sltiCi _ _ _ => true
  | .seqCr _ _ _ _ => true
  | .sneCr _ _ _ _ => true
  | .cselCr _ _ _ _ => true
  | .movCr _ _ _ => true
  | .moviCi _ _ => true
  | .movkCi _ _ _ => true
  | .extsCr _ _ _ _ => true
  | .extzCr _ _ _ _ => true
  | .bfiCr _ _ _ _ => true
  | .addsCr _ _ _ _ _ => true
  | .subsCr _ _ _ _ _ => true
  | .absCr _ _ _ => true
  | .negCr _ _ _ => true
  | .leaCr _ _ _ _ _ => true
  | .beq _ _ _ => true
  | .bne _ _ _ => true
  | .blt _ _ _ => true
  | .bge _ _ _ => true
  | .bltn _ _ _ => true
  | .bgen _ _ _ => true
  | .jmp _ => true
  | .jal _ => true
  | .jr _ => true
  | .ldg _ _ _ _ => true
  | .stg _ _ _ _ => true
  | .ldgf _ _ _ _ => true
  | .stgf _ _ _ => true
  | .lnch _ _ _ => true
  | .inj _ _ _ => true
  | .snkr _ _ _ => true
  | .knwait _ _ => true
  | .srr _ _ => true
  | .srw _ _ => true
  | .qpop _ _ => true
  | .qdone _ _ => true
  | .irq _ => true
  | .gfence _ _ => true
  | .gamo _ _ _ w _ o => decide (o = .fadd → w = .w32)
  | .sdef _ _ _ y t w z => sdefOk y t w z
  | .slen _ _ => true
  | .sgo _ _ => true
  | .lds _ _ _ _ => true
  | .sts _ _ _ _ => true
  | .ldsp _ _ _ _ _ _ => true
  | .stsp _ _ _ _ _ => true
  | .ldf _ _ _ _ _ _ _ => true
  | .stf _ _ _ _ _ => true
  | .fec _ _ _ _ => true
  | .feq _ _ _ _ => true
  | .gath _ _ => true
  | .scat _ _ _ _ => true
  | .scadd _ _ _ _ _ => true
  | .scflush _ _ => true
  | .copy _ _ _ _ _ _ => true
  | .cpstat _ _ => true
  | .pref _ _ => true
  | .sbar _ _ _ => true
  | .ldm _ _ _ _ _ _ => true
  | .stm _ _ _ _ _ => true
  | .ldmf _ _ _ _ _ _ _ => true
  | .stmf _ _ _ _ _ => true
  | .tld _ _ _ _ _ => true
  | .tst _ _ _ _ _ => true
  | .fence _ _ => true
  | .barj _ _ s => decide (s ≠ .firing)
  | .aadd _ _ _ _ o _ => o.ok
  | .amin _ _ _ _ o _ => o.ok
  | .amax _ _ _ _ o _ => o.ok
  | .aminn _ _ _ _ o _ => o.ok
  | .amaxn _ _ _ _ o _ => o.ok
  | .aand _ _ _ _ o _ => o.ok
  | .aor _ _ _ _ o _ => o.ok
  | .axor _ _ _ _ o _ => o.ok
  | .axchg _ _ _ _ o _ => o.ok
  | .acas _ _ _ _ o _ => o.ok
  | .afadd _ _ _ _ o => o.ok
  | .call _ _ => true
  | .callf _ _ => true
  | .instid _ => true
  | .areaq _ h w => decide (1 ≤ w.toNat ∧ w.toNat ≤ 16 ∧ 1 ≤ h.toNat ∧ h.toNat ≤ 20)
  | .knotq _ _ => true
  | .vadd _ _ _ _ => true
  | .vsub _ _ _ _ => true
  | .vmul _ _ _ _ => true
  | .vfma _ _ _ _ => true
  | .vmin _ _ _ => true
  | .vmax _ _ _ => true
  | .vabs _ _ => true
  | .vneg _ _ => true
  | .vrcp _ _ _ => true
  | .vrsq _ _ _ => true
  | .vexp2 _ _ _ => true
  | .vlog2 _ _ _ => true
  | .vcvt _ _ _ f _ => decide (fmtOk f)
  | .vscl _ _ _ _ _ => true
  | .vreds _ _ _ => true
  | .vredx _ _ _ => true
  | .vcmp _ _ _ _ => true
  | .vsel _ _ _ _ => true
  | .vbcast _ _ => true
  | .vext _ _ _ c => decide (c.toNat < 768)
  | .vdot _ _ _ _ => true
  | .vshf _ _ _ => true
  | .fadd _ _ _ _ _ => true
  | .fsub _ _ _ _ _ => true
  | .fmul _ _ _ _ _ => true
  | .ffma _ _ _ _ _ _ => true
  | .fcvt _ _ _ _ _ => true
  | .fcmp _ _ _ _ _ => true
  | .fmin _ _ _ _ => true
  | .fmax _ _ _ _ => true
  | .vseed _ => true
  | .tcfg _ _ _ _ => true
  | .tzero _ => true
  | .tmov _ _ => true
  | .txp _ _ => true
  | .mma _ _ _ => true
  | .mmas _ _ _ _ => true
  | .accrd _ _ _ _ f => decide (fmtOk f)
  | .accld _ _ => true
  | .wpre _ => true
  | .afeed _ => true
  | .plstat _ => true
  | .hfw _ _ _ => true
  | .hfr _ _ _ => true
  | .hash _ _ _ _ => true
  | .tins _ _ _ _ _ => true
  | .tdel _ _ _ _ _ => true
  | .tprb _ _ _ _ => true
  | .trhs _ _ _ => true
  | .tfen _ s => decide (s ≠ .firing)
  | .tstat _ _ => true
  | .tovp _ _ _ => true
  | .qrd _ _ => true
  | .qarm _ => true
  | .trc _ _ => true
  | .time _ _ => true
  | .emtr _ _ => true
  | .heatq _ => true
  | .qrdCi _ _ => true
  | .qarmCi _ => true
  | .trcCi _ _ => true
  | .timeCi _ _ => true
  | .emtrCi _ _ => true
  | .heatqCi _ => true
  | .nop => true
  | .lfree => true
  | .eret => true
  | .wfe => true
  | .stilePlot => true
  | .stileDie => true
  | .stileDevice => true
  | .stileSystem => true
  | .ret => true
  | .accclr0 => true
  | .accclr1 => true
  | .accclr2 => true
  | .accclr3 => true
  | .accclr4 => true
  | .accclr5 => true
  | .accclr6 => true
  | .accclr7 => true
  | .prio0 => true
  | .prio1 => true
  | .prio2 => true
  | .prio3 => true
  | .prio4 => true
  | .prio5 => true
  | .prio6 => true
  | .prio7 => true
  | .yield => true
  | .tokenArrival => true
  | .frameFire => true
  | .firingCommit => true
  | .frameResume => true
  | .entryReturn => true
  | .loopCredit => true
  | .barrierJoin => true
  | .sinkWrite => true
  | .callRequest => true
  | .spawnRequest => true
  | .placementStart => true
  | .placementCommit => true
  | .commitAcknowledged => true
  | .placementAbort => true
  | .evictionStart => true
  | .evictionComplete => true
  | .savedGranuleTest => true
  | .areaArbiterPass => true
  | .fencedToken => true
  | .sweepArrival => true
  | .strandElementIssue => true
  | .memoryRequest => true
  | .walkReadComplete => true
  | .accessReturn => true
  | .rdcInvalidation => true
  | .binApply => true
  | .copyGranule => true
  | .heatBucketCycle => true
  | .matrixEntryStart => true
  | .matrixEntryEnd => true
  | .partialArrival => true
  | .thicketProbe => true
  | .thicketUpdate => true
  | .interrupt => true
  | .notifyWrite => true
  | .packetRead => true
  | .hostRingPoll => true
  | .faultRingPoll => true
  | .flitCrcFail => true
  | .timeMessage => true
  | .columnMeasurement => true
  | .energyDebit => true
  | .grantUpdate => true
  | .sliceTick => true
  | .markerInjection => true
  | .stationSave => true
  | .hedgerowDrainComplete => true
  | .partitionSaveComplete => true
  | .correctedError => true
  | .sramUncorrectable => true
  | .tagUncorrectable => true
  | .hbmPoison => true
  | .remapTableLoss => true
  | .powerOnReset => true
  | .faladeVerify => true
  | .supplyRaise => true
  | .hbmTrain => true
  | .microcodeVerify => true
  | .simiowTrain => true
  | .powerDieFault => true
  | .flashRecovery => true
  | .registerWrite => true
  | .scrub => true
  | .assign => true
  | .release => true
  | .fotFrameComplete => true
  | .tlbinvAll => true
  | .tlbinvStage1 => true
  | .tlbinvStage2 => true
  | .tlbinvComplete => true
  | .pageResponseResolved => true
  | .pageResponseFailedHost => true
  | .pageResponseFailedTenant => true
  | .qiCfgWrite => true
  | .cecountClear => true
  | .uecountClear => true
  | .attreq => true
  | .attestationReport => true
  | .run => true
  | .doorbell => true
  | .ctlWrite => true
  | .quotaWrite => true
  | .qadd => true
  | .warnWrite => true
  | .areaWrite => true
  | .save => true
  | .resume => true
  | .killall => true
  | .reset => true
  | .killinst => true
  | .resumeinst => true
  | .resumeFault => true
  | .discardFault => true
  | .knotreg => true
  | .hfree => true
  | .eventsClear => true
  | .curvfWrite => true
  | .illegal => true
  | .fetch => true
  | .portRetrain => true
  | .hostWindowAccess => true
  | .powerOff => true
  | .mapOutListClear => true

/-- Well formed on an engine. -/
def Instr.wf (e : Engine) (i : Instr) : Bool :=
  i.engines.has e && i.sels.all (·.okOn e) && i.valuesOk

end Sys2Proof
end

