-- ==== Sys2Proof/Decode.lean ====
section
/-!
DEFINITION. The decoder of instruction words (R58 to R74, R84, R86), total and rejecting by name, and after it the
encoder, written from the same tables.
-/

namespace Sys2Proof

/-- Why a word is no instruction of an engine. -/
inductive Reject where
  /-- An opcode that is not an instruction of this engine (R74, R84, R86). -/
  | notAnInstruction
  /-- A field that the opcode does not use is not zero (R61). -/
  | unusedField
  /-- A destination field of 8 to 15, or a strand of 8 to 15 (R59, R84). -/
  | destination
  /-- A reserved code (R61 to R65 and the fields of R66 to R73). -/
  | reservedCode
  /-- An opcode, a selector or a value that the engine or the entry rejects (R84 and the edge cases). -/
  | rejectedHere
  /-- Fewer than four bytes. -/
  | truncated
deriving DecidableEq, Repr

/-- Codes of Scope (R62). -/
def Scope.code : Scope → Nat
  | .firing => 0
  | .plot => 1
  | .die => 2
  | .device => 3
  | .system => 4

/-- The value of a code of Scope; the other codes are reserved (R62). -/
def Scope.ofCode : Nat → Option Scope
  | 0 => some .firing
  | 1 => some .plot
  | 2 => some .die
  | 3 => some .device
  | 4 => some .system
  | _ => none

/-- Codes of Rm (R62). -/
def Rm.code : Rm → Nat
  | .rne => 0
  | .rz => 1
  | .ru => 2
  | .rd => 3
  | .sr => 4

/-- The value of a code of Rm; the other codes are reserved (R62). -/
def Rm.ofCode : Nat → Option Rm
  | 0 => some .rne
  | 1 => some .rz
  | 2 => some .ru
  | 3 => some .rd
  | 4 => some .sr
  | _ => none

/-- Codes of FenceKind (R68, R70). -/
def FenceKind.code : FenceKind → Nat
  | .acq => 0
  | .rel => 1
  | .full => 2

/-- The value of a code of FenceKind; the other codes are reserved (R68, R70). -/
def FenceKind.ofCode : Nat → Option FenceKind
  | 0 => some .acq
  | 1 => some .rel
  | 2 => some .full
  | _ => none

/-- Codes of Size (R68, R69). -/
def Size.code : Size → Nat
  | .b1 => 0
  | .b2 => 1
  | .b4 => 2
  | .b8 => 3

/-- The value of a code of Size; the other codes are reserved (R68, R69). -/
def Size.ofCode : Nat → Option Size
  | 0 => some .b1
  | 1 => some .b2
  | 2 => some .b4
  | 3 => some .b8
  | _ => none

/-- Codes of ESize (R69). -/
def ESize.code : ESize → Nat
  | .e1 => 0
  | .e2 => 1
  | .e4 => 2
  | .e8 => 3
  | .e16 => 4
  | .e64 => 5
  | .e128 => 6
  | .e384 => 7

/-- The value of a code of ESize; the other codes are reserved (R69). -/
def ESize.ofCode : Nat → Option ESize
  | 0 => some .e1
  | 1 => some .e2
  | 2 => some .e4
  | 3 => some .e8
  | 4 => some .e16
  | 5 => some .e64
  | 6 => some .e128
  | 7 => some .e384
  | _ => none

/-- Codes of GOrder (R68). -/
def GOrder.code : GOrder → Nat
  | .relaxed => 0
  | .acq => 1
  | .rel => 2

/-- The value of a code of GOrder; the other codes are reserved (R68). -/
def GOrder.ofCode : Nat → Option GOrder
  | 0 => some .relaxed
  | 1 => some .acq
  | 2 => some .rel
  | _ => none

/-- Codes of GamoOp (R68). -/
def GamoOp.code : GamoOp → Nat
  | .add => 0
  | .min => 1
  | .max => 2
  | .minn => 3
  | .maxn => 4
  | .and => 5
  | .or => 6
  | .xor => 7
  | .xchg => 8
  | .fadd => 9

/-- The value of a code of GamoOp; the other codes are reserved (R68). -/
def GamoOp.ofCode : Nat → Option GamoOp
  | 0 => some .add
  | 1 => some .min
  | 2 => some .max
  | 3 => some .minn
  | 4 => some .maxn
  | 5 => some .and
  | 6 => some .or
  | 7 => some .xor
  | 8 => some .xchg
  | 9 => some .fadd
  | _ => none

/-- Codes of TagField (R65). -/
def TagField.code : TagField → Nat
  | .iter => 0
  | .thread => 1
  | .ctx => 2
  | .inst => 3
  | .block => 4
  | .tag => 5
  | .nulls => 6

/-- The value of a code of TagField; the other codes are reserved (R65). -/
def TagField.ofCode : Nat → Option TagField
  | 0 => some .iter
  | 1 => some .thread
  | 2 => some .ctx
  | 3 => some .inst
  | 4 => some .block
  | 5 => some .tag
  | 6 => some .nulls
  | _ => none

/-- Codes of FpFmt (R71). -/
def FpFmt.code : FpFmt → Nat
  | .f32 => 0
  | .f16 => 1
  | .bf16 => 2

/-- The value of a code of FpFmt; the other codes are reserved (R71). -/
def FpFmt.ofCode : Nat → Option FpFmt
  | 0 => some .f32
  | 1 => some .f16
  | 2 => some .bf16
  | _ => none

/-- Codes of CvtFmt (R64). -/
def CvtFmt.code : CvtFmt → Nat
  | .f32 => 0
  | .f16 => 1
  | .bf16 => 2
  | .i32 => 3
  | .i64 => 4
  | .n32 => 5
  | .n64 => 6

/-- The value of a code of CvtFmt; the other codes are reserved (R64). -/
def CvtFmt.ofCode : Nat → Option CvtFmt
  | 0 => some .f32
  | 1 => some .f16
  | 2 => some .bf16
  | 3 => some .i32
  | 4 => some .i64
  | 5 => some .n32
  | 6 => some .n64
  | _ => none

/-- Codes of Pred (R71). -/
def Pred.code : Pred → Nat
  | .eq => 0
  | .lt => 1
  | .le => 2
  | .un => 3
  | .ne => 4

/-- The value of a code of Pred; the other codes are reserved (R71). -/
def Pred.ofCode : Nat → Option Pred
  | 0 => some .eq
  | 1 => some .lt
  | 2 => some .le
  | 3 => some .un
  | 4 => some .ne
  | _ => none

/-- Codes of HReg (R73). -/
def HReg.code : HReg → Nat
  | .kind => 0
  | .dim => 1
  | .fmt => 2
  | .bits => 3
  | .tables => 4
  | .seed => 5

/-- The value of a code of HReg; the other codes are reserved (R73). -/
def HReg.ofCode : Nat → Option HReg
  | 0 => some .kind
  | 1 => some .dim
  | 2 => some .fmt
  | 3 => some .bits
  | 4 => some .tables
  | 5 => some .seed
  | _ => none

/-- Codes of OvPolicy (R73). -/
def OvPolicy.code : OvPolicy → Nat
  | .refuse => 0
  | .evictOldest => 1
  | .chain => 2

/-- The value of a code of OvPolicy; the other codes are reserved (R73). -/
def OvPolicy.ofCode : Nat → Option OvPolicy
  | 0 => some .refuse
  | 1 => some .evictOldest
  | 2 => some .chain
  | _ => none

/-- Codes of Meter (R440). -/
def Meter.code : Meter → Nat
  | .charged => 0
  | .site => 1
  | .resid => 2
  | .shared => 3

/-- The value of a code of Meter; the other codes are reserved (R440). -/
def Meter.ofCode : Nat → Option Meter
  | 0 => some .charged
  | 1 => some .site
  | 2 => some .resid
  | 3 => some .shared
  | _ => none

/-- Codes of ScType (R69). -/
def ScType.code : ScType → Nat
  | .i64 => 0
  | .f32 => 1
  | .i32 => 2

/-- The value of a code of ScType; the other codes are reserved (R69). -/
def ScType.ofCode : Nat → Option ScType
  | 0 => some .i64
  | 1 => some .f32
  | 2 => some .i32
  | _ => none

/-- Codes of TWidth (R72). -/
def TWidth.code : TWidth → Nat
  | .w4 => 0
  | .w8 => 1
  | .w16 => 2
  | .w32 => 3

/-- The value of a code of TWidth; the other codes are reserved (R72). -/
def TWidth.ofCode : Nat → Option TWidth
  | 0 => some .w4
  | 1 => some .w8
  | 2 => some .w16
  | 3 => some .w32
  | _ => none

/-- Codes of XWidth (R67). -/
def XWidth.code : XWidth → Nat
  | .x8 => 0
  | .x16 => 1
  | .x32 => 2

/-- The value of a code of XWidth; the other codes are reserved (R67). -/
def XWidth.ofCode : Nat → Option XWidth
  | 0 => some .x8
  | 1 => some .x16
  | 2 => some .x32
  | _ => none

/-- Codes of Width (R67). -/
def Width.code : Width → Nat
  | .w64 => 0
  | .w32 => 1

/-- The value of a code of Width; the other codes are reserved (R67). -/
def Width.ofCode : Nat → Option Width
  | 0 => some .w64
  | 1 => some .w32
  | _ => none

/-- Codes of SysReg (R183). -/
def SysReg.code : SysReg → Nat
  | .status => 0
  | .epc => 1
  | .cause => 2
  | .eval => 3
  | .hvec => 4
  | .curvf => 5
  | .coreno => 6
  | .events => 7
  | .iemask => 8
  | .snkflag => 9
  | .knottab => 10
  | .knotcnt => 11
  | .knotreg => 12
  | .hfree => 13
  | .cycle => 14

/-- The value of a code of SysReg; the other codes are reserved (R183). -/
def SysReg.ofCode : Nat → Option SysReg
  | 0 => some .status
  | 1 => some .epc
  | 2 => some .cause
  | 3 => some .eval
  | 4 => some .hvec
  | 5 => some .curvf
  | 6 => some .coreno
  | 7 => some .events
  | 8 => some .iemask
  | 9 => some .snkflag
  | 10 => some .knottab
  | 11 => some .knotcnt
  | 12 => some .knotreg
  | 13 => some .hfree
  | 14 => some .cycle
  | _ => none

/-- Selector codes (R59). -/
def Sel.code : Sel → Nat
  | .t n => n.val
  | .i n => 8 + n.val
  | .tg => 12
  | .z => 13
  | .q n => 14 + n.val

/-- The field of w bits of n from bit lo up. -/
def fld (n lo w : Nat) : Nat := n / 2 ^ lo % 2 ^ w

/-- A field that an opcode does not use holds zero (R61). -/
def unused (n lo w : Nat) : Except Reject Unit :=
  if fld n lo w = 0 then .ok () else .error .unusedField

/-- A field that an opcode fixes. -/
def mustBe (n lo w v : Nat) : Except Reject Unit :=
  if fld n lo w = v then .ok () else .error .reservedCode

/-- A destination field, or a strand name: 0 to 7 (R59, R69). -/
def tmpF (n lo : Nat) : Except Reject (Fin 8) :=
  if h : fld n lo 4 < 8 then .ok ⟨fld n lo 4, h⟩ else .error .destination

/-- A source field (R59). -/
def selF (n lo : Nat) : Except Reject Sel :=
  let c := fld n lo 4
  if c < 8 then .ok (.t (Fin.ofNat 8 c))
  else if c < 12 then .ok (.i (Fin.ofNat 4 (c - 8)))
  else if c = 12 then .ok .tg
  else if c = 13 then .ok .z
  else .ok (.q (Fin.ofNat 2 (c - 14)))

/-- A field of one bit. -/
def boolF (n lo : Nat) : Except Reject Bool := .ok (decide (fld n lo 1 = 1))

/-- A field of two bits. -/
def fin4F (n lo : Nat) : Except Reject (Fin 4) := .ok (Fin.ofNat 4 (fld n lo 2))

/-- A field of three bits. -/
def fin8F (n lo : Nat) : Except Reject (Fin 8) := .ok (Fin.ofNat 8 (fld n lo 3))

/-- A field of four bits whose values 12 to 15 are reserved (R72). -/
def fin12F (n lo : Nat) : Except Reject (Fin 12) :=
  if h : fld n lo 4 < 12 then .ok ⟨fld n lo 4, h⟩ else .error .reservedCode

/-- A field of four bits. -/
def fin16F (n lo : Nat) : Except Reject (Fin 16) := .ok (Fin.ofNat 16 (fld n lo 4))

/-- A field of five bits. -/
def fin32F (n lo : Nat) : Except Reject (Fin 32) := .ok (Fin.ofNat 32 (fld n lo 5))

/-- A field of six bits. -/
def fin64F (n lo : Nat) : Except Reject (Fin 64) := .ok (Fin.ofNat 64 (fld n lo 6))

/-- An immediate field of w bits. -/
def immF (w : Nat) (n lo : Nat) : Except Reject (BitVec w) := .ok (BitVec.ofNat w (fld n lo w))

/-- A field that holds a code. -/
def enumF {α : Type} (f : Nat → Option α) (n lo w : Nat) : Except Reject α :=
  match f (fld n lo w) with
  | some v => .ok v
  | none => .error .reservedCode

/-- A field whose every value is a constructor of its own (STILE, PRIO, ACCCLR). -/
def splitF (n lo w : Nat) (l : List (Nat × Instr)) : Except Reject Instr :=
  match l.lookup (fld n lo w) with
  | some i => .ok i
  | none => .error .reservedCode

/-- The destination of SDEF: bits [4:3], and the arc number in bits [10:7], which only code 3 uses (R69). -/
def sdestF (n : Nat) : Except Reject StrandDest :=
  if fld n 3 2 = 3 then .ok (.arc (Fin.ofNat 16 (fld n 7 4)))
  else if fld n 7 4 ≠ 0 then .error .unusedField
  else if fld n 3 2 = 0 then .ok .sp
  else .ok (.q (Fin.ofNat 2 (fld n 3 2 - 1)))

/-- The destination of SDEF in its place in the word. -/
def StrandDest.codeBits : StrandDest → Nat
  | .sp => 0
  | .q n => (1 + n.val) * 2 ^ 3
  | .arc a => 3 * 2 ^ 3 + a.val * 2 ^ 7

/-- The order in bits [2:1] and the scope in bits [5:3] of an atomic (R70, R284). -/
def aordF (n : Nat) : Except Reject AtomOrder :=
  match fld n 1 2, Scope.ofCode (fld n 3 3) with
  | 0, some .firing => .ok .relaxed
  | 1, some s => .ok (.acq s)
  | 2, some s => .ok (.rel s)
  | _, _ => .error .reservedCode

/-- The order and scope of an atomic in their places in the word. -/
def AtomOrder.codeBits : AtomOrder → Nat
  | .relaxed => 0
  | .acq s => 1 * 2 ^ 1 + s.code * 2 ^ 3
  | .rel s => 2 * 2 ^ 1 + s.code * 2 ^ 3


/-- Station instructions by their fields, opcodes 0x00 to 0x0F. -/
def rawStation0 (n : Nat) : Except Reject Instr :=
  match fld n 24 4 with
  | 0x1 => do unused n 0 24; pure .nop
  | 0x2 => do unused n 0 16; pure (.emit (← selF n 20) (← fin16F n 16))
  | 0x3 => do unused n 0 12; pure (.emit2 (← selF n 20) (← fin16F n 16) (← fin16F n 12))
  | 0x4 => do unused n 0 16; pure (.emitt (← fin16F n 20) (← fin16F n 16))
  | 0x5 => do unused n 0 16; unused n 20 4; pure (.emitn (← fin16F n 16))
  | 0x6 => do unused n 0 8; unused n 11 5; pure (.emitr (← selF n 20) (← fin16F n 16) (← enumF Scope.ofCode n 8 3))
  | 0x7 => do unused n 0 8; unused n 9 7; pure (.exit (← selF n 20) (← fin16F n 16) (← boolF n 8))
  | 0x8 => do pure (.exits (← selF n 20) (← fin16F n 16) (← immF 16 n 0))
  | 0x9 => do unused n 4 16; pure (.tget (← tmpF n 20) (← enumF TagField.ofCode n 0 4))
  | 0xA => do unused n 4 12; unused n 20 4; pure (.tset (← selF n 16) (← enumF TagField.ofCode n 0 4))
  | 0xB => do unused n 4 12; unused n 20 4; pure (.tadd (← selF n 16) (← enumF TagField.ofCode n 0 4))
  | 0xC => do unused n 0 20; pure (.lgate (← tmpF n 20))
  | 0xD => do unused n 0 24; pure .lfree
  | 0xE => do unused n 0 8; pure (.steer (← selF n 20) (← fin16F n 16) (← fin16F n 12) (← selF n 8))
  | 0xF => do unused n 12 4; pure (.thin (← selF n 20) (← fin16F n 16) (← selF n 8) (← immF 8 n 0))
  | _ => .error .notAnInstruction

/-- Station instructions by their fields, opcodes 0x10 to 0x1F. -/
def rawStation1 (n : Nat) : Except Reject Instr :=
  match fld n 24 4 with
  | 0x0 => do unused n 0 16; unused n 20 4; pure (.thend (← fin16F n 16))
  | 0x1 => do unused n 3 17; pure (.sinkw (← selF n 20) (← fin8F n 0))
  | 0x2 => do unused n 0 16; unused n 20 4; pure (.drop (← fin16F n 16))
  | 0x3 => do unused n 16 8; pure (.trap (← immF 16 n 0))
  | _ => .error .notAnInstruction

/-- Station instructions by their fields, opcodes 0x20 to 0x2F. -/
def rawStation2 (n : Nat) : Except Reject Instr :=
  match fld n 24 4 with
  | 0x0 => do unused n 1 11; pure (.add (← tmpF n 20) (← selF n 16) (← selF n 12) (← enumF Width.ofCode n 0 1))
  | 0x1 => do unused n 1 11; pure (.sub (← tmpF n 20) (← selF n 16) (← selF n 12) (← enumF Width.ofCode n 0 1))
  | 0x2 => do pure (.addi (← tmpF n 20) (← selF n 16) (← immF 16 n 0))
  | 0x3 => do unused n 1 11; pure (.mul (← tmpF n 20) (← selF n 16) (← selF n 12) (← enumF Width.ofCode n 0 1))
  | 0x4 => do unused n 1 11; pure (.mulh (← tmpF n 20) (← selF n 16) (← selF n 12) (← enumF Width.ofCode n 0 1))
  | 0x5 => do unused n 1 11; pure (.mulhn (← tmpF n 20) (← selF n 16) (← selF n 12) (← enumF Width.ofCode n 0 1))
  | 0x6 => do unused n 1 11; pure (.div (← tmpF n 20) (← selF n 16) (← selF n 12) (← enumF Width.ofCode n 0 1))
  | 0x7 => do unused n 1 11; pure (.divn (← tmpF n 20) (← selF n 16) (← selF n 12) (← enumF Width.ofCode n 0 1))
  | 0x8 => do unused n 1 11; pure (.rem (← tmpF n 20) (← selF n 16) (← selF n 12) (← enumF Width.ofCode n 0 1))
  | 0x9 => do unused n 1 11; pure (.remn (← tmpF n 20) (← selF n 16) (← selF n 12) (← enumF Width.ofCode n 0 1))
  | 0xA => do unused n 1 11; pure (.and (← tmpF n 20) (← selF n 16) (← selF n 12) (← enumF Width.ofCode n 0 1))
  | 0xB => do unused n 1 11; pure (.or (← tmpF n 20) (← selF n 16) (← selF n 12) (← enumF Width.ofCode n 0 1))
  | 0xC => do unused n 1 11; pure (.xor (← tmpF n 20) (← selF n 16) (← selF n 12) (← enumF Width.ofCode n 0 1))
  | 0xD => do unused n 1 11; pure (.andn (← tmpF n 20) (← selF n 16) (← selF n 12) (← enumF Width.ofCode n 0 1))
  | 0xE => do pure (.andi (← tmpF n 20) (← selF n 16) (← immF 16 n 0))
  | 0xF => do pure (.ori (← tmpF n 20) (← selF n 16) (← immF 16 n 0))
  | _ => .error .notAnInstruction

/-- Station instructions by their fields, opcodes 0x30 to 0x3F. -/
def rawStation3 (n : Nat) : Except Reject Instr :=
  match fld n 24 4 with
  | 0x0 => do pure (.xori (← tmpF n 20) (← selF n 16) (← immF 16 n 0))
  | 0x1 => do unused n 1 11; pure (.shl (← tmpF n 20) (← selF n 16) (← selF n 12) (← enumF Width.ofCode n 0 1))
  | 0x2 => do unused n 1 11; pure (.shr (← tmpF n 20) (← selF n 16) (← selF n 12) (← enumF Width.ofCode n 0 1))
  | 0x3 => do unused n 1 11; pure (.sra (← tmpF n 20) (← selF n 16) (← selF n 12) (← enumF Width.ofCode n 0 1))
  | 0x4 => do unused n 7 9; pure (.shli (← tmpF n 20) (← selF n 16) (← enumF Width.ofCode n 6 1) (← fin64F n 0))
  | 0x5 => do unused n 7 9; pure (.shri (← tmpF n 20) (← selF n 16) (← enumF Width.ofCode n 6 1) (← fin64F n 0))
  | 0x6 => do unused n 7 9; pure (.srai (← tmpF n 20) (← selF n 16) (← enumF Width.ofCode n 6 1) (← fin64F n 0))
  | 0x7 => do unused n 1 11; pure (.rotl (← tmpF n 20) (← selF n 16) (← selF n 12) (← enumF Width.ofCode n 0 1))
  | 0x8 => do unused n 1 15; pure (.clz (← tmpF n 20) (← selF n 16) (← enumF Width.ofCode n 0 1))
  | 0x9 => do unused n 1 15; pure (.ctz (← tmpF n 20) (← selF n 16) (← enumF Width.ofCode n 0 1))
  | 0xA => do unused n 1 15; pure (.popc (← tmpF n 20) (← selF n 16) (← enumF Width.ofCode n 0 1))
  | 0xB => do unused n 1 11; pure (.min (← tmpF n 20) (← selF n 16) (← selF n 12) (← enumF Width.ofCode n 0 1))
  | 0xC => do unused n 1 11; pure (.minn (← tmpF n 20) (← selF n 16) (← selF n 12) (← enumF Width.ofCode n 0 1))
  | 0xD => do unused n 1 11; pure (.max (← tmpF n 20) (← selF n 16) (← selF n 12) (← enumF Width.ofCode n 0 1))
  | 0xE => do unused n 1 11; pure (.maxn (← tmpF n 20) (← selF n 16) (← selF n 12) (← enumF Width.ofCode n 0 1))
  | 0xF => do unused n 1 11; pure (.slt (← tmpF n 20) (← selF n 16) (← selF n 12) (← enumF Width.ofCode n 0 1))
  | _ => .error .notAnInstruction

/-- Station instructions by their fields, opcodes 0x40 to 0x4F. -/
def rawStation4 (n : Nat) : Except Reject Instr :=
  match fld n 24 4 with
  | 0x0 => do unused n 1 11; pure (.sltn (← tmpF n 20) (← selF n 16) (← selF n 12) (← enumF Width.ofCode n 0 1))
  | 0x1 => do pure (.slti (← tmpF n 20) (← selF n 16) (← immF 16 n 0))
  | 0x2 => do unused n 1 11; pure (.seq (← tmpF n 20) (← selF n 16) (← selF n 12) (← enumF Width.ofCode n 0 1))
  | 0x3 => do unused n 1 11; pure (.sne (← tmpF n 20) (← selF n 16) (← selF n 12) (← enumF Width.ofCode n 0 1))
  | 0x4 => do
    unused n 1 7
    pure (.csel (← tmpF n 20) (← selF n 16) (← selF n 12) (← selF n 8) (← enumF Width.ofCode n 0 1))
  | 0x5 => do unused n 1 15; pure (.mov (← tmpF n 20) (← selF n 16) (← enumF Width.ofCode n 0 1))
  | 0x6 => do unused n 16 4; pure (.movi (← tmpF n 20) (← immF 16 n 0))
  | 0x7 => do unused n 18 2; pure (.movk (← tmpF n 20) (← fin4F n 16) (← immF 16 n 0))
  | 0x8 => do
    unused n 3 13
    pure (.exts (← tmpF n 20) (← selF n 16) (← enumF XWidth.ofCode n 1 2) (← enumF Width.ofCode n 0 1))
  | 0x9 => do
    unused n 3 13
    pure (.extz (← tmpF n 20) (← selF n 16) (← enumF XWidth.ofCode n 1 2) (← enumF Width.ofCode n 0 1))
  | 0xA => do
    unused n 0 1; unused n 7 1
    pure (.bfi (← tmpF n 20) (← selF n 16) (← selF n 12) (← selF n 8) (← fin64F n 1))
  | 0xB => do
    unused n 2 10
    pure (.adds (← tmpF n 20) (← selF n 16) (← selF n 12) (← boolF n 1) (← enumF Width.ofCode n 0 1))
  | 0xC => do
    unused n 2 10
    pure (.subs (← tmpF n 20) (← selF n 16) (← selF n 12) (← boolF n 1) (← enumF Width.ofCode n 0 1))
  | 0xD => do unused n 1 15; pure (.abs (← tmpF n 20) (← selF n 16) (← enumF Width.ofCode n 0 1))
  | 0xE => do unused n 1 15; pure (.neg (← tmpF n 20) (← selF n 16) (← enumF Width.ofCode n 0 1))
  | 0xF => do
    unused n 4 8
    pure (.lea (← tmpF n 20) (← selF n 16) (← selF n 12) (← fin8F n 1) (← enumF Width.ofCode n 0 1))
  | _ => .error .notAnInstruction

/-- Station instructions by their fields, opcodes 0x70 to 0x7F. -/
def rawStation7 (n : Nat) : Except Reject Instr :=
  match fld n 24 4 with
  | 0x0 => do
    unused n 11 1
    pure (.sdef (← tmpF n 20) (← selF n 16) (← selF n 12) (← sdestF n) (← boolF n 5) (← boolF n 6) (← enumF ESize.ofCode n 0 3))
  | 0x1 => do unused n 0 16; pure (.slen (← tmpF n 20) (← selF n 16))
  | 0x2 => do unused n 0 16; pure (.sgo (← tmpF n 20) (← selF n 16))
  | 0x3 => do unused n 0 7; pure (.lds (← tmpF n 20) (← selF n 16) (← tmpF n 12) (← fin32F n 7))
  | 0x4 => do unused n 0 7; pure (.sts (← selF n 20) (← selF n 16) (← tmpF n 12) (← fin32F n 7))
  | 0x5 => do
    unused n 3 4
    pure (.ldsp (← tmpF n 20) (← selF n 16) (← selF n 12) (← fin32F n 7) (← boolF n 2) (← enumF Size.ofCode n 0 2))
  | 0x6 => do
    unused n 2 5
    pure (.stsp (← selF n 20) (← selF n 16) (← selF n 12) (← fin32F n 7) (← enumF Size.ofCode n 0 2))
  | 0x7 => do
    unused n 4 3
    pure (.ldf (← tmpF n 20) (← selF n 16) (← selF n 12) (← fin32F n 7) (← boolF n 3) (← boolF n 2) (← enumF Size.ofCode n 0 2))
  | 0x8 => do
    unused n 2 5
    pure (.stf (← selF n 20) (← selF n 16) (← selF n 12) (← fin32F n 7) (← enumF Size.ofCode n 0 2))
  | 0x9 => do unused n 1 6; unused n 20 4; pure (.fec (← selF n 16) (← selF n 12) (← fin32F n 7) (← boolF n 0))
  | 0xA => do unused n 1 6; unused n 12 4; pure (.feq (← tmpF n 20) (← selF n 16) (← fin32F n 7) (← boolF n 0))
  | 0xB => do unused n 0 12; unused n 16 4; pure (.gath (← selF n 20) (← tmpF n 12))
  | 0xC => do unused n 0 7; pure (.scat (← selF n 20) (← selF n 16) (← tmpF n 12) (← fin32F n 7))
  | 0xD => do
    unused n 2 5
    pure (.scadd (← selF n 20) (← selF n 16) (← tmpF n 12) (← fin32F n 7) (← enumF ScType.ofCode n 0 2))
  | 0xE => do unused n 3 9; unused n 16 8; pure (.scflush (← tmpF n 12) (← enumF Scope.ofCode n 0 3))
  | 0xF => do
    unused n 2 5
    pure (.copy (← selF n 20) (← selF n 16) (← selF n 12) (← fin32F n 7) (← boolF n 1) (← boolF n 0))
  | _ => .error .notAnInstruction

/-- Station instructions by their fields, opcodes 0x80 to 0x8F. -/
def rawStation8 (n : Nat) : Except Reject Instr :=
  match fld n 24 4 with
  | 0x0 => do unused n 0 7; unused n 12 8; pure (.cpstat (← tmpF n 20) (← fin32F n 7))
  | 0x1 => do unused n 0 12; unused n 20 4; pure (.pref (← selF n 16) (← selF n 12))
  | 0x2 => do unused n 3 9; unused n 16 4; pure (.sbar (← immF 4 n 20) (← immF 4 n 12) (← enumF Scope.ofCode n 0 3))
  | 0x3 => do
    unused n 3 4
    pure (.ldm (← tmpF n 20) (← selF n 16) (← selF n 12) (← fin32F n 7) (← boolF n 2) (← enumF Size.ofCode n 0 2))
  | 0x4 => do
    unused n 2 5
    pure (.stm (← selF n 20) (← selF n 16) (← selF n 12) (← fin32F n 7) (← enumF Size.ofCode n 0 2))
  | 0x5 => do
    unused n 4 3
    pure (.ldmf (← tmpF n 20) (← selF n 16) (← selF n 12) (← fin32F n 7) (← boolF n 3) (← boolF n 2) (← enumF Size.ofCode n 0 2))
  | 0x6 => do
    unused n 2 5
    pure (.stmf (← selF n 20) (← selF n 16) (← selF n 12) (← fin32F n 7) (← enumF Size.ofCode n 0 2))
  | 0x7 => do unused n 1 6; pure (.tld (← fin16F n 20) (← selF n 16) (← selF n 12) (← fin32F n 7) (← boolF n 0))
  | 0x8 => do unused n 1 6; pure (.tst (← fin16F n 20) (← selF n 16) (← selF n 12) (← fin32F n 7) (← boolF n 0))
  | _ => .error .notAnInstruction

/-- Station instructions by their fields, opcodes 0x90 to 0x9F. -/
def rawStation9 (n : Nat) : Except Reject Instr :=
  match fld n 24 4 with
  | 0x0 => do unused n 5 19; pure (.fence (← enumF FenceKind.ofCode n 3 2) (← enumF Scope.ofCode n 0 3))
  | 0x1 => do unused n 3 21; splitF n 0 3 [(1, .stilePlot), (2, .stileDie), (3, .stileDevice), (4, .stileSystem)]
  | 0x2 => do unused n 3 13; pure (.barj (← tmpF n 20) (← selF n 16) (← enumF Scope.ofCode n 0 3))
  | 0x3 => do
    unused n 6 1
    pure (.aadd (← tmpF n 20) (← selF n 16) (← selF n 12) (← fin32F n 7) (← aordF n) (← enumF Width.ofCode n 0 1))
  | 0x4 => do
    unused n 6 1
    pure (.amin (← tmpF n 20) (← selF n 16) (← selF n 12) (← fin32F n 7) (← aordF n) (← enumF Width.ofCode n 0 1))
  | 0x5 => do
    unused n 6 1
    pure (.amax (← tmpF n 20) (← selF n 16) (← selF n 12) (← fin32F n 7) (← aordF n) (← enumF Width.ofCode n 0 1))
  | 0x6 => do
    unused n 6 1
    pure (.aminn (← tmpF n 20) (← selF n 16) (← selF n 12) (← fin32F n 7) (← aordF n) (← enumF Width.ofCode n 0 1))
  | 0x7 => do
    unused n 6 1
    pure (.amaxn (← tmpF n 20) (← selF n 16) (← selF n 12) (← fin32F n 7) (← aordF n) (← enumF Width.ofCode n 0 1))
  | 0x8 => do
    unused n 6 1
    pure (.aand (← tmpF n 20) (← selF n 16) (← selF n 12) (← fin32F n 7) (← aordF n) (← enumF Width.ofCode n 0 1))
  | 0x9 => do
    unused n 6 1
    pure (.aor (← tmpF n 20) (← selF n 16) (← selF n 12) (← fin32F n 7) (← aordF n) (← enumF Width.ofCode n 0 1))
  | 0xA => do
    unused n 6 1
    pure (.axor (← tmpF n 20) (← selF n 16) (← selF n 12) (← fin32F n 7) (← aordF n) (← enumF Width.ofCode n 0 1))
  | 0xB => do
    unused n 6 1
    pure (.axchg (← tmpF n 20) (← selF n 16) (← selF n 12) (← fin32F n 7) (← aordF n) (← enumF Width.ofCode n 0 1))
  | 0xC => do
    unused n 6 1
    pure (.acas (← tmpF n 20) (← selF n 16) (← selF n 12) (← fin32F n 7) (← aordF n) (← enumF Width.ofCode n 0 1))
  | 0xD => do
    unused n 6 1; mustBe n 0 1 1
    pure (.afadd (← tmpF n 20) (← selF n 16) (← selF n 12) (← fin32F n 7) (← aordF n))
  | _ => .error .notAnInstruction

/-- Station instructions by their fields, opcodes 0xA0 to 0xAF. -/
def rawStationA (n : Nat) : Except Reject Instr :=
  match fld n 24 4 with
  | 0x0 => do unused n 20 4; pure (.call (← fin16F n 16) (← immF 16 n 0))
  | 0x1 => do unused n 20 4; pure (.callf (← fin16F n 16) (← immF 16 n 0))
  | 0x2 => do unused n 0 24; pure .ret
  | 0x3 => do unused n 0 20; pure (.instid (← tmpF n 20))
  | 0x4 => do unused n 16 4; pure (.areaq (← tmpF n 20) (← immF 8 n 8) (← immF 8 n 0))
  | 0x5 => do unused n 16 4; pure (.knotq (← tmpF n 20) (← immF 16 n 0))
  | _ => .error .notAnInstruction

/-- Station instructions by their fields, opcodes 0xB0 to 0xBF. -/
def rawStationB (n : Nat) : Except Reject Instr :=
  match fld n 24 4 with
  | 0x0 => do unused n 3 9; pure (.vadd (← fin16F n 20) (← fin16F n 16) (← fin16F n 12) (← enumF Rm.ofCode n 0 3))
  | 0x1 => do unused n 3 9; pure (.vsub (← fin16F n 20) (← fin16F n 16) (← fin16F n 12) (← enumF Rm.ofCode n 0 3))
  | 0x2 => do unused n 3 9; pure (.vmul (← fin16F n 20) (← fin16F n 16) (← fin16F n 12) (← enumF Rm.ofCode n 0 3))
  | 0x3 => do unused n 3 9; pure (.vfma (← fin16F n 20) (← fin16F n 16) (← fin16F n 12) (← enumF Rm.ofCode n 0 3))
  | 0x4 => do unused n 0 12; pure (.vmin (← fin16F n 20) (← fin16F n 16) (← fin16F n 12))
  | 0x5 => do unused n 0 12; pure (.vmax (← fin16F n 20) (← fin16F n 16) (← fin16F n 12))
  | 0x6 => do unused n 0 16; pure (.vabs (← fin16F n 20) (← fin16F n 16))
  | 0x7 => do unused n 0 16; pure (.vneg (← fin16F n 20) (← fin16F n 16))
  | 0x8 => do unused n 3 13; pure (.vrcp (← fin16F n 20) (← fin16F n 16) (← enumF Rm.ofCode n 0 3))
  | 0x9 => do unused n 3 13; pure (.vrsq (← fin16F n 20) (← fin16F n 16) (← enumF Rm.ofCode n 0 3))
  | 0xA => do unused n 3 13; pure (.vexp2 (← fin16F n 20) (← fin16F n 16) (← enumF Rm.ofCode n 0 3))
  | 0xB => do unused n 3 13; pure (.vlog2 (← fin16F n 20) (← fin16F n 16) (← enumF Rm.ofCode n 0 3))
  | 0xC => do
    unused n 9 3
    pure (.vcvt (← fin16F n 20) (← fin16F n 16) (← fin16F n 12) (← immF 6 n 3) (← enumF Rm.ofCode n 0 3))
  | 0xD => do
    unused n 7 5
    pure (.vscl (← fin16F n 20) (← fin16F n 16) (← fin16F n 12) (← fin16F n 3) (← enumF Rm.ofCode n 0 3))
  | 0xE => do unused n 0 12; pure (.vreds (← tmpF n 20) (← fin16F n 16) (← fin16F n 12))
  | 0xF => do unused n 0 12; pure (.vredx (← tmpF n 20) (← fin16F n 16) (← fin16F n 12))
  | _ => .error .notAnInstruction

/-- Station instructions by their fields, opcodes 0xC0 to 0xCF. -/
def rawStationC (n : Nat) : Except Reject Instr :=
  match fld n 24 4 with
  | 0x0 => do
    unused n 0 3; unused n 6 6
    pure (.vcmp (← fin16F n 20) (← fin16F n 16) (← fin16F n 12) (← enumF Pred.ofCode n 3 3))
  | 0x1 => do unused n 0 5; unused n 9 3; pure (.vsel (← fin16F n 20) (← fin16F n 16) (← fin16F n 12) (← fin16F n 5))
  | 0x2 => do unused n 0 16; pure (.vbcast (← fin16F n 20) (← selF n 16))
  | 0x3 => do pure (.vext (← tmpF n 20) (← fin16F n 16) (← fin16F n 12) (← immF 12 n 0))
  | 0x4 => do unused n 0 3; unused n 7 5; pure (.vdot (← tmpF n 20) (← fin16F n 16) (← fin16F n 12) (← fin16F n 3))
  | 0x5 => do unused n 0 12; pure (.vshf (← fin16F n 20) (← fin16F n 16) (← fin16F n 12))
  | 0x6 => do
    unused n 5 7
    pure (.fadd (← tmpF n 20) (← selF n 16) (← selF n 12) (← enumF FpFmt.ofCode n 3 2) (← enumF Rm.ofCode n 0 3))
  | 0x7 => do
    unused n 5 7
    pure (.fsub (← tmpF n 20) (← selF n 16) (← selF n 12) (← enumF FpFmt.ofCode n 3 2) (← enumF Rm.ofCode n 0 3))
  | 0x8 => do
    unused n 5 7
    pure (.fmul (← tmpF n 20) (← selF n 16) (← selF n 12) (← enumF FpFmt.ofCode n 3 2) (← enumF Rm.ofCode n 0 3))
  | 0x9 => do
    unused n 5 3
    pure (.ffma (← tmpF n 20) (← selF n 16) (← selF n 12) (← selF n 8) (← enumF FpFmt.ofCode n 3 2) (← enumF Rm.ofCode n 0 3))
  | 0xA => do
    unused n 3 2; unused n 11 5
    pure (.fcvt (← tmpF n 20) (← selF n 16) (← enumF CvtFmt.ofCode n 8 3) (← enumF CvtFmt.ofCode n 5 3) (← enumF Rm.ofCode n 0 3))
  | 0xB => do
    unused n 0 3; unused n 8 4
    pure (.fcmp (← tmpF n 20) (← selF n 16) (← selF n 12) (← enumF Pred.ofCode n 5 3) (← enumF FpFmt.ofCode n 3 2))
  | 0xC => do
    unused n 0 3; unused n 5 7
    pure (.fmin (← tmpF n 20) (← selF n 16) (← selF n 12) (← enumF FpFmt.ofCode n 3 2))
  | 0xD => do
    unused n 0 3; unused n 5 7
    pure (.fmax (← tmpF n 20) (← selF n 16) (← selF n 12) (← enumF FpFmt.ofCode n 3 2))
  | 0xE => do unused n 0 16; unused n 20 4; pure (.vseed (← selF n 16))
  | _ => .error .notAnInstruction

/-- Station instructions by their fields, opcodes 0xD0 to 0xDF. -/
def rawStationD (n : Nat) : Except Reject Instr :=
  match fld n 24 4 with
  | 0x0 => do unused n 6 10; pure (.tcfg (← fin16F n 20) (← fin16F n 16) (← enumF TWidth.ofCode n 4 2) (← fin12F n 0))
  | 0x1 => do unused n 0 20; pure (.tzero (← fin16F n 20))
  | 0x2 => do unused n 0 16; pure (.tmov (← fin16F n 20) (← fin16F n 16))
  | 0x3 => do unused n 0 16; pure (.txp (← fin16F n 20) (← fin16F n 16))
  | 0x4 => do unused n 0 9; unused n 20 4; pure (.mma (← fin16F n 16) (← fin16F n 12) (← fin8F n 9))
  | 0x5 => do unused n 0 9; pure (.mmas (← fin16F n 20) (← fin16F n 16) (← fin16F n 12) (← fin8F n 9))
  | 0x6 => do
    unused n 12 4
    pure (.accrd (← fin16F n 20) (← selF n 16) (← fin8F n 9) (← enumF Rm.ofCode n 6 3) (← immF 6 n 0))
  | 0x7 => do
    unused n 0 9; unused n 12 12; splitF n 9 3 [(0, .accclr0), (1, .accclr1), (2, .accclr2), (3, .accclr3), (4, .accclr4), (5, .accclr5), (6, .accclr6), (7, .accclr7)]
  | 0x8 => do unused n 0 9; unused n 12 4; unused n 20 4; pure (.accld (← fin16F n 16) (← fin8F n 9))
  | 0x9 => do unused n 0 16; unused n 20 4; pure (.wpre (← fin16F n 16))
  | 0xA => do unused n 0 16; unused n 20 4; pure (.afeed (← fin16F n 16))
  | 0xB => do unused n 0 20; pure (.plstat (← tmpF n 20))
  | _ => .error .notAnInstruction

/-- Station instructions by their fields, opcodes 0xE0 to 0xEF. -/
def rawStationE (n : Nat) : Except Reject Instr :=
  match fld n 24 4 with
  | 0x0 => do unused n 8 8; unused n 20 4; pure (.hfw (← selF n 16) (← enumF HReg.ofCode n 4 4) (← fin16F n 0))
  | 0x1 => do unused n 8 12; pure (.hfr (← tmpF n 20) (← enumF HReg.ofCode n 4 4) (← fin16F n 0))
  | 0x2 => do unused n 4 8; pure (.hash (← fin16F n 20) (← selF n 16) (← selF n 12) (← fin16F n 0))
  | 0x3 => do unused n 4 3; pure (.tins (← selF n 20) (← selF n 16) (← selF n 12) (← fin32F n 7) (← fin16F n 0))
  | 0x4 => do unused n 4 3; pure (.tdel (← selF n 20) (← selF n 16) (← selF n 12) (← fin32F n 7) (← fin16F n 0))
  | 0x5 => do unused n 4 8; pure (.tprb (← fin16F n 20) (← selF n 16) (← selF n 12) (← fin16F n 0))
  | 0x6 => do unused n 0 7; unused n 12 4; pure (.trhs (← selF n 20) (← selF n 16) (← fin32F n 7))
  | 0x7 => do unused n 3 13; unused n 20 4; pure (.tfen (← selF n 16) (← enumF Scope.ofCode n 0 3))
  | 0x8 => do unused n 0 16; pure (.tstat (← tmpF n 20) (← selF n 16))
  | 0x9 => do
    unused n 2 5; unused n 12 4; unused n 20 4
    pure (.tovp (← selF n 16) (← fin32F n 7) (← enumF OvPolicy.ofCode n 0 2))
  | _ => .error .notAnInstruction

/-- Station instructions by their fields, opcodes 0xF0 to 0xFF. -/
def rawStationF (n : Nat) : Except Reject Instr :=
  match fld n 24 4 with
  | 0x0 => do unused n 1 19; pure (.qrd (← tmpF n 20) (← boolF n 0))
  | 0x1 => do unused n 0 16; unused n 20 4; pure (.qarm (← selF n 16))
  | 0x2 => do unused n 14 2; unused n 20 4; pure (.trc (← selF n 16) (← immF 14 n 0))
  | 0x3 => do unused n 1 19; pure (.time (← tmpF n 20) (← boolF n 0))
  | 0x4 => do
    unused n 3 21; splitF n 0 3 [(0, .prio0), (1, .prio1), (2, .prio2), (3, .prio3), (4, .prio4), (5, .prio5), (6, .prio6), (7, .prio7)]
  | 0x5 => do unused n 0 24; pure .yield
  | 0x6 => do unused n 2 18; pure (.emtr (← tmpF n 20) (← enumF Meter.ofCode n 0 2))
  | 0x7 => do unused n 0 20; pure (.heatq (← tmpF n 20))
  | _ => .error .notAnInstruction

/-- The fields of a station word read as R58, R59 and R66 to R73 lay them out. -/
def rawStation (n : Nat) : Except Reject Instr :=
  match fld n 28 4 with
  | 0x0 => rawStation0 n
  | 0x1 => rawStation1 n
  | 0x2 => rawStation2 n
  | 0x3 => rawStation3 n
  | 0x4 => rawStation4 n
  | 0x7 => rawStation7 n
  | 0x8 => rawStation8 n
  | 0x9 => rawStation9 n
  | 0xA => rawStationA n
  | 0xB => rawStationB n
  | 0xC => rawStationC n
  | 0xD => rawStationD n
  | 0xE => rawStationE n
  | 0xF => rawStationF n
  | _ => .error .notAnInstruction

/-- Control-core instructions by their fields, opcodes 0x20 to 0x2F. -/
def rawCore2 (n : Nat) : Except Reject Instr :=
  match fld n 24 4 with
  | 0x0 => do unused n 1 8; pure (.addCr (← fin32F n 19) (← fin32F n 14) (← fin32F n 9) (← enumF Width.ofCode n 0 1))
  | 0x1 => do unused n 1 8; pure (.subCr (← fin32F n 19) (← fin32F n 14) (← fin32F n 9) (← enumF Width.ofCode n 0 1))
  | 0x2 => do pure (.addiCi (← fin32F n 19) (← fin32F n 14) (← immF 14 n 0))
  | 0x3 => do unused n 1 8; pure (.mulCr (← fin32F n 19) (← fin32F n 14) (← fin32F n 9) (← enumF Width.ofCode n 0 1))
  | 0x4 => do unused n 1 8; pure (.mulhCr (← fin32F n 19) (← fin32F n 14) (← fin32F n 9) (← enumF Width.ofCode n 0 1))
  | 0x5 => do
    unused n 1 8
    pure (.mulhnCr (← fin32F n 19) (← fin32F n 14) (← fin32F n 9) (← enumF Width.ofCode n 0 1))
  | 0x6 => do unused n 1 8; pure (.divCr (← fin32F n 19) (← fin32F n 14) (← fin32F n 9) (← enumF Width.ofCode n 0 1))
  | 0x7 => do unused n 1 8; pure (.divnCr (← fin32F n 19) (← fin32F n 14) (← fin32F n 9) (← enumF Width.ofCode n 0 1))
  | 0x8 => do unused n 1 8; pure (.remCr (← fin32F n 19) (← fin32F n 14) (← fin32F n 9) (← enumF Width.ofCode n 0 1))
  | 0x9 => do unused n 1 8; pure (.remnCr (← fin32F n 19) (← fin32F n 14) (← fin32F n 9) (← enumF Width.ofCode n 0 1))
  | 0xA => do unused n 1 8; pure (.andCr (← fin32F n 19) (← fin32F n 14) (← fin32F n 9) (← enumF Width.ofCode n 0 1))
  | 0xB => do unused n 1 8; pure (.orCr (← fin32F n 19) (← fin32F n 14) (← fin32F n 9) (← enumF Width.ofCode n 0 1))
  | 0xC => do unused n 1 8; pure (.xorCr (← fin32F n 19) (← fin32F n 14) (← fin32F n 9) (← enumF Width.ofCode n 0 1))
  | 0xD => do unused n 1 8; pure (.andnCr (← fin32F n 19) (← fin32F n 14) (← fin32F n 9) (← enumF Width.ofCode n 0 1))
  | 0xE => do pure (.andiCi (← fin32F n 19) (← fin32F n 14) (← immF 14 n 0))
  | 0xF => do pure (.oriCi (← fin32F n 19) (← fin32F n 14) (← immF 14 n 0))
  | _ => .error .notAnInstruction

/-- Control-core instructions by their fields, opcodes 0x30 to 0x3F. -/
def rawCore3 (n : Nat) : Except Reject Instr :=
  match fld n 24 4 with
  | 0x0 => do pure (.xoriCi (← fin32F n 19) (← fin32F n 14) (← immF 14 n 0))
  | 0x1 => do unused n 1 8; pure (.shlCr (← fin32F n 19) (← fin32F n 14) (← fin32F n 9) (← enumF Width.ofCode n 0 1))
  | 0x2 => do unused n 1 8; pure (.shrCr (← fin32F n 19) (← fin32F n 14) (← fin32F n 9) (← enumF Width.ofCode n 0 1))
  | 0x3 => do unused n 1 8; pure (.sraCr (← fin32F n 19) (← fin32F n 14) (← fin32F n 9) (← enumF Width.ofCode n 0 1))
  | 0x4 => do unused n 7 7; pure (.shliCi (← fin32F n 19) (← fin32F n 14) (← enumF Width.ofCode n 6 1) (← fin64F n 0))
  | 0x5 => do unused n 7 7; pure (.shriCi (← fin32F n 19) (← fin32F n 14) (← enumF Width.ofCode n 6 1) (← fin64F n 0))
  | 0x6 => do unused n 7 7; pure (.sraiCi (← fin32F n 19) (← fin32F n 14) (← enumF Width.ofCode n 6 1) (← fin64F n 0))
  | 0x7 => do unused n 1 8; pure (.rotlCr (← fin32F n 19) (← fin32F n 14) (← fin32F n 9) (← enumF Width.ofCode n 0 1))
  | 0x8 => do unused n 1 13; pure (.clzCr (← fin32F n 19) (← fin32F n 14) (← enumF Width.ofCode n 0 1))
  | 0x9 => do unused n 1 13; pure (.ctzCr (← fin32F n 19) (← fin32F n 14) (← enumF Width.ofCode n 0 1))
  | 0xA => do unused n 1 13; pure (.popcCr (← fin32F n 19) (← fin32F n 14) (← enumF Width.ofCode n 0 1))
  | 0xB => do unused n 1 8; pure (.minCr (← fin32F n 19) (← fin32F n 14) (← fin32F n 9) (← enumF Width.ofCode n 0 1))
  | 0xC => do unused n 1 8; pure (.minnCr (← fin32F n 19) (← fin32F n 14) (← fin32F n 9) (← enumF Width.ofCode n 0 1))
  | 0xD => do unused n 1 8; pure (.maxCr (← fin32F n 19) (← fin32F n 14) (← fin32F n 9) (← enumF Width.ofCode n 0 1))
  | 0xE => do unused n 1 8; pure (.maxnCr (← fin32F n 19) (← fin32F n 14) (← fin32F n 9) (← enumF Width.ofCode n 0 1))
  | 0xF => do unused n 1 8; pure (.sltCr (← fin32F n 19) (← fin32F n 14) (← fin32F n 9) (← enumF Width.ofCode n 0 1))
  | _ => .error .notAnInstruction

/-- Control-core instructions by their fields, opcodes 0x40 to 0x4F. -/
def rawCore4 (n : Nat) : Except Reject Instr :=
  match fld n 24 4 with
  | 0x0 => do unused n 1 8; pure (.sltnCr (← fin32F n 19) (← fin32F n 14) (← fin32F n 9) (← enumF Width.ofCode n 0 1))
  | 0x1 => do pure (.sltiCi (← fin32F n 19) (← fin32F n 14) (← immF 14 n 0))
  | 0x2 => do unused n 1 8; pure (.seqCr (← fin32F n 19) (← fin32F n 14) (← fin32F n 9) (← enumF Width.ofCode n 0 1))
  | 0x3 => do unused n 1 8; pure (.sneCr (← fin32F n 19) (← fin32F n 14) (← fin32F n 9) (← enumF Width.ofCode n 0 1))
  | 0x4 => do unused n 1 8; pure (.cselCr (← fin32F n 19) (← fin32F n 14) (← fin32F n 9) (← enumF Width.ofCode n 0 1))
  | 0x5 => do unused n 1 13; pure (.movCr (← fin32F n 19) (← fin32F n 14) (← enumF Width.ofCode n 0 1))
  | 0x6 => do unused n 14 5; pure (.moviCi (← fin32F n 19) (← immF 14 n 0))
  | 0x7 => do unused n 16 3; pure (.movkCi (← fin32F n 19) (← fin4F n 14) (← immF 14 n 0))
  | 0x8 => do
    unused n 3 11
    pure (.extsCr (← fin32F n 19) (← fin32F n 14) (← enumF XWidth.ofCode n 1 2) (← enumF Width.ofCode n 0 1))
  | 0x9 => do
    unused n 3 11
    pure (.extzCr (← fin32F n 19) (← fin32F n 14) (← enumF XWidth.ofCode n 1 2) (← enumF Width.ofCode n 0 1))
  | 0xA => do unused n 0 1; unused n 7 2; pure (.bfiCr (← fin32F n 19) (← fin32F n 14) (← fin32F n 9) (← fin64F n 1))
  | 0xB => do
    unused n 2 7
    pure (.addsCr (← fin32F n 19) (← fin32F n 14) (← fin32F n 9) (← boolF n 1) (← enumF Width.ofCode n 0 1))
  | 0xC => do
    unused n 2 7
    pure (.subsCr (← fin32F n 19) (← fin32F n 14) (← fin32F n 9) (← boolF n 1) (← enumF Width.ofCode n 0 1))
  | 0xD => do unused n 1 13; pure (.absCr (← fin32F n 19) (← fin32F n 14) (← enumF Width.ofCode n 0 1))
  | 0xE => do unused n 1 13; pure (.negCr (← fin32F n 19) (← fin32F n 14) (← enumF Width.ofCode n 0 1))
  | 0xF => do
    unused n 4 5
    pure (.leaCr (← fin32F n 19) (← fin32F n 14) (← fin32F n 9) (← fin8F n 1) (← enumF Width.ofCode n 0 1))
  | _ => .error .notAnInstruction

/-- Control-core instructions by their fields, opcodes 0x50 to 0x5F. -/
def rawCore5 (n : Nat) : Except Reject Instr :=
  match fld n 24 4 with
  | 0x0 => do pure (.beq (← fin32F n 19) (← fin32F n 14) (← immF 14 n 0))
  | 0x1 => do pure (.bne (← fin32F n 19) (← fin32F n 14) (← immF 14 n 0))
  | 0x2 => do pure (.blt (← fin32F n 19) (← fin32F n 14) (← immF 14 n 0))
  | 0x3 => do pure (.bge (← fin32F n 19) (← fin32F n 14) (← immF 14 n 0))
  | 0x4 => do pure (.bltn (← fin32F n 19) (← fin32F n 14) (← immF 14 n 0))
  | 0x5 => do pure (.bgen (← fin32F n 19) (← fin32F n 14) (← immF 14 n 0))
  | 0x6 => do pure (.jmp (← immF 24 n 0))
  | 0x7 => do pure (.jal (← immF 24 n 0))
  | 0x8 => do unused n 0 14; unused n 19 5; pure (.jr (← fin32F n 14))
  | 0x9 => do pure (.ldg (← fin32F n 19) (← fin32F n 14) (← immF 12 n 2) (← enumF Size.ofCode n 0 2))
  | 0xA => do pure (.stg (← fin32F n 19) (← fin32F n 14) (← immF 12 n 2) (← enumF Size.ofCode n 0 2))
  | 0xB => do unused n 1 1; pure (.ldgf (← fin32F n 19) (← fin32F n 14) (← immF 12 n 2) (← boolF n 0))
  | 0xC => do unused n 0 2; pure (.stgf (← fin32F n 19) (← fin32F n 14) (← immF 12 n 2))
  | 0xD => do unused n 0 9; pure (.lnch (← fin32F n 19) (← fin32F n 14) (← fin32F n 9))
  | 0xE => do unused n 4 5; unused n 19 5; pure (.inj (← fin32F n 14) (← fin32F n 9) (← fin16F n 0))
  | 0xF => do unused n 3 11; pure (.snkr (← fin32F n 19) (← fin32F n 14) (← fin8F n 0))
  | _ => .error .notAnInstruction

/-- Control-core instructions by their fields, opcodes 0x60 to 0x6F. -/
def rawCore6 (n : Nat) : Except Reject Instr :=
  match fld n 24 4 with
  | 0x0 => do unused n 0 14; pure (.knwait (← fin32F n 19) (← fin32F n 14))
  | 0x1 => do unused n 14 5; pure (.srr (← fin32F n 19) (← enumF SysReg.ofCode n 0 14))
  | 0x2 => do unused n 14 5; pure (.srw (← fin32F n 19) (← enumF SysReg.ofCode n 0 14))
  | 0x3 => do unused n 0 24; pure .eret
  | 0x4 => do unused n 0 24; pure .wfe
  | 0x5 => do unused n 0 14; pure (.qpop (← fin32F n 19) (← fin32F n 14))
  | 0x6 => do unused n 0 9; unused n 19 5; pure (.qdone (← fin32F n 14) (← fin32F n 9))
  | 0x7 => do unused n 0 14; unused n 19 5; pure (.irq (← fin32F n 14))
  | 0x8 => do unused n 5 19; pure (.gfence (← enumF FenceKind.ofCode n 3 2) (← enumF Scope.ofCode n 0 3))
  | 0x9 => do
    unused n 7 2
    pure (.gamo (← fin32F n 19) (← fin32F n 14) (← fin32F n 9) (← enumF Width.ofCode n 6 1) (← enumF GOrder.ofCode n 4 2) (← enumF GamoOp.ofCode n 0 4))
  | _ => .error .notAnInstruction

/-- Control-core instructions by their fields, opcodes 0xF0 to 0xFF. -/
def rawCoreF (n : Nat) : Except Reject Instr :=
  match fld n 24 4 with
  | 0x0 => do unused n 1 18; pure (.qrdCi (← fin32F n 19) (← boolF n 0))
  | 0x1 => do unused n 0 14; unused n 19 5; pure (.qarmCi (← fin32F n 14))
  | 0x2 => do unused n 19 5; pure (.trcCi (← fin32F n 14) (← immF 14 n 0))
  | 0x3 => do unused n 1 18; pure (.timeCi (← fin32F n 19) (← boolF n 0))
  | 0x6 => do unused n 2 17; pure (.emtrCi (← fin32F n 19) (← enumF Meter.ofCode n 0 2))
  | 0x7 => do unused n 0 19; pure (.heatqCi (← fin32F n 19))
  | _ => .error .notAnInstruction

/-- The fields of a control-core word read as R60, R67, R68 and R73 lay them out. -/
def rawCore (n : Nat) : Except Reject Instr :=
  match fld n 28 4 with
  | 0x2 => rawCore2 n
  | 0x3 => rawCore3 n
  | 0x4 => rawCore4 n
  | 0x5 => rawCore5 n
  | 0x6 => rawCore6 n
  | 0xF => rawCoreF n
  | _ => .error .notAnInstruction

/-- The fields of a word, read for an engine. -/
def rawDecode : Engine → Nat → Except Reject Instr
  | .station _, n => rawStation n
  | .core, n => rawCore n

/-- The decoder: the fields of the word, and then the checks of the engine that fetches it (R84, R86). -/
def decode (e : Engine) (w : Word) : Except Reject Instr := do
  let i ← rawDecode e w.toNat
  if i.wf e then pure i else .error .rejectedHere

/-- The word at the head of a list of bytes, least significant byte first (R5). -/
def wordOfBytes : List Byte → Option (Word × List Byte)
  | b0 :: b1 :: b2 :: b3 :: rest =>
      some (BitVec.ofNat 32 (b0.toNat + b1.toNat * 2 ^ 8 + b2.toNat * 2 ^ 16 + b3.toNat * 2 ^ 24), rest)
  | _ => none

/-- The bytes of a word, least significant byte first (R5). -/
def bytesOfWord (w : Word) : List Byte :=
  [w.extractLsb' 0 8, w.extractLsb' 8 8, w.extractLsb' 16 8, w.extractLsb' 24 8]

/-- The decoder on bytes: the instruction and the bytes after it. -/
def decodeBytes (e : Engine) (bs : List Byte) : Except Reject (Instr × List Byte) :=
  match wordOfBytes bs with
  | none => .error .truncated
  | some (w, rest) => do
      let i ← decode e w
      pure (i, rest)

/-- The engine that a word of the opcode table is tried on: a word that both a station and a control core accept is
taken as the station's (LOG 8, DESIGN CHOICE; the hardware decides by which engine fetches it). -/
def engineOf (w : Word) : Option (Engine × Instr) :=
  match decode (.station .compute) w with
  | .ok i => some (.station .compute, i)
  | .error _ =>
    match decode (.station .bobbin) w with
    | .ok i => some (.station .bobbin, i)
    | .error _ =>
      match decode .core w with
      | .ok i => some (.core, i)
      | .error _ => none

/-- The instruction that the decoder reads from the bits of a row of spec/opcode_table.json. -/
def decodeTableWord (nbits w : Nat) : Option Instr :=
  match wordOfBytes (bytesOfWord (BitVec.ofNat 32 (w % 2 ^ nbits))) with
  | some (v, _) => (engineOf v).map (·.2)
  | none => none

/-- A value in its place in a word. -/
def shl (v lo : Nat) : Nat := v * 2 ^ lo

/-- A word from its opcode and fixed bits and its fields. -/
def join (base : Nat) (fields : List Nat) : Nat := fields.foldl (· + ·) base


/-- The instruction word as a number, field by field (R58 to R73); a step without an encoding gives 0, which is
no instruction (R74). -/
def encodeNat : Instr → Nat
  | .emit s r => join 0x02000000 [shl s.code 20, shl r.val 16]
  | .emit2 s r q => join 0x03000000 [shl s.code 20, shl r.val 16, shl q.val 12]
  | .emitt s r => join 0x04000000 [shl s.val 20, shl r.val 16]
  | .emitn r => join 0x05000000 [shl r.val 16]
  | .emitr s r p => join 0x06000000 [shl s.code 20, shl r.val 16, shl p.code 8]
  | .exit s k n => join 0x07000000 [shl s.code 20, shl k.val 16, shl n.toNat 8]
  | .exits s k i => join 0x08000000 [shl s.code 20, shl k.val 16, i.toNat]
  | .tget d f => join 0x09000000 [shl d.val 20, f.code]
  | .tset a f => join 0x0A000000 [shl a.code 16, f.code]
  | .tadd a f => join 0x0B000000 [shl a.code 16, f.code]
  | .lgate d => join 0x0C000000 [shl d.val 20]
  | .steer s t f p => join 0x0E000000 [shl s.code 20, shl t.val 16, shl f.val 12, shl p.code 8]
  | .thin s r p g => join 0x0F000000 [shl s.code 20, shl r.val 16, shl p.code 8, g.toNat]
  | .thend r => join 0x10000000 [shl r.val 16]
  | .sinkw s k => join 0x11000000 [shl s.code 20, k.val]
  | .drop r => join 0x12000000 [shl r.val 16]
  | .trap c => join 0x13000000 [c.toNat]
  | .add d a b w => join 0x20000000 [shl d.val 20, shl a.code 16, shl b.code 12, w.code]
  | .sub d a b w => join 0x21000000 [shl d.val 20, shl a.code 16, shl b.code 12, w.code]
  | .addi d a i => join 0x22000000 [shl d.val 20, shl a.code 16, i.toNat]
  | .mul d a b w => join 0x23000000 [shl d.val 20, shl a.code 16, shl b.code 12, w.code]
  | .mulh d a b w => join 0x24000000 [shl d.val 20, shl a.code 16, shl b.code 12, w.code]
  | .mulhn d a b w => join 0x25000000 [shl d.val 20, shl a.code 16, shl b.code 12, w.code]
  | .div d a b w => join 0x26000000 [shl d.val 20, shl a.code 16, shl b.code 12, w.code]
  | .divn d a b w => join 0x27000000 [shl d.val 20, shl a.code 16, shl b.code 12, w.code]
  | .rem d a b w => join 0x28000000 [shl d.val 20, shl a.code 16, shl b.code 12, w.code]
  | .remn d a b w => join 0x29000000 [shl d.val 20, shl a.code 16, shl b.code 12, w.code]
  | .and d a b w => join 0x2A000000 [shl d.val 20, shl a.code 16, shl b.code 12, w.code]
  | .or d a b w => join 0x2B000000 [shl d.val 20, shl a.code 16, shl b.code 12, w.code]
  | .xor d a b w => join 0x2C000000 [shl d.val 20, shl a.code 16, shl b.code 12, w.code]
  | .andn d a b w => join 0x2D000000 [shl d.val 20, shl a.code 16, shl b.code 12, w.code]
  | .andi d a i => join 0x2E000000 [shl d.val 20, shl a.code 16, i.toNat]
  | .ori d a i => join 0x2F000000 [shl d.val 20, shl a.code 16, i.toNat]
  | .xori d a i => join 0x30000000 [shl d.val 20, shl a.code 16, i.toNat]
  | .shl d a b w => join 0x31000000 [shl d.val 20, shl a.code 16, shl b.code 12, w.code]
  | .shr d a b w => join 0x32000000 [shl d.val 20, shl a.code 16, shl b.code 12, w.code]
  | .sra d a b w => join 0x33000000 [shl d.val 20, shl a.code 16, shl b.code 12, w.code]
  | .shli d a w m => join 0x34000000 [shl d.val 20, shl a.code 16, shl w.code 6, m.val]
  | .shri d a w m => join 0x35000000 [shl d.val 20, shl a.code 16, shl w.code 6, m.val]
  | .srai d a w m => join 0x36000000 [shl d.val 20, shl a.code 16, shl w.code 6, m.val]
  | .rotl d a b w => join 0x37000000 [shl d.val 20, shl a.code 16, shl b.code 12, w.code]
  | .clz d a w => join 0x38000000 [shl d.val 20, shl a.code 16, w.code]
  | .ctz d a w => join 0x39000000 [shl d.val 20, shl a.code 16, w.code]
  | .popc d a w => join 0x3A000000 [shl d.val 20, shl a.code 16, w.code]
  | .min d a b w => join 0x3B000000 [shl d.val 20, shl a.code 16, shl b.code 12, w.code]
  | .minn d a b w => join 0x3C000000 [shl d.val 20, shl a.code 16, shl b.code 12, w.code]
  | .max d a b w => join 0x3D000000 [shl d.val 20, shl a.code 16, shl b.code 12, w.code]
  | .maxn d a b w => join 0x3E000000 [shl d.val 20, shl a.code 16, shl b.code 12, w.code]
  | .slt d a b w => join 0x3F000000 [shl d.val 20, shl a.code 16, shl b.code 12, w.code]
  | .sltn d a b w => join 0x40000000 [shl d.val 20, shl a.code 16, shl b.code 12, w.code]
  | .slti d a i => join 0x41000000 [shl d.val 20, shl a.code 16, i.toNat]
  | .seq d a b w => join 0x42000000 [shl d.val 20, shl a.code 16, shl b.code 12, w.code]
  | .sne d a b w => join 0x43000000 [shl d.val 20, shl a.code 16, shl b.code 12, w.code]
  | .csel d a b c w => join 0x44000000 [shl d.val 20, shl a.code 16, shl b.code 12, shl c.code 8, w.code]
  | .mov d a w => join 0x45000000 [shl d.val 20, shl a.code 16, w.code]
  | .movi d i => join 0x46000000 [shl d.val 20, i.toNat]
  | .movk d k i => join 0x47000000 [shl d.val 20, shl k.val 16, i.toNat]
  | .exts d a x w => join 0x48000000 [shl d.val 20, shl a.code 16, shl x.code 1, w.code]
  | .extz d a x w => join 0x49000000 [shl d.val 20, shl a.code 16, shl x.code 1, w.code]
  | .bfi d a b c l => join 0x4A000000 [shl d.val 20, shl a.code 16, shl b.code 12, shl c.code 8, shl l.val 1]
  | .adds d a b n w => join 0x4B000000 [shl d.val 20, shl a.code 16, shl b.code 12, shl n.toNat 1, w.code]
  | .subs d a b n w => join 0x4C000000 [shl d.val 20, shl a.code 16, shl b.code 12, shl n.toNat 1, w.code]
  | .abs d a w => join 0x4D000000 [shl d.val 20, shl a.code 16, w.code]
  | .neg d a w => join 0x4E000000 [shl d.val 20, shl a.code 16, w.code]
  | .lea d a b s w => join 0x4F000000 [shl d.val 20, shl a.code 16, shl b.code 12, shl s.val 1, w.code]
  | .addCr d a b w => join 0x20000000 [shl d.val 19, shl a.val 14, shl b.val 9, w.code]
  | .subCr d a b w => join 0x21000000 [shl d.val 19, shl a.val 14, shl b.val 9, w.code]
  | .addiCi d a i => join 0x22000000 [shl d.val 19, shl a.val 14, i.toNat]
  | .mulCr d a b w => join 0x23000000 [shl d.val 19, shl a.val 14, shl b.val 9, w.code]
  | .mulhCr d a b w => join 0x24000000 [shl d.val 19, shl a.val 14, shl b.val 9, w.code]
  | .mulhnCr d a b w => join 0x25000000 [shl d.val 19, shl a.val 14, shl b.val 9, w.code]
  | .divCr d a b w => join 0x26000000 [shl d.val 19, shl a.val 14, shl b.val 9, w.code]
  | .divnCr d a b w => join 0x27000000 [shl d.val 19, shl a.val 14, shl b.val 9, w.code]
  | .remCr d a b w => join 0x28000000 [shl d.val 19, shl a.val 14, shl b.val 9, w.code]
  | .remnCr d a b w => join 0x29000000 [shl d.val 19, shl a.val 14, shl b.val 9, w.code]
  | .andCr d a b w => join 0x2A000000 [shl d.val 19, shl a.val 14, shl b.val 9, w.code]
  | .orCr d a b w => join 0x2B000000 [shl d.val 19, shl a.val 14, shl b.val 9, w.code]
  | .xorCr d a b w => join 0x2C000000 [shl d.val 19, shl a.val 14, shl b.val 9, w.code]
  | .andnCr d a b w => join 0x2D000000 [shl d.val 19, shl a.val 14, shl b.val 9, w.code]
  | .andiCi d a i => join 0x2E000000 [shl d.val 19, shl a.val 14, i.toNat]
  | .oriCi d a i => join 0x2F000000 [shl d.val 19, shl a.val 14, i.toNat]
  | .xoriCi d a i => join 0x30000000 [shl d.val 19, shl a.val 14, i.toNat]
  | .shlCr d a b w => join 0x31000000 [shl d.val 19, shl a.val 14, shl b.val 9, w.code]
  | .shrCr d a b w => join 0x32000000 [shl d.val 19, shl a.val 14, shl b.val 9, w.code]
  | .sraCr d a b w => join 0x33000000 [shl d.val 19, shl a.val 14, shl b.val 9, w.code]
  | .shliCi d a w m => join 0x34000000 [shl d.val 19, shl a.val 14, shl w.code 6, m.val]
  | .shriCi d a w m => join 0x35000000 [shl d.val 19, shl a.val 14, shl w.code 6, m.val]
  | .sraiCi d a w m => join 0x36000000 [shl d.val 19, shl a.val 14, shl w.code 6, m.val]
  | .rotlCr d a b w => join 0x37000000 [shl d.val 19, shl a.val 14, shl b.val 9, w.code]
  | .clzCr d a w => join 0x38000000 [shl d.val 19, shl a.val 14, w.code]
  | .ctzCr d a w => join 0x39000000 [shl d.val 19, shl a.val 14, w.code]
  | .popcCr d a w => join 0x3A000000 [shl d.val 19, shl a.val 14, w.code]
  | .minCr d a b w => join 0x3B000000 [shl d.val 19, shl a.val 14, shl b.val 9, w.code]
  | .minnCr d a b w => join 0x3C000000 [shl d.val 19, shl a.val 14, shl b.val 9, w.code]
  | .maxCr d a b w => join 0x3D000000 [shl d.val 19, shl a.val 14, shl b.val 9, w.code]
  | .maxnCr d a b w => join 0x3E000000 [shl d.val 19, shl a.val 14, shl b.val 9, w.code]
  | .sltCr d a b w => join 0x3F000000 [shl d.val 19, shl a.val 14, shl b.val 9, w.code]
  | .sltnCr d a b w => join 0x40000000 [shl d.val 19, shl a.val 14, shl b.val 9, w.code]
  | .sltiCi d a i => join 0x41000000 [shl d.val 19, shl a.val 14, i.toNat]
  | .seqCr d a b w => join 0x42000000 [shl d.val 19, shl a.val 14, shl b.val 9, w.code]
  | .sneCr d a b w => join 0x43000000 [shl d.val 19, shl a.val 14, shl b.val 9, w.code]
  | .cselCr d a b w => join 0x44000000 [shl d.val 19, shl a.val 14, shl b.val 9, w.code]
  | .movCr d a w => join 0x45000000 [shl d.val 19, shl a.val 14, w.code]
  | .moviCi d i => join 0x46000000 [shl d.val 19, i.toNat]
  | .movkCi d k i => join 0x47000000 [shl d.val 19, shl k.val 14, i.toNat]
  | .extsCr d a x w => join 0x48000000 [shl d.val 19, shl a.val 14, shl x.code 1, w.code]
  | .extzCr d a x w => join 0x49000000 [shl d.val 19, shl a.val 14, shl x.code 1, w.code]
  | .bfiCr d a b l => join 0x4A000000 [shl d.val 19, shl a.val 14, shl b.val 9, shl l.val 1]
  | .addsCr d a b n w => join 0x4B000000 [shl d.val 19, shl a.val 14, shl b.val 9, shl n.toNat 1, w.code]
  | .subsCr d a b n w => join 0x4C000000 [shl d.val 19, shl a.val 14, shl b.val 9, shl n.toNat 1, w.code]
  | .absCr d a w => join 0x4D000000 [shl d.val 19, shl a.val 14, w.code]
  | .negCr d a w => join 0x4E000000 [shl d.val 19, shl a.val 14, w.code]
  | .leaCr d a b s w => join 0x4F000000 [shl d.val 19, shl a.val 14, shl b.val 9, shl s.val 1, w.code]
  | .beq a b o => join 0x50000000 [shl a.val 19, shl b.val 14, o.toNat]
  | .bne a b o => join 0x51000000 [shl a.val 19, shl b.val 14, o.toNat]
  | .blt a b o => join 0x52000000 [shl a.val 19, shl b.val 14, o.toNat]
  | .bge a b o => join 0x53000000 [shl a.val 19, shl b.val 14, o.toNat]
  | .bltn a b o => join 0x54000000 [shl a.val 19, shl b.val 14, o.toNat]
  | .bgen a b o => join 0x55000000 [shl a.val 19, shl b.val 14, o.toNat]
  | .jmp o => join 0x56000000 [o.toNat]
  | .jal o => join 0x57000000 [o.toNat]
  | .jr a => join 0x58000000 [shl a.val 14]
  | .ldg d a o z => join 0x59000000 [shl d.val 19, shl a.val 14, shl o.toNat 2, z.code]
  | .stg d a o z => join 0x5A000000 [shl d.val 19, shl a.val 14, shl o.toNat 2, z.code]
  | .ldgf d a o c => join 0x5B000000 [shl d.val 19, shl a.val 14, shl o.toNat 2, c.toNat]
  | .stgf d a o => join 0x5C000000 [shl d.val 19, shl a.val 14, shl o.toNat 2]
  | .lnch d a b => join 0x5D000000 [shl d.val 19, shl a.val 14, shl b.val 9]
  | .inj a b e => join 0x5E000000 [shl a.val 14, shl b.val 9, e.val]
  | .snkr d a k => join 0x5F000000 [shl d.val 19, shl a.val 14, k.val]
  | .knwait d a => join 0x60000000 [shl d.val 19, shl a.val 14]
  | .srr d r => join 0x61000000 [shl d.val 19, r.code]
  | .srw d r => join 0x62000000 [shl d.val 19, r.code]
  | .qpop d a => join 0x65000000 [shl d.val 19, shl a.val 14]
  | .qdone a b => join 0x66000000 [shl a.val 14, shl b.val 9]
  | .irq a => join 0x67000000 [shl a.val 14]
  | .gfence k s => join 0x68000000 [shl k.code 3, s.code]
  | .gamo d a b w r o => join 0x69000000 [shl d.val 19, shl a.val 14, shl b.val 9, shl w.code 6, shl r.code 4, o.code]
  | .sdef v a b y t w z => join 0x70000000 [shl v.val 20, shl a.code 16, shl b.code 12, y.codeBits, shl t.toNat 5, shl w.toNat 6, z.code]
  | .slen v a => join 0x71000000 [shl v.val 20, shl a.code 16]
  | .sgo v a => join 0x72000000 [shl v.val 20, shl a.code 16]
  | .lds d a b i => join 0x73000000 [shl d.val 20, shl a.code 16, shl b.val 12, shl i.val 7]
  | .sts v a b i => join 0x74000000 [shl v.code 20, shl a.code 16, shl b.val 12, shl i.val 7]
  | .ldsp d a b i x z => join 0x75000000 [shl d.val 20, shl a.code 16, shl b.code 12, shl i.val 7, shl x.toNat 2, z.code]
  | .stsp v a b i z => join 0x76000000 [shl v.code 20, shl a.code 16, shl b.code 12, shl i.val 7, z.code]
  | .ldf d a b i c x z => join 0x77000000 [shl d.val 20, shl a.code 16, shl b.code 12, shl i.val 7, shl c.toNat 3, shl x.toNat 2, z.code]
  | .stf v a b i z => join 0x78000000 [shl v.code 20, shl a.code 16, shl b.code 12, shl i.val 7, z.code]
  | .fec a b i m => join 0x79000000 [shl a.code 16, shl b.code 12, shl i.val 7, m.toNat]
  | .feq d a i m => join 0x7A000000 [shl d.val 20, shl a.code 16, shl i.val 7, m.toNat]
  | .gath v b => join 0x7B000000 [shl v.code 20, shl b.val 12]
  | .scat v a b i => join 0x7C000000 [shl v.code 20, shl a.code 16, shl b.val 12, shl i.val 7]
  | .scadd v a b i t => join 0x7D000000 [shl v.code 20, shl a.code 16, shl b.val 12, shl i.val 7, t.code]
  | .scflush b s => join 0x7E000000 [shl b.val 12, s.code]
  | .copy v a b i y x => join 0x7F000000 [shl v.code 20, shl a.code 16, shl b.code 12, shl i.val 7, shl y.toNat 1, x.toNat]
  | .cpstat d i => join 0x80000000 [shl d.val 20, shl i.val 7]
  | .pref a b => join 0x81000000 [shl a.code 16, shl b.code 12]
  | .sbar m n s => join 0x82000000 [shl m.toNat 20, shl n.toNat 12, s.code]
  | .ldm d a b i x z => join 0x83000000 [shl d.val 20, shl a.code 16, shl b.code 12, shl i.val 7, shl x.toNat 2, z.code]
  | .stm v a b i z => join 0x84000000 [shl v.code 20, shl a.code 16, shl b.code 12, shl i.val 7, z.code]
  | .ldmf d a b i c x z => join 0x85000000 [shl d.val 20, shl a.code 16, shl b.code 12, shl i.val 7, shl c.toNat 3, shl x.toNat 2, z.code]
  | .stmf v a b i z => join 0x86000000 [shl v.code 20, shl a.code 16, shl b.code 12, shl i.val 7, z.code]
  | .tld t a b i p => join 0x87000000 [shl t.val 20, shl a.code 16, shl b.code 12, shl i.val 7, p.toNat]
  | .tst t a b i p => join 0x88000000 [shl t.val 20, shl a.code 16, shl b.code 12, shl i.val 7, p.toNat]
  | .fence k s => join 0x90000000 [shl k.code 3, s.code]
  | .barj d a s => join 0x92000000 [shl d.val 20, shl a.code 16, s.code]
  | .aadd d a b i o w => join 0x93000000 [shl d.val 20, shl a.code 16, shl b.code 12, shl i.val 7, o.codeBits, w.code]
  | .amin d a b i o w => join 0x94000000 [shl d.val 20, shl a.code 16, shl b.code 12, shl i.val 7, o.codeBits, w.code]
  | .amax d a b i o w => join 0x95000000 [shl d.val 20, shl a.code 16, shl b.code 12, shl i.val 7, o.codeBits, w.code]
  | .aminn d a b i o w => join 0x96000000 [shl d.val 20, shl a.code 16, shl b.code 12, shl i.val 7, o.codeBits, w.code]
  | .amaxn d a b i o w => join 0x97000000 [shl d.val 20, shl a.code 16, shl b.code 12, shl i.val 7, o.codeBits, w.code]
  | .aand d a b i o w => join 0x98000000 [shl d.val 20, shl a.code 16, shl b.code 12, shl i.val 7, o.codeBits, w.code]
  | .aor d a b i o w => join 0x99000000 [shl d.val 20, shl a.code 16, shl b.code 12, shl i.val 7, o.codeBits, w.code]
  | .axor d a b i o w => join 0x9A000000 [shl d.val 20, shl a.code 16, shl b.code 12, shl i.val 7, o.codeBits, w.code]
  | .axchg d a b i o w => join 0x9B000000 [shl d.val 20, shl a.code 16, shl b.code 12, shl i.val 7, o.codeBits, w.code]
  | .acas d a b i o w => join 0x9C000000 [shl d.val 20, shl a.code 16, shl b.code 12, shl i.val 7, o.codeBits, w.code]
  | .afadd d a b i o => join 0x9D000001 [shl d.val 20, shl a.code 16, shl b.code 12, shl i.val 7, o.codeBits]
  | .call n i => join 0xA0000000 [shl n.val 16, i.toNat]
  | .callf n i => join 0xA1000000 [shl n.val 16, i.toNat]
  | .instid d => join 0xA3000000 [shl d.val 20]
  | .areaq d h w => join 0xA4000000 [shl d.val 20, shl h.toNat 8, w.toNat]
  | .knotq d i => join 0xA5000000 [shl d.val 20, i.toNat]
  | .vadd d a b r => join 0xB0000000 [shl d.val 20, shl a.val 16, shl b.val 12, r.code]
  | .vsub d a b r => join 0xB1000000 [shl d.val 20, shl a.val 16, shl b.val 12, r.code]
  | .vmul d a b r => join 0xB2000000 [shl d.val 20, shl a.val 16, shl b.val 12, r.code]
  | .vfma d a b r => join 0xB3000000 [shl d.val 20, shl a.val 16, shl b.val 12, r.code]
  | .vmin d a b => join 0xB4000000 [shl d.val 20, shl a.val 16, shl b.val 12]
  | .vmax d a b => join 0xB5000000 [shl d.val 20, shl a.val 16, shl b.val 12]
  | .vabs d a => join 0xB6000000 [shl d.val 20, shl a.val 16]
  | .vneg d a => join 0xB7000000 [shl d.val 20, shl a.val 16]
  | .vrcp d a r => join 0xB8000000 [shl d.val 20, shl a.val 16, r.code]
  | .vrsq d a r => join 0xB9000000 [shl d.val 20, shl a.val 16, r.code]
  | .vexp2 d a r => join 0xBA000000 [shl d.val 20, shl a.val 16, r.code]
  | .vlog2 d a r => join 0xBB000000 [shl d.val 20, shl a.val 16, r.code]
  | .vcvt d a b f r => join 0xBC000000 [shl d.val 20, shl a.val 16, shl b.val 12, shl f.toNat 3, r.code]
  | .vscl d a b k r => join 0xBD000000 [shl d.val 20, shl a.val 16, shl b.val 12, shl k.val 3, r.code]
  | .vreds d a b => join 0xBE000000 [shl d.val 20, shl a.val 16, shl b.val 12]
  | .vredx d a b => join 0xBF000000 [shl d.val 20, shl a.val 16, shl b.val 12]
  | .vcmp d a b p => join 0xC0000000 [shl d.val 20, shl a.val 16, shl b.val 12, shl p.code 3]
  | .vsel d a b m => join 0xC1000000 [shl d.val 20, shl a.val 16, shl b.val 12, shl m.val 5]
  | .vbcast d a => join 0xC2000000 [shl d.val 20, shl a.code 16]
  | .vext d a b c => join 0xC3000000 [shl d.val 20, shl a.val 16, shl b.val 12, c.toNat]
  | .vdot d a b r => join 0xC4000000 [shl d.val 20, shl a.val 16, shl b.val 12, shl r.val 3]
  | .vshf d a b => join 0xC5000000 [shl d.val 20, shl a.val 16, shl b.val 12]
  | .fadd d a b f r => join 0xC6000000 [shl d.val 20, shl a.code 16, shl b.code 12, shl f.code 3, r.code]
  | .fsub d a b f r => join 0xC7000000 [shl d.val 20, shl a.code 16, shl b.code 12, shl f.code 3, r.code]
  | .fmul d a b f r => join 0xC8000000 [shl d.val 20, shl a.code 16, shl b.code 12, shl f.code 3, r.code]
  | .ffma d a b c f r => join 0xC9000000 [shl d.val 20, shl a.code 16, shl b.code 12, shl c.code 8, shl f.code 3, r.code]
  | .fcvt d a s x r => join 0xCA000000 [shl d.val 20, shl a.code 16, shl s.code 8, shl x.code 5, r.code]
  | .fcmp d a b p f => join 0xCB000000 [shl d.val 20, shl a.code 16, shl b.code 12, shl p.code 5, shl f.code 3]
  | .fmin d a b f => join 0xCC000000 [shl d.val 20, shl a.code 16, shl b.code 12, shl f.code 3]
  | .fmax d a b f => join 0xCD000000 [shl d.val 20, shl a.code 16, shl b.code 12, shl f.code 3]
  | .vseed a => join 0xCE000000 [shl a.code 16]
  | .tcfg d a w b => join 0xD0000000 [shl d.val 20, shl a.val 16, shl w.code 4, b.val]
  | .tzero d => join 0xD1000000 [shl d.val 20]
  | .tmov d a => join 0xD2000000 [shl d.val 20, shl a.val 16]
  | .txp d a => join 0xD3000000 [shl d.val 20, shl a.val 16]
  | .mma a b c => join 0xD4000000 [shl a.val 16, shl b.val 12, shl c.val 9]
  | .mmas s a b c => join 0xD5000000 [shl s.val 20, shl a.val 16, shl b.val 12, shl c.val 9]
  | .accrd n s c r f => join 0xD6000000 [shl n.val 20, shl s.code 16, shl c.val 9, shl r.code 6, f.toNat]
  | .accld a c => join 0xD8000000 [shl a.val 16, shl c.val 9]
  | .wpre a => join 0xD9000000 [shl a.val 16]
  | .afeed a => join 0xDA000000 [shl a.val 16]
  | .plstat d => join 0xDB000000 [shl d.val 20]
  | .hfw a r f => join 0xE0000000 [shl a.code 16, shl r.code 4, f.val]
  | .hfr d r f => join 0xE1000000 [shl d.val 20, shl r.code 4, f.val]
  | .hash n a b f => join 0xE2000000 [shl n.val 20, shl a.code 16, shl b.code 12, f.val]
  | .tins v a b i f => join 0xE3000000 [shl v.code 20, shl a.code 16, shl b.code 12, shl i.val 7, f.val]
  | .tdel v a b i f => join 0xE4000000 [shl v.code 20, shl a.code 16, shl b.code 12, shl i.val 7, f.val]
  | .tprb n a b f => join 0xE5000000 [shl n.val 20, shl a.code 16, shl b.code 12, f.val]
  | .trhs v a i => join 0xE6000000 [shl v.code 20, shl a.code 16, shl i.val 7]
  | .tfen a s => join 0xE7000000 [shl a.code 16, s.code]
  | .tstat d a => join 0xE8000000 [shl d.val 20, shl a.code 16]
  | .tovp a i p => join 0xE9000000 [shl a.code 16, shl i.val 7, p.code]
  | .qrd d s => join 0xF0000000 [shl d.val 20, s.toNat]
  | .qarm a => join 0xF1000000 [shl a.code 16]
  | .trc a c => join 0xF2000000 [shl a.code 16, c.toNat]
  | .time d f => join 0xF3000000 [shl d.val 20, f.toNat]
  | .emtr d c => join 0xF6000000 [shl d.val 20, c.code]
  | .heatq d => join 0xF7000000 [shl d.val 20]
  | .qrdCi d s => join 0xF0000000 [shl d.val 19, s.toNat]
  | .qarmCi a => join 0xF1000000 [shl a.val 14]
  | .trcCi a c => join 0xF2000000 [shl a.val 14, c.toNat]
  | .timeCi d f => join 0xF3000000 [shl d.val 19, f.toNat]
  | .emtrCi d c => join 0xF6000000 [shl d.val 19, c.code]
  | .heatqCi d => join 0xF7000000 [shl d.val 19]
  | .nop => 0x01000000
  | .lfree => 0x0D000000
  | .eret => 0x63000000
  | .wfe => 0x64000000
  | .stilePlot => 0x91000001
  | .stileDie => 0x91000002
  | .stileDevice => 0x91000003
  | .stileSystem => 0x91000004
  | .ret => 0xA2000000
  | .accclr0 => 0xD7000000
  | .accclr1 => 0xD7000200
  | .accclr2 => 0xD7000400
  | .accclr3 => 0xD7000600
  | .accclr4 => 0xD7000800
  | .accclr5 => 0xD7000A00
  | .accclr6 => 0xD7000C00
  | .accclr7 => 0xD7000E00
  | .prio0 => 0xF4000000
  | .prio1 => 0xF4000001
  | .prio2 => 0xF4000002
  | .prio3 => 0xF4000003
  | .prio4 => 0xF4000004
  | .prio5 => 0xF4000005
  | .prio6 => 0xF4000006
  | .prio7 => 0xF4000007
  | .yield => 0xF5000000
  | .tokenArrival => 0
  | .frameFire => 0
  | .firingCommit => 0
  | .frameResume => 0
  | .entryReturn => 0
  | .loopCredit => 0
  | .barrierJoin => 0
  | .sinkWrite => 0
  | .callRequest => 0
  | .spawnRequest => 0
  | .placementStart => 0
  | .placementCommit => 0
  | .commitAcknowledged => 0
  | .placementAbort => 0
  | .evictionStart => 0
  | .evictionComplete => 0
  | .savedGranuleTest => 0
  | .areaArbiterPass => 0
  | .fencedToken => 0
  | .sweepArrival => 0
  | .strandElementIssue => 0
  | .memoryRequest => 0
  | .walkReadComplete => 0
  | .accessReturn => 0
  | .rdcInvalidation => 0
  | .binApply => 0
  | .copyGranule => 0
  | .heatBucketCycle => 0
  | .matrixEntryStart => 0
  | .matrixEntryEnd => 0
  | .partialArrival => 0
  | .thicketProbe => 0
  | .thicketUpdate => 0
  | .interrupt => 0
  | .notifyWrite => 0
  | .packetRead => 0
  | .hostRingPoll => 0
  | .faultRingPoll => 0
  | .flitCrcFail => 0
  | .timeMessage => 0
  | .columnMeasurement => 0
  | .energyDebit => 0
  | .grantUpdate => 0
  | .sliceTick => 0
  | .markerInjection => 0
  | .stationSave => 0
  | .hedgerowDrainComplete => 0
  | .partitionSaveComplete => 0
  | .correctedError => 0
  | .sramUncorrectable => 0
  | .tagUncorrectable => 0
  | .hbmPoison => 0
  | .remapTableLoss => 0
  | .powerOnReset => 0
  | .faladeVerify => 0
  | .supplyRaise => 0
  | .hbmTrain => 0
  | .microcodeVerify => 0
  | .simiowTrain => 0
  | .powerDieFault => 0
  | .flashRecovery => 0
  | .registerWrite => 0
  | .scrub => 0
  | .assign => 0
  | .release => 0
  | .fotFrameComplete => 0
  | .tlbinvAll => 0
  | .tlbinvStage1 => 0
  | .tlbinvStage2 => 0
  | .tlbinvComplete => 0
  | .pageResponseResolved => 0
  | .pageResponseFailedHost => 0
  | .pageResponseFailedTenant => 0
  | .qiCfgWrite => 0
  | .cecountClear => 0
  | .uecountClear => 0
  | .attreq => 0
  | .attestationReport => 0
  | .run => 0
  | .doorbell => 0
  | .ctlWrite => 0
  | .quotaWrite => 0
  | .qadd => 0
  | .warnWrite => 0
  | .areaWrite => 0
  | .save => 0
  | .resume => 0
  | .killall => 0
  | .reset => 0
  | .killinst => 0
  | .resumeinst => 0
  | .resumeFault => 0
  | .discardFault => 0
  | .knotreg => 0
  | .hfree => 0
  | .eventsClear => 0
  | .curvfWrite => 0
  | .illegal => 0
  | .fetch => 0
  | .portRetrain => 0
  | .hostWindowAccess => 0
  | .powerOff => 0
  | .mapOutListClear => 0

/-- The word of a well-formed instruction. -/
def encode (i : Instr) : Word := BitVec.ofNat 32 (encodeNat i)

end Sys2Proof
end

