-- ==== Sys2Proof/Machine/State.lean ====
section
/-!
DEFINITION. The state of the device as plain data, and its value right after reset. INVENTORY.md lists each piece with the
rule of spec/ that names it and its reset value. A `Map` is a list of keyed entries with rising keys; an absent key stands
for the default entry that the reading operation names.
-/

namespace Sys2Proof.Machine

/-- Entries with rising keys. -/
abbrev Map (α : Type) := List (Nat × α)

/-! ### Tokens and tiles -/

/-- A tile: the bits of 16 rows of 384 bytes (row r from bit 3072 r up) and a shape (R21, R120, R360). -/
structure Tile where
  rows : Nat := 16
  rowBytes : Nat := 384
  width : TWidth := .w32
  bits : BitVec 49152 := 0
deriving DecidableEq, Repr

/-- What a token carries (R117). -/
inductive Payload where
  | word (v : Double)
  | tile (t : Tile)
  | null
deriving DecidableEq, Repr

/-- What a release waits for: the accesses named have been performed at the scope, seen from the die (R265, R269). -/
structure Hold where
  scope : Scope
  die : Fin 2
  uids : List Nat
deriving DecidableEq, Repr

/-- The release that a token makes: what it waits for before it leaves, and the accesses that happen before its consumer when it
carries one (R269, R271, R276). -/
structure TokRel where
  holds : List Hold := []
  before : Option (List Nat) := none
deriving DecidableEq, Repr

/-- A token: routing header, tag and payload (R116 to R118). -/
structure Token where
  header : BitVec 48
  tag : BitVec 64
  payload : Payload
deriving DecidableEq, Repr

/-- A token under way on the operand network. -/
structure Flight where
  tok : Token
  /-- Its name, taken when it enters the network. -/
  uid : Nat := 0
  /-- The station that sent it; none for a token of the control network or of an engine. -/
  src : Option Loc := none
  /-- The instance that sent it, for the order of its arc (R28). -/
  from_ : Nat := 0
  /-- The firing that sent it, which commits only once the token has entered the router (R143). -/
  fid : Nat := 0
  /-- The releases that it waits for before it leaves (R269, R279). -/
  holds : List Hold := []
  /-- The accesses that happen before its consumer, when it carries a release (R269, R271). -/
  before : Option (List Nat) := none
  /-- A waiting argument token lies in the Hedgerow, not in the out-buffer (R53, R318). -/
  inBank : Bool := false
  /-- Its tile payload waits in the Hedgerow bank, not in the tile staging area (R134). -/
  payBank : Bool := false
  /-- Records of the spill arena, by address and number, that hold what it had in the bank (R403). -/
  recs : List (Nat × Nat) := []
  /-- The padding nulls of one THEND share this name, and with it one entry of the out-buffer; 0: an entry of its own (R159). -/
  pad : Nat := 0
deriving DecidableEq, Repr

/-! ### Energy -/

/-- The classes of charged work of R425. -/
inductive Work where
  | scalar
  | wordHop
  | tileHop
  | mma16
  | mma8
  | mma4
  | hbmRead
  | hbmWrite
  | hedgerow
  /-- A record written to a fault or sampler ring (R427). -/
  | record
  /-- A cycle of a control core (R427). -/
  | coreCycle
  /-- A shared cost, in pJ (R427). -/
  | shared
  /-- A step of a Thicket engine's work (R370). -/
  | thicket
  /-- A line or a record that crosses a Simiow port (R425). -/
  | simiow
deriving DecidableEq, Repr

/-- Charged work of a microsecond: partition (128 and above: the device overhead pool), supply column, class, amount. -/
structure Charge where
  vf : Nat
  col : Nat
  work : Work
  count : Nat
deriving DecidableEq, Repr

/-! ### Context slots -/

/-- A thinning counter (R147, R148). -/
structure ThinCounter where
  /-- Target of the arc: DX, DY, SPRIG and SLOT of its routing word. -/
  target : Nat
  thread : Nat
  g : Nat
  c : Nat
  /-- 0 on the die, 1 in the Hedgerow bank, 2 in the spill arena. -/
  place : Nat := 0
  /-- Order of use. -/
  used : Nat := 0
  /-- The record of the spill arena that holds it. -/
  recs : List (Nat × Nat) := []
deriving DecidableEq, Repr

/-- A participant of a barrier generation, to be notified. -/
structure Joiner where
  st : Loc
  fid : Nat
  rank : Nat
  /-- Accesses that happen before the join (R283). -/
  before : List Nat
deriving DecidableEq, Repr

/-- A barrier word (R282). -/
structure Barrier where
  count : Nat := 0
  n : Nat := 0
  gen : Nat := 0
  joiners : List Joiner := []
deriving DecidableEq, Repr

/-- A context slot of a station (R75, R77, R119). -/
structure Ctx where
  word : BitVec 128 := 0
  sprigs : List (BitVec 64) := []
  routes : List (List (BitVec 64)) := []
  /-- The lease: the whole scratchpad, or empty (R218). -/
  leased : Bool := false
  /-- Temporaries that the slot's last firing left (R140). -/
  temps : Vector Double 8 := Vector.replicate 8 0
  tiles : Vector Tile 16 := Vector.replicate 16 {}
  accs : Vector (BitVec 8192) 8 := Vector.replicate 8 0
  /-- The weight register (R347). -/
  wr : Tile := {}
  /-- The rounding generator: S and N (R103). -/
  seed : BitVec 64 := 0
  rctr : BitVec 64 := 0
  thin : List ThinCounter := []
  q0 : List Double := []
  q1 : List Double := []
  allow : Nat := 0
  admitted : Nat := 0
  bars : Vector Barrier 8 := Vector.replicate 8 {}
  hstall : Nat := 0
  rretry : Nat := 0
  /-- Charged work of the slot at the station's meter site since the placement commit (R440). -/
  site : Map Nat := []
  /-- Tokens dropped by the tag-window check of the slot (R123). -/
  window : Nat := 0
  /-- The microsecond of the slot's last TAG_WINDOW record (R405). -/
  windowAt : Option Nat := none
  /-- YIELD: the context skips the next selection (R439). -/
  skipNext : Bool := false
  /-- Edges on which a stitch marker has arrived (R409). -/
  markers : List Nat := []
  /-- The slot has been saved and its Hedgerow rows are draining (R411). -/
  draining : Bool := false
deriving DecidableEq, Repr

/-! ### Frames and firings -/

/-- Where a frame entry lies (R128). -/
inductive Place where
  | onDie
  | bank
  | arena
  /-- Chosen to come back, from the bank or from the arena: it holds its place on the die, and a way of its set once it has one,
  until it lands (R131, R288). -/
  | chosen (fromBank hasWay : Bool)
deriving DecidableEq, Repr

/-- One slot of a frame. -/
structure SlotVal where
  present : Bool := false
  null : Bool := false
  value : Double := 0
  tile : Option Tile := none
  /-- The tile payload lies in the Hedgerow bank, else in the spill arena (R127). -/
  tileBank : Bool := true
  /-- The records of the spill arena that hold it there. -/
  recs : List (Nat × Nat) := []
  edge : Nat := 0
  /-- The accesses that the slot's token carried as a release. -/
  before : List Nat := []
deriving DecidableEq, Repr

/-- A frame entry (R124). -/
structure Frame where
  ctx : Nat := 0
  inst : Nat := 0
  sprig : Nat := 0
  /-- The tag of the frame's tokens. -/
  tag : BitVec 64 := 0
  slots : Vector SlotVal 4 := Vector.replicate 4 {}
  /-- Arrivals (COUNT), and how many of them carried a value. -/
  count : Nat := 0
  values : Nat := 0
  place : Place := .onDie
  /-- Its slot records in the spill arena, by address and number (R128, R132). -/
  recs : List (Nat × Nat) := []
  /-- Order of completion. -/
  completed : Option Nat := none
  /-- The cycle since which the frame has been ready (R135). -/
  readySince : Option Nat := none
deriving DecidableEq, Repr

/-- Why a firing has parked (R31, R142). -/
inductive Park where
  /-- In progress, not parked. -/
  | none
  /-- A sync load of the own scratchpad waits for its granule. -/
  | granule (g : Nat)
  /-- A memory access waits, at its home or for a fault. -/
  | access (uid : Nat)
  /-- LDS waits for an element of a strand. -/
  | element (strand : Nat) (i : Nat)
  /-- BARJ waits for its generation. -/
  | barrier
  /-- A barrier generation has been notified, with the rank. -/
  | notified (rank : Nat)
  /-- A frame trap or a border-port fault, by its record (R144, R248). -/
  | fault
  /-- Not parked: the firing waits for its FENCE while other firings of the station issue (R280). -/
  | fence
  /-- The condition has cleared; the firing goes on at its instruction. -/
  | cleared
deriving DecidableEq, Repr

/-- A token on the argument arc of a call site, waiting for the call request (R53, R318). -/
structure ArgTok where
  site : Nat
  arg : Nat
  flight : Flight
deriving DecidableEq, Repr

/-- A token on a crossing arc of a stile sprig, waiting for the release point (R277). -/
structure CrossTok where
  arc : Nat
  tag : BitVec 64
  payload : Payload
  /-- What the token itself releases, beside its stile. -/
  rel : TokRel
  /-- As in `Flight`. -/
  pad : Nat := 0
deriving DecidableEq, Repr

/-- A spawn request of a firing (R155, R311). -/
structure SpawnReq where
  entry : Nat
  value : Double
  otag : BitVec 64
deriving DecidableEq, Repr

/-- A firing: in progress, ended and not committed, or parked (R122, R138 to R143). -/
structure Firing where
  active : Bool := false
  id : Nat := 0
  ctx : Nat := 0
  inst : Nat := 0
  sprig : Nat := 0
  /-- The sprig's header (R56), and where its body starts in the instruction store. -/
  header : BitVec 64 := 0
  base : Nat := 0
  /-- Values of i0 to i3, and the mask that TGET NULLS reads (R125, R126, R139). -/
  vals : Vector Double 4 := Vector.replicate 4 0
  nullMask : BitVec 4 := 0
  /-- Null mode (R138). -/
  nullMode : Bool := false
  frame : Frame := {}
  tag : BitVec 64 := 0
  otag : BitVec 64 := 0
  t : Vector Double 8 := Vector.replicate 8 0
  /-- Position of the next instruction in the body. -/
  pos : Nat := 0
  claimed : BitVec 16 := 0
  exitDone : Bool := false
  /-- Exit arcs on which a token has been sent. -/
  exitsSent : BitVec 7 := 0
  lsids : BitVec 32 := 0
  /-- Tokens sent. -/
  sent : Nat := 0
  credits : Nat := 0
  calls : List (Nat × Nat) := []
  args : List ArgTok := []
  spawns : List SpawnReq := []
  retDone : Bool := false
  prio : Option Nat := none
  /-- Temporaries whose value is on its way, by access (R11). -/
  pendT : List (Nat × Nat) := []
  /-- A sync load or atomic after which the firing issues nothing until it returns (R256, R284). -/
  stall : Option Nat := none
  /-- The fraction that TIME latched (R438). -/
  latch : Option (BitVec 16) := none
  /-- Accesses that happen before the next instruction: the firing's own and those acquired (R271). -/
  before : List Nat := []
  /-- The firing's own accesses, with whether each is a load, sync load, atomic or BARJ (R279). -/
  own : List (Nat × Bool) := []
  /-- What the firing's FENCE waits for, while it has left the sprig engine to other firings (R280). -/
  fence : Option Hold := none
  /-- What later stores and tokens wait for after a FENCE of kind rel or full, and its scope (R279). -/
  relHold : Option Hold := none
  /-- The fence scope that later tokens carry as a release. -/
  tokRel : Option Scope := none
  /-- Crossing tokens of a stile sprig that wait for its release point (R277). -/
  crossing : List CrossTok := []
  /-- The stile's release point has been passed, what the release covers and what it still waits for (R277). -/
  stilePassed : Bool := false
  stileBefore : List Nat := []
  stileHold : List Hold := []
  park : Park := .none
  /-- Its fault has been discarded: it ends as null mode ends one when it is selected (R420). -/
  discard : Bool := false
  /-- A frame trap: a resume runs the firing again from its first instruction (R420). -/
  trapped : Bool := false
  /-- A part of the emit need that is still reserved, and the out-buffer entries that the firing has taken (R134). -/
  reserved : Nat := 0
  used : Nat := 0
  /-- While a THEND pads, the name of the out-buffer entry that its nulls share (R159). -/
  pad : Nat := 0
deriving DecidableEq, Repr

/-! ### Strands, scratchpad, matrix unit -/

/-- State of a strand record (R223). -/
inductive StrandState where
  | idle
  | armed
  | halted
  | finished
deriving DecidableEq, Repr

/-- The definition of a strand: what SDEF, SLEN and SGO set. -/
structure StrandDef where
  tagged : Bool := false
  store : Bool := false
  size : ESize := .e1
  dest : StrandDest := .sp
  base : Double := 0
  stride : Double := 0
  count : Nat := 0
  offset : Double := 0
  /-- Outgoing tag at SGO, the routing word of its arc and the firing that executed it (R226, R227). -/
  otag : BitVec 64 := 0
  route : BitVec 64 := 0
  fid : Nat := 0
  /-- STAGE of that firing's sprig, which its records name (R19, R149). -/
  stage : Nat := 0
  /-- The release of its tokens. -/
  rel : TokRel := {}
  /-- The name that its SGO took. -/
  id : Nat := 0
deriving DecidableEq, Repr

/-- A strand record (R223, R229). -/
structure Strand where
  d : StrandDef := {}
  next : Nat := 0
  done : Nat := 0
  st : StrandState := .finished
  faultSeq : Option Nat := none
  /-- The pending definition, and whether its SGO has been given (R229). -/
  pend : Option StrandDef := none
  pendGo : Bool := false
  /-- The pending definition comes from an SDEF, not from SLEN or SGO alone. -/
  pendDef : Bool := false
  /-- An SDEF has been executed since placement (R250). -/
  defd : Bool := false
  /-- Tagged stores performed since the SGO, by access: their count behind a faulted one is reported (R248). -/
  perf : List Nat := []
  /-- What elements issued after an SBAR wait for (R261). -/
  bar : List Hold := []
deriving DecidableEq, Repr

/-- What an entry of the matrix queue does (R350). -/
inductive MatOp where
  | mma (ta tb : Nat)
  | mmas (ta tb ts : Nat)
  | afeed (ta : Nat)
  | acctail
  | accclr
  | accld (ta : Nat)
  | accrd (arc : Nat) (scale : Option Double) (rm : Rm) (fmt : BitVec 6)
deriving DecidableEq, Repr

/-- An entry of the matrix queue (R350 to R353). -/
structure MatEntry where
  op : MatOp
  ctx : Nat
  inst : Nat
  acc : Nat
  /-- Outgoing tag, tag and firing at issue; a record of the product carries the firing's tag (R356). -/
  tag : BitVec 64
  ftag : BitVec 64 := 0
  fid : Nat
  sprig : Nat
  /-- The rounding generator of the slot when the entry was issued: an ACCRD draws from it (R103, R342). -/
  seed : BitVec 64 := 0
  rctr : BitVec 64 := 0
  started : Bool := false
  /-- The cycle since which its request for heat tokens waits; it has stalled; it has been granted (R354, R355). -/
  asked : Option Nat := none
  stalled : Bool := false
  granted : Bool := false
  /-- HSTALL has counted it: a product counts once, however often it stalls and runs (R366). -/
  counted : Bool := false
  /-- Runs that failed the residue check (R356). -/
  failed : Nat := 0
  /-- Its operand tiles have been read: a run after a failed check uses the same ones (R351, R356). -/
  kept : Bool := false
  /-- Operands read at the start (R351): two tiles and the scale tile; the tile that an ACCRD sends; the partial that an AFEED
  starts from, or that the tail adds. -/
  opA : Tile := {}
  opB : Tile := {}
  opS : Tile := {}
  part : Option (BitVec 8192) := none
  /-- An AFEED at the tail of its chain: its sum goes into A0 (R347, R358). -/
  tail : Bool := false
  /-- The release of the token that it sends, and whether its arc is a crossing arc (R276). -/
  rel : TokRel := {}
  crossing : Bool := false
deriving DecidableEq, Repr

/-- A pleach partial on a lane or waiting for its AFEED (R358). -/
structure Partial where
  ctx : Nat
  tag : BitVec 64
  sum : BitVec 8192
  arrived : Bool
  /-- It lies in the Hedgerow bank, beyond the 16 of the buffer (R358). -/
  inBank : Bool := false
  /-- Records of the spill arena that hold it, once its rows have gone back (R403). -/
  recs : List (Nat × Nat) := []
deriving DecidableEq, Repr

/-- What a release leaves at its location (R264, R270): its scope, where its agent stands, and the accesses that happen before
it. -/
structure Rel where
  scope : Scope
  die : Fin 2
  inst : Nat
  uids : List Nat
deriving DecidableEq, Repr

/-- A register of a context in the physical file of a compute station (R347). -/
inductive MatReg where
  | tile (k : Nat)
  | acc (k : Nat)
  | wr
deriving DecidableEq, Repr

/-- A register of a context slot. -/
structure SlotReg where
  ctx : Nat
  reg : MatReg
deriving DecidableEq, Repr

/-- A station (R20 to R22). -/
structure Station where
  ctxs : Vector Ctx 8 := Vector.replicate 8 {}
  /-- The shadow of a context slot that a placement is loading (R312). -/
  shadow : Map Ctx := []
  istore : Map Word := []
  frames : List Frame := []
  firing : Firing := {}
  ended : List Firing := []
  parked : List Firing := []
  rrCtx : Nat := 0
  rrSprig : Vector Nat 8 := Vector.replicate 8 0
  matq : List MatEntry := []
  sp : List Host.Cell := []
  spFull : List Nat := []
  spOwner : Option Nat := none
  /-- Releases that the bytes of the scratchpad carry, of STFs and atomics (R270). -/
  spRel : Map (List Rel) := []
  strands : Vector Strand 64 := Vector.replicate 64 {}
  pleach : List Partial := []
  /-- Registers in the physical file, least recently used first, and those that lie parked in the Hedgerow bank (R347). -/
  resident : List SlotReg := []
  parkedRegs : List SlotReg := []
  /-- Mapped out, by itself, after a residue fault (R356). -/
  mapped : Bool := false
deriving DecidableEq, Repr

/-- A supply column (R18, R354, R461, R462). -/
structure Column where
  tokens : Nat := 4096
  frac : Nat := 0
  req : Nat := 320
  grant : Nat := 320
  /-- Place of the round-robin over the column's compute stations. -/
  rr : Nat := 0
  /-- Residual shares by partition: of the microsecond that ends, and of the one before it, which are debited next (R426,
  R428). -/
  resid : Map Int := []
  residOld : Map Int := []
  /-- The energy of the microsecond that ends has been measured. -/
  measured : Bool := false
  /-- The readings of the last 64 microseconds, in pJ, the newest first (R25, R462). -/
  readings : List Nat := []
  /-- The microsecond of the last change of GRANT (R462). -/
  granted : Nat := 0
deriving DecidableEq, Repr

/-- A quad: Hedgerow bank and mapping (R24, R35, R424, R467). -/
structure Quad where
  retired : Bool := false
  mappedOut : Bool := false
deriving DecidableEq, Repr

/-! ### Memory side -/

/-- How an atomic combines (R284). -/
inductive AmoOp where
  | add
  | min
  | max
  | minn
  | maxn
  | and
  | or
  | xor
  | xchg
  | cas (expected : Double)
  | fadd
deriving DecidableEq, Repr

/-- What an access does at the serving slice. -/
inductive AccOp where
  | load (sext : Bool)
  | store (v : Nat)
  /-- A sync load: clear the granule or keep it (R256). -/
  | loadF (clear sext : Bool)
  | storeF (v : Nat)
  | fec
  | feq
  | amo (op : AmoOp) (v : Double) (sext : Bool)
  /-- TLD and TST: register, rows, bytes of a row, distance of rows; the bytes stored, row behind row. -/
  | tload (k : Fin 16) (rows rowBytes stride : Nat)
  | tstore (rows rowBytes stride v : Nat)
  /-- An element of a strand: record, index, the definition in force; the value stored. -/
  | elemLoad (rec i : Nat) (d : StrandDef)
  | elemStore (rec i : Nat) (d : StrandDef) (v : Nat)
  | scadd (rec i : Nat) (t : ScType) (d : StrandDef) (v : Double)
  /-- SCFLUSH: whether it waits for the sums, or only for the updates to be in their bins (R254). -/
  | scflush (rec : Nat) (sums : Bool)
  /-- A granule that a copy engine has written, or a write of a control core; only its performance is outstanding. -/
  | written
  | prefetch
deriving DecidableEq, Repr

/-- Who issued an access. -/
inductive Agent where
  | firing
  | strand
  | copy
  | core (c : Nat)
  | thicket
  | engine
deriving DecidableEq, Repr

/-- Where a walk stands (R231, R233, R235, R470): the intermediate address being translated by stage 2, and what it is for. -/
structure Walk where
  /-- Stage-1 level whose descriptor lies at ia; 4 when ia is the access's own. -/
  lvl1 : Nat
  ia : Nat
  /-- The physical address of ia, once stage 2 has given it. -/
  pa2 : Option Nat
  /-- Stage-2 level to be read next, and its table. -/
  lvl2 : Nat
  tbl2 : Nat
  /-- Stage-1 permissions found: 1 READ, 2 WRITE, 4 EXEC, 8 F/E; the log2 of the run. -/
  perm : Nat
  run : Nat
  /-- The translation came from a range entry. -/
  byRange : Bool
deriving DecidableEq, Repr

/-- How far an access has come (R470). -/
inductive AccState where
  | issued
  | walking (w : Walk)
  /-- A page request is outstanding at the port, by its request number (R213). -/
  | paged (req : Nat)
  /-- A sync load waits at its home for the granule. -/
  | syncWait
  | faulted
  /-- Value bound or write performed at the home; the return is under way. -/
  | served
  | returned
deriving DecidableEq, Repr

/-- An access under way. -/
structure Access where
  uid : Nat
  agent : Agent
  loc : Loc
  ctx : Nat
  inst : Nat
  vf : Nat
  fid : Nat
  op : AccOp
  va : Nat
  n : Nat
  lsid : Nat := 0
  tag : BitVec 64 := 0
  /-- STAGE of the sprig that it belongs to (R19). -/
  stage : Nat := 0
  td : Option Nat := none
  st : AccState := .issued
  pa : Nat := 0
  value : Nat := 0
  /-- A write that waits for the invalidation of the other die's RDC copy (R265). -/
  rdcLeft : Bool := false
  /-- Pieces written at their home: physical address and bytes. -/
  wrote : List (Nat × Nat) := []
  /-- A write to host memory that is not yet coherent with the host (R265). -/
  sysLeft : Bool := false
  holds : List Hold := []
  /-- A release: what an acquire that observes it takes over (R270). -/
  rel : Option Rel := none
  /-- An acquire, with its scope, and the accesses that it has taken over. -/
  acq : Option Scope := none
  obs : List Nat := []
  /-- Bytes served so far, for an access that crosses a page. -/
  prog : Nat := 0
  /-- Other lsids, by firing, that the access performs (R251). -/
  extra : List (Nat × Nat) := []
  faultSeq : Option Nat := none
deriving DecidableEq, Repr

/-- A COPY under way (R259). -/
structure Copy where
  uid : Nat
  loc : Loc
  ctx : Nat
  inst : Nat
  vf : Nat
  fid : Nat
  lsid : Nat
  src : Nat
  dst : Nat
  granules : Nat
  srcSp : Bool
  dstSp : Bool
  /-- Granules issued so far, in the order of R259. -/
  next : Nat := 0
  /-- Granules read and not yet written, with their bytes, and granules written. -/
  got : Map Nat := []
  moved : List Nat := []
  faulted : Bool := false
  holds : List Hold := []
  /-- A page request of its next granule is outstanding. -/
  paged : Option Nat := none
deriving DecidableEq, Repr

/-- An update waiting in a scatter-add bin (R253). -/
structure BinUpdate where
  pa : Nat
  n : Nat
  t : ScType
  value : Double
  /-- The strand's record, the element's place in memory order, and its index. -/
  strand : Nat
  seq : Nat
  i : Nat := 0
  /-- The element as it was issued: what a record of it names, and what a resume issues again (R247, R249). -/
  acc : Access
deriving DecidableEq, Repr

/-- A bin: the updates of one partition and one 64 KiB frame at a port (R253). -/
structure Bin where
  port : Nat
  vf : Nat
  frame : Nat
  ups : List BinUpdate
deriving DecidableEq, Repr

/-- An L2 line (R41, R43, R242). -/
structure Line where
  addr : Nat
  vf : Nat
  dirty : Bool
  /-- What memory still holds of a dirty line: 128 bytes and 8 full/empty bits. -/
  old : BitVec 1024
  oldFe : BitVec 8
deriving DecidableEq, Repr

/-- An RDC line: a clean copy on the die that does not home it (R41, R241). -/
structure RdcLine where
  die : Nat
  addr : Nat
  vf : Nat
  bytes : BitVec 1024
  fe : BitVec 8
deriving DecidableEq, Repr

/-- A cached stage-1 translation at a border port (ports 0 to 63, die 1 from 32 up) or a control core (64 up): the run of
2^run bytes that holds va maps to the run that holds ia, and the frame of va to the frame of pa (R234, R236). -/
structure Tlb1 where
  port : Nat
  vf : Nat
  va : Nat
  run : Nat
  ia : Nat
  pa : Nat
  /-- Permissions of stage 1 and of stage 2. -/
  perm : Nat
  perm2 : Nat
deriving DecidableEq, Repr

/-- A cached stage-2 translation of one 64 KiB frame (R236). -/
structure Tlb2 where
  die : Nat
  vf : Nat
  ia : Nat
  pa : Nat
  perm : Nat
deriving DecidableEq, Repr

/-- A range entry (R232). -/
structure Range where
  vabase : Nat
  iabase : Nat
  frames : Nat
  perm : Nat
deriving DecidableEq, Repr

/-- What waits for a page response. -/
inductive PageFor where
  | access (uid : Nat)
  | faultRing (vf : Nat)
  | sampRing (vf : Nat)
  | packet (qi : Nat)
  | completion (qi : Nat)
  | thicket (uid : Nat)
  | core (c : Nat)
  | copy (uid : Nat)
  | engine
  /-- A record of a spill arena of a function (R404). -/
  | arena (vf : Nat)
deriving DecidableEq, Repr

/-- An outstanding page request (R213, R214). -/
structure PageReq where
  port : Nat
  vf : Nat
  req : Nat
  gen : Nat
  ia : Nat
  va : Nat
  inWalk : Bool
  for_ : PageFor
  failed : Option Bool := none
deriving DecidableEq, Repr

/-- A hash family (R374). -/
structure Family where
  kind : BitVec 1 := 0
  dim : BitVec 14 := 0
  fmt : BitVec 6 := 0
  bits : BitVec 5 := 0
  tables : BitVec 5 := 0
  seed : BitVec 64 := 0
deriving DecidableEq, Repr

/-- What a request at a Thicket engine does (R370). -/
inductive ThOp where
  | hash
  | tprb
  | tins
  | tdel
  | trhs
  | tovp
  | tstat
deriving DecidableEq, Repr

/-- A line that a Thicket request has yet to read, of a bucket or of its chain: its address, the generation of its area, its
table, and the lines of the chain before it. -/
structure ThTodo where
  va : Nat
  gen : Nat
  table : Nat
  depth : Nat := 0
deriving DecidableEq, Repr

/-- A request at a Thicket engine (R384, R389). -/
structure ThReq where
  uid : Nat
  op : ThOp
  loc : Loc
  ctx : Nat
  inst : Nat
  vf : Nat
  fid : Nat
  /-- Addresses of the descriptor and of the vector; the family that the instruction names. -/
  desc : Nat
  vec : Nat := 0
  fam : Nat := 0
  /-- The engine, by its port over both dies. -/
  eng : Nat
  /-- Row id; count of a TRHS that is left; policy of a TOVP. -/
  row : Nat := 0
  /-- COUNT of a TRHS (R375). -/
  count : Nat := 0
  lsid : Nat := 0
  tag : BitVec 64 := 0
  /-- STAGE of the sprig that it belongs to (R19). -/
  stage : Nat := 0
  /-- The routing word of the result arc, and the release of its tokens. -/
  route : BitVec 64 := 0
  rel : TokRel := {}
  td : Option Nat := none
  /-- An update whose turn at its descriptor has come: others wait behind it until it is done, through page waits and halts
  (R384). -/
  turn : Bool := false
  /-- It has started, with the family registers as it found them (R374). -/
  started : Bool := false
  fams : List Family := []
  todo : List ThTodo := []
  /-- A probe: the descriptor as it read it (R382), distinct rows found, row tokens sent, a row beyond the 256 of the set, and that
  its descriptor had MIG = 1. -/
  dsc : Nat := 0
  found : List Nat := []
  sent : Nat := 0
  dup : Bool := false
  mig : Bool := false
  /-- Tables that refused a row (R379). -/
  mask : Nat := 0
  /-- An update that has been applied and waits for the probes of R381. -/
  applied : Bool := false
  /-- Its context has been saved and linked again since it was issued: it goes ahead of new requests (R388). -/
  resumed : Bool := false
  paged : Option Nat := none
  faulted : Bool := false
deriving DecidableEq, Repr

/-- The memory side. -/
structure MemSide where
  /-- Bytes of the physical space as the coherence point sees them: HBM below 2^51, host memory above (R42, R240). -/
  mem : List Host.Cell := []
  /-- Full granules (R220). -/
  fe : List Nat := []
  /-- Poisoned lines (R423). -/
  poison : List Nat := []
  /-- Frame ownership: STATE and OWNER by frame; an absent frame is FREE with owner 0 (R243). -/
  fot : Map (Nat × Nat) := []
  l2 : List Line := []
  rdc : List RdcLine := []
  tlb1 : List Tlb1 := []
  tlb2 : List Tlb2 := []
  ranges : Map (List Range) := []
  accesses : List Access := []
  copies : List Copy := []
  bins : List Bin := []
  thq : List ThReq := []
  pageReqs : List PageReq := []
  /-- Releases that the bytes of memory carry (R270). -/
  rels : Map (List Rel) := []
deriving DecidableEq, Repr

/-! ### Images and instances -/

/-- A call site of an image (R296). -/
structure Site where
  narg : Nat
  nres : Nat
  routes : List (BitVec 64)
deriving DecidableEq, Repr

/-- A station record of an image (R80). -/
structure StaRec where
  head : BitVec 64
  sprigs : List (BitVec 64)
  words : List Word
  routes : List (List (BitVec 64))
  /-- Bytes of the record and its offset in the image. -/
  off : Nat
  size : Nat
deriving DecidableEq, Repr

/-- A knot image as its validated copy holds it (R79, R82, R295 to R297). -/
structure Image where
  w : Nat
  h : Nat
  length : Nat
  pleach : Bool
  signed : Bool
  entries : List (BitVec 64)
  results : List Bool
  sites : List Site
  spawns : List (List (BitVec 64))
  stas : List StaRec
deriving DecidableEq, Repr

/-- State of an instance (R291). -/
inductive IState where
  | queued
  | placing
  | live
  | returning
  | evicting
  | saved
  | relinking
  | retired
  | killed
deriving DecidableEq, Repr

/-- What an instance is: a root, a callee (caller, call site, return tag), or a spawned successor. -/
inductive IKind where
  | root
  | callee (caller site : Nat) (rt : BitVec 64)
  | spawned
deriving DecidableEq, Repr

/-- The saved state of one station of an instance (R306). -/
structure SavedStation where
  dx : Nat
  dy : Nat
  ctx : Ctx
  frames : List Frame
  parked : List Firing
  ended : List Firing
  matq : List MatEntry
  strands : List Strand
  pleach : List Partial
deriving DecidableEq, Repr

/-- A message kept with a save image (R146): a loop credit or a barrier join; a notification reaches the parked joiner in
the image itself. -/
inductive SavedMsg where
  | credit
  | join (b n : Nat) (j : Joiner)
deriving DecidableEq, Repr

/-- A save image (R306), kept as data (LOG 13). -/
structure SaveImage where
  stations : List SavedStation := []
  toks : List Flight := []
  msgs : List SavedMsg := []
  bytes : Nat := 0
  /-- Its pages, by their number in the save arena; an eviction reserves them before it writes (R305, R404; LOG 57). -/
  pages : List Nat := []
deriving DecidableEq, Repr

/-- A sink register (R153). -/
structure Sink where
  value : Double := 0
  written : Bool := false
  null : Bool := false
deriving DecidableEq, Repr

/-- A record of a spill arena that waits for its page: its address, and what the arrival's record names if the page fails. -/
structure ArenaWait where
  va : Nat
  loc : Loc
  ctx : Nat
  stage : Nat
deriving DecidableEq, Repr

/-- The record of an instance at its Pricking engine (R290). -/
structure Inst where
  id : Nat
  vf : Nat
  die : Fin 2
  st : IState
  mark : Bool := false
  kidx : Nat
  img : Option Image := none
  qx : Nat := 0
  qy : Nat := 0
  folded : Bool := false
  slot : Nat := 0
  kind : IKind
  /-- The root record of its lineage (R310); a callee has none, and neither has a successor without a lineage root: 2^64. -/
  root : Nat := 2 ^ 64
  cls : Nat := 0
  prio : Nat := 0
  loopBase : Nat := 0
  thread : Nat := 0
  /-- CALLF: folding only. -/
  foldOnly : Bool := false
  /-- Argument reservations, result reservations (site, result) and entry reservations (R292). -/
  argRes : Nat := 0
  resRes : List (Nat × Nat) := []
  entRes : List Nat := []
  /-- Callees bound to its call sites, by 16 times the calling firing's name plus the site (R53, R318). -/
  callees : List (Nat × Nat) := []
  /-- For a callee: the site's result routes and result count, and the results already sent. -/
  resRoutes : List (BitVec 64) := []
  nargSite : Nat := 0
  nresSite : Nat := 0
  sentRes : List Nat := []
  /-- A callee's own sink registers; those of a root and of its successors stand in the root record (R121, R153, R310). -/
  sinks : Vector Sink 8 := Vector.replicate 8 {}
  retDone : Bool := false
  /-- Parked by the spill limit (R132), or a relink parked after a fetch fault (R314). -/
  spillPark : Bool := false
  fetchPark : Bool := false
  /-- Spill pages held, by their number in the pool, records in the last one, the overrun page taken (R132, R404). -/
  pages : List Nat := []
  inPage : Nat := 0
  overrun : Bool := false
  /-- Records of its spill arena whose page the host has yet to map (R404). -/
  unmapped : List ArenaWait := []
  /-- Argument tokens by entry, and tokens that a fence has diverted (entry 16), for delivery after the commit (R315, R317). -/
  held : List (Nat × Flight) := []
  /-- The first token of a spawned successor: entry and value and tag (R311). -/
  first : Option (Nat × Double × BitVec 64) := none
  /-- The accesses that happen before that token. -/
  firstBefore : List Nat := []
  save : Option SaveImage := none
  /-- While it is EVICTING, the bytes of its save image for which the spec gives no size (R305; LOG 13). -/
  saveSize : Option Nat := none
  /-- A relink is queued (R307). -/
  wantLink : Bool := false
  age : Nat := 0
  /-- Order of the last firing commit (R305). -/
  lastCommit : Nat := 0
  bypassed : Nat := 0
  /-- When it reached 8 bypasses (R309). -/
  blocking : Option Nat := none
  /-- The next test of saved granules (R307). -/
  tested : Nat := 0
deriving DecidableEq, Repr

/-- A root record (R196 to R199, R310). -/
structure Root where
  handle : Nat
  vf : Nat
  die : Fin 2
  inst : Nat
  core : Nat
  lineage : Nat
  status : Nat := 0
  /-- A kill or a refusal has given the status (R199). -/
  killed : Bool := false
  retired : Bool := false
  sinks : Vector Sink 8 := Vector.replicate 8 {}
  /-- INJ tokens held for the root while it is not placed (R197, R444). -/
  held : List (Nat × Flight) := []
  /-- Accesses that happen before the retirement (KNWAIT acquires, R199). -/
  before : List Nat := []
deriving DecidableEq, Repr

/-- A region fence (R315, R316): the rectangle, the fenced id, and the sweeps that have not arrived. -/
structure Fence where
  die : Fin 2
  qx : Nat
  qy : Nat
  w : Nat
  h : Nat
  inst : Nat
  /-- Sweeps have been sent, and those that have not arrived. -/
  swept : Bool := false
  sweeps : List Nat := []
deriving DecidableEq, Repr

/-- A sweep marker on an arc (R316): it arrives after the tokens of the arc sent before it. -/
structure Sweep where
  id : Nat
  fence : Nat
  from_ : Nat
  edge : Nat
  behind : List Nat := []
deriving DecidableEq, Repr

/-- The placement that a Pricking engine has under way (R304, R312). -/
inductive Phase where
  | loaded
  | committed
deriving DecidableEq, Repr

/-- A placement under way: the instance, its rectangle and slot, and how it was found. -/
structure Placement where
  inst : Nat
  qx : Nat
  qy : Nat
  slot : Nat
  folded : Bool
  how : Nat
  relink : Bool
  phase : Phase
  /-- Why it must abort, when it must, and what its record carries (R314, R417). -/
  abort : Option Nat := none
  abortArg : Nat := 0
deriving DecidableEq, Repr

/-- A validated copy (R82, R83): partition, index, image, order of use, and whether it lies in the cache or in the backing
store. -/
structure KnotCopy where
  vf : Nat
  idx : Nat
  img : Image
  used : Nat
  cached : Bool
deriving DecidableEq, Repr

/-- An index whose first use found no valid entry or an image that validation rejects, with the code and ARG that every use
reports until the index is written to KNOTREG (R85, R185, R317). -/
structure KnotBad where
  vf : Nat
  idx : Nat
  code : Nat
  arg : Nat
deriving DecidableEq, Repr

/-- A call request or a queued entry of the area arbiter is the instance itself; a die holds their order. -/
structure DieEng where
  knots : List KnotCopy := []
  bad : List KnotBad := []
  placing : Option Placement := none
  /-- Pending calls, oldest first (R304), and those that the next engine step has yet to try. -/
  calls : List Nat := []
  toTry : List Nat := []
  /-- Entries of the area arbiter: queued launches, successors and relinks (R309). -/
  queue : List Nat := []
  /-- The arbiter's choice, admitted and not yet placed. -/
  admitted : List Nat := []
  /-- Evictions under way. -/
  evicting : List Nat := []
  /-- Candidates whose save image did not fit, reported since room was last freed (R305). -/
  skipped : List Nat := []
  /-- Die-wide count for ages and orders. -/
  clock : Nat := 0
deriving DecidableEq, Repr

/-- A call or spawn request on its way to the engine (R155, R317). -/
structure EngReq where
  die : Fin 2
  inst : Nat
  loc : Loc
  /-- none: a call request for `inst`; some: a spawn request of the instance `inst`. -/
  spawn : Option SpawnReq
  holds : List Hold
  before : List Nat
  /-- SAVE_ARENA_FULL has been reported for a call that finds no place in the save arena (R304, R404). -/
  reported : Bool := false
  /-- A spawn request: successors of its entry that have been dealt with (R311). -/
  made : Nat := 0
deriving DecidableEq, Repr

/-- A message to an instance record or a gate station (R146, R153, R282). -/
structure SinkMsg where
  inst : Nat
  /-- The root record whose register it sets; none for a callee's own. -/
  root : Option Nat
  /-- The firing that sent it (R143). -/
  fid : Nat
  k : Nat
  payload : Payload
  src : Option Loc
  edge : Nat
  holds : List Hold := []
  before : List Nat
  /-- As in `Flight`. -/
  pad : Nat := 0
deriving DecidableEq, Repr

/-- A loop credit under way (R146). -/
structure Credit where
  inst : Nat
deriving DecidableEq, Repr

/-- A barrier join under way (R282). -/
structure Join where
  inst : Nat
  b : Nat
  n : Nat
  j : Joiner
deriving DecidableEq, Repr

/-- The fabric: stations, columns and networks. -/
structure Fabric where
  stations : Map Station := []
  quads : Map Quad := []
  cols : Vector Column 32 := Vector.replicate 32 {}
  tokens : List Flight := []
  /-- Tokens that a region fence has diverted to the Pricking engine (R315). -/
  fenced : List Flight := []
  credits : List Credit := []
  joins : List Join := []
  sinkMsgs : List SinkMsg := []
  requests : List EngReq := []
  sweeps : List Sweep := []
  charges : List Charge := []
  /-- Charges of the microsecond whose column has been measured, which the debit takes (R426). -/
  due : List Charge := []
deriving DecidableEq, Repr

/-- The Pricking engines and the instance records. -/
structure Pricking where
  insts : List Inst := []
  roots : List Root := []
  dies : Vector DieEng 2 := Vector.replicate 2 {}
  fences : List (Nat × Fence) := []
deriving DecidableEq, Repr

/-! ### Control cores -/

/-- A line of the L1 (R188). -/
structure L1Line where
  pa : Nat
  bytes : BitVec 1024
deriving DecidableEq, Repr

/-- A store in the store buffer (R189). -/
structure Stored where
  va : Nat
  n : Nat
  value : Nat
  pa : Nat
  vf : Nat
  /-- STGF: the granule becomes full, and the store releases at DEVICE (R190, R194). -/
  sync : Bool := false
  before : List Nat := []
  /-- An STGF or a GFENCE stands between it and later loads: they wait until it has drained (R189). -/
  barred : Bool := false
  /-- The address of the instruction that stored, to which a trap of it points (R180). -/
  pc : Double := 0
deriving DecidableEq, Repr

/-- An intake slot of a control core's local memory (R179, R211). -/
structure IntakeSlot where
  qi : Nat
  /-- The function that owned the interface when the packet was accepted (R203). -/
  vf : Nat
  number : Nat
  gen : Nat
  popped : Bool
deriving DecidableEq, Repr

/-- A control core (R37, R178 to R190). -/
structure Core where
  g : Vector Double 32 := Vector.replicate 32 0
  pc : Double := 0
  run : Bool := false
  status : Double := 5
  epc : Double := 0
  cause : Double := 0
  eval : Double := 0
  hvec : Double := 0
  curvf : BitVec 8 := 0
  events : BitVec 5 := 0
  iemask : Double := 0
  snkflag : BitVec 2 := 0
  sb : List Stored := []
  l1 : List L1Line := []
  /-- Local memory, 64 KiB (R179). -/
  lm : List Host.Cell := []
  slots : Map IntakeSlot := []
  /-- Accepted packets in order: queue interface and slot (R202). -/
  pktq : List (Nat × Nat) := []
  ranges : List Range := []
  latch : Option (BitVec 16) := none
  /-- Charged work to CURVF since its last write (R440). -/
  site : Map Nat := []
  /-- Accesses that happen before the next instruction (R271). -/
  before : List Nat := []
  /-- A page request of the core is outstanding, or failed for the tenant (R214). -/
  paged : Option Nat := none
  pageFail : Option Bool := none
  /-- What its last page request was for: the 64 KiB page of the address, and READ, WRITE or EXEC. -/
  pageOf : Nat × Nat := (0, 0)
  /-- The core waits in WFE (R201). -/
  wfe : Bool := false
  /-- Bytes of stores of the core since its last GFENCE, as a fetch still sees them (R189): local memory at its address,
  physical memory above 2^52. -/
  fetchOld : Map Nat := []
deriving DecidableEq, Repr

/-! ### Virtual functions and the host -/

/-- What a fault record can resume (R420). -/
inductive FaultFor where
  | firing (st : Loc) (fid : Nat)
  | strand (st : Loc) (rec : Nat)
  | access (uid : Nat)
  | copy (uid : Nat)
  | thicket (uid : Nat)
deriving DecidableEq, Repr

/-- STATE of a virtual function (R406). -/
inductive VfState where
  | running
  | saving
  | saved
deriving DecidableEq, Repr

/-- A virtual function (R400 to R406). -/
structure Vf where
  ctl : BitVec 64 := 0
  quota : Int := 0
  warn : Int := 0
  rangebase : Double := 0
  stage1root : Double := 0
  stage2root : Double := 0
  faultq : Double := 0
  sampq : Double := 0
  savebase : Double := 0
  savelen : Double := 0
  spillbase : Double := 0
  spillpages : Double := 0
  scatbase : Double := 0
  scatlen : Double := 0
  shares : BitVec 64 := 0
  area : BitVec 64 := 0
  charged : Int := 0
  resid : Int := 0
  shared : Int := 0
  st : VfState := .running
  cmderr : Bool := false
  flost : BitVec 16 := 0
  windrop : BitVec 32 := 0
  knottab : Double := 0
  knotcnt : BitVec 17 := 0
  /-- QUOTA, WARN, CHARGED, RESID and SHARED as last broadcast (R428). -/
  bcast : Vector Int 5 := Vector.replicate 5 0
  /-- Whether any broadcast has been made for the VF. -/
  bcastMade : Bool := false
  /-- W of the fault ring: records written (R418). -/
  faultW : Nat := 0
  /-- Records held while the ring is full or its page is awaited (R418). -/
  heldFaults : List (BitVec 512) := []
  /-- Faults that can be resumed or discarded, by SEQ (R420). -/
  pendFaults : List (Nat × FaultFor) := []
  /-- W of the sampler ring, and records that wait for a page (R431). -/
  sampW : Nat := 0
  sampHeld : List (BitVec 256) := []
  launchSeq : BitVec 16 := 0
  families : Vector Family 16 := Vector.replicate 16 {}
  slice : Nat := 0
  /-- Why a save is under way: 0 SAVE, 1 SLICE, 2 quota. -/
  saveCause : Nat := 0
  /-- Cycle at which the save started, while markers have not been injected (R408). -/
  saveAt : Option Nat := none
  resumeAsked : Bool := false
  /-- QUOTA at the debit that exhausted it (R412, R417). -/
  saveQuota : Int := 0
  /-- Microsecond boundaries that it has passed while it ran and held a quad, not yet taken into the slice count (R414). -/
  due : Nat := 0
  /-- The microsecond of the last poll of the fault ring (R418). -/
  polled : Nat := 0
  /-- Quota ran out and the VF has not resumed: refused launches complete with 0x50 (R406). -/
  quotaOut : Bool := false
deriving DecidableEq, Repr

/-- A queue interface (R209). -/
structure Qi where
  cfg : BitVec 64 := 0
  subbase : Double := 0
  cplbase : Double := 0
  irq : BitVec 16 := 0
  consumed : BitVec 32 := 0
  refused : BitVec 32 := 0
  dropped : BitVec 64 := 0
  cplLost : BitVec 64 := 0
  submitted : BitVec 32 := 0
  /-- Packets read, from R and C of the rings (R210 to R212). -/
  read : Nat := 0
  /-- Stopped for want of an intake slot, with its order; a slot that QDONE freed is kept for its next packet (R211). -/
  stopped : Option Nat := none
  granted : Bool := false
deriving DecidableEq, Repr

/-- A FOT command under way (R244). -/
structure FotCmd where
  op : Nat
  owner : Nat
  frame : Nat
  left : Nat
deriving DecidableEq, Repr

/-- A translation invalidation under way (R238). -/
structure TlbCmd where
  kind : Nat
  vf : Nat
  addr : Nat
deriving DecidableEq, Repr

/-- A Simiow port (R216, R468). -/
structure Port where
  width : Nat := 3
  replays : Nat := 0
  training : Bool := false
deriving DecidableEq, Repr

/-- An interrupt message that waits for a Simiow port: its handle, the sending function, and the die that sends it (R469). -/
structure IrqMsg where
  handle : Nat
  vf : Option Nat
  die : Fin 2
deriving DecidableEq, Repr

/-- The register window of the physical function and the host side (R208 to R217). -/
structure HostSide where
  vfs : Map Vf := []
  qis : Map Qi := []
  fot : Option FotCmd := none
  fotErr : Option Nat := none
  /-- Invalidations under way, oldest first. -/
  tlb : List TlbCmd := []
  hostfq : Double := 0
  hostfqcfg : Double := 0
  hostflost : Double := 0
  pgreqq : Double := 0
  pgreqcfg : Double := 0
  hostirq : Double := 0
  irqremap : Double := 0
  irqdrop : Double := 0
  gendrop : Double := 0
  cecount : Double := 0
  uecount : Double := 0
  overhead : Double := 0
  attreq : Double := 0
  /-- The nonce that Voxit read, when a report is under way (R466). -/
  attNonce : Option (List Byte) := none
  /-- Records held for the host fault ring and for the page-request ring, and W of each (R208). -/
  fqHeld : List (BitVec 512) := []
  pgHeld : List (BitVec 256) := []
  /-- Interrupt messages that wait for a Simiow port. -/
  irqHeld : List IrqMsg := []
  fqW : Nat := 0
  pgW : Nat := 0
  nextReq : Nat := 0
  /-- Microseconds debited (R428), and the microsecond of the last poll of the two rings (R208). -/
  debits : Nat := 0
  polled : Nat := 0
  ports : Vector Port 2 := Vector.replicate 2 {}
deriving DecidableEq, Repr

/-- Bring-up (R463 to R467). -/
structure Boot where
  powered : Bool := true
  phase : Nat := 0
  err : Nat := 0
  windowOpen : Bool := false
  recovery : Bool := false
  /-- The Falade image in flash. -/
  flash : List Byte := []
  /-- HBM stacks that have trained (R468, R469). -/
  hbmUp : BitVec 8 := 0xFF
  mapOut : List Nat := []
  /-- The host has asked for the map-out list to be cleared at the next reset (R467). -/
  mapClear : Bool := false
  /-- Border ports disabled at test, 0 to 31 of die 0, 32 to 63 of die 1 (R468, R469). -/
  portsOff : List Nat := []
  /-- Bring-up stopped in phase 4: the window shows BOOTSTAT only (R464). -/
  statOnly : Bool := false
  /-- Control cores released by RUN since reset (R465). -/
  released : List Nat := []
deriving DecidableEq, Repr

/-! ### Clocks, schedule, the whole state -/

/-- The time counter of a die (R435). -/
structure TimeCtr where
  ns : BitVec 64 := 0
  frac : BitVec 16 := 0
  /-- Offset still to be slewed, in fraction units. -/
  slew : Int := 0
  /-- The fabric cycle by which an offset of 1 µs or less has been slewed out; 0: the full rate holds (R435). -/
  slewBy : Nat := 0
  lastMsg : Option Nat := none
  offsetOk : Bool := false
deriving DecidableEq, Repr

/-- Clocks. -/
structure Clock where
  cycle : BitVec 64 := 0
  time : Vector TimeCtr 2 := Vector.replicate 2 {}
deriving DecidableEq, Repr

/-- Operands of a step that has no encoding: which station, token, access or function it is about, and the values that the
host, the power die or the environment gives it. -/
structure Arg where
  loc : Loc := ⟨0, 0, 0⟩
  n : Nat := 0
  m : Nat := 0
  vf : Nat := 0
  addr : Nat := 0
  size : Nat := 0
  value : Nat := 0
  ok : Bool := true
deriving DecidableEq, Repr

/-- Whose turn it is. -/
inductive Turn where
  /-- The fabric clock advances. -/
  | clock
  /-- A control core issues. -/
  | core (c : Fin 4)
  /-- The sprig engine of a station issues, or ends its body. -/
  | station (l : Loc)
  /-- A step of the opcode table that has no encoding. -/
  | event (i : Instr) (a : Arg)
deriving DecidableEq, Repr

/-- The model's own schedule (LOG 1). -/
structure Sched where
  agenda : List Turn := []
  turns : Nat := 0
  fresh : Nat := 0
  uid : Nat := 1
  curSt : Loc := ⟨0, 0, 0⟩
  curCore : Fin 4 := 0
  arg : Arg := {}
deriving DecidableEq, Repr

/-- The state of the device. -/
structure State where
  sched : Sched
  clk : Clock
  mm : MemSide
  fab : Fabric
  prick : Pricking
  cores : Vector Core 4
  host : HostSide
  boot : Boot
deriving DecidableEq, Repr

/-- Why the machine stops with a fault. -/
inductive Fault where
  /-- Raised by no instruction that the device can issue: the station of the turn stands outside the map of R15. Safe: the
  device does nothing there. -/
  | noSuchUnit
deriving DecidableEq, Repr

/-- Why an instruction is refused. -/
inductive Refusal where
  /-- Raised by the arm of an instruction that has no meaning yet. Safe: no claim holds of what it does. -/
  | notModelled (mnemonic : String)
  /-- Raised by a station's turn on a word of its instruction store that is no instruction: a placed image holds none
  (R84), so no placement reaches it. Safe: no claim holds of what follows. -/
  | undecodable (w : Word)
deriving DecidableEq, Repr

/-- The state right after reset (R464 and the reset columns of the register tables; LOG 3 to LOG 5). -/
def State.reset : State where
  sched := {}
  clk := {}
  mm := {}
  fab := {}
  prick := {}
  cores := Vector.replicate 4 {}
  host := {}
  boot := {}

end Sys2Proof.Machine
end

