-- ==== Sys2Proof/Machine/Ops.lean ====
section
/-!
DEFINITION. Named operations over maps, memories, registers and the records of the state.
-/

namespace Sys2Proof.Machine

/-- The outcome of a step of this machine. -/
abbrev Out := Host.Outcome State Fault Refusal

/-! ### Fields of words -/

/-- The field of w bits of x from bit lo up, as a natural number (R6). -/
def bits {n : Nat} (x : BitVec n) (lo w : Nat) : Nat := (x.extractLsb' lo w).toNat

/-- x with the field of w bits from bit lo up replaced by v. -/
def setBits {n : Nat} (x : BitVec n) (lo w : Nat) (v : Nat) : BitVec n :=
  (x &&& ~~~ (BitVec.ofNat n ((2 ^ w - 1) * 2 ^ lo))) ||| BitVec.ofNat n (v % 2 ^ w * 2 ^ lo)

/-- A bit of x. -/
def bit {n : Nat} (x : BitVec n) (k : Nat) : Bool := x.getLsbD k

/-- A natural number as 64 bits. -/
def dbl (v : Nat) : Double := BitVec.ofNat 64 v

/-- An integer as 64 bits in two's complement. -/
def idbl (v : Int) : Double := BitVec.ofInt 64 v

/-- sext(x, n) of R10. -/
def sext64 (x : Double) (n : Nat) : Double := (x.truncate n).signExtend 64

/-- zext(x, n) of R10. -/
def zext64 (x : Double) (n : Nat) : Double := (x.truncate n).zeroExtend 64

/-- mix64 (R102). -/
def mix64 (x : BitVec 64) : BitVec 64 :=
  let a := (x ^^^ (x >>> 31)) * 0xC3A56B1D2F48E9B7
  let b := (a ^^^ (a >>> 29)) * 0x8F1D36C5A7E25B43
  b ^^^ (b >>> 32)

/-! ### Maps, sets and vectors -/

/-- The entry of a key. -/
def Map.find {α : Type} (m : Map α) (k : Nat) : Option α :=
  match m with
  | [] => none
  | (j, v) :: rest => if j = k then some v else Map.find rest k

/-- Set the entry of a key, keeping the keys rising. -/
def Map.put {α : Type} (m : Map α) (k : Nat) (v : α) : Map α :=
  match m with
  | [] => [(k, v)]
  | (j, u) :: rest =>
      if k < j then (k, v) :: (j, u) :: rest
      else if j = k then (k, v) :: rest
      else (j, u) :: Map.put rest k v

/-- Drop the entry of a key. -/
def Map.drop {α : Type} (m : Map α) (k : Nat) : Map α := m.filter (fun p => p.1 ≠ k)

/-- A set of numbers as a rising list: insertion. -/
def nput (l : List Nat) (k : Nat) : List Nat :=
  match l with
  | [] => [k]
  | j :: rest => if k < j then k :: j :: rest else if j = k then j :: rest else j :: nput rest k

/-- Removal from a set. -/
def ndrop (l : List Nat) (k : Nat) : List Nat := l.filter (· ≠ k)

/-- Union of lists of accesses without repeats. -/
def nunion (a b : List Nat) : List Nat := b.foldl nput a

/-- Element i of a vector, or a default. -/
def vget {α : Type} {n : Nat} (v : Vector α n) (i : Nat) (d : α) : α := v[i]?.getD d

/-- A vector with element i replaced, when it has one. -/
def vset {α : Type} {n : Nat} (v : Vector α n) (i : Nat) (x : α) : Vector α n := v.setIfInBounds i x

/-- The list without its element n. -/
def dropAt {α : Type} (l : List α) (n : Nat) : List α := l.eraseIdx n

/-- The list with the first element that satisfies p changed by f. -/
def modFirst {α : Type} (p : α → Bool) (f : α → α) : List α → List α
  | [] => []
  | x :: xs => if p x then f x :: xs else x :: modFirst p f xs

/-- Insert into a list that a test orders, behind the elements that come before. -/
def insertBy {α : Type} (le : α → α → Bool) (x : α) : List α → List α
  | [] => [x]
  | y :: ys => if le y x then y :: insertBy le x ys else x :: y :: ys

/-- A list in the order of a test; elements that the test holds equal keep their order. -/
def sortBy {α : Type} (le : α → α → Bool) (l : List α) : List α := l.foldl (fun a x => insertBy le x a) []

/-- The numbers a, a + 1, … below a + n. -/
def span (a n : Nat) : List Nat := (List.range n).map (a + ·)

/-! ### Memories of bytes -/

/-- The byte at an address; an unlisted address reads 0 (LOG 4). -/
def Mem.get (m : List Host.Cell) (a : Nat) : Byte :=
  match m with
  | [] => 0
  | (j, b) :: rest => if j = a then b else Mem.get rest a

/-- List a byte at its address, keeping addresses rising. -/
def Mem.list (m : List Host.Cell) (a : Nat) (b : Byte) : List Host.Cell :=
  match m with
  | [] => [(a, b)]
  | (j, c) :: rest =>
      if a < j then (a, b) :: (j, c) :: rest
      else if j = a then (a, b) :: rest
      else (j, c) :: Mem.list rest a b

/-- Write a byte, keeping the canonical form: rising addresses, no listed byte equal to 0. -/
def Mem.put (m : List Host.Cell) (a : Nat) (b : Byte) : List Host.Cell :=
  if b = 0 then m.filter (fun p => decide (p.1 ≠ a)) else Mem.list m a b

/-- Every listed address lies above lo, addresses rise, and no listed byte is 0. -/
def Mem.wfFrom (lo : Nat) (m : List Host.Cell) : Bool :=
  match m with
  | [] => true
  | (j, b) :: rest => decide (lo ≤ j) && decide (b ≠ 0) && Mem.wfFrom (j + 1) rest

/-- The canonical form of a memory. -/
def Memory.wf (m : List Host.Cell) : Bool := Mem.wfFrom 0 m

/-- n bytes from address a up, least significant first, as a number (R5). -/
def Mem.read (m : List Host.Cell) (a : Nat) : Nat → Nat
  | 0 => 0
  | n + 1 => (Mem.get m a).toNat + 256 * Mem.read m (a + 1) n

/-- Write the low n bytes of v from address a up (R5). -/
def Mem.write (m : List Host.Cell) (a : Nat) : Nat → Nat → List Host.Cell
  | 0, _ => m
  | n + 1, v => Mem.write (Mem.put m a (BitVec.ofNat 8 v)) (a + 1) n (v / 256)

/-- The bytes of a range as a list. -/
def Mem.bytes (m : List Host.Cell) (a n : Nat) : List Byte := (List.range n).map (fun i => Mem.get m (a + i))

/-- Write a list of bytes. -/
def Mem.putBytes (m : List Host.Cell) (a : Nat) : List Byte → List Host.Cell
  | [] => m
  | b :: bs => Mem.putBytes (Mem.put m a b) (a + 1) bs

/-- Bytes of a number, least significant first (R5). -/
def bytesOf (v : Nat) : Nat → List Byte
  | 0 => []
  | n + 1 => BitVec.ofNat 8 v :: bytesOf (v / 256) n

/-- The number that bytes hold, least significant first (R5). -/
def ofBytes : List Byte → Nat
  | [] => 0
  | b :: bs => b.toNat + 256 * ofBytes bs

/-! ### Places on the dies -/

/-- The key of a station in the map of stations. -/
def locKey (l : Loc) : Nat := l.die.val * 5120 + l.y.val * 64 + l.x.val

/-- The station of coordinates that lie on a die, which every placement respects. -/
def locOf (die : Nat) (x y : Nat) : Loc := ⟨Fin.ofNat 2 die, Fin.ofNat 64 x, Fin.ofNat 80 y⟩

/-- The station of a key. -/
def keyLoc (key : Nat) : Loc := locOf (key / 5120) (key % 64) (key / 64 % 80)

/-- Compute where x + y is even, bobbin where it is odd (R16). -/
def kindOf (l : Loc) : Kind := if (l.x.val + l.y.val) % 2 = 0 then .compute else .bobbin

/-- The quad of a station: its column and its row (R17). -/
def quadX (l : Loc) : Nat := l.x.val / 4
def quadY (l : Loc) : Nat := l.y.val / 4

/-- The key of a quad. -/
def quadKey (die qx qy : Nat) : Nat := die * 320 + qy * 16 + qx

/-- The supply column of a station, of 32 (R18). -/
def colOf (l : Loc) : Nat := l.die.val * 16 + quadX l

/-- The 16 stations of a quad (R17). -/
def quadStations (die qx qy : Nat) : List Loc :=
  (List.range 16).map (fun k => locOf die (4 * qx + k % 4) (4 * qy + k / 4))

/-! ### Stations, slots and firings -/

/-- A station; one that nothing has touched is as reset left it. -/
def State.st (s : State) (l : Loc) : Station := (Map.find s.fab.stations (locKey l)).getD {}

/-- Replace a station. -/
def State.setSt (s : State) (l : Loc) (v : Station) : State :=
  { s with fab := { s.fab with stations := Map.put s.fab.stations (locKey l) v } }

/-- Change a station. -/
def State.modSt (s : State) (l : Loc) (f : Station → Station) : State := s.setSt l (f (s.st l))

/-- The firing in progress at the station whose instruction issues. -/
def State.fir (s : State) : Firing := (s.st s.sched.curSt).firing

/-- Change the firing in progress. -/
def State.modFir (s : State) (f : Firing → Firing) : State :=
  s.modSt s.sched.curSt (fun v => { v with firing := f v.firing })

/-- A context slot of a station. -/
def Station.ctx (v : Station) (c : Nat) : Ctx := vget v.ctxs c {}

/-- Change a context slot. -/
def Station.modCtx (v : Station) (c : Nat) (f : Ctx → Ctx) : Station := { v with ctxs := vset v.ctxs c (f (v.ctx c)) }

/-- The context slot of the firing in progress. -/
def State.cx (s : State) : Ctx := (s.st s.sched.curSt).ctx s.fir.ctx

/-- Change the context slot of the firing in progress. -/
def State.modCx (s : State) (f : Ctx → Ctx) : State :=
  s.modSt s.sched.curSt (fun v => v.modCtx v.firing.ctx f)

/-- A strand record of the slot of the firing in progress: record 8 · slot + n (R223). -/
def Station.strand (v : Station) (k : Nat) : Strand := vget v.strands k {}

/-- Change a strand record. -/
def Station.modStrand (v : Station) (k : Nat) (f : Strand → Strand) : Station :=
  { v with strands := vset v.strands k (f (v.strand k)) }

/-! ### Fields of the context word (R75) -/

def Ctx.valid (c : Ctx) : Bool := bit c.word 0
def Ctx.inst (c : Ctx) : Nat := bits c.word 94 18
def Ctx.prio (c : Ctx) : Nat := bits c.word 91 3
def Ctx.format (c : Ctx) : BitVec 6 := c.word.extractLsb' 85 6
def Ctx.allowInit (c : Ctx) : Nat := bits c.word 77 8 + 1
def Ctx.ibase (c : Ctx) : Nat := bits c.word 52 12
def Ctx.ilen (c : Ctx) : Nat := bits c.word 40 12 + 1
def Ctx.loopBase (c : Ctx) : Nat := bits c.word 20 20
def Ctx.nsprig (c : Ctx) : Nat := bits c.word 16 4 + 1
def Ctx.pleach (c : Ctx) : Bool := bit c.word 8
def Ctx.blockBase (c : Ctx) : Nat := bits c.word 120 8
def Ctx.blockLast (c : Ctx) : Nat := bits c.word 112 8

/-! ### Fields of a tag (R118) -/

def tagBlock (t : BitVec 64) : Nat := bits t 56 8
def tagInst (t : BitVec 64) : Nat := bits t 38 18
def tagCtx (t : BitVec 64) : Nat := bits t 35 3
def tagThread (t : BitVec 64) : Nat := bits t 23 12
def tagIter (t : BitVec 64) : Nat := bits t 0 20

/-- A tag with its ITER replaced. -/
def withIter (t : BitVec 64) (i : Nat) : BitVec 64 := setBits t 0 20 i

/-- A tag from its fields. -/
def mkTag (block inst ctx thread iter : Nat) : BitVec 64 :=
  setBits (setBits (setBits (setBits (setBits 0 56 8 block) 38 18 inst) 35 3 ctx) 23 12 thread) 0 20 iter

/-! ### Fields of a sprig header (R56), a sprig word (R76) and a routing word (R77) -/

def hdrStoreMask (h : BitVec 64) : BitVec 32 := h.extractLsb' 32 32
def hdrLen (h : BitVec 64) : Nat := bits h 27 5 + 1
def hdrSlots (h : BitVec 64) : Nat := bits h 25 2 + 1
def hdrSlotKind (h : BitVec 64) : Nat := bits h 20 4
def hdrEmits (h : BitVec 64) : Nat := bits h 15 5
def hdrExits (h : BitVec 64) : Nat := bits h 12 3
def hdrMode (h : BitVec 64) : Nat := bits h 8 4
def hdrStage (h : BitVec 64) : Nat := bits h 5 3
def hdrAbsorb (h : BitVec 64) : Bool := bit h 4
def hdrStile (h : BitVec 64) : Bool := bit h 3
def sprigIoff (w : BitVec 64) : Nat := bits w 52 12
def sprigCountN (w : BitVec 64) : Nat := bits w 40 12
def sprigScope (w : BitVec 64) : Nat := bits w 37 3
def sprigNRoute (w : BitVec 64) : Nat := bits w 32 5
def sprigTile (w : BitVec 64) (k : Nat) : Nat := bits w (16 + 4 * k) 4
def rtArc (r : BitVec 64) : Nat := bits r 59 5
def rtTarget (r : BitVec 64) : Nat := bits r 56 3
def rtDropNull (r : BitVec 64) : Bool := bit r 55
def rtDx (r : BitVec 64) : Nat := bits r 46 6
def rtDy (r : BitVec 64) : Nat := bits r 39 7
def rtSprig (r : BitVec 64) : Nat := bits r 35 4
def rtSlot (r : BitVec 64) : Nat := bits r 33 2
def rtNum (r : BitVec 64) : Nat := bits r 29 4
def rtEdge (r : BitVec 64) : Nat := bits r 0 16

/-! ### Instances, roots, functions, cores -/

/-- The record of an instance id. -/
def State.inst? (s : State) (id : Nat) : Option Inst := s.prick.insts.find? (fun i => i.id = id)

/-- Change the record of an instance. -/
def State.modInst (s : State) (id : Nat) (f : Inst → Inst) : State :=
  { s with prick := { s.prick with insts := modFirst (fun i => i.id = id) f s.prick.insts } }

/-- The root record of a handle. -/
def State.root? (s : State) (h : Nat) : Option Root := s.prick.roots.find? (fun r => r.handle = h)

/-- Change a root record. -/
def State.modRoot (s : State) (h : Nat) (f : Root → Root) : State :=
  { s with prick := { s.prick with roots := modFirst (fun r => r.handle = h) f s.prick.roots } }

/-- The engine of a die. -/
def State.eng (s : State) (d : Fin 2) : DieEng := vget s.prick.dies d.val {}

/-- Change the engine of a die. -/
def State.modEng (s : State) (d : Fin 2) (f : DieEng → DieEng) : State :=
  { s with prick := { s.prick with dies := vset s.prick.dies d.val (f (s.eng d)) } }

/-- A virtual function; 128 of them. -/
def State.vf (s : State) (v : Nat) : Vf := (Map.find s.host.vfs v).getD {}

/-- Change a virtual function. -/
def State.modVf (s : State) (v : Nat) (f : Vf → Vf) : State :=
  { s with host := { s.host with vfs := Map.put s.host.vfs v (f (s.vf v)) } }

/-- A queue interface; 256 of them. -/
def State.qi (s : State) (q : Nat) : Qi := (Map.find s.host.qis q).getD {}

/-- Change a queue interface. -/
def State.modQi (s : State) (q : Nat) (f : Qi → Qi) : State :=
  { s with host := { s.host with qis := Map.put s.host.qis q (f (s.qi q)) } }

/-- A control core. -/
def State.core (s : State) (c : Fin 4) : Core := s.cores[c]

/-- Change a control core. -/
def State.modCore (s : State) (c : Fin 4) (f : Core → Core) : State := { s with cores := s.cores.set c (f s.cores[c]) }

/-- The core whose instruction issues. -/
def State.cc (s : State) : Core := s.core s.sched.curCore

/-- Change the core whose instruction issues. -/
def State.modCc (s : State) (f : Core → Core) : State := s.modCore s.sched.curCore f

/-- A quad. -/
def State.quad (s : State) (k : Nat) : Quad := (Map.find s.fab.quads k).getD {}

/-- Change a quad. -/
def State.modQuad (s : State) (k : Nat) (f : Quad → Quad) : State :=
  { s with fab := { s.fab with quads := Map.put s.fab.quads k (f (s.quad k)) } }

/-- Withdraw a quad from placement, and note it in the field map-out list (R35, R467). -/
def State.mapOut (s : State) (k : Nat) : State :=
  let s1 := s.modQuad k (fun q => { q with mappedOut := true })
  { s1 with boot := { s1.boot with mapOut := nput s1.boot.mapOut k } }

/-- A supply column. -/
def State.col (s : State) (k : Nat) : Column := vget s.fab.cols k {}

/-- Change a supply column. -/
def State.modCol (s : State) (k : Nat) (f : Column → Column) : State :=
  { s with fab := { s.fab with cols := vset s.fab.cols k (f (s.col k)) } }

/-- Change the memory side. -/
def State.modMm (s : State) (f : MemSide → MemSide) : State := { s with mm := f s.mm }

/-- Change the fabric's networks. -/
def State.modFab (s : State) (f : Fabric → Fabric) : State := { s with fab := f s.fab }

/-- Change the host side. -/
def State.modHost (s : State) (f : HostSide → HostSide) : State := { s with host := f s.host }

/-- The die of a control core (R37). -/
def coreDie (c : Fin 4) : Fin 2 := if c.val < 2 then 0 else 1

/-! ### Names, free values, order -/

/-- A new name, and the state in which it is taken. -/
def State.newUid (s : State) : Nat × State :=
  (s.sched.uid, { s with sched := { s.sched with uid := s.sched.uid + 1 } })

/-- A free number below n (0 when n is 0), and the state in which its index is used up. -/
def State.pick (s : State) (n : Nat) : Nat × State :=
  (Config.pick s.sched.fresh % n, { s with sched := { s.sched with fresh := s.sched.fresh + 1 } })

/-- The cycle count. -/
def State.now (s : State) : Nat := s.clk.cycle.toNat

/-- Whole nanoseconds of a die's time counter (R435). -/
def State.ns (s : State) (d : Fin 2) : Nat := (vget s.clk.time d.val {}).ns.toNat

/-- A die's time counter is locked: the last message came within 2 ms and its offset was 1 µs or less (R435). -/
def State.locked (s : State) (d : Fin 2) : Bool :=
  let t := vget s.clk.time d.val {}
  match t.lastMsg with
  | some at_ => t.offsetOk && decide (s.ns d - at_ ≤ 2000000)
  | none => false

/-! ### Traps of a control core (R180, R181, R182, R201) -/

/-- Causes of a trap (R180). -/
inductive Cause where
  | illegal
  | priv
  | align
  | memfault
  | fepage
  | fetch
  | qstate
  | intr
deriving DecidableEq, Repr

/-- CODE of a cause (R180). -/
def Cause.code : Cause → Nat
  | .illegal => 1
  | .priv => 2
  | .align => 3
  | .memfault => 4
  | .fepage => 5
  | .fetch => 6
  | .qstate => 7
  | .intr => 0x10

/-- The CAUSE word (R182). -/
def causeWord (c : Cause) (info : Nat) : Double :=
  BitVec.ofNat 64 (info % 65536 * 65536 + (if c = .intr then 256 else 0) + c.code)

/-- STATUS from its four bits (R181). -/
def statusWord (pie pmode ie mode : Bool) : Double :=
  BitVec.ofNat 64 (pie.toNat * 8 + pmode.toNat * 4 + ie.toNat * 2 + mode.toNat)

def Core.mode (k : Core) : Bool := bit k.status 0
def Core.ie (k : Core) : Bool := bit k.status 1
def Core.pmode (k : Core) : Bool := bit k.status 2
def Core.pie (k : Core) : Bool := bit k.status 3

/-- Taking a trap (R180): EPC, CAUSE and EVAL are written, PIE and PMODE save IE and MODE, interrupts are off, the mode is
host mode, and the PC is HVEC. -/
def Core.trap (k : Core) (c : Cause) (info : Nat) (val : Double) : Core :=
  { k with epc := k.pc, cause := causeWord c info, eval := val,
           status := statusWord k.ie k.mode false true, pc := k.hvec }

/-- A trap of the core whose instruction issues. -/
def State.coreTrap (s : State) (c : Cause) (info : Nat) (val : Double) : State := s.modCc (fun k => k.trap c info val)

/-- Return from a trap (R201): PC, MODE and IE come back from EPC, PMODE and PIE. -/
def Core.eret (k : Core) : Core := { k with pc := k.epc, status := statusWord k.pie k.pmode k.pie k.pmode }

/-! ### Charges (R425) -/

/-- The number of a class of work. -/
def Work.code : Work → Nat
  | .scalar => 0
  | .wordHop => 1
  | .tileHop => 2
  | .mma16 => 3
  | .mma8 => 4
  | .mma4 => 5
  | .hbmRead => 6
  | .hbmWrite => 7
  | .hedgerow => 8
  | .record => 9
  | .coreCycle => 10
  | .shared => 11
  | .thicket => 12
  | .simiow => 13

/-- The energy in pJ of n pieces of work of a class on a die (R425): the fused coefficient; for a cycle of a control core the
fused rate of R427 over the 1,600 cycles of a microsecond; a shared cost is given in pJ. -/
def workEnergy (die code n : Nat) : Nat :=
  if code = 10 then n * Config.rate die 3 / 1600 else if code = 11 then n else n * Config.coeff die code

/-- Add charged work to the microsecond's list. -/
def addCharge (l : List Charge) (vf col : Nat) (w : Work) (n : Nat) : List Charge :=
  match l with
  | [] => [⟨vf, col, w, n⟩]
  | c :: rest =>
      if c.vf = vf ∧ c.col = col ∧ c.work = w then { c with count := c.count + n } :: rest
      else c :: addCharge rest vf col w n

/-- Charge work to a partition at a supply column; 128 is the device overhead pool. -/
def State.charge (s : State) (vf col : Nat) (w : Work) (n : Nat) : State :=
  if n = 0 then s else s.modFab (fun f => { f with charges := addCharge f.charges vf col w n })

/-- Count charged work at a meter site. -/
def siteAdd (m : Map Nat) (w : Work) (n : Nat) : Map Nat := Map.put m w.code ((Map.find m w.code).getD 0 + n)

/-- The energy of the work that a meter site has counted, on a die. -/
def siteEnergy (m : Map Nat) (die : Nat) : Nat := m.foldl (fun a p => a + workEnergy die p.1 p.2) 0

/-- Charge work to the context slot of a station, at the station's own meter site. -/
def State.chargeCtx (s : State) (l : Loc) (c : Nat) (w : Work) (n : Nat) : State :=
  let i := (s.st l).ctx c
  let vf := match s.inst? i.inst with | some r => r.vf | none => 128
  (s.charge vf (colOf l) w n).modSt l (fun v => v.modCtx c (fun x => { x with site := siteAdd x.site w n }))

/-! ### Waiting for accesses (R265) -/

/-- The die that homes a physical address: HBM by its stack (R40), host memory by bit 30 (R42). -/
def homeDie (pa : Nat) : Fin 2 :=
  if 2 ^ 51 ≤ pa then Fin.ofNat 2 (pa / 2 ^ 30) else if pa / 0x2000000000 < 4 then 0 else 1

/-- The access has been bound or written at its home. -/
def Access.isServed (a : Access) : Bool :=
  match a.st with
  | .served => true
  | .returned => true
  | .issued => false
  | .walking _ => false
  | .paged _ => false
  | .syncWait => false
  | .faulted => false

/-- The access is a load, a sync load, an atomic or a join (R279). -/
def AccOp.isLoad : AccOp → Bool
  | .load _ => true
  | .loadF _ _ => true
  | .feq => true
  | .amo _ _ _ => true
  | .tload _ _ _ _ => true
  | .elemLoad _ _ _ => true
  | .store _ => false
  | .storeF _ => false
  | .fec => false
  | .tstore _ _ _ _ => false
  | .elemStore _ _ _ _ => false
  | .scadd _ _ _ _ _ => false
  | .scflush _ _ => false
  | .written => false
  | .prefetch => false

/-- An access is performed at a scope, seen from a die (the table of R265). A write at FIRING scope is performed once its
port has accepted it. -/
def Access.performedAt (a : Access) (sc : Scope) (die : Fin 2) : Bool :=
  match sc with
  | .firing => if a.op.isLoad then a.isServed else (match a.st with | .faulted => false | _ => true)
  | .plot => a.isServed && (!a.rdcLeft || a.wrote.all (fun w => decide (homeDie w.1 = die)))
  | .die => a.isServed && (!a.rdcLeft || a.wrote.all (fun w => decide (homeDie w.1 = die)))
  | .device => a.isServed && !a.rdcLeft
  | .system => a.isServed && !a.rdcLeft && !a.sysLeft

/-- The access of a name is performed; a name that no record holds is performed at every scope. -/
def State.performed (s : State) (uid : Nat) (sc : Scope) (die : Fin 2) : Bool :=
  (s.mm.accesses.all (fun a => decide (a.uid ≠ uid) || a.performedAt sc die)) &&
  (s.mm.copies.all (fun c => decide (c.uid ≠ uid))) &&
  (s.mm.thq.all (fun t => decide (t.uid ≠ uid)))

/-- What a release waits for has been performed (R269). -/
def State.holdMet (s : State) (h : Hold) : Bool := h.uids.all (fun u => s.performed u h.scope h.die)

/-- The wider of two scopes. -/
def Scope.max (a b : Scope) : Scope := if a.code ≤ b.code then b else a

/-- The accesses of a list that are still outstanding in some way. -/
def State.outstanding (s : State) (l : List Nat) : List Nat := l.filter (fun u => !s.performed u .system 0)

end Sys2Proof.Machine
end

