-- ==== Sys2Proof/Machine/Flags.lean ====
section
/-!
DEFINITION. Widths, saturation and comparisons (R88, R161, R165, R168, R174, R191). The device has no condition flags: a
comparison puts 0 or 1, a branch compares two registers, and saturation sets no status.
-/

namespace Sys2Proof.Machine

/-- W of R161. -/
def Width.bits : Width → Nat
  | .w64 => 64
  | .w32 => 32

/-- u(x) of R161. -/
def uOf (w : Width) (x : Double) : Nat := x.toNat % 2 ^ (Width.bits w)

/-- s(x) of R161. -/
def sOf (w : Width) (x : Double) : Int :=
  match w with
  | .w64 => x.toInt
  | .w32 => (x.truncate 32).toInt

/-- out_s(v) of R161. -/
def outS (w : Width) (v : Int) : Double :=
  match w with
  | .w64 => BitVec.ofInt 64 v
  | .w32 => (BitVec.ofInt 32 v).signExtend 64

/-- out_n(v) of R161. -/
def outN (w : Width) (v : Nat) : Double :=
  match w with
  | .w64 => BitVec.ofNat 64 v
  | .w32 => (BitVec.ofNat 32 v).zeroExtend 64

/-- sat_s of R168: the nearest value that W bits hold, signed. -/
def satS (w : Width) (v : Int) : Int :=
  let m : Int := 2 ^ (Width.bits w - 1)
  if v < -m then -m else if m - 1 < v then m - 1 else v

/-- sat_n of R168: the nearest natural value that W bits hold. -/
def satN (w : Width) (v : Int) : Nat :=
  if v < 0 then 0 else if (2 : Int) ^ (Width.bits w) - 1 < v then 2 ^ (Width.bits w) - 1 else v.toNat

/-- A truth value as a double (R174). -/
def ofBool (b : Bool) : Double := if b then 1 else 0

/-- Position of the highest one bit of x, from 1; 0 for 0. -/
def topBit (x : Nat) : Nat → Nat
  | 0 => 0
  | n + 1 => if x.testBit n then n + 1 else topBit x n

/-- Number of one bits among the lowest n. -/
def onesIn (x : Nat) : Nat → Nat
  | 0 => 0
  | n + 1 => (if x.testBit n then 1 else 0) + onesIn x n

/-- Number of zero bits below the lowest one bit, of the k bits from bit i up. -/
def zerosBelow (x i : Nat) : Nat → Nat
  | 0 => 0
  | k + 1 => if x.testBit i then 0 else 1 + zerosBelow x (i + 1) k

end Sys2Proof.Machine
end

