-- ==== Sys2Proof/Machine/Operands.lean ====
section
/-!
DEFINITION. Operand forms: the source selectors and destinations of sprig instructions (R59, R126, R140, R141), the registers
of control cores (R37, R60, R164), and how an instruction advances and is charged (R425).
-/

namespace Sys2Proof.Machine

/-! ### Bodies, and the queue entries that they consume (R55, R76, R141) -/

/-- The header of sprig n of a slot (R55, R76). -/
def Station.header (v : Station) (c n : Nat) : BitVec 64 :=
  let a := (v.ctx c).ibase + sprigIoff (((v.ctx c).sprigs[n]?).getD 0)
  let lo := (Map.find v.istore a).getD 0
  let hi := (Map.find v.istore (a + 1)).getD 0
  hi ++ lo

/-- The body of sprig n of a slot. -/
def Station.bodyOf (v : Station) (c n : Nat) : List Word :=
  let a := (v.ctx c).ibase + sprigIoff (((v.ctx c).sprigs[n]?).getD 0) + 2
  (span a (hdrLen (v.header c n))).map (fun k => (Map.find v.istore k).getD 0)

/-- The decoded instructions of a body. -/
def decodeBody (k : Kind) (l : List Word) : List Instr :=
  l.filterMap (fun w => match decode (.station k) w with | .ok i => some i | .error _ => none)

/-- Entries of a queue register that a body consumes (R133, R141). -/
def consumes (n : Fin 2) (body : List Instr) : Nat := (body.filter (fun i => i.sels.contains (.q n))).length

/-- Where a parked firing goes on: at its instruction, or behind a BARJ, which has consumed its sources (R142). -/
def Firing.rest (f : Firing) : Nat :=
  match f.park with
  | .barrier => f.pos + 1
  | .notified _ => f.pos + 1
  | .none => f.pos
  | .granule _ => f.pos
  | .access _ => f.pos
  | .element _ _ => f.pos
  | .fault => f.pos
  | .fence => f.pos
  | .cleared => f.pos

/-- The instructions that a parked firing has yet to execute. -/
def Station.bodyLeft (v : Station) (k : Kind) (f : Firing) : List Instr := decodeBody k ((v.bodyOf f.ctx f.sprig).drop f.rest)

/-- The entries of a queue register that the parked firings of a test have yet to consume: firings consume in the order in which they
fire, so these stand before those of a later firing. One that runs again from its first instruction, and one that ends with nulls, is
owed none (R141). -/
def Station.owed (v : Station) (k : Kind) (n : Fin 2) (p : Firing → Bool) : Nat :=
  ((v.parked.filter (fun g => p g && !g.trapped && !g.discard)).map (fun g => consumes n (v.bodyLeft k g))).sum

/-- Where the oldest entry of a queue register stands that the firing in progress may take: behind those that firings parked before
it are owed (R141). -/
def State.queueAt (s : State) (n : Fin 2) : Nat :=
  let v := s.st s.sched.curSt
  v.owed (kindOf s.sched.curSt) n (fun g => decide (g.ctx = v.firing.ctx ∧ g.id < v.firing.id))

/-! ### Stations -/

/-- The value of a source selector; a queue register shows its oldest entry, an unwritten temporary what the firing found in
it (R140). R133 keeps a firing from starting short of entries; a register that all the same holds no entry for the firing reads 0,
without a wait, and nothing is consumed (DESIGN CHOICE, LOG 59). -/
def State.sel (s : State) (a : Sel) : Double :=
  match a with
  | .t n => s.fir.t[n]
  | .i n => s.fir.vals[n]
  | .tg => s.fir.tag
  | .z => 0
  | .q n => ((if n = 0 then s.cx.q0 else s.cx.q1)[s.queueAt n]?).getD 0

/-- The instruction names a queue register. -/
def Sel.isQ : Sel → Bool
  | .q _ => true
  | .t _ => false
  | .i _ => false
  | .tg => false
  | .z => false

/-- Consume one entry of each queue register that the source fields name (R141). -/
def State.eat (s : State) (l : List Sel) : State :=
  if l.any Sel.isQ then
    s.modCx (fun c =>
      { c with q0 := if l.contains (.q 0) then c.q0.eraseIdx (s.queueAt 0) else c.q0,
               q1 := if l.contains (.q 1) then c.q1.eraseIdx (s.queueAt 1) else c.q1 })
  else s

/-- Write a temporary. -/
def State.wr (s : State) (d : Fin 8) (v : Double) : State := s.modFir (fun f => { f with t := f.t.set d v })

/-- The instruction has issued: the position moves on and one scalar instruction is charged to the context (R425). -/
def State.adv (s : State) : State :=
  let l := s.sched.curSt
  let c := s.fir.ctx
  (s.modFir (fun f => { f with pos := f.pos + 1 })).chargeCtx l c .scalar 1

/-- An instruction that computes one value from sources and writes it to a temporary. -/
def State.result (s : State) (d : Fin 8) (srcs : List Sel) (v : Double) : State := ((s.eat srcs).wr d v).adv

/-! ### Control cores -/

/-- A register of a control core; g0 reads zero (R37). -/
def Core.reg (k : Core) (r : Fin 32) : Double := if r = 0 then 0 else k.g[r]

/-- Write a register; a write of g0 is discarded. -/
def Core.setReg (k : Core) (r : Fin 32) (v : Double) : Core := if r = 0 then k else { k with g := k.g.set r v }

/-- A register of the core whose instruction issues. -/
def State.g (s : State) (r : Fin 32) : Double := s.cc.reg r

/-- The core goes on to its next instruction. -/
def State.cnext (s : State) : State := s.modCc (fun k => { k with pc := k.pc + 4 })

/-- put(v) of a control core (R161), and on to the next instruction. -/
def State.put (s : State) (d : Fin 32) (v : Double) : State := (s.modCc (·.setReg d v)).cnext

/-- PC-relative target of w bits of offset in words (R191, R192). -/
def Core.target (k : Core) {w : Nat} (o : BitVec w) : Double := k.pc + (o.signExtend 64) * 4

end Sys2Proof.Machine
end

