-- ==== Sys2Proof/Machine/Mem.lean ====
section
/-!
DEFINITION. The memory side: the physical space, L2 slices and remote-data caches, the frame ownership table, and the two
stages of translation with their walks (R41 to R43, R220, R231 to R246, R470).
-/

namespace Sys2Proof.Machine

/-! ### The physical space (R40, R42, R240) -/

/-- The partition id of host-mode control cores and of the host (R242). -/
def hostId : Nat := 0x80

/-- A frame number names an HBM frame (R240). -/
def hbmFrame (f : Nat) : Bool :=
  decide (f * 65536 < 2 ^ 51) && decide (f * 65536 / 0x2000000000 < 8) &&
    decide (f * 65536 % 0x2000000000 < 0x1658000000)

/-- A physical address has memory: HBM, or the host memory window (R240). -/
def physOk (pa : Nat) : Bool := (decide (2 ^ 51 ≤ pa) && decide (pa < 2 ^ 52)) || hbmFrame (pa / 65536)

/-- A physical address has memory on this device: a stack that failed to train is gone (R469). -/
def State.physOk (s : State) (pa : Nat) : Bool :=
  Machine.physOk pa && (decide (2 ^ 51 ≤ pa) || bit s.boot.hbmUp (pa / 0x2000000000))

/-- The address lies in host memory. -/
def isHostMem (pa : Nat) : Bool := decide (2 ^ 51 ≤ pa)

/-- The Simiow port of a die is down or retraining (R216, R469). -/
def State.portDown (s : State) (d : Fin 2) : Bool :=
  let p := vget s.host.ports d.val {}
  decide (p.width = 0) || p.training

/-- The Simiow port of the die that homes host memory is down or retraining: its traffic waits (R469). -/
def State.portWaits (s : State) (pa : Nat) : Bool := isHostMem pa && s.portDown (homeDie pa)

/-- The L2 slice of a line, which is the number of its border port on the home die (R241). -/
def sliceOf (pa : Nat) : Nat := (pa / 2 ^ 7 % 32) ^^^ (pa / 2 ^ 12 % 32) ^^^ (pa / 2 ^ 17 % 32)

/-- A border port of a die was disabled at test (R469). -/
def State.portOff (s : State) (die p : Nat) : Bool := s.boot.portsOff.contains (die * 32 + p)

/-- The slice that serves a line on a die, for its L2 or its RDC: slice h of R241, or slice h ^ 16 where the port of h is disabled
(R469). -/
def State.sliceAt (s : State) (die : Nat) (pa : Nat) : Nat := if s.portOff die (sliceOf pa) then sliceOf pa ^^^ 16 else sliceOf pa

/-- The border port of a line's home slice, over both dies (R241). -/
def State.homePort (s : State) (pa : Nat) : Nat := (homeDie pa).val * 32 + s.sliceAt (homeDie pa).val pa

/-- The issuing port of a station, numbered over both dies: that of its supply column on the near edge, or on the other edge where it
is disabled (R39, R230, R469). -/
def State.issuePort (s : State) (l : Loc) : Nat :=
  let p := quadX l + (if l.y.val < 40 then 0 else 16)
  l.die.val * 32 + (if s.portOff l.die.val p then p ^^^ 16 else p)

/-- The supply column on which a border port stands, of 32 (R39). -/
def portCol (die port : Nat) : Nat := die * 16 + port % 16

/-- The pieces of a range of bytes by 128-byte lines. -/
def linePieces (pa : Nat) (n : Nat) : Nat → List (Nat × Nat)
  | 0 => []
  | fuel + 1 =>
      if n = 0 then []
      else
        let k := min n (128 - pa % 128)
        (pa, k) :: linePieces (pa + k) (n - k) fuel

/-- The pieces of a range of n bytes. -/
def pieces (pa n : Nat) : List (Nat × Nat) := linePieces pa n (n / 128 + 2)

/-- The full/empty bits of a line. -/
def lineFe (fe : List Nat) (line : Nat) : BitVec 8 :=
  (List.range 8).foldl (fun a k => if fe.contains (line * 8 + k) then a ||| BitVec.ofNat 8 (2 ^ k) else a) 0

/-- The 128 bytes of a line. -/
def lineBytes (m : List Host.Cell) (line : Nat) : BitVec 1024 := BitVec.ofNat 1024 (Mem.read m (line * 128) 128)

/-! ### L2 and RDC (R41, R43, R241, R242) -/

/-- The L2 holds the line under the partition id. -/
def MemSide.hasL2 (m : MemSide) (line vf : Nat) : Bool := m.l2.any (fun l => decide (l.addr = line ∧ l.vf = vf))

/-- The RDC of a die holds the line under the partition id. -/
def MemSide.rdcLine? (m : MemSide) (die line vf : Nat) : Option RdcLine :=
  m.rdc.find? (fun l => decide (l.die = die ∧ l.addr = line ∧ l.vf = vf))

/-- Some RDC holds a copy of the line. -/
def MemSide.rdcHas (m : MemSide) (line : Nat) : Bool := m.rdc.any (fun l => decide (l.addr = line))

/-- Two lines share a slice of one die. -/
def State.sameSlice (s : State) (a b : Nat) : Bool := decide (s.homePort (a * 128) = s.homePort (b * 128))

/-- The line of a 16-way set that a fill displaces: its least recently used one, when the set holds more than its 16 ways (R41). The
lines stand most recently used first; `lines` are those of the slice, and `set` gives a line's set, whose index the spec does not
give (LOG 10). -/
def displaced {α : Type} (lines : List α) (set : α → Nat) (new : Nat) : Option α :=
  if lines.length ≤ 16 then none
  else
    let l := lines.filter (fun x => decide (set x = new))
    if l.length ≤ 16 then none else l.getLast?

/-- The set of an L2 slice of 4 MiB, of 2,048, and of an RDC slice of 1 MiB, of 512 (R41). -/
def l2Set (line : Nat) : Nat := Config.cacheSet 0 line % 2048
def rdcSet (line : Nat) : Nat := Config.cacheSet 1 line % 512

/-- A full set of an L2 slice loses its least recently used line to a fill, whatever partition it belongs to; a dirty one is written
back, which charges an HBM write (R41). -/
def State.displaceL2 (s : State) (line : Nat) : State :=
  match displaced (s.mm.l2.filter (fun l => s.sameSlice l.addr line)) (fun l => l2Set l.addr) (l2Set line) with
  | none => s
  | some x =>
      let s1 := s.modMm (fun m => { m with l2 := m.l2.filter (fun l => !(decide (l.addr = x.addr ∧ l.vf = x.vf))) })
      if x.dirty && !isHostMem (x.addr * 128) then
        s1.charge x.vf (portCol (homeDie (x.addr * 128)).val (s.homePort (x.addr * 128))) .hbmWrite 1
      else s1

/-- A line of the L2 is used: it stands first from now on. -/
def MemSide.touchL2 (m : MemSide) (line vf : Nat) : MemSide :=
  let mine := fun (l : Line) => decide (l.addr = line ∧ l.vf = vf)
  { m with l2 := m.l2.filter mine ++ m.l2.filter (fun l => !mine l) }

/-- Use a line in the L2 slice of its home under a partition id, filling it unless it is there (R41, R43); the fill is an HBM read, or
crosses the Simiow port (R425). -/
def State.fillL2 (s : State) (line vf : Nat) : State :=
  if s.mm.hasL2 line vf then s.modMm (fun m => m.touchL2 line vf)
  else
    let s1 := s.modMm (fun m =>
      { m with l2 := ⟨line, vf, false, 0, 0⟩ :: m.l2 })
    let s2 :=
      if isHostMem (line * 128) then s1.charge vf (portCol (homeDie (line * 128)).val 0) .simiow 1
      else s1.charge vf (portCol (homeDie (line * 128)).val (s.homePort (line * 128))) .hbmRead 1
    s2.displaceL2 line

/-- A line of the RDC of a die is used. -/
def MemSide.touchRdc (m : MemSide) (die line vf : Nat) : MemSide :=
  let mine := fun (l : RdcLine) => decide (l.die = die ∧ l.addr = line ∧ l.vf = vf)
  { m with rdc := m.rdc.filter mine ++ m.rdc.filter (fun l => !mine l) }

/-- Fill a copy of a line into the RDC of a die; a full set drops its least recently used copy (R41, R241). -/
def State.fillRdc (s : State) (die line vf : Nat) : State :=
  let s1 := s.modMm (fun m => { m with rdc := ⟨die, line, vf, lineBytes m.mem line, lineFe m.fe line⟩ :: m.rdc })
  match displaced (s1.mm.rdc.filter (fun l => decide (l.die = die) && decide (s.sliceAt die (l.addr * 128) = s.sliceAt die (line * 128))))
      (fun l => rdcSet l.addr) (rdcSet line) with
  | none => s1
  | some x => s1.modMm (fun m => { m with rdc := m.rdc.filter (fun l => decide (l ≠ x)) })

/-- An agent on a die has read a line at its home: copies there that hold older bytes go, so that it reads none of them later
(R268). -/
def State.freshRdc (s : State) (die pa : Nat) : State :=
  s.modMm (fun m =>
    { m with rdc := m.rdc.filter (fun l => decide (l.die ≠ die ∨ l.addr ≠ pa / 128 ∨ l.bytes = lineBytes m.mem (pa / 128))) })

/-- Before a write: the line is in its L2 slice and dirty, and what memory still holds is kept (R41, R245). -/
def MemSide.markDirty (m : MemSide) (line vf : Nat) : MemSide :=
  let mark := fun (l : Line) =>
    if l.dirty then l else { l with dirty := true, old := lineBytes m.mem line, oldFe := lineFe m.fe line }
  { m with l2 := modFirst (fun l => decide (l.addr = line ∧ l.vf = vf)) mark m.l2 }

/-- Read n bytes as an agent on a die: a line homed on the other die is looked for in the RDC first (R241). -/
def State.serveRead (s : State) (die : Fin 2) (vf pa n : Nat) : Nat × State :=
  let r := (pieces pa n).foldl
    (fun (acc : Nat × Nat × State) p =>
      let line := p.1 / 128
      let st := acc.2.2
      let got : Nat × State :=
        if homeDie p.1 = die then
          (Mem.read st.mm.mem p.1 p.2, st.fillL2 line vf)
        else
          match st.mm.rdcLine? die.val line vf with
          | some c => ((c.bytes.extractLsb' (8 * (p.1 % 128)) (8 * p.2)).toNat, st.modMm (fun m => m.touchRdc die.val line vf))
          | none => (Mem.read st.mm.mem p.1 p.2, (st.fillL2 line vf).fillRdc die.val line vf)
      (acc.1 + got.1 * 256 ^ acc.2.1, acc.2.1 + p.2, got.2))
    (0, 0, s)
  (r.1, r.2.2)

/-- Read n bytes at the home, past any RDC copy (sync loads, atomics, descriptor reads). -/
def State.homeRead (s : State) (vf pa n : Nat) : Nat × State :=
  let s1 := (pieces pa n).foldl (fun st p => st.fillL2 (p.1 / 128) vf) s
  (Mem.read s1.mm.mem pa n, s1)

/-- A map of releases by byte: those of a range are forgotten. -/
def relDrop {α : Type} (m : Map α) (a n : Nat) : Map α := m.filter (fun r => decide (r.1 < a ∨ a + n ≤ r.1))

/-- The releases that the bytes of a range carry. -/
def relsIn (m : Map (List Rel)) (a n : Nat) : List Rel :=
  (m.filter (fun r => decide (a ≤ r.1 ∧ r.1 < a + n))).foldl (fun l r => l ++ r.2.filter (fun x => !l.contains x)) []

/-- A release leaves its mark on every byte that it writes (R270). -/
def relPut {α : Type} (m : Map α) (a n : Nat) (x : α) : Map α := (span a n).foldl (fun q k => Map.put q k x) m

/-- Write n bytes at the home (R241): the lines become dirty, one of host memory crosses the Simiow port, a write of a whole line clears its poison (R423), and the
releases that the locations carried are forgotten. -/
def State.serveWrite (s : State) (vf pa n v : Nat) : State :=
  let s1 := (pieces pa n).foldl
    (fun st p =>
      let st1 := (st.fillL2 (p.1 / 128) vf).modMm (·.markDirty (p.1 / 128) vf)
      let st2 := if isHostMem p.1 then st1.charge vf (portCol (homeDie p.1).val 0) .simiow 1 else st1
      if p.2 = 128 then st2.modMm (fun m => { m with poison := ndrop m.poison (p.1 / 128) }) else st2) s
  s1.modMm (fun m =>
    { m with mem := Mem.write m.mem pa n v,
             rels := relDrop m.rels pa n })

/-- Some RDC copy of the lines of a range is left, so that a write to it is not yet performed at DEVICE (R265). -/
def State.rdcCopies (s : State) (pa n : Nat) : Bool := (pieces pa n).any (fun p => s.mm.rdcHas (p.1 / 128))

/-- Drop the RDC copies of the lines of a range (R41). -/
def State.dropRdc (s : State) (pa n : Nat) : State :=
  let lines := (pieces pa n).map (·.1 / 128)
  s.modMm (fun m => { m with rdc := m.rdc.filter (fun l => !lines.contains l.addr) })

/-- A granule of memory is full (R220). -/
def State.feFull (s : State) (pa : Nat) : Bool := s.mm.fe.contains (pa / 16)

/-- Set or clear the full/empty bit of a granule of memory, as a write of its line. -/
def State.feSet (s : State) (vf pa : Nat) (full : Bool) : State :=
  ((s.fillL2 (pa / 128) vf).modMm (·.markDirty (pa / 128) vf)).modMm (fun m =>
    { m with fe := if full then nput m.fe (pa / 16) else ndrop m.fe (pa / 16) })

/-- The address of a poisoned line in a range of bytes that may be long (R423). -/
def State.poisonLine (s : State) (pa n : Nat) : Option Nat :=
  (s.mm.poison.find? (fun l => decide (pa / 128 ≤ l ∧ l * 128 < pa + n))).map (fun l => 128 * l)

/-- A poisoned line lies in the range (R423). -/
def State.poisoned (s : State) (pa n : Nat) : Bool := (pieces pa n).any (fun p => s.mm.poison.contains (p.1 / 128))

/-! ### The frame ownership table (R243) -/

/-- STATE and OWNER of a frame; reset leaves every frame FREE with owner 0. -/
def State.fotEntry (s : State) (frame : Nat) : Nat × Nat := (Map.find s.mm.fot frame).getD (0, 0)

/-- The FOT check of an access to one frame (R243). -/
def State.fotPass (s : State) (vf pa : Nat) (write : Bool) : Bool :=
  if isHostMem pa then true
  else if vf = hostId then true
  else
    let e := s.fotEntry (pa / 65536)
    decide (e.1 = 3) && (decide (e.2 = vf) || (decide (e.2 = 0xFF) && !write))

/-! ### Translation (R231 to R239) -/

/-- What a translation is for. -/
structure TReq where
  die : Fin 2
  /-- Border port 0 to 31 of die 0, 32 to 63 of die 1, or 64 + core. -/
  port : Nat
  vf : Nat
  va : Nat
  /-- 1 READ, 2 WRITE, 4 EXEC. -/
  need : Nat
  ranges : List Range

/-- What one step of a translation gives. -/
inductive TOut where
  | more (w : Walk)
  /-- Physical address and stage-1 permissions. -/
  | done (pa perm : Nat)
  /-- A fault of the partition: code and intermediate address. -/
  | fault (code addr2 : Nat)
  /-- The host has to resolve it: within a stage-1 walk or not, and the intermediate address (R213, R239). -/
  | miss (inWalk : Bool) (ia : Nat)
  /-- A descriptor lies in a poisoned line, at the physical address (R423). -/
  | poison (pa : Nat)

/-- Fault codes of R416 that accesses take. -/
def codeStage1 : Nat := 0x10
def codeStage2 : Nat := 0x11
def codeInWalk : Nat := 0x12
def codePermission : Nat := 0x13
def codeFot : Nat := 0x14
def codeAlign : Nat := 0x15
def codeUncorrectable : Nat := 0x60

/-- A permission mask holds all of what is needed. -/
def allows (perm need : Nat) : Bool := decide (perm &&& need = need)

/-- Index of a stage-1 level (R233). -/
def s1Index (lvl va : Nat) : Nat :=
  match lvl with
  | 0 => va / 2 ^ 55 % 32
  | 1 => va / 2 ^ 42 % 8192
  | 2 => va / 2 ^ 29 % 8192
  | _ => va / 2 ^ 16 % 8192

/-- Index of a stage-2 level (R235). -/
def s2Index (lvl ia : Nat) : Nat :=
  match lvl with
  | 0 => ia / 2 ^ 55 % 2
  | 1 => ia / 2 ^ 42 % 8192
  | 2 => ia / 2 ^ 29 % 8192
  | _ => ia / 2 ^ 16 % 8192

/-- A descriptor is in use, its reserved fields are zero, and LEAF and SIZE match its level (R233, R235). -/
def descOk (d lvl : Nat) (stage2 : Bool) : Bool :=
  decide (fld d 0 1 = 1) && decide (fld d 56 8 = 0) && decide (fld d 9 7 = 0) && decide (fld d 2 1 = 0) &&
  (if lvl < 3 then decide (fld d 1 1 = 0) && decide (fld d 3 6 = 0)
   else decide (fld d 1 1 = 1) && decide (fld d 7 2 ≠ 3)) &&
  (if stage2 then decide (fld d 52 4 = 0) && decide (fld d 6 3 = 0) else true)

/-- READ, WRITE, EXEC and F/E of a leaf as a mask. -/
def descPerm (d : Nat) : Nat := fld d 3 4

/-- Stage 2 of the walk's intermediate address has given a physical address. -/
def Walk.resolve (w : Walk) (pa : Nat) : TOut :=
  if w.lvl1 = 4 then .done pa w.perm else .more { w with pa2 := some pa }

/-- What stage 2 must allow: the access's own kind, or a read of a descriptor. -/
def Walk.need2 (w : Walk) (r : TReq) : Nat := if w.lvl1 = 4 then r.need else 1

/-- Start stage 2 for the walk's intermediate address: a hit in the stage-2 cache resolves it (R236). -/
def State.begin2 (s : State) (r : TReq) (w : Walk) : TOut :=
  let w0 := { w with pa2 := none, lvl2 := 0, tbl2 := (s.vf r.vf).stage2root.toNat % 2 ^ 52 }
  match s.mm.tlb2.find? (fun e => decide (e.die = r.die.val ∧ e.vf = r.vf ∧ e.ia = w.ia / 65536)) with
  | none => .more w0
  | some e =>
      if allows e.perm (w.need2 r) then w0.resolve (e.pa * 65536 + w.ia % 65536)
      else .miss (decide (w.lvl1 ≠ 4)) w.ia

/-- The first range entry that holds an address, the lower index first (R232). -/
def rangeOf (l : List Range) (va : Nat) : Option Range :=
  l.find? (fun e => decide (e.vabase ≤ va / 65536 ∧ va / 65536 < e.vabase + e.frames))

/-- The first step of a translation: range entries, then the stage-1 cache, then a walk from the root (R231, R236). -/
def State.beginWalk (s : State) (r : TReq) : TOut :=
  if 2 ^ 60 ≤ r.va then .fault codeStage1 0
  else
    match rangeOf r.ranges r.va with
    | some e =>
        if allows e.perm r.need then
          s.begin2 r ⟨4, ((e.iabase + (r.va / 65536 - e.vabase)) * 65536 + r.va % 65536) % 2 ^ 56, none, 0, 0, e.perm, 16, true⟩
        else .fault codePermission 0
    | none =>
        match s.mm.tlb1.find? (fun e => decide (e.port = r.port ∧ e.vf = r.vf ∧ e.va / 2 ^ e.run = r.va / 2 ^ e.run)) with
        | some e =>
            if allows e.perm r.need then
              let ia := e.ia / 2 ^ e.run * 2 ^ e.run + r.va % 2 ^ e.run
              if e.va / 65536 = r.va / 65536 then
                if allows e.perm2 r.need then .done (e.pa / 65536 * 65536 + r.va % 65536) e.perm else .miss false ia
              else s.begin2 r ⟨4, ia, none, 0, 0, e.perm, e.run, false⟩
            else .fault codePermission 0
        | none =>
            s.begin2 r ⟨0, ((s.vf r.vf).stage1root.toNat + 8 * s1Index 0 r.va) % 2 ^ 56, none, 0, 0, 0, 16, false⟩

/-- The entry that a fill of a full cache displaces, out of those that it may: which one is free (LOG 11). -/
def State.pickOf {α : Type} (s : State) (full : Nat) (l : List α) : Option α × State :=
  if l.length < full then (none, s)
  else
    let p := s.pick l.length
    (l[p.1]?, p.2)

/-- Fill the stage-2 cache of a die, of 16,384 entries (R236). -/
def State.addTlb2 (s : State) (e : Tlb2) : State :=
  let p := s.pickOf 16384 (s.mm.tlb2.filter (fun x => decide (x.die = e.die)))
  p.2.modMm (fun m => { m with tlb2 := e :: m.tlb2.filter (fun y => decide (some y ≠ p.1)) })

/-- The entries of a stage-1 cache that share a set of 8 ways with one, of 128 sets (R236); the index is free (LOG 11). -/
def MemSide.tlbWays (m : MemSide) (e : Tlb1) : List Tlb1 :=
  let l := m.tlb1.filter (fun x => decide (x.port = e.port))
  let set := fun (x : Tlb1) => Config.cacheSet 2 (x.va / 2 ^ x.run) % 128
  if l.length < 8 then [] else l.filter (fun x => decide (set x = set e))

/-- Fill the stage-1 cache of a port or control core (R236). -/
def State.addTlb1 (s : State) (e : Tlb1) : State :=
  let p := s.pickOf 8 (s.mm.tlbWays e)
  p.2.modMm (fun m => { m with tlb1 := e :: m.tlb1.filter (fun y => decide (some y ≠ p.1)) })

/-- The physical address of the descriptor that a walk reads next. -/
def Walk.reads (w : Walk) : Nat := match w.pa2 with | some pa => pa | none => w.tbl2 + 8 * s2Index w.lvl2 w.ia

/-- One descriptor read of a walk (R233, R235, R423, R470). -/
def State.walkStep (s : State) (r : TReq) (w : Walk) : TOut × State :=
  if s.poisoned w.reads 8 then (.poison w.reads, s)
  else
  match w.pa2 with
  | none =>
      let d := Mem.read s.mm.mem (w.tbl2 + 8 * s2Index w.lvl2 w.ia) 8
      if !descOk d w.lvl2 true then (.miss (decide (w.lvl1 ≠ 4)) w.ia, s)
      else if w.lvl2 < 3 then (.more { w with lvl2 := w.lvl2 + 1, tbl2 := fld d 16 36 * 65536 }, s)
      else if !s.physOk (fld d 16 36 * 65536) then (.miss (decide (w.lvl1 ≠ 4)) w.ia, s)
      else
        let pa := fld d 16 36 * 65536 + w.ia % 65536
        let s1 := s.addTlb2 ⟨r.die.val, r.vf, w.ia / 65536, fld d 16 36, descPerm d⟩
        if !allows (descPerm d) (w.need2 r) then (.miss (decide (w.lvl1 ≠ 4)) w.ia, s1)
        else if w.lvl1 = 4 ∧ !w.byRange then
          (w.resolve pa, s1.addTlb1 ⟨r.port, r.vf, r.va, w.run, w.ia, pa, w.perm, descPerm d⟩)
        else (w.resolve pa, s1)
  | some pa =>
      if !s.fotPass r.vf pa false then (.fault codeFot w.ia, s)
      else
        let g := s.homeRead r.vf pa 8
        let d := g.1
        if !descOk d w.lvl1 false then (.fault codeStage1 0, g.2)
        else if w.lvl1 < 3 then
          (g.2.begin2 r { w with lvl1 := w.lvl1 + 1,
                                 ia := (fld d 16 40 * 65536 + 8 * s1Index (w.lvl1 + 1) r.va) % 2 ^ 56 }, g.2)
        else
          let run := if fld d 7 2 = 0 then 16 else if fld d 7 2 = 1 then 21 else 30
          if !allows (descPerm d) r.need then (.fault codePermission 0, g.2)
          else
            let w1 := { w with lvl1 := 4, perm := descPerm d, run := run,
                               ia := fld d 16 40 * 65536 / 2 ^ run * 2 ^ run + r.va % 2 ^ run }
            match g.2.begin2 r w1, g.2.mm.tlb2.find? (fun e => decide (e.die = r.die.val ∧ e.vf = r.vf ∧ e.ia = w1.ia / 65536)) with
            | .done p q, some e => (.done p q, g.2.addTlb1 ⟨r.port, r.vf, r.va, run, w1.ia, p, w1.perm, e.perm⟩)
            | o, _ => (o, g.2)

/-- A translation run to its end: at most four stage-1 reads, each behind at most four stage-2 reads, and four more. It stops with
`more` only before a descriptor of host memory whose Simiow port is down: its agent waits (R469). -/
def State.walkAll (s : State) (r : TReq) : Nat → TOut → TOut × State
  | 0, o => (o, s)
  | fuel + 1, .more w =>
      if s.portWaits w.reads then (.more w, s)
      else
        let x := s.walkStep r w
        x.2.walkAll r fuel x.1
  | _ + 1, o => (o, s)

/-- A translation in one step, for the agents whose accesses the table of steps does not cut: control cores, rings, the
intake, image reads, arenas. -/
def State.translate (s : State) (r : TReq) : TOut × State := s.walkAll r 32 (s.beginWalk r)

end Sys2Proof.Machine
end

