-- ==== Sys2Proof/Machine/Records.lean ====
section
/-!
DEFINITION. What the device writes for others to read: events of control cores (R186), interrupt messages (R215), host rings
(R208), page requests (R213), fault records (R415 to R418) and sampler records (R431 to R434).
-/

namespace Sys2Proof.Machine

/-! ### Fields of CTL, SHARES and AREA (R401, R402) -/

def Vf.enable (v : Vf) : Bool := bit v.ctl 0
def Vf.autores (v : Vf) : Bool := bit v.ctl 2
def Vf.warnen (v : Vf) : Bool := bit v.ctl 3
def Vf.sigreq (v : Vf) : Bool := bit v.ctl 16
def Vf.faultcore (v : Vf) : Fin 4 := Fin.ofNat 4 (bits v.ctl 17 2)
def Vf.priomax (v : Vf) : Nat := bits v.ctl 19 3
def Vf.gen (v : Vf) : Nat := bits v.ctl 32 16
def Vf.blockBase (v : Vf) : Nat := bits v.ctl 48 8
def Vf.blockLast (v : Vf) : Nat := bits v.ctl 56 8
/-- A log2 outside its range takes the nearest bound (R208, R209, R401). -/
def clampLog (v lo hi : Nat) : Nat := if v < lo then lo else if hi < v then hi else v
def Vf.faultLog (v : Vf) : Nat := clampLog (bits v.ctl 22 5) 4 16
/-- 0: no sampler records; a 1 acts as 2 and a value above 25 as 25 (R401). -/
def Vf.sampLog (v : Vf) : Nat := if bits v.ctl 27 5 = 0 then 0 else clampLog (bits v.ctl 27 5) 2 25
def Vf.ondie (v : Vf) : Nat := bits v.shares 56 8
def Vf.hedge (v : Vf) : Nat := bits v.shares 40 16
def Vf.spilllim (v : Vf) : Nat := bits v.shares 24 16
def Vf.pool (v : Vf) : Bool := bit v.shares 0
def Vf.sliceLen (v : Vf) : Nat := bits v.area 48 16
def Vf.quadLimit (v : Vf) : Nat := bits v.area 32 10
/-- A guarantee above the limit guarantees only the limit (R402). -/
def Vf.quadGuar (v : Vf) : Nat := min (bits v.area 0 10) v.quadLimit

/-- The function of a tag block: the enabled function whose window holds it (R401). -/
def State.vfOfBlock (s : State) (b : Nat) : Option Nat :=
  (s.host.vfs.find? (fun p => p.2.enable && decide (p.2.blockBase ≤ b ∧ b ≤ p.2.blockLast))).map (·.1)

/-! ### Events (R186) -/

/-- A condition sets its bit in EVENTS whatever IEMASK holds. -/
def State.setEvent (s : State) (c : Fin 4) (b : Nat) : State :=
  s.modCore c (fun k => { k with events := k.events ||| BitVec.ofNat 5 (2 ^ b) })

/-! ### Writes of the device itself -/

/-- A write of an engine, performed at SYSTEM scope at once: the home is written and no RDC copy is left. A write to an address
without memory, which only a base register can name, has no effect (LOG 25). -/
def State.engineWrite (s : State) (vf pa n v : Nat) : State :=
  if s.physOk pa then (s.serveWrite vf pa n v).dropRdc pa n else s

/-- An interrupt message of a die through the remap table: the sender is a virtual function, or the physical function. It leaves over
the Simiow port of that die (R215). It waits while that port, or the one that homes its row of the table, is down or retraining
(R469). -/
def State.sendIrq (s : State) (die : Fin 2) (handle : Nat) (sender : Option Nat) : State :=
  let dropped := s.modHost (fun h => { h with irqdrop := h.irqdrop + 1 })
  if !bit s.host.irqremap 63 then dropped
  else
    let row := 2 ^ 51 + bits s.host.irqremap 20 31 * 2 ^ 20 + 16 * handle
    let e := Mem.read s.mm.mem row 16
    let held := s.modHost (fun h => { h with irqHeld := h.irqHeld ++ [⟨handle, sender, die⟩] })
    let ok : Bool :=
      match sender with
      | some v => decide (fld e 0 1 = 1) && decide (fld e 23 1 = 0) && decide (fld e 16 7 = v)
      | none => decide (fld e 0 1 = 1) && decide (fld e 23 1 = 1)
    if s.portWaits row then held
    else if !ok || decide (fld e 64 2 ≠ 0) then dropped
    else if s.portDown die then held
    else if 2 ^ 51 ≤ fld e 64 64 then s
    else s.engineWrite hostId (2 ^ 51 + fld e 64 64) 4 (fld e 32 32)

/-- A Simiow port has come up: the interrupt messages that wait are tried again, in order (R469). -/
def State.flushIrqs (s : State) : State :=
  s.host.irqHeld.foldl (fun st q => st.sendIrq q.die q.handle q.vf) (s.modHost (fun h => { h with irqHeld := [] }))

/-! ### Host rings (R208) -/

/-- Write the held records of the host fault ring while it has room; the die that a record names sends its interrupt. -/
def State.flushHostFaults (s : State) : Nat → State
  | 0 => s
  | fuel + 1 =>
      match s.host.fqHeld with
      | [] => s
      | r :: rest =>
          let base := s.host.hostfq.toNat
          let k := clampLog (bits s.host.hostfqcfg 0 5) 4 16
          let rd := Mem.read s.mm.mem (base + 8) 8
          if (s.host.fqW + 2 ^ 64 - rd) % 2 ^ 64 = 2 ^ k ∨ s.portWaits base = true then s
          else
            let s1 := s.engineWrite hostId (base + 64 + 64 * (s.host.fqW % 2 ^ k)) 64 r.toNat
            let s2 := s1.engineWrite hostId base 8 (s.host.fqW + 1)
            let s3 := s2.modHost (fun h => { h with fqHeld := rest, fqW := h.fqW + 1 })
            let s4 := if bit s.host.hostirq 16 then s3.sendIrq (Fin.ofNat 2 (bits r 80 1)) (bits s.host.hostirq 0 16) none else s3
            s4.flushHostFaults fuel

/-- A record for the host fault ring: lost while there is no ring, held up to 16 while it is full, lost beyond (R208). -/
def State.hostFault (s : State) (r : BitVec 512) : State :=
  let lose := fun (t : State) =>
    t.modHost (fun h => { h with hostflost := if h.hostflost.toNat = 2 ^ 64 - 1 then h.hostflost else h.hostflost + 1 })
  if s.host.hostfq = 0 then lose s
  else
    let s1 := s.modHost (fun h => { h with fqHeld := h.fqHeld ++ [r] })
    let s2 := s1.flushHostFaults (s1.host.fqHeld.length + 1)
    if 16 < s2.host.fqHeld.length then lose (s2.modHost (fun h => { h with fqHeld := h.fqHeld.take 16 })) else s2

/-- The die whose port has sent a page request, by the REQID of its record. -/
def State.pageDie (s : State) (r : BitVec 256) : Fin 2 :=
  match s.mm.pageReqs.find? (fun p => decide (p.req = bits r 192 16)) with
  | some p => Fin.ofNat 2 p.port
  | none => 0

/-- Write the waiting page requests while their ring has room; none is lost (R208). The die of a request sends its interrupt. -/
def State.flushPages (s : State) : Nat → State
  | 0 => s
  | fuel + 1 =>
      match s.host.pgHeld with
      | [] => s
      | r :: rest =>
          let base := s.host.pgreqq.toNat
          let k := clampLog (bits s.host.pgreqcfg 0 5) 4 12
          let rd := Mem.read s.mm.mem (base + 8) 8
          if base = 0 ∨ s.portWaits base = true then s
          else if (s.host.pgW + 2 ^ 64 - rd) % 2 ^ 64 = 2 ^ k then s
          else
            let s1 := s.engineWrite hostId (base + 64 + 32 * (s.host.pgW % 2 ^ k)) 32 r.toNat
            let s2 := s1.engineWrite hostId base 8 (s.host.pgW + 1)
            let s3 := s2.modHost (fun h => { h with pgHeld := rest, pgW := h.pgW + 1 })
            let s4 := if bit s.host.hostirq 16 then s3.sendIrq (s.pageDie r) (bits s.host.hostirq 0 16) none else s3
            s4.flushPages fuel

/-- The page request that already asks for a page of a function at a port (R236). -/
def State.findPage (s : State) (die : Fin 2) (vf va ia : Nat) (inWalk : Bool) : Option PageReq :=
  s.mm.pageReqs.find? (fun p =>
    decide (p.port = die.val ∧ p.vf = vf ∧ p.va / 65536 = va / 65536 ∧ p.ia = ia) && decide (p.inWalk = inWalk))

/-- Send a page request over the Simiow port of the die (R213), unless one for the page is outstanding; none is sent while
256 are outstanding at the port (R214). The answer is the request's number. The PASID of an access that no queue interface
made is not given by the spec: it is free (LOG 18). -/
def State.pageRequest (s : State) (die : Fin 2) (vf va ia : Nat) (inWalk write : Bool) (pasid : Option Nat)
    (for_ : PageFor) : Option Nat × State :=
  match (s.findPage die vf va ia inWalk).filter (fun p => p.failed.isNone) with
  | some p => (some p.req, s)
  | none =>
      if 256 ≤ (s.mm.pageReqs.filter (fun p => decide (p.port = die.val))).length then (none, s)
      else
        let ids := (List.range 1024).map (fun k => (s.host.nextReq + k) % 65536)
        let req := (ids.find? (fun r => s.mm.pageReqs.all (fun p => decide (p.req ≠ r)))).getD 0
        let ps : Nat × State := match pasid with | some p => (p, s) | none => s.pick (2 ^ 20)
        let gen := (s.vf vf).gen
        let rec_ : Nat :=
          va + 2 ^ 64 * ((if write then 1 else 0) + vf * 2 + gen * 2 ^ 8 + ps.1 * 2 ^ 24) +
            2 ^ 128 * (if inWalk then ia else 0) + 2 ^ 192 * req
        let s1 := ps.2.modMm (fun m => { m with pageReqs := m.pageReqs ++ [⟨die.val, vf, req, gen, ia, va, inWalk, for_, none⟩] })
        let s2 := s1.modHost (fun h => { h with nextReq := req + 1, pgHeld := h.pgHeld ++ [BitVec.ofNat 256 rec_] })
        (some req, (s2.charge 128 (portCol die.val 0) .simiow 1).flushPages (s2.host.pgHeld.length + 1))

/-! ### Accesses of a function by the device's own units -/

/-- What an access of a unit for a function gives. -/
inductive UOut where
  | ok (pa : Nat) (s : State)
  | fail (code addr2 : Nat) (s : State)
  /-- A page request is outstanding for it. -/
  | wait (s : State)

/-- The range entries that a die's ports last loaded for a function (R232). -/
def State.vfRanges (s : State) (die : Fin 2) (vf : Nat) : List Range :=
  (Map.find s.mm.ranges (2 ^ 18 + vf * 2 + die.val)).getD []

/-- Translate and check an access of a function made by a unit of a die (R404, R418, R431), and send a page request when
stage 2 misses; a request that has failed gives the code of R214, once. -/
def State.unitAccess (s : State) (die : Fin 2) (vf va : Nat) (write : Bool) (pasid : Option Nat) (for_ : PageFor) : UOut :=
  let t := s.translate ⟨die, die.val * 32, vf, va, if write then 2 else 1, s.vfRanges die vf⟩
  match t.1 with
  | .done pa _ =>
      if t.2.portWaits pa then .wait t.2 else if t.2.fotPass vf pa write then .ok pa t.2 else .fail codeFot pa t.2
  | .fault c a => .fail c a t.2
  | .miss w ia =>
      (match t.2.findPage die vf va ia w with
        | some p =>
            (match p.failed with
              | some tenant =>
                  .fail (if tenant then codeStage1 else if w then codeInWalk else codeStage2) ia
                    (t.2.modMm (fun m => { m with pageReqs := m.pageReqs.filter (fun q => decide (q ≠ p)) }))
              | none => .wait t.2)
        | none => .wait (t.2.pageRequest die vf va ia w write pasid for_).2)
  | .poison pa => .fail codeUncorrectable pa t.2
  | .more _ => .wait t.2

/-! ### Sampler records (R431 to R434) -/

/-- What a sampler record names (R432). -/
inductive SampId where
  | unit (l : Loc) (stage : Nat)
  | inst (die id : Nat)
  | core (c : Nat)
  | none

/-- IDKIND and ID of a sampler record (R432). -/
def SampId.pack : SampId → Nat × Nat
  | .unit l st => (0, l.die.val * 2 ^ 16 + quadX l * 2 ^ 12 + quadY l * 2 ^ 7 + (l.x.val % 4) * 2 ^ 5 + (l.y.val % 4) * 2 ^ 3 + st)
  | .inst d i => (1, d * 2 ^ 18 + i)
  | .core c => (2, c)
  | .none => (3, 0)

/-- A sampler record without its SEQ (R432). -/
def sampPack (time : Nat) (value tag : BitVec 64) (code : Nat) (id : SampId) : BitVec 256 :=
  BitVec.ofNat 256 (time * 2 ^ 192 + value.toNat * 2 ^ 128 + tag.toNat * 2 ^ 64 + code * 2 ^ 48 +
    id.pack.1 * 2 ^ 46 + id.pack.2 * 2 ^ 24)

/-- Code of a LOSS record. -/
def sampLoss : Nat := 0x00FF

/-- The sampler ring of n records, with its header at a physical address, has no free record. -/
def State.sampFull (s : State) (v hdr n : Nat) : Bool :=
  decide (n ≤ ((s.vf v).sampW + 2 ^ 64 - Mem.read s.mm.mem (hdr + 8) 8) % 2 ^ 64)

/-- One record into the sampler ring, whose slot and header have been translated, and the LOSS record behind it when the ring is full;
none where the page of that one fails (R431, R434). A LOSS record keeps TIME of the record that it replaces, and its TAG is 0
(DESIGN CHOICE, LOG 68). -/
def State.sampPut (s : State) (v : Nat) (hdr slot : Nat) (next : Option Nat) (n : Nat) (r : BitVec 256) : State :=
  let w := (s.vf v).sampW
  let rd := Mem.read s.mm.mem (hdr + 8) 8
  let e := setBits r 0 24 w
  let s1 := s.engineWrite v slot 32 e.toNat
  let s2 := s1.engineWrite v hdr 8 (w + 1)
  let s3 := (s2.modVf v (fun f => { f with sampW := f.sampW + 1 })).charge v (portCol 0 0) .record 1
  if !s.sampFull v hdr n then s3
  else
    let s4 := s3.engineWrite v (hdr + 8) 8 (rd + 1)
    match next with
    | none => s4
    | some a =>
        let old := Mem.read s.mm.mem slot 32
        let c := if fld old 48 16 = sampLoss then fld old 128 64 else 1
        let nxt := Mem.read s3.mm.mem a 32
        let loss := fld nxt 192 64 * 2 ^ 192 + (c + 1) * 2 ^ 128 + sampLoss * 2 ^ 48 + 3 * 2 ^ 46 + (rd + 1) % 2 ^ 24
        s4.engineWrite v a 32 loss

/-- Write the records that wait for the sampler ring (R431). A failed translation drops the record; a stage-2 miss lets it
wait; without a ring they are dropped. -/
def State.flushSamples (s : State) (v : Nat) : Nat → State
  | 0 => s
  | fuel + 1 =>
      match (s.vf v).sampHeld with
      | [] => s
      | r :: rest =>
          let f := s.vf v
          let n := 2 ^ f.sampLog
          let drop := fun (t : State) => t.modVf v (fun x => { x with sampHeld := rest })
          if f.sampq = 0 ∨ f.sampLog = 0 then s.modVf v (fun x => { x with sampHeld := [] })
          else
          match s.unitAccess 0 v f.sampq.toNat true none (.sampRing v) with
          | .fail _ _ t => (drop t).flushSamples v fuel
          | .wait t => t
          | .ok hdr t =>
              match t.unitAccess 0 v (f.sampq.toNat + 64 + 32 * (f.sampW % n)) true none (.sampRing v) with
              | .fail _ _ t2 => (drop t2).flushSamples v fuel
              | .wait t2 => t2
              | .ok slot t2 =>
                  if !t2.sampFull v hdr n then ((drop t2).sampPut v hdr slot none n r).flushSamples v fuel
                  else
                  match t2.unitAccess 0 v (f.sampq.toNat + 64 + 32 * ((f.sampW + 1) % n)) true none (.sampRing v) with
                  | .fail _ _ t3 => ((drop t3).sampPut v hdr slot none n r).flushSamples v fuel
                  | .wait t3 => t3
                  | .ok next t3 => ((drop t3).sampPut v hdr slot (some next) n r).flushSamples v fuel

/-- A sampler record of a function: dropped without a count while it has no ring; up to 16 wait behind one that waits for a
page (R431). -/
def State.sample (s : State) (v : Nat) (die : Fin 2) (code : Nat) (id : SampId) (value tag : BitVec 64) : State :=
  let f := s.vf v
  if f.sampq = 0 ∨ f.sampLog = 0 then s
  else if 17 ≤ f.sampHeld.length then s
  else
    let s1 := s.modVf v (fun x => { x with sampHeld := x.sampHeld ++ [sampPack (s.ns die) value tag code id] })
    s1.flushSamples v (f.sampHeld.length + 2)

/-! ### Fault records (R415 to R418) -/

/-- The fields of a fault record beside TIME and SEQ (R415). -/
structure FaultInfo where
  code : Nat
  /-- 0 station, 1 border port, 2 Thicket engine, 3 Pricking engine, 4 control core, 5 energy hub, 6 memory side. -/
  source : Nat
  vf : Option Nat
  loc : Option Loc := none
  die : Fin 2 := 0
  stage : Nat := 0
  inst : Nat := 0
  /-- The record names an instance (R433); an instance id may be 0. -/
  named : Bool := true
  ctx : Nat := 0
  /-- The control core, for SOURCE 4. -/
  core : Nat := 0
  tag : BitVec 64 := 0
  va : Nat := 0
  addr2 : Nat := 0
  /-- The physical address that the host copy carries in ADDR2, or zero. -/
  pa : Nat := 0
  arg : Nat := 0
  edge : Nat := 0
  detail : Nat := 0
  lsids : Nat := 0
  tokens : Nat := 0

/-- A fault record with a time and a SEQ (R415). -/
def FaultInfo.pack (f : FaultInfo) (time seq : Nat) : BitVec 512 :=
  let unit : Nat :=
    match f.loc with
    | some l => l.die.val * 2 ^ 80 + quadX l * 2 ^ 76 + quadY l * 2 ^ 71 + (l.x.val % 4) * 2 ^ 69 + (l.y.val % 4) * 2 ^ 67
    | none => f.die.val * 2 ^ 80
  BitVec.ofNat 512 (time * 2 ^ 448 + f.tokens % 2 ^ 32 * 2 ^ 416 + f.lsids % 2 ^ 32 * 2 ^ 384 + f.arg % 2 ^ 64 * 2 ^ 320 +
    f.addr2 % 2 ^ 64 * 2 ^ 256 + f.va % 2 ^ 64 * 2 ^ 192 + f.tag.toNat * 2 ^ 128 + f.inst % 2 ^ 18 * 2 ^ 110 +
    f.ctx % 8 * 2 ^ 107 + (f.vf.getD 0) % 128 * 2 ^ 100 + f.edge % 2 ^ 16 * 2 ^ 84 + f.stage % 8 * 2 ^ 81 + unit +
    (match f.vf with | some _ => 0 | none => 2 ^ 64) + f.code % 256 * 2 ^ 56 + f.source % 16 * 2 ^ 52 +
    f.detail % 2 ^ 16 * 2 ^ 32 + seq % 2 ^ 32)

/-- The host copy of a record: ADDR2 holds the physical address where the fault is of one (R415). -/
def FaultInfo.forHost (f : FaultInfo) : FaultInfo := if f.pa = 0 then f else { f with addr2 := f.pa }

/-- What the sampler's FAULT record names (R433). -/
def FaultInfo.sampId (f : FaultInfo) : SampId :=
  match f.source, f.loc with
  | 4, _ => .core f.core
  | 0, some l => .unit l f.stage
  | 1, some l => .unit l f.stage
  | 2, some l => .unit l f.stage
  | 3, _ => if f.named then .inst f.die.val f.inst else .none
  | 5, _ => if f.named then .inst f.die.val f.inst else .none
  | 6, _ => if f.named then .inst f.die.val f.inst else .none
  | _, _ => .none

/-- FLOST rises, saturating, and FAULT is set all the same (R418). -/
def State.loseFaults (s : State) (v n : Nat) : State :=
  (s.modVf v (fun f => { f with flost := BitVec.ofNat 16 (min (f.flost.toNat + n) 65535) })).setEvent (s.vf v).faultcore 1

/-- Write the held records of a fault ring while it has room (R418): they are lost when there is no ring any more, or when the write of
a record or of W, or the read of R, fails. -/
def State.flushFaults (s : State) (v : Nat) : Nat → State
  | 0 => s
  | fuel + 1 =>
      match (s.vf v).heldFaults with
      | [] => s
      | r :: rest =>
          let f := s.vf v
          let n := 2 ^ f.faultLog
          let lose := fun (t : State) =>
            (t.modVf v (fun x => { x with heldFaults := [], pendFaults := x.pendFaults.filter (fun p => decide (p.1 < x.faultW)) })).loseFaults
              v (rest.length + 1)
          if f.faultq = 0 then lose s
          else
          match s.unitAccess 0 v f.faultq.toNat true none (.faultRing v) with
          | .fail _ _ t => lose t
          | .wait t => t
          | .ok hdr t0 =>
              match t0.unitAccess 0 v (f.faultq.toNat + 8) false none (.faultRing v) with
              | .fail _ _ t => lose t
              | .wait t => t
              | .ok _ t =>
              if (f.faultW + 2 ^ 64 - Mem.read t.mm.mem (hdr + 8) 8) % 2 ^ 64 = n then t
              else
                match t.unitAccess 0 v (f.faultq.toNat + 64 + 64 * (f.faultW % n)) true none (.faultRing v) with
                | .fail _ _ t2 => lose t2
                | .wait t2 => t2
                | .ok slot t2 =>
                    let s1 := (t2.engineWrite v slot 64 r.toNat).engineWrite v hdr 8 (f.faultW + 1)
                    let s2 := s1.modVf v (fun x => { x with heldFaults := rest, faultW := x.faultW + 1 })
                    ((s2.charge v (portCol 0 0) .record 1).setEvent f.faultcore 1).flushFaults v fuel

/-- A fault record to the partition, with what it can resume; the answer is its SEQ, or none when it is lost (R418). -/
def State.partFault (s : State) (v : Nat) (f : FaultInfo) (res : Option FaultFor) : Option Nat × State :=
  let x := s.vf v
  if x.faultq = 0 then (none, s.loseFaults v 1)
  else
    let seq := x.faultW + x.heldFaults.length
    let rec_ := f.pack (s.ns f.die) seq
    let s1 := s.modVf v (fun y => { y with heldFaults := y.heldFaults ++ [rec_] })
    let s2 := s1.flushFaults v (x.heldFaults.length + 2)
    let y := s2.vf v
    if 16 < y.heldFaults.length then
      (none, (s2.modVf v (fun z => { z with heldFaults := z.heldFaults.take 16 })).loseFaults v 1)
    else if y.faultW + y.heldFaults.length ≤ seq then (none, s2)
    else
      let s3 := match res with
        | some r => s2.modVf v (fun z => { z with pendFaults := z.pendFaults ++ [(seq, r)] })
        | none => s2
      (some seq, s3.sample v f.die 0x0010 f.sampId (dbl (f.code * 2 ^ 32 + seq % 2 ^ 32)) f.tag)

/-- A fault record to the partition that it names, a host copy of it, or a record to the host only (R416, R418). -/
def State.report (s : State) (f : FaultInfo) (toHost : Bool) (res : Option FaultFor) : Option Nat × State :=
  let p : Option Nat × State :=
    match f.vf with
    | some v => s.partFault v f res
    | none => (none, s)
  if toHost then (p.1, p.2.hostFault (f.forHost.pack (s.ns f.die) (p.1.getD (2 ^ 32 - 1)))) else p

/-- A record that goes to the host only: SEQ all ones (R418). -/
def State.reportHost (s : State) (f : FaultInfo) : State := s.hostFault (f.forHost.pack (s.ns f.die) (2 ^ 32 - 1))

/-- partition_fault of R10: a record of the partition alone. -/
def State.partitionFault (s : State) (f : FaultInfo) : State := (s.report f false none).2

end Sys2Proof.Machine
end

