-- ==== Sys2Proof/Machine/Tok.lean ====
section
/-!
DEFINITION. Sending tokens: headers and destinations (R116 to R121), hops (R26, R27), emit_token with its
releases (R50, R53, R269, R276 to R279).
-/

namespace Sys2Proof.Machine

/-! ### Fault codes of stations (R416) -/

def codeWindow : Nat := 0x02
def codeSpillLimit : Nat := 0x03
def codeMatchLost : Nat := 0x04
def codeNoExit : Nat := 0x05
def codeEmitCount : Nat := 0x06
def codeStoreMask : Nat := 0x07
def codeFormat : Nat := 0x08
def codeTrap : Nat := 0x21
def codeNoKnot : Nat := 0x30
def codeArena : Nat := 0x31
def codeStale : Nat := 0x32
def codeScope : Nat := 0x33
def codeFetch : Nat := 0x34
def codeThicketFull : Nat := 0x40
def codeThicketDesc : Nat := 0x41
def codeQuota : Nat := 0x50
def codeResidue : Nat := 0x61
def codeIllegalLoad : Nat := 0x01

/-! ### Headers (R116, R117) -/

/-- Kind codes (R117). -/
def kindWord : Nat := 0
def kindTile : Nat := 1
def kindNull : Nat := 2
def kindMarker : Nat := 3
def kindSpill : Nat := 4
def kindArg : Nat := 5
def kindResult : Nat := 6

/-- The kind and TL of a payload on an arc of an instance. -/
def Payload.kindTl : Payload → Nat × Bool
  | .word _ => (kindWord, false)
  | .tile _ => (kindTile, true)
  | .null => (kindNull, false)

/-- As `kindTl` for an argument or result; a null stays a null (R117, R318). -/
def Payload.crossTl (k : Nat) : Payload → Nat × Bool
  | .word _ => (k, false)
  | .tile _ => (k, true)
  | .null => (kindNull, false)

/-- Even parity over header bits [46:0] and the tag (R116). -/
def parityOf (h : BitVec 48) (tag : BitVec 64) : Bool := (onesIn (bits h 0 47) 47 + onesIn tag.toNat 64) % 2 = 1

/-- A routing header (R116). -/
def mkHeader (l : Loc) (sprig slot : Nat) (k : Nat × Bool) (edge : Nat) (tag : BitVec 64) : BitVec 48 :=
  let h0 : BitVec 48 := BitVec.ofNat 48
    (l.die.val * 2 ^ 46 + l.x.val * 2 ^ 40 + l.y.val * 2 ^ 33 + sprig % 16 * 2 ^ 29 + slot % 4 * 2 ^ 27 +
      k.1 % 8 * 2 ^ 24 + (if k.2 then 2 ^ 23 else 0) + edge % 2 ^ 16)
  if parityOf h0 tag then h0 ||| BitVec.ofNat 48 (2 ^ 47) else h0

def Token.loc (t : Token) : Loc := locOf (bits t.header 46 1) (bits t.header 40 6) (bits t.header 33 7)
def Token.sprig (t : Token) : Nat := bits t.header 29 4
def Token.slot (t : Token) : Nat := bits t.header 27 2
def Token.kind (t : Token) : Nat := bits t.header 24 3
def Token.tl (t : Token) : Bool := bit t.header 23
def Token.edge (t : Token) : Nat := bits t.header 0 16
def Token.parOk (t : Token) : Bool := decide (bit t.header 47 = parityOf (setBits t.header 47 1 0) t.tag)

/-! ### Hops and their charge (R26, R27, R425) -/

/-- Hops in one dimension: express hops of four, then single ones. -/
def hops1 (a b : Nat) : Nat := let d := max a b - min a b; d / 4 + d % 4

/-- Hops of a token between two stations. -/
def hopCount (a b : Loc) : Nat :=
  if a.die = b.die then hops1 a.x.val b.x.val + hops1 a.y.val b.y.val
  else
    let outX := if a.die = 0 then 63 else 0
    let inX := if b.die = 0 then 63 else 0
    hops1 a.x.val outX + 1 + hops1 inX b.x.val + hops1 a.y.val b.y.val

/-! ### The out-buffer and the tile staging area (R134) -/

/-- Rows of 48 bytes that a tile payload takes. -/
def Tile.rows48 (t : Tile) : Nat := (t.rows * t.rowBytes + 47) / 48

/-- The tile of a payload. -/
def Payload.tile? : Payload → Option Tile
  | .tile t => some t
  | .word _ => none
  | .null => none

/-- A token waits at a station for its release. -/
def State.tokWaits (s : State) (l : Loc) (f : Flight) : Bool := decide (f.src = some l) && !f.holds.all s.holdMet

/-- Argument tokens that wait at a station for their callee's binding: with the firing that sent them, or in the callee's record
(R53, R318). -/
def State.argsAt (s : State) (l : Loc) : List Flight :=
  let v := s.st l
  ((v.firing :: v.parked).map (fun f => f.args.map (·.flight))).flatten ++
    (s.prick.insts.map (fun i => (i.held.filter (fun q => decide (q.1 < 16 ∧ q.2.src = some l))).map (·.2))).flatten

/-- The tokens that wait in a station's out-buffer, or in the Hedgerow for it. -/
def State.waitingAt (s : State) (l : Loc) : List Flight := s.fab.tokens.filter (s.tokWaits l) ++ s.argsAt l

/-- Bytes of the tile staging area in use. -/
def State.stagingUsed (s : State) (l : Loc) : Nat :=
  ((s.waitingAt l).map (fun f => if f.payBank then 0 else
    match f.tok.payload.tile? with | some t => t.rows * t.rowBytes | none => 0)).foldl (· + ·) 0

/-- The partition that owns a token's BLOCK: the enabled function whose window holds it, or, once ENABLE is clear, that of the instance
that sent it; else the device overhead pool (R425). -/
def State.blockVf (s : State) (f : Flight) : Nat :=
  match s.vfOfBlock (tagBlock f.tok.tag), s.inst? f.from_ with
  | some v, _ => v
  | none, some i => i.vf
  | none, none => 128

/-- A token that waits at its station puts its tile payload into the 24 KiB of the staging area, or into the Hedgerow bank when
that is full (R134). -/
def State.stowTile (s : State) (f : Flight) : Flight × State :=
  match f.src, f.tok.payload.tile? with
  | some l, some t =>
      if s.stagingUsed l + t.rows * t.rowBytes ≤ 24576 then (f, s)
      else
        ({ f with payBank := true },
          s.charge (s.blockVf f) (colOf l) .hedgerow t.rows48)
  | _, _ => (f, s)

/-- The entry is an ACCRD, whose token has an out-buffer entry. -/
def MatOp.sends : MatOp → Bool
  | .accrd _ _ _ _ => true
  | .mma _ _ => false
  | .mmas _ _ _ => false
  | .afeed _ => false
  | .acctail => false
  | .accclr => false
  | .accld _ => false

/-- The entries of an out-buffer that tokens take: one each, and one together for the nulls with which a THEND pads (R159). -/
def entriesOf (pads : List Nat) : Nat := (pads.filter (· = 0)).length + (pads.filter (· ≠ 0)).eraseDups.length

/-- Out-buffer entries in use: reserved ones, those of queued ACCRDs, and tokens that wait for a release, for a stile or for their
callee's binding, those of sink arcs with them. -/
def State.outUsed (s : State) (l : Loc) : Nat :=
  let v := s.st l
  let fs := v.firing :: (v.ended ++ v.parked)
  (v.matq.filter (fun e => e.op.sends)).length + (fs.map (·.reserved)).sum +
    entriesOf ((fs.map (fun f => f.crossing.map (·.pad))).flatten ++
      ((s.waitingAt l).filter (fun f => !f.inBank)).map (·.pad) ++
      (s.fab.sinkMsgs.filter (fun m => decide (m.src = some l) && !m.holds.all s.holdMet)).map (·.pad))

/-- The sender that stands for the INJ tokens that a root record has held: once released, they are one arc, in the order in which they
were issued (R197, R444). -/
def heldFrom : Nat := 2 ^ 20 + 4

/-- Put a token on the network and charge its hops to the partition of its BLOCK (R425). -/
def State.launchTok (s : State) (f : Flight) : State :=
  let u := s.newUid
  let g := { f with uid := u.1, inBank := false, payBank := false }
  let q := if f.holds.all s.holdMet then (g, u.2) else u.2.stowTile g
  let s1 := q.2.modFab (fun b => { b with tokens := b.tokens ++ [q.1] })
  match f.src with
  | none => s1
  | some l =>
      let w := match f.tok.payload with | .tile _ => Work.tileHop | .word _ => Work.wordHop | .null => Work.wordHop
      s1.charge (s.blockVf f) (colOf l) w (hopCount l f.tok.loc)

/-! ### Destinations (R77, R121, R295, R296, R318, R325) -/

/-- The station that a routing word of TARGET 0 names in an instance's rectangle (R121). -/
def Inst.target (i : Inst) (r : BitVec 64) : Loc := locOf i.die.val (4 * i.qx + rtDx r) (4 * i.qy + rtDy r)

/-- Root instance and spawned ones hold a root record; a callee does not. -/
def Inst.isCallee (i : Inst) : Bool :=
  match i.kind with
  | .callee _ _ _ => true
  | .root => false
  | .spawned => false

/-- The root record that holds an instance's sink registers; a callee's stand in its own record (R121, R310). -/
def Inst.sinkRoot (i : Inst) : Option Nat := if i.isCallee then none else some i.root

/-- A message to a sink register of an instance (R153, R325). -/
def State.sendSink (s : State) (i : Inst) (k : Nat) (p : Payload) (src : Option Loc) (edge fid : Nat) (holds : List Hold)
    (before : List Nat) (pad : Nat := 0) : State :=
  s.modFab (fun b => { b with sinkMsgs := b.sinkMsgs ++ [⟨i.id, i.sinkRoot, fid, k, p, src, edge, holds, before, pad⟩] })

/-- A token for entry e of an instance that is placed (R317, R197). -/
def Inst.entryTok (i : Inst) (e : Nat) (p : Payload) (tag : BitVec 64) (k : Nat × Bool) : Token :=
  let r := (i.img.bind (fun m => m.entries[e]?)).getD 0
  let t := setBits (setBits tag 38 18 i.id) 35 3 i.slot
  ⟨mkHeader (i.target r) (rtSprig r) (rtSlot r) k (rtEdge r) t, t, p⟩

/-- The instance holds a placement whose stations take tokens. -/
def IState.placed : IState → Bool
  | .live => true
  | .returning => true
  | .evicting => true
  | .queued => false
  | .placing => false
  | .saved => false
  | .relinking => false
  | .retired => false
  | .killed => false

/-- A placement of an instance is under way, and its argument and INJ tokens have not been released (R312). -/
def State.binding (s : State) (id : Nat) : Bool :=
  [0, 1].any (fun (d : Fin 2) => match (s.eng d).placing with | some p => decide (p.inst = id) | none => false)

/-- An argument token goes to its callee: it waits, in the order sent, until the binding, and goes to the entry after it (R317,
R318). A null for an entry keeps its place in the count as any token; DROPNULL of an entry's routing word, on which R295 says
nothing, discards no argument (DESIGN CHOICE, LOG 53). -/
def State.toCallee (s : State) (c e : Nat) (f : Flight) : State :=
  match s.inst? c with
  | none => s
  | some i =>
      if i.st = .retired ∨ i.st = .killed then s
      else if i.st = .queued ∨ i.st = .placing ∨ s.binding c then
        s.modInst c (fun j => { j with held := j.held ++ [(e, f)], argRes := j.argRes - 1 })
      else
        let k := f.tok.payload.crossTl kindArg
        (s.modInst c (fun j => { j with argRes := j.argRes - 1 })).launchTok
          { f with tok := i.entryTok e f.tok.payload f.tok.tag k }

/-- A result token of a callee, under its return tag with the caller's present slot (R318, R119). A null toward a slot whose
result route carries DROPNULL is discarded here and ends the reservation (R292). Once the caller has ended, the routing word is
gone and the token goes nowhere, without a record (DESIGN CHOICE, LOG 53). -/
def State.sendResult (s : State) (i : Inst) (caller site : Nat) (rt : BitVec 64) (k : Nat) (p : Payload) (f : Flight) : State :=
  let s1 := s.modInst i.id (fun j => { j with sentRes := nput j.sentRes k })
  match (s.inst? caller).filter (fun c => decide (c.st ≠ .retired ∧ c.st ≠ .killed)) with
  | none => s1
  | some c =>
      let r := (i.resRoutes[k]?).getD 0
      if p = .null ∧ rtDropNull r then
        s1.modInst caller (fun j => { j with resRes := j.resRes.erase (site, k) })
      else
        let t := setBits rt 35 3 c.slot
        s1.launchTok { f with tok := ⟨mkHeader (c.target r) (rtSprig r) (rtSlot r) (p.crossTl kindResult) (rtEdge r) t, t, p⟩ }

/-- Send a payload by a routing word of an instance, for a firing or for an engine that acts later for it: to a slot, a sink,
a result, or the argument of the callee given (R77). -/
def State.sendRoute (s : State) (i : Inst) (r : BitVec 64) (tag : BitVec 64) (p : Payload) (callee : Option Nat)
    (f : Flight) : State :=
  if p = .null ∧ rtDropNull r then s
  else
    match rtTarget r with
    | 0 => s.launchTok { f with tok := ⟨mkHeader (i.target r) (rtSprig r) (rtSlot r) p.kindTl (rtEdge r) tag, tag, p⟩ }
    | 1 => s.sendSink i (rtNum r) p f.src (rtEdge r) f.fid f.holds (f.before.getD []) f.pad
    | 2 =>
        match i.kind with
        | .callee caller site rt => s.sendResult i caller site rt (rtNum r) p f
        | .root => s.sendSink i (rtNum r) p f.src (rtEdge r) f.fid f.holds (f.before.getD []) f.pad
        | .spawned => s.sendSink i (rtNum r) p f.src (rtEdge r) f.fid f.holds (f.before.getD []) f.pad
    | _ =>
        match callee with
        | some c => s.toCallee c (rtSprig r) { f with tok := ⟨0, tag, p⟩ }
        | none => s

/-- Crossing arcs (R276). -/
def isCrossing (r : BitVec 64) : Bool := decide (rtTarget r = 2) || decide (rtTarget r = 3)

/-- The definition of the strand that an element or a scatter-add carries, changed. -/
def AccOp.modDef (op : AccOp) (f : StrandDef → StrandDef) : AccOp :=
  match op with
  | .elemLoad r i d => .elemLoad r i (f d)
  | .elemStore r i d v => .elemStore r i (f d) v
  | .scadd r i t d v => .scadd r i t (f d) v
  | .load x => .load x
  | .store v => .store v
  | .loadF a b => .loadF a b
  | .storeF v => .storeF v
  | .fec => .fec
  | .feq => .feq
  | .amo o v x => .amo o v x
  | .tload k a b d => .tload k a b d
  | .tstore a b d v => .tstore a b d v
  | .scflush r b => .scflush r b
  | .written => .written
  | .prefetch => .prefetch

/-- The definition of the strand whose element an access is. -/
def AccOp.strandDef : AccOp → Option StrandDef
  | .elemLoad _ _ d => some d
  | .elemStore _ _ d _ => some d
  | .scadd _ _ _ d _ => some d
  | .load _ => none
  | .store _ => none
  | .loadF _ _ => none
  | .storeF _ => none
  | .fec => none
  | .feq => none
  | .amo _ _ _ => none
  | .tload _ _ _ _ => none
  | .tstore _ _ _ _ => none
  | .scflush _ _ => none
  | .written => none
  | .prefetch => none

/-! ### The firing in progress -/

/-- The instance of the firing in progress. -/
def State.fInst (s : State) : Option Inst := s.inst? s.fir.inst

/-- The partition of the firing in progress. -/
def State.fVf (s : State) : Nat := match s.fInst with | some i => i.vf | none => 0

/-- The routing word of an arc of the firing's sprig: emit arcs 0 to 15, exit arcs from 16. -/
def Ctx.route? (c : Ctx) (sprig arc : Nat) : Option (BitVec 64) :=
  ((c.routes[sprig]?).getD []).find? (fun r => decide (rtArc r = arc))

/-- Everything that happens before the next instruction of the firing (R271). -/
def Firing.covers (f : Firing) : List Nat := f.before

/-- The release that a token of the firing makes when an instruction sends it on an arc: an EMITR at its scope, a token after a
FENCE of kind rel or full at the fence's scope or the wider of the two (R269, R280), a token on a crossing arc through the implicit
DEVICE stile, or through the stile that the sprig has passed (R276, R277). It waits for, and carries, all that happens before it;
the stile's part is what its release point covers. -/
def Firing.release (f : Firing) (die : Fin 2) (r : BitVec 64) (rel : Option Scope) : TokRel :=
  let sc := match rel, f.tokRel with
    | some a, some b => some (Scope.max a b)
    | some a, none => some a
    | none, b => b
  let own := (match sc with | some x => [(x, f.covers)] | none => []) ++
    (if isCrossing r && !hdrStile f.header then [(Scope.device, f.covers)] else [])
  let past := isCrossing r && f.stilePassed
  ⟨own.map (fun x => ⟨x.1, die, x.2⟩) ++ (if past then f.stileHold else []),
    if own.isEmpty && !past then none else some (nunion (if past then f.stileBefore else []) (own.map (·.2)).flatten)⟩

/-- A token of an engine that works for the firing: on an arc within the instance it carries no release (R272), and waits for what
a FENCE of kind rel or full before it waits for (R279). -/
def Firing.lateRelease (f : Firing) (die : Fin 2) (r : BitVec 64) : TokRel :=
  if isCrossing r then f.release die r none else ⟨if f.tokRel.isSome then f.relHold.toList else [], none⟩

/-- A token takes one of the firing's out-buffer entries. -/
def Firing.take1 (f : Firing) : Firing := { f with used := f.used + 1, reserved := f.reserved - 1 }

/-- A token enters the router or its wait for a callee. -/
def Firing.sent1 (f : Firing) : Firing := { f with sent := f.sent + 1 }

/-- A token takes an out-buffer entry and is sent. -/
def Firing.count1 (f : Firing) : Firing := f.take1.sent1

/-- An argument token stays with its firing until the call request (R53). -/
def State.keepArg (s : State) (r : BitVec 64) (fl : Flight) : State :=
  let q := s.stowTile fl
  q.2.modFir (fun f => { f with args := f.args ++ [⟨rtNum r, rtSprig r, q.1⟩] })

/-- emit_token: send a payload on an arc of the firing's sprig under a tag. A null on a DROPNULL arc is discarded (R50). An
argument waits with the firing for the call request (R53). In a stile sprig a crossing token waits for the release point
(R277). -/
def State.emitTok (s : State) (arc : Nat) (tag : BitVec 64) (p : Payload) (rel : Option Scope) : State :=
  match s.fInst, s.cx.route? s.fir.sprig arc with
  | some i, some r =>
      let c := s.fir.release s.sched.curSt.die r rel
      if p = .null ∧ rtDropNull r then s
      else if isCrossing r && hdrStile s.fir.header && !s.fir.stilePassed then
        s.modFir (fun f => { f.take1 with crossing := f.crossing ++ [⟨arc, tag, p, c, f.pad⟩] })
      else
        let fl : Flight :=
          { tok := ⟨0, tag, p⟩, src := some s.sched.curSt, from_ := i.id, fid := s.fir.id, holds := c.holds, before := c.before,
            pad := s.fir.pad }
        let s1 := s.modFir Firing.count1
        if rtTarget r = 3 then s1.keepArg r fl else s1.sendRoute i r tag p none fl
  | _, _ => s

/-- The outgoing tag. -/
def State.otag (s : State) : BitVec 64 := s.fir.otag

/-- An arc of the firing has been claimed. -/
def Firing.isClaimed (f : Firing) (arc : Nat) : Bool := bit f.claimed arc

/-- Claim an arc. -/
def State.claim (s : State) (arc : Nat) : State :=
  s.modFir (fun f => { f with claimed := f.claimed ||| BitVec.ofNat 16 (2 ^ arc) })

end Sys2Proof.Machine
end

