-- ==== Sys2Proof/Machine/Inst.lean ====
section
/-!
DEFINITION. The life of an instance: its stations, its count, retirement, kills, the root record's lineage, and region fences
(R34, R290 to R294, R310, R315, R316).
-/

namespace Sys2Proof.Machine

/-! ### Station records of an image (R80) -/

def StaRec.x (r : StaRec) : Nat := bits r.head 58 6
def StaRec.y (r : StaRec) : Nat := bits r.head 51 7
def StaRec.format (r : StaRec) : Nat := bits r.head 41 6
def StaRec.pleach (r : StaRec) : Bool := bit r.head 32
def StaRec.nwords (r : StaRec) : Nat := bits r.head 20 12

/-- The body of sprig n of a record: its words after the two header words. -/
def StaRec.body (r : StaRec) (n : Nat) : List Word :=
  let off := sprigIoff ((r.sprigs[n]?).getD 0)
  let lo := ((r.words[off]?).getD 0).toNat
  (r.words.drop (off + 2)).take (fld lo 27 5 + 1)

/-- All bodies of a record. -/
def StaRec.bodies (r : StaRec) : List (List Word) := (List.range r.sprigs.length).map r.body

/-- The image holds a RET (R293). -/
def Image.hasRet (m : Image) : Bool := m.stas.any (fun r => r.bodies.any (fun b => b.contains 0xA2000000))

/-- The stations that an instance's image has records for, in its rectangle. -/
def Inst.stations (i : Inst) : List (Loc × StaRec) :=
  match i.img with
  | none => []
  | some m => m.stas.map (fun r => (locOf i.die.val (4 * i.qx + r.x) (4 * i.qy + r.y), r))

/-- The gate station (R146). -/
def Inst.gate (i : Inst) : Loc := locOf i.die.val (4 * i.qx) (4 * i.qy)

def Inst.w (i : Inst) : Nat := match i.img with | some m => m.w | none => 1
def Inst.h (i : Inst) : Nat := match i.img with | some m => m.h | none => 1

/-- The rectangle holds a quad. -/
def Inst.covers (i : Inst) (die qx qy : Nat) : Bool :=
  decide (i.die.val = die ∧ i.qx ≤ qx ∧ qx < i.qx + i.w ∧ i.qy ≤ qy ∧ qy < i.qy + i.h)

/-- The instance holds a rectangle and its slots (R291); a placement under way holds its own (`State.held`). -/
def IState.holds : IState → Bool
  | .live => true
  | .returning => true
  | .evicting => true
  | .placing => false
  | .relinking => false
  | .queued => false
  | .saved => false
  | .retired => false
  | .killed => false

/-- Its frames fire (R291). -/
def IState.runs : IState → Bool
  | .live => true
  | .returning => true
  | .evicting => false
  | .placing => false
  | .relinking => false
  | .queued => false
  | .saved => false
  | .retired => false
  | .killed => false

/-- It has ended. -/
def IState.ended : IState → Bool
  | .retired => true
  | .killed => true
  | .live => false
  | .returning => false
  | .evicting => false
  | .placing => false
  | .relinking => false
  | .queued => false
  | .saved => false

/-! ### The count (R292) -/

/-- A flight is aimed at an instance: a token that bears its id and is no marker. -/
def Flight.aims (f : Flight) (id : Nat) : Bool := decide (tagInst f.tok.tag = id) && decide (f.tok.kind ≠ kindMarker)

/-- A station holds a frame or a firing of an instance. -/
def Station.busyWith (v : Station) (id : Nat) : Bool :=
  v.frames.any (fun f => decide (f.inst = id)) || (v.firing.active && decide (v.firing.inst = id)) ||
    v.ended.any (fun f => decide (f.inst = id)) || v.parked.any (fun f => decide (f.inst = id))

/-- INJ tokens are held for a root until its placement is acknowledged (R197, R312, R444). -/
def State.injHeld (s : State) (i : Inst) : Bool :=
  decide (i.kind = .root) && (match s.root? i.root with | some r => !r.held.isEmpty | none => false)

/-- The count of an instance is zero (R292): no token aimed at it, held ones with them, no frame or firing, no sink message, and no
reservation. A spawn request that has not left keeps it too. -/
def State.countZero (s : State) (i : Inst) : Bool :=
  i.argRes == 0 && i.resRes.isEmpty && i.entRes.isEmpty && i.held.isEmpty && !s.injHeld i &&
    s.fab.tokens.all (fun f => !f.aims i.id) && s.fab.fenced.all (fun f => !f.aims i.id) &&
    s.fab.stations.all (fun p => !p.2.busyWith i.id) &&
    s.fab.sinkMsgs.all (fun m => decide (m.inst ≠ i.id)) &&
    s.fab.requests.all (fun r => decide (r.inst ≠ i.id) || r.spawn.isNone)

/-! ### Reports -/

/-- INSTANCE_STALE to the partition that owns a token's BLOCK, with the STAGE of its sprig where the slot has it (R19, R123, R315). -/
def State.staleToken (s : State) (t : Token) (loc : Option Loc) (source : Nat) (stage : Nat := 0) : State :=
  match s.vfOfBlock (tagBlock t.tag) with
  | none => s
  | some v =>
      s.partitionFault { code := codeStale, source := source, vf := some v, loc := loc,
                         die := Fin.ofNat 2 (bits t.header 46 1), inst := tagInst t.tag, ctx := tagCtx t.tag, tag := t.tag,
                         edge := t.edge, stage := stage }

/-- A record of the Pricking engine about an instance. -/
def State.engineFault (s : State) (code vf die inst va : Nat) (arg : Nat) : State :=
  s.partitionFault { code := code, source := 3, vf := some vf, die := Fin.ofNat 2 die, inst := inst, va := va, arg := arg }

/-! ### Roots (R199, R310) -/

/-- The root record that an instance's lineage retires into; a callee belongs to its caller's lineage. -/
def State.rootOf (s : State) (id : Nat) : Option Nat := (s.inst? id).map (·.root)

/-- The first kill or refusal of a lineage that reaches the root record gives its status, and later ones do not change it (R199). -/
def State.rootStatus (s : State) (h : Nat) (code : Option Nat) : State :=
  match code with
  | none => s
  | some c => s.modRoot h (fun r => if r.killed then r else { r with status := c, killed := true })

/-- Lower the lineage count, for an instance that has retired (none) or was killed or refused with a code; at zero the root record
retires, and its core gets the RETIRE event (R310, R186). -/
def State.lowerLineage (s : State) (h : Nat) (code : Option Nat) : State :=
  let s1 := (s.rootStatus h code).modRoot h (fun r => { r with lineage := r.lineage - 1 })
  match s1.root? h with
  | none => s1
  | some r =>
      if r.lineage = 0 ∧ !r.retired then
        (s1.modRoot h (fun q => { q with retired := true })).setEvent (Fin.ofNat 4 r.core) 2
      else s1

/-! ### Region fences (R315, R316) -/

/-- Raise the fence of an instance's rectangle. -/
def State.raiseFence (s : State) (i : Inst) : State :=
  let u := s.newUid
  { u.2 with prick := { u.2.prick with
      fences := u.2.prick.fences ++ [(u.1, { die := i.die, qx := i.qx, qy := i.qy, w := i.w, h := i.h, inst := i.id })] } }

/-- Change a fence. -/
def State.modFence (s : State) (n : Nat) (f : Fence → Fence) : State :=
  { s with prick := { s.prick with fences := s.prick.fences.map (fun p => if p.1 = n then (n, f p.2) else p) } }

/-- The arcs, by sender and edge name, on which tokens that bear an id are under way. -/
def State.arcsTo (s : State) (id : Nat) : List (Nat × Nat) :=
  (s.fab.tokens.filter (fun f => f.aims id)).foldl
    (fun l f => if l.contains (f.from_, f.tok.edge) then l else l ++ [(f.from_, f.tok.edge)]) []

/-- One sweep down an arc, behind the tokens sent on it before (R316). -/
def State.sweepArc (s : State) (n id : Nat) (arc : Nat × Nat) : State :=
  let u := s.newUid
  let behind := (u.2.fab.tokens.filter (fun f => f.aims id && decide ((f.from_, f.tok.edge) = arc))).map (·.uid)
  (u.2.modFab (fun b => { b with sweeps := b.sweeps ++ [⟨u.1, n, arc.1, arc.2, behind⟩] })).modFence n
    (fun f => { f with swept := true, sweeps := f.sweeps ++ [u.1] })

/-- Send the sweeps of a fence: one on each arc that carries tokens of the id, and one for the arcs that carry none. -/
def State.sweepFence (s : State) (n id : Nat) : State :=
  ((s.arcsTo id) ++ [(id, 0)]).foldl (fun st a => st.sweepArc n id a) s

/-- Send the sweeps of every fence that names an instance and has not sent them. -/
def State.sweepFences (s : State) (id : Nat) : State :=
  (s.prick.fences.filter (fun p => decide (p.2.inst = id) && !p.2.swept)).foldl (fun st p => st.sweepFence p.1 id) s

/-- A station stands inside a fenced rectangle. -/
def Fence.holds (f : Fence) (l : Loc) : Bool :=
  decide (f.die = l.die ∧ f.qx ≤ quadX l ∧ quadX l < f.qx + f.w ∧ f.qy ≤ quadY l ∧ quadY l < f.qy + f.h)

/-- A fenced router diverts a token to a station (R315). -/
def State.fencedAt (s : State) (l : Loc) (id : Nat) : Bool := s.prick.fences.any (fun p => decide (p.2.inst = id) && p.2.holds l)

/-- An eviction starts: the instance becomes EVICTING behind the fence of its rectangle (R306, R315). A partition that is being
saved by stitch markers saves its instances itself. -/
def State.beginEvict (s : State) (id : Nat) : State :=
  match s.inst? id with
  | none => s
  | some i =>
      if i.st.runs && decide ((s.vf i.vf).st = .running) then
        let s1 := (s.raiseFence i).modInst id (fun j => { j with st := .evicting })
        s1.modEng i.die (fun e => { e with evicting := e.evicting ++ [id] })
      else s

/-! ### Freeing slots (R293, R306) -/

/-- Clear the state of a context slot of a station, but for the temporaries that a later firing may find (R140): VALID, frames,
firings, strands and lease. Bytes of the scratchpad stay, with the partition that leased them (R219). -/
def Station.freeSlot (v : Station) (c id : Nat) : Station :=
  { v with ctxs := vset v.ctxs c { temps := (v.ctx c).temps },
           frames := v.frames.filter (fun f => decide (f.inst ≠ id)),
           firing := if v.firing.active && decide (v.firing.inst = id) then {} else v.firing,
           ended := v.ended.filter (fun f => decide (f.inst ≠ id)),
           parked := v.parked.filter (fun f => decide (f.inst ≠ id)),
           matq := v.matq.filter (fun e => decide (e.inst ≠ id)),
           pleach := v.pleach.filter (fun p => decide (p.ctx ≠ c)),
           resident := v.resident.filter (fun r => decide (r.ctx ≠ c)),
           parkedRegs := v.parkedRegs.filter (fun r => decide (r.ctx ≠ c)),
           strands := Vector.ofFn (fun k => if k.val / 8 = c then {} else v.strands[k]) }

/-- Clear an instance's slots on every station it holds. -/
def State.freeSlots (s : State) (i : Inst) : State :=
  i.stations.foldl (fun st p => st.modSt p.1 (fun v =>
    if decide ((v.ctx i.slot).inst = i.id) && (v.ctx i.slot).valid then v.freeSlot i.slot i.id else v)) s

/-- Freed quads and slots: pending calls may be tried again, but for one that is being placed (R304). -/
def State.roomFreed (s : State) (d : Fin 2) : State :=
  s.modEng d (fun e =>
    { e with toTry := e.calls.filter (fun id => match e.placing with | some p => decide (p.inst ≠ id) | none => true), skipped := [] })

/-- The order number of a change at a die's engine. -/
def State.tickEng (s : State) (d : Fin 2) : Nat × State :=
  ((s.eng d).clock, s.modEng d (fun e => { e with clock := e.clock + 1 }))

/-! ### Nulls to a caller (R138, R294, R314) -/

/-- Send nulls to the result slots of a callee's call site on which no result has been sent, under the return tag. -/
def State.nullResults (s : State) (i : Inst) : State :=
  match i.kind with
  | .callee caller site rt =>
      ((List.range i.nresSite).filter (fun k => !i.sentRes.contains k)).foldl
        (fun st k => st.sendResult i caller site rt k .null
          { tok := ⟨0, rt, .null⟩, src := none, from_ := i.id }) s
  | .root => s
  | .spawned => s

/-! ### Retirement (R293) -/

/-- The sampler record of an instance (R433). -/
def State.sampleInst (s : State) (i : Inst) (code value : Nat) : State :=
  s.sample i.vf i.die code (.inst i.die.val i.id) (dbl value) 0

/-- Discard the shadow slots of an instance at its die (R312, R314). -/
def State.dropShadow (s : State) (id : Nat) : State :=
  s.modFab (fun b =>
    { b with stations := b.stations.map (fun p => (p.1, { p.2 with shadow := p.2.shadow.filter (fun q => decide (q.2.inst ≠ id)) })) })

/-- Remove an instance's traces at the engines: queue entries, and a placement under way with its shadows. -/
def State.dropEntries (s : State) (i : Inst) : State :=
  let cut := fun (st : State) (d : Fin 2) =>
    let e := st.eng d
    let placing := match e.placing with
      | some p => if p.inst = i.id then none else some p
      | none => none
    st.modEng d (fun x =>
      { x with placing := placing, calls := ndrop x.calls i.id, toTry := ndrop x.toTry i.id, queue := ndrop x.queue i.id,
               admitted := ndrop x.admitted i.id, evicting := ndrop x.evicting i.id })
  ((cut (cut s 0) 1).dropShadow i.id).modFab (fun b =>
    { b with requests := b.requests.filter (fun r => decide (r.inst ≠ i.id)) })

/-- The record of an ended instance goes, and its id is free, once no fence names it (R316). -/
def State.reapInst (s : State) (id : Nat) : State :=
  if s.prick.fences.any (fun p => decide (p.2.inst = id)) then s
  else { s with prick := { s.prick with insts := s.prick.insts.filter (fun i => decide (i.id ≠ id) || !i.st.ended) } }

/-- An access that waits for its granule or on a fault. -/
def Access.rests (a : Access) : Bool :=
  match a.st with
  | .syncWait => true
  | .faulted => true
  | .issued => false
  | .walking _ => false
  | .paged _ => false
  | .served => false
  | .returned => false

/-- Accesses of an instance that wait for a granule or on a fault go with it (R249); accesses under way go on. -/
def State.dropResting (s : State) (id : Nat) : State :=
  s.modMm (fun m =>
    { m with accesses := m.accesses.filter (fun a => decide (a.inst ≠ id) || !a.rests),
             copies := m.copies.filter (fun c => decide (c.inst ≠ id) || !c.faulted),
             thq := m.thq.filter (fun t => decide (t.inst ≠ id) || !t.faulted) })

/-- Credits and joins on their way to an instance that has ended are discarded without a record (R146). -/
def State.dropGateMessages (s : State) (id : Nat) : State :=
  s.modFab (fun b =>
    { b with credits := b.credits.filter (fun c => decide (c.inst ≠ id)), joins := b.joins.filter (fun j => decide (j.inst ≠ id)) })

/-- The instance has ended: its fence is raised before its rectangle is freed, its record keeps its id until the fences are
down, and its spill pages go back. -/
def State.endInst (s : State) (i : Inst) (st : IState) (code : Nat) : State :=
  let s0 := if i.st.holds then s.raiseFence i else s
  let s1 := (((s0.freeSlots i).dropEntries i).dropResting i.id).dropGateMessages i.id
  let s2 := s1.modInst i.id (fun j =>
    { j with st := st, held := [], save := none, argRes := 0, resRes := [], entRes := [], pages := [],
             inPage := 0, unmapped := [] })
  let s3 := (s2.sweepFences i.id).sampleInst i 0x0006 code
  ((s3.roomFreed 0).roomFreed 1).reapInst i.id

/-- Retire an instance whose time has come, and remember what its root's KNWAIT waits for. One whose stations are being saved
retires after its relink. -/
def State.settle (s : State) (id : Nat) : State :=
  match s.inst? id with
  | none => s
  | some i =>
      let ret := match i.img with | some m => m.hasRet | none => false
      if i.st.runs && s.countZero i && (!ret || i.retDone) && i.save.isNone then
        let s1 := s.endInst i .retired 0
        match i.kind with
        | .callee caller _ _ =>
            s1.modInst caller (fun j => { j with callees := j.callees.filter (fun c => decide (c.2 ≠ i.id)) })
        | .root => s1.lowerLineage i.root none
        | .spawned => s1.lowerLineage i.root none
      else s

/-- A callee's null that DROPNULL discards may have ended the last thing that its caller waits for (R292, R293). -/
def State.settleCaller (s : State) (i : Inst) : State :=
  match i.kind with
  | .callee caller _ _ => s.settle caller
  | .root => s
  | .spawned => s

/-! ### Kills (R294) -/

/-- The callees of an instance that have not ended. -/
def State.calleesOf (s : State) (id : Nat) : List Nat :=
  (s.prick.insts.filter (fun i =>
    !i.st.ended && (match i.kind with | .callee c _ _ => decide (c = id) | .root => false | .spawned => false))).map (·.id)

/-- Drop the messages and tokens of an instance; tokens still on the network are dropped where they arrive. -/
def State.dropMessages (s : State) (id : Nat) : State :=
  s.modFab (fun b =>
    { b with fenced := b.fenced.filter (fun f => !f.aims id),
             sinkMsgs := b.sinkMsgs.filter (fun m => decide (m.inst ≠ id)) })

/-- Kill one instance without its callees. -/
def State.killOne (s : State) (id code : Nat) : State :=
  match s.inst? id with
  | none => s
  | some i =>
      if i.st.ended then s
      else
        let s1 := (s.endInst i .killed code).dropMessages id
        match i.kind with
        | .callee caller _ _ =>
            ((s1.nullResults i).modInst caller (fun j =>
              { j with callees := j.callees.filter (fun c => decide (c.2 ≠ id)) })).settle caller
        | .root => (s1.modRoot i.root (fun r => { r with held := [] })).lowerLineage i.root (some code)
        | .spawned => s1.lowerLineage i.root (some code)

/-- Kill an instance and, recursively, its live, queued and saved callees (R294). -/
def State.kill (s : State) (code : Nat) : Nat → List Nat → State
  | 0, _ => s
  | _, [] => s
  | fuel + 1, id :: rest =>
      let below := s.calleesOf id
      (s.killOne id code).kill code fuel (below ++ rest)

/-- Kill an instance with a code. -/
def State.killInst (s : State) (id code : Nat) : State := s.kill code (s.prick.insts.length + 1) [id]

/-- A read of a poisoned line kills the reading instance with UNCORRECTABLE (R423). -/
def State.poisonInst (s : State) (vf : Nat) (l : Loc) (inst ctx stage : Nat) (tag : BitVec 64) (va pa : Nat) : State :=
  let f : FaultInfo :=
    { pa := pa, code := codeUncorrectable, source := 6, vf := some vf, loc := some l, die := l.die, inst := inst, ctx := ctx, tag := tag,
      stage := stage, va := va, detail := 2 }
  (s.report f true none).2.killInst inst codeUncorrectable

/-- Kill every instance of a function. -/
def State.killVf (s : State) (vf code : Nat) : State :=
  s.kill code (2 * s.prick.insts.length + 1) ((s.prick.insts.filter (fun i => decide (i.vf = vf) && !i.st.ended)).map (·.id))

/-! ### Quads (R34, R35, R299) -/

/-- An instance at a place that a placement gives it. -/
def Inst.placedAt (i : Inst) (p : Placement) : Inst := { i with qx := p.qx, qy := p.qy, slot := p.slot, folded := p.folded }

/-- The instance of a placement that is loading, at its new place; none where nothing is reserved. -/
def State.loading? (s : State) (d : Fin 2) : Option Inst :=
  match (s.eng d).placing with
  | none => none
  | some p => if p.phase = .loaded ∧ p.how ≠ 0 then (s.inst? p.inst).map (fun i => { i.placedAt p with die := d }) else none

/-- The instances that hold area, with those that are being placed. -/
def State.held (s : State) : List Inst :=
  s.prick.insts.filter (fun i => i.st.holds) ++ (s.loading? 0).toList ++ (s.loading? 1).toList

/-- An instance that holds area holds a quad: as its plot, or by a recorded station of a fold. -/
def Inst.holdsQuad (i : Inst) (die qx qy : Nat) : Bool :=
  i.covers die qx qy && (!i.folded || i.stations.any (fun p => decide (quadX p.1 = qx ∧ quadY p.1 = qy)))

/-- A quad is held. -/
def State.quadHeld (s : State) (die qx qy : Nat) : Bool := s.held.any (fun i => i.holdsQuad die qx qy)

/-- A quad reads as held: an instance holds it, or it is mapped out (R35). -/
def State.readsHeld (s : State) (die qx qy : Nat) : Bool := s.quadHeld die qx qy || (s.quad (quadKey die qx qy)).mappedOut

/-- The placement that is loading on a die holds a quad that has been withdrawn (R35). -/
def State.onWithdrawn (s : State) (d : Fin 2) : Bool :=
  (s.loading? d).any (fun i => s.fab.quads.any (fun q =>
    q.2.mappedOut && decide (q.1 / 320 = d.val) && i.holdsQuad d.val (q.1 % 16) (q.1 % 320 / 16)))

/-- A quad is withdrawn from placement for an error with a code. A placement that is loading on it aborts, and is tried again at once as
one whose own shadow failed (R35, R314; DEDUCED, LOG 71). -/
def State.withdraw (s : State) (d : Fin 2) (qx qy code : Nat) : State :=
  let s1 := s.mapOut (quadKey d.val qx qy)
  if s1.onWithdrawn d then
    s1.modEng d (fun e => { e with placing := e.placing.map (fun p => { p with abort := some (p.abort.getD code) }) })
  else s1

/-- A quad is free and not mapped out. -/
def State.quadFree (s : State) (die qx qy : Nat) : Bool := !s.readsHeld die qx qy

/-- The quads that a function holds by plots, on a die or (none) on the device. -/
def State.quadsOf (s : State) (vf : Nat) (die : Option (Fin 2)) : Nat :=
  ((s.held.filter (fun i =>
    decide (i.vf = vf) && !i.folded && (match die with | some d => decide (i.die = d) | none => true))).map
      (fun i => i.w * i.h)).foldl (· + ·) 0

end Sys2Proof.Machine
end

