-- ==== Sys2Proof/Machine/Room.lean ====
section
/-!
DEFINITION. Frame entries and their places: on the die, in the Hedgerow bank, in the spill arena (R124, R127 to R132, R402 to
R404).
-/

namespace Sys2Proof.Machine

/-! ### Frame keys and age keys (R124, R129, R135) -/

/-- THREAD and ITER of a frame's tag with its context, instance and sprig (R124). -/
def Frame.sameKey (f : Frame) (c inst sprig : Nat) (tag : BitVec 64) : Bool :=
  decide (f.ctx = c ∧ f.inst = inst ∧ f.sprig = sprig ∧ tagThread f.tag = tagThread tag ∧ tagIter f.tag = tagIter tag)

/-- mix64 of a frame key, taken as one 64-bit value (R129). -/
def keyHash (c inst sprig : Nat) (tag : BitVec 64) : BitVec 64 :=
  mix64 (mkTag (sprig * 16) inst c (tagThread tag) (tagIter tag))

/-- mix64 of a frame's key. -/
def Frame.hash (f : Frame) : BitVec 64 := keyHash f.ctx f.inst f.sprig f.tag

/-- The set of an on-die entry (R129). -/
def Frame.set (f : Frame) : Nat := bits f.hash 0 6

/-- The age key of a tag in a slot (R135). -/
def ageKey (c : Ctx) (tag : BitVec 64) : Nat := (tagIter tag + 2 ^ 20 - c.loopBase) % 2 ^ 20

/-- SLOTKIND bit of a slot: it takes tiles. -/
def slotTile (h : BitVec 64) (k : Nat) : Bool := bit h (20 + k)

/-- The frame is complete (R125). -/
def Frame.complete (f : Frame) : Bool := f.completed.isSome

/-! ### Room (R128, R402, R403) -/

/-- The function of a slot's instance. -/
def State.ctxVf (s : State) (v : Station) (c : Nat) : Option Nat :=
  if (v.ctx c).valid then (s.inst? (v.ctx c).inst).map (·.vf) else none

/-- An entry lies on the die. -/
def Frame.onDie (f : Frame) : Bool :=
  match f.place with
  | .onDie => true
  | .bank => false
  | .arena => false
  | .chosen _ _ => false

/-- An entry holds a place of the on-die store: it lies there, or it is on its way back (R288). -/
def Frame.holdsPlace (f : Frame) : Bool :=
  match f.place with
  | .onDie => true
  | .bank => false
  | .arena => false
  | .chosen _ _ => true

/-- An entry holds a way of its set. -/
def Frame.holdsWay (f : Frame) : Bool :=
  match f.place with
  | .onDie => true
  | .bank => false
  | .arena => false
  | .chosen _ way => way

/-- An entry lies in overflow: in the Hedgerow bank or in the spill arena (R128). -/
def Frame.overflowed (f : Frame) : Bool := !f.holdsPlace

/-- Entries of a station: waiting frames and parked ones (R142); a firing that waits for its FENCE has no entry. -/
def Station.entries (v : Station) : List Frame := v.frames ++ (v.parked.filter (fun f => decide (f.park ≠ .fence))).map (·.frame)

/-- On-die places that a slot's entries hold. -/
def Station.dieUsed (v : Station) (c : Nat) : Nat := (v.entries.filter (fun f => decide (f.ctx = c) && f.holdsPlace)).length

/-- The overflow filter of a station, of 4,096 bits: the bit of each key that has a frame in the bank or in the arena (R129). -/
def Station.overflowFilter (v : Station) : BitVec 4096 :=
  (v.entries.filter Frame.overflowed).foldl (fun b f => b ||| BitVec.ofNat 4096 (2 ^ bits f.hash 6 12)) 0

/-- An entry of the Hedgerow's index: the frame, by its position at its station, its presence mask and its arrivals (R129). -/
structure IndexEntry where
  pos : Nat
  present : BitVec 4
  count : Nat
deriving DecidableEq, Repr

/-- Presence mask of a frame. -/
def Frame.presence (f : Frame) : BitVec 4 :=
  (List.range 4).foldl (fun m k => if (vget f.slots k {}).present then m ||| BitVec.ofNat 4 (2 ^ k) else m) 0

/-- The entries that the Hedgerow's index holds for a key of a station (R129). -/
def Station.index (v : Station) (c inst sprig : Nat) (tag : BitVec 64) : List IndexEntry :=
  (v.frames.zipIdx.filter (fun p => p.1.overflowed && p.1.sameKey c inst sprig tag)).map (fun p => ⟨p.2, p.1.presence, p.1.count⟩)

/-- Rows that a waiting token takes in the bank: one for an argument, and its tile payload (R53, R134). -/
def Flight.rows (f : Flight) : Nat :=
  if f.recs.isEmpty then
    (if f.inBank then 1 else 0) + (if f.payBank then (match f.tok.payload.tile? with | some t => t.rows48 | none => 0) else 0)
  else 0

/-- The tokens of a slot's instance that wait at a station. -/
def State.waitingOf (s : State) (l : Loc) (c : Nat) : List Flight :=
  (s.waitingAt l).filter (fun f => match s.inst? f.from_ with | some i => decide (i.slot = c) | none => false)

/-- Rows that a slot of a frame takes in the bank (R127). -/
def SlotVal.rows (q : SlotVal) : Nat :=
  match q.tile with
  | some t => if q.tileBank then t.rows48 else 0
  | none => 0

/-- Rows that an entry takes in the bank: its own, and those of its tile payloads (R127, R128). -/
def Frame.rows (f : Frame) : Nat := (if f.place = .bank then 1 else 0) + (f.slots.toList.map (·.rows)).sum

/-- Rows that a partial takes in the bank (R358). -/
def Partial.rows (p : Partial) : Nat := if p.inBank && p.recs.isEmpty then 22 else 0

/-- Hedgerow rows of a slot: entries, tile payloads and thinning counters in the bank (R127, R128, R148), pleach partials
beyond the 16 of the buffer (R358), and what the out-buffer keeps there (R53, R134). -/
def State.rowsUsed (s : State) (l : Loc) (c : Nat) : Nat :=
  let v := s.st l
  ((v.entries.filter (fun f => decide (f.ctx = c))).map (·.rows)).sum +
    ((v.ctx c).thin.filter (fun t => decide (t.place = 1))).length +
    ((v.pleach.filter (fun q => decide (q.ctx = c))).map (·.rows)).sum + ((s.waitingOf l c).map (·.rows)).sum

/-- ONDIE, HEDGE and POOL of a slot's function. -/
def State.ctxShares (s : State) (v : Station) (c : Nat) : Nat × Nat × Bool :=
  match s.ctxVf v c with
  | none => (0, 0, false)
  | some n => ((s.vf n).ondie, (s.vf n).hedge, (s.vf n).pool)

/-- Entries of a station that are guaranteed or used beyond a guarantee (R403). -/
def State.dieTaken (s : State) (v : Station) : Nat :=
  ((List.range 8).map (fun c => max (s.ctxShares v c).1 (v.dieUsed c))).foldl (· + ·) 0

/-- A slot may hold one more on-die entry (R128, R403). -/
def State.dieRoom (s : State) (v : Station) (c : Nat) : Bool :=
  let h := s.ctxShares v c
  decide (v.dieUsed c < h.1) || (h.2.2 && decide (s.dieTaken v < 256))

/-- Rows of a quad that are guaranteed or used beyond a guarantee (R403). -/
def State.rowsTaken (s : State) (l : Loc) : Nat :=
  ((quadStations l.die.val (quadX l) (quadY l)).map (fun m =>
    let v := s.st m
    ((List.range 8).map (fun c => max (s.ctxShares v c).2.1 (s.rowsUsed m c))).foldl (· + ·) 0)).foldl (· + ·) 0

/-- Rows of a quad's bank in use. -/
def State.rowsHeld (s : State) (l : Loc) : Nat :=
  ((quadStations l.die.val (quadX l) (quadY l)).map (fun m =>
    ((List.range 8).map (s.rowsUsed m)).foldl (· + ·) 0)).foldl (· + ·) 0

/-- A slot may take n more rows of the bank above its quad, which holds 65,536 (R128, R403); a retired bank gives none (R424). -/
def State.rowRoom (s : State) (l : Loc) (c n : Nat) : Bool :=
  let h := s.ctxShares (s.st l) c
  !(s.quad (quadKey l.die.val (quadX l) (quadY l))).retired && decide (s.rowsHeld l + n ≤ 65536) &&
    (decide (s.rowsUsed l c + n ≤ h.2.1) || (h.2.2 && decide (s.rowsTaken l + n ≤ 65536)))

/-- A way of the set is free (R129). -/
def Station.wayFree (v : Station) (set : Nat) : Bool :=
  decide ((v.entries.filter (fun f => f.holdsWay && decide (f.set = set))).length < 4)

/-! ### The spill arena (R132, R404) -/

/-- Slot records of a page. -/
def pageRecords : Nat := 65536 / 48

/-- Spill pages that a function's instances hold. -/
def State.spillUsed (s : State) (vf : Nat) : Nat :=
  ((s.prick.insts.filter (fun i => decide (i.vf = vf))).map (fun i => i.pages.length)).sum

/-- The lowest page of a function's spill pool that no instance holds. -/
def State.freePage (s : State) (vf : Nat) : Nat :=
  let held := ((s.prick.insts.filter (fun i => decide (i.vf = vf))).map (·.pages)).flatten
  ((List.range (held.length + 1)).find? (fun k => !held.contains k)).getD 0

/-- A page of an arena is translated and checked as a write of its function (R404). -/
def State.arenaPage (s : State) (d : Fin 2) (vf va : Nat) : UOut := s.unitAccess d vf (va % 2 ^ 64) true none (.arena vf)

/-- An arrival finds no place in the arena: it is dropped, and its instance is killed with MATCH_LOST (R132). STAGE is that of the
arrival's sprig (R19). -/
def State.arenaLost (s : State) (l : Loc) (c : Nat) (i : Inst) (stage : Nat) : State :=
  (s.partitionFault { code := codeMatchLost, source := 0, vf := some i.vf, loc := some l, die := l.die, inst := i.id, ctx := c,
                      stage := stage }).killInst i.id codeMatchLost

/-- The address of record n of a page of a function's spill pool. -/
def State.recordAt (s : State) (vf page n : Nat) : Nat := ((s.vf vf).spillbase.toNat + 65536 * page + 48 * n) % 2 ^ 64

/-- Write records of an instance's arena at an address: checked as a write of the function. A page that the host has yet to map is
asked for, and the write follows behind the answer; one whose check fails loses the arrival (R404; LOG 57). -/
def State.arenaWrite (s : State) (l : Loc) (c : Nat) (i : Inst) (va n stage : Nat) : Bool × State :=
  match s.arenaPage l.die i.vf va with
  | .ok _ t => (true, t.charge i.vf (colOf l) .hbmWrite n)
  | .wait t =>
      (true, (t.modInst i.id (fun j => { j with unmapped := j.unmapped ++ [⟨va, l, c, stage⟩] })).charge i.vf (colOf l) .hbmWrite n)
  | .fail _ _ t => (false, t.arenaLost l c i stage)

/-- Take n records of an instance's arena; the answer is where they lie. The first arrival that finds the last page full at the limit
takes the overrun page and parks the instance with MATCH_SPILL_LIMIT; one that finds the overrun page full, or the limit reached after
a resume, is dropped, and the instance is killed with MATCH_LOST (R132). -/
def State.arenaTake (s : State) (l : Loc) (c id n stage : Nat) : Option (List (Nat × Nat)) × State :=
  match s.inst? id with
  | none => (none, s)
  | some i =>
      let x := s.vf i.vf
      let write := fun (t : State) (page k : Nat) (beyond : Bool) =>
        let va := s.recordAt i.vf page k
        let w := (t.modInst id (fun j =>
          { j with inPage := k + n, pages := if k = 0 then j.pages ++ [page] else j.pages, overrun := j.overrun || beyond,
                   spillPark := j.spillPark || beyond })).arenaWrite l c i va n stage
        (if w.1 then some [(va, n)] else none, w.2)
      match i.pages.getLast? with
      | some page => if i.inPage + n ≤ pageRecords then write s page i.inPage false else more i x write
      | none => more i x write
where
  /-- A further page, or the end of the arena. -/
  more (i : Inst) (x : Vf) (write : State → Nat → Nat → Bool → Option (List (Nat × Nat)) × State) :
      Option (List (Nat × Nat)) × State :=
    let page := s.freePage i.vf
    if i.overrun then (none, s.arenaLost l c i stage)
    else if decide (i.pages.length < x.spilllim) && decide (s.spillUsed i.vf < x.spillpages.toNat) then write s page 0 false
    else
      let w := write s page 0 true
      (w.1, w.2.partitionFault
        { code := codeSpillLimit, source := 0, vf := some i.vf, loc := some l, die := l.die, inst := id, ctx := c, stage := stage })

/-- What reading records of an arena gives: they are there, their page is awaited, or the instance is gone. -/
inductive ArenaGot where
  | ok (s : State)
  | wait (s : State)
  | gone (s : State)

/-- Read records of an instance's arena: each is translated and checked as a read of the function (R404), a poisoned line kills the
instance with UNCORRECTABLE (R423), and a page that fails loses the records with it (LOG 57). -/
def State.arenaRead (s : State) (l : Loc) (c id stage : Nat) (tag : BitVec 64) : List (Nat × Nat) → ArenaGot
  | [] => .ok s
  | r :: rest =>
      match s.inst? id with
      | none => .ok s
      | some i =>
          match s.unitAccess l.die i.vf r.1 false none (.arena i.vf) with
          | .ok pa t =>
              if t.poisoned pa (48 * r.2) then .gone (t.poisonInst i.vf l id c stage tag r.1 pa)
              else t.arenaRead l c id stage tag rest
          | .wait t => .wait t
          | .fail _ _ t => .gone (t.arenaLost l c i stage)

/-- A record whose page was awaited is checked again now that a request has been answered. -/
def State.arenaCheck (s : State) (id : Nat) (w : ArenaWait) : State :=
  match s.inst? id with
  | none => s
  | some i =>
      let drop := fun (t : State) => t.modInst id (fun j => { j with unmapped := j.unmapped.filter (fun x => decide (x ≠ w)) })
      match s.arenaPage w.loc.die i.vf w.va with
      | .ok _ t => drop t
      | .wait t => t
      | .fail _ _ t => (drop t).arenaLost w.loc w.ctx i w.stage

/-- The records of a function's instances that wait for pages are checked again (R404). -/
def State.arenaAnswered (s : State) (vf : Nat) : State :=
  (s.prick.insts.filter (fun i => decide (i.vf = vf))).foldl (fun st i => i.unmapped.foldl (fun u w => u.arenaCheck i.id w) st) s

/-- Arena pages go back when an instance holds nothing in its arena (LOG 21). -/
def State.arenaDrop (s : State) (id : Nat) : State :=
  let used := s.fab.stations.any (fun p =>
    p.2.entries.any (fun f => decide (f.inst = id) &&
      ((match f.place with | .arena => true | .chosen fromBank _ => !fromBank | .onDie => false | .bank => false) || f.slots.toList.any (fun q => q.tile.isSome && !q.tileBank))) ||
    p.2.ctxs.toList.any (fun c => decide (c.inst = id) && c.thin.any (fun t => decide (t.place = 2))) ||
    p.2.pleach.any (fun q => !q.recs.isEmpty && decide ((p.2.ctx q.ctx).inst = id)) ||
    (p.2.firing :: p.2.parked).any (fun f => decide (f.inst = id) && f.args.any (fun a => !a.flight.recs.isEmpty))) ||
    s.fab.tokens.any (fun f => decide (f.from_ = id) && !f.recs.isEmpty) ||
    s.prick.insts.any (fun i => i.held.any (fun q => decide (q.2.from_ = id) && !q.2.recs.isEmpty))
  if used then s
  else s.modInst id (fun j => if j.overrun then j else { j with pages := [], inPage := 0, unmapped := [] })

/-! ### Opening and moving entries (R124, R128, R131, R403) -/

/-- The entry of a list with the youngest age key, as its position. -/
def youngest (l : List (Nat × Nat)) : Option Nat :=
  (l.foldl (fun (b : Option (Nat × Nat)) p => match b with | some q => if q.2 < p.2 then some p else b | none => some p) none).map (·.1)

/-- A parked firing's condition has cleared (R142). -/
def Park.isCleared : Park → Bool
  | .cleared => true
  | .notified _ => true
  | .none => false
  | .granule _ => false
  | .access _ => false
  | .element _ _ => false
  | .barrier => false
  | .fault => false
  | .fence => true

/-- An entry by its position among the waiting and then the parked frames: the frame, and whether it counts as complete (R131,
R142). -/
def Station.entry (v : Station) (n : Nat) : Option (Frame × Bool) :=
  match v.frames[n]? with
  | some f => some (f, f.complete)
  | none =>
      match v.parked[n - v.frames.length]? with
      | some g => if g.park = .fence then none else some (g.frame, g.park.isCleared)
      | none => none

/-- Change the frame of an entry. -/
def Station.modEntry (v : Station) (n : Nat) (f : Frame → Frame) : Station :=
  match v.frames[n]? with
  | some x => { v with frames := v.frames.set n (f x) }
  | none =>
      match v.parked[n - v.frames.length]? with
      | some g => { v with parked := v.parked.set (n - v.frames.length) { g with frame := f g.frame } }
      | none => v

/-- Entries with their positions, and whether they count as complete. -/
def Station.entryList (v : Station) : List (Nat × Frame × Bool) :=
  (List.range (v.frames.length + v.parked.length)).filterMap (fun n => (v.entry n).map (fun e => (n, e.1, e.2)))

/-- Positions and age keys of the incomplete entries of a station that satisfy a test. -/
def Station.incomplete (v : Station) (p : Frame → Bool) : List (Nat × Nat) :=
  (v.entryList.filter (fun q => !q.2.2 && p q.2.1)).map (fun q => (q.1, ageKey (v.ctx q.2.1.ctx) q.2.1.tag))

/-- What lies in rows of the bank. -/
inductive RowItem where
  /-- An incomplete entry, by its position, with its tile payloads. -/
  | entry (n : Nat)
  /-- A pleach partial, by its position. -/
  | half (n : Nat)
  /-- A token that waits at its station. -/
  | token (f : Flight)
  /-- A thinning counter. -/
  | counter (t : ThinCounter)
deriving DecidableEq, Repr

/-- Something that a slot of a station holds in rows of the bank, and whether it goes before another: the higher, the sooner. -/
structure RowHeld where
  loc : Loc
  ctx : Nat
  item : RowItem
  rows : Nat
  stage : Nat
  order : Nat
deriving DecidableEq, Repr

/-- What a slot holds in rows of the bank and may write out: incomplete entries, partials and waiting tokens by their age keys, and
behind them its thinning counters, least recently used first (R148, R403; DEDUCED, LOG 70). -/
def State.rowItems (s : State) (m : Loc) (c : Nat) : List RowHeld :=
  let v := s.st m
  let aged := fun (tag : BitVec 64) => 2 ^ 64 + ageKey (v.ctx c) tag
  ((v.entryList.filter (fun q => !q.2.2 && decide (q.2.1.ctx = c ∧ 0 < q.2.1.rows))).map (fun q =>
    (⟨m, c, .entry q.1, q.2.1.rows, hdrStage (v.header c q.2.1.sprig), aged q.2.1.tag⟩ : RowHeld))) ++
  ((v.pleach.zipIdx.filter (fun p => decide (p.1.ctx = c ∧ 0 < p.1.rows))).map (fun p => ⟨m, c, .half p.2, p.1.rows, 0, aged p.1.tag⟩)) ++
  (((s.waitingOf m c).filter (fun f => decide (0 < f.rows))).map (fun f => ⟨m, c, .token f, f.rows, 0, aged f.tok.tag⟩)) ++
  (((v.ctx c).thin.filter (fun t => decide (t.place = 1))).map (fun t => ⟨m, c, .counter t, 1, 0, 2 ^ 64 - 1 - t.used⟩))

/-- What lies in a quad's bank in rows borrowed beyond its context's guarantee, and may be written out (R403). -/
def State.borrowedRows (s : State) (l : Loc) : List RowHeld :=
  ((quadStations l.die.val (quadX l) (quadY l)).map (fun m =>
    ((List.range 8).map (fun c =>
      if (s.ctxShares (s.st m) c).2.1 < s.rowsUsed m c then s.rowItems m c else [])).flatten)).flatten

/-- An entry whose rows have gone: its own record lies in the arena, and so do its tile payloads. -/
def Frame.unbanked (f : Frame) (recs : List (Nat × Nat)) : Frame :=
  { f with place := if f.place = .bank then .arena else f.place, recs := if f.place = .bank then f.recs ++ recs else f.recs,
           slots := f.slots.map (fun q => if 0 < q.rows then { q with tileBank := false, recs := recs } else q) }

/-- A waiting token whose rows have gone lies in records of the arena, wherever it waits. -/
def State.unbankTok (s : State) (f : Flight) (recs : List (Nat × Nat)) : State :=
  let upd := fun (g : Flight) => if g = f then { g with recs := recs } else g
  let args := fun (g : Firing) => { g with args := g.args.map (fun a => { a with flight := upd a.flight }) }
  let s1 := s.modFab (fun b =>
    { b with tokens := b.tokens.map upd,
             stations := b.stations.map (fun p => (p.1, { p.2 with firing := args p.2.firing, parked := p.2.parked.map args })) })
  { s1 with prick := { s1.prick with insts := s1.prick.insts.map (fun i => { i with held := i.held.map (fun q => (q.1, upd q.2)) }) } }

/-- What lies in rows goes on to the arena of its context, and its rows go back (R403). An arena that loses it takes its instance along
(R132). -/
def State.unbank (s : State) (h : RowHeld) : State :=
  let id := ((s.st h.loc).ctx h.ctx).inst
  let n := match h.item with | .token f => h.rows * ((s.waitingAt h.loc).filter (fun g => decide (g = f))).length | _ => h.rows
  let t := s.arenaTake h.loc h.ctx id n h.stage
  match t.1 with
  | none => t.2
  | some r =>
      match h.item with
      | .entry k => t.2.modSt h.loc (fun v => v.modEntry k (fun x => x.unbanked r))
      | .half k => t.2.modSt h.loc (fun v => { v with pleach := v.pleach.modify k (fun p => { p with recs := r }) })
      | .token f => t.2.unbankTok f r
      | .counter x => t.2.modSt h.loc (fun v => v.modCtx h.ctx (fun y =>
          { y with thin := y.thin.map (fun z => if z = x then { z with place := 2, recs := r } else z) }))

/-- A context below its guarantee finds the bank full: what lies in borrowed rows goes on to the arena of its context, the youngest age
key first, until the rows that are needed are free (R403). -/
def State.reclaimRows (s : State) (l : Loc) (c n : Nat) : Nat → State
  | 0 => s
  | fuel + 1 =>
      if decide (s.rowsUsed l c + n ≤ (s.ctxShares (s.st l) c).2.1) && decide (65536 < s.rowsHeld l + n) then
        match (s.borrowedRows l).foldl (fun (b : Option RowHeld) q =>
            match b with | some x => if x.order < q.order then some q else b | none => some q) none with
        | none => s
        | some h => (s.unbank h).reclaimRows l c n fuel
      else s

/-- Take n rows of the bank for a slot, and charge them; the answer says whether it could. -/
def State.takeRows (s : State) (l : Loc) (c n : Nat) : Bool × State :=
  let s1 := s.reclaimRows l c n n
  if s1.rowRoom l c n then (true, s1.charge ((s1.ctxVf (s1.st l) c).getD 128) (colOf l) .hedgerow n) else (false, s1)

/-- A place on the overflow path for an entry of a slot: the bank while the slot has rows, else the arena; none when the arena
loses it (R128, R131, R132). -/
def State.overflowPlace (s : State) (l : Loc) (c id stage : Nat) : Option (Place × List (Nat × Nat)) × State :=
  let r := s.takeRows l c 1
  if r.1 then (some (.bank, []), r.2)
  else
    let t := r.2.arenaTake l c id 1 stage
    (t.1.map (fun x => (.arena, x)), t.2)

/-- Write an on-die entry out to its context's overflow path (R131). -/
def State.writeOut (s : State) (l : Loc) (n : Nat) : State :=
  match (s.st l).entry n with
  | none => s
  | some f =>
      let t := s.overflowPlace l f.1.ctx f.1.inst (hdrStage ((s.st l).header f.1.ctx f.1.sprig))
      match t.1 with
      | some p => t.2.modSt l (fun v => v.modEntry n (fun x => { x with place := p.1, recs := p.2, readySince := none }))
      | none => t.2

/-- A context below its guarantee finds the store full: the incomplete borrowed entry with the youngest age key is written
out (R403). -/
def State.reclaim (s : State) (l : Loc) (c : Nat) : State :=
  let v := s.st l
  if decide (v.dieUsed c < (s.ctxShares v c).1) && decide ((v.entries.filter Frame.holdsPlace).length = 256) then
    match youngest (v.incomplete (fun f => f.onDie && decide ((s.ctxShares v f.ctx).1 < v.dieUsed f.ctx))) with
    | some n => s.writeOut l n
    | none => s
  else s

/-- The overflowed entry of a context that comes back next: a complete one first, then by the oldest age key (R131). The answer
gives its position, the frame, and whether it counts as complete. -/
def Station.returnNext (v : Station) (c : Nat) : Option (Nat × Frame × Bool) :=
  let key := fun (q : Nat × Frame × Bool) => (if q.2.2 then 0 else 2 ^ 20) + ageKey (v.ctx c) q.2.1.tag
  (v.entryList.filter (fun q => decide (q.2.1.ctx = c) && q.2.1.overflowed)).foldl
    (fun b q => match b with | some x => if key q < key x then some q else b | none => some q) none

/-- A chosen entry without a way takes a free way of its set; where the set has none, the youngest incomplete entry of the set is
written out for it, whatever its context, and where all are complete it waits (R131). -/
def State.takeWay (s : State) (l : Loc) (n : Nat) : State :=
  match (s.st l).entry n with
  | some (f, _) =>
      (match f.place with
        | .chosen b false =>
            let give := fun (t : State) => t.modSt l (fun v => v.modEntry n (fun x => { x with place := .chosen b true }))
            if (s.st l).wayFree f.set then give s
            else
              (match youngest ((s.st l).incomplete (fun g => g.onDie && decide (g.set = f.set))) with
                | none => s
                | some k =>
                    let t := s.writeOut l k
                    if (t.st l).entry n = (s.st l).entry n then give t else t)
        | .chosen _ true => s
        | .onDie => s
        | .bank => s
        | .arena => s)
  | none => s

/-- An overflowed entry is chosen to come back: it holds its place from now on (R288). -/
def State.chooseBack (s : State) (l : Loc) (n : Nat) (f : Frame) : State :=
  (s.modSt l (fun v => v.modEntry n (fun x => { x with place := .chosen (decide (f.place = .bank)) false }))).takeWay l n

/-- Entries of a station that have been chosen and wait for a way take one where they can. -/
def State.takeWays (s : State) (l : Loc) : State :=
  (List.range ((s.st l).frames.length + (s.st l).parked.length)).foldl (fun t n => t.takeWay l n) s

/-- An on-die entry of a context has freed: the station brings back one overflowed entry of that context, and others that wait for
a way may find one (R131). -/
def State.freedEntry (s : State) (l : Loc) (c : Nat) : State :=
  let t := s.takeWays l
  if t.dieRoom (t.st l) c then
    match (t.st l).returnNext c with
    | some q => t.chooseBack l q.1 q.2.1
    | none => t
  else t

/-- A complete entry of a context lies in overflow while every on-die entry that the context holds is incomplete: it takes the
place of the youngest of them, or a place that is free (R131). -/
def State.swapIn (s : State) (l : Loc) (c : Nat) : State :=
  let v := s.st l
  let mine := v.entryList.filter (fun q => decide (q.2.1.ctx = c) && q.2.1.holdsPlace)
  match v.returnNext c with
  | some (n, f, true) =>
      if mine.any (·.2.2) then s
      else if s.dieRoom v c then s.chooseBack l n f
      else
        (match youngest (v.incomplete (fun g => g.onDie && decide (g.ctx = c))) with
          | none => s
          | some k =>
              let t := s.writeOut l k
              if (t.st l).entry n = v.entry n then t.chooseBack l n f else t)
  | some (_, _, false) => s
  | none => s

/-- The choices of R131 that a station's waiting entries allow. -/
def State.returns (s : State) (l : Loc) : State :=
  if (s.st l).entries.all Frame.onDie then s
  else (List.range 8).foldl (fun t c => t.swapIn l c) (s.takeWays l)

/-- A chosen entry that has a way lands in the on-die store, with its slot records merged (R131); it waits while the host has yet to map a
page of its records (R404). -/
def State.landEntry (s : State) (l : Loc) (n : Nat) : State :=
  match (s.st l).entry n with
  | none => s
  | some (f, _) =>
      let vf := (s.ctxVf (s.st l) f.ctx).getD 128
      let put := fun (t : State) => t.modSt l (fun v => v.modEntry n (fun x => { x with place := .onDie, recs := [] }))
      match f.place with
      | .chosen true true => (put s).charge vf (colOf l) .hedgerow 1
      | .chosen false true =>
          (match s.arenaRead l f.ctx f.inst (hdrStage ((s.st l).header f.ctx f.sprig)) f.tag f.recs with
            | .ok t => ((put t).charge vf (colOf l) .hbmRead 1).arenaDrop f.inst
            | .wait t => t
            | .gone t => t)
      | .chosen _ false => s
      | .onDie => s
      | .bank => s
      | .arena => s

/-- The entries of a context that are on their way back and have a way. -/
def Station.landing (v : Station) (c : Nat) : List (Nat × Frame) :=
  (v.entryList.filter (fun q => decide (q.2.1.ctx = c) && !q.2.1.onDie && q.2.1.holdsWay)).map (fun q => (q.1, q.2.1))

/-- The spill-return token in which the overflow path brings an entry back (R117): kind 4, with TL as the entry's payload. -/
def Frame.returnTok (f : Frame) (l : Loc) : Token :=
  let p : Payload := match f.slots.toList.findSome? (·.tile) with | some t => .tile t | none => .word (vget f.slots 0 {}).value
  ⟨mkHeader l f.sprig 0 (p.crossTl kindSpill) 0 f.tag, f.tag, p⟩

/-- A spill-return token rejoins the overflow path: the entry of its key lands (R123, R131). -/
def State.rejoin (s : State) (t : Token) : State :=
  let l := t.loc
  match ((s.st l).landing (tagCtx t.tag)).find? (fun q => q.2.sameKey (tagCtx t.tag) (tagInst t.tag) t.sprig t.tag) with
  | some q => s.landEntry l q.1
  | none => s

/-- The place of a new entry, and the state in which it has been taken; no place when the arrival is lost (R128, R132). -/
def State.newPlace (s : State) (l : Loc) (f : Frame) : Option (Place × List (Nat × Nat)) × State :=
  let s1 := s.reclaim l f.ctx
  if s1.dieRoom (s1.st l) f.ctx && (s1.st l).wayFree f.set then (some (.onDie, []), s1)
  else s1.overflowPlace l f.ctx f.inst (hdrStage ((s.st l).header f.ctx f.sprig))

/-- Where a tile payload goes: the bank while rows last, else the arena, where it has records (R127); none when it is lost. -/
def State.tilePlace (s : State) (l : Loc) (c id stage : Nat) (t : Tile) : Option (Bool × List (Nat × Nat)) × State :=
  let r := s.takeRows l c t.rows48
  if r.1 then (some (true, []), r.2)
  else
    let a := r.2.arenaTake l c id t.rows48 stage
    (a.1.map (fun x => (false, x)), a.2)

end Sys2Proof.Machine
end

