-- ==== Sys2Proof/Machine/Fire.lean ====
section
/-!
DEFINITION. Ending a firing: frame traps and parks (R142, R144), and the body's end (R143, R277, R311, R317).
-/

namespace Sys2Proof.Machine

/-! ### Frame traps (R144, R160, R420) -/

/-- The place of an unused record: a callee record that a CALL of the firing created is given up when the firing traps
(R318). -/
def State.dropCalls (s : State) (l : List (Nat × Nat)) : State :=
  let ids := l.map (·.2)
  { s with prick := { s.prick with insts := s.prick.insts.filter (fun i => !ids.contains i.id) } }

/-- What a station reports about the firing in progress, and about an access of it. -/
def State.stationFault (s : State) (code detail va : Nat) : FaultInfo :=
  let f := s.fir
  { code := code, source := 0, vf := some s.fVf, loc := some s.sched.curSt, die := s.sched.curSt.die,
    stage := hdrStage f.header, inst := f.inst, ctx := f.ctx, tag := f.tag, detail := detail, va := va,
    lsids := f.lsids.toNat, tokens := f.sent }

/-- The caller of an instance, when it is a callee, may retire now. -/
def State.callerOf (s : State) (id : Nat) : State := match s.inst? id with | some i => s.settleCaller i | none => s

/-- The firing leaves the sprig engine and parks: its frame goes back through the overflow path, and its slot keeps the
temporaries that it left (R140, R142). A frame that the arena loses goes with its instance (R132). A null that the firing has sent may
have ended the last thing that its caller waits for (R292, R293). -/
def State.parkFiring (s : State) (l : Loc) (p : Park) : State :=
  let f := (s.st l).firing
  let t := s.overflowPlace l f.ctx f.inst (hdrStage f.header)
  let u := match t.1 with
    | none => t.2.modSt l (fun v => { v with firing := {} })
    | some pl =>
        let g := { f.frame with place := pl.1, recs := pl.2, readySince := none }
        t.2.modSt l (fun v =>
          ({ v with firing := {}, parked := v.parked ++ [{ f with park := p, reserved := 0, frame := g }] }).modCtx f.ctx
            (fun c => { c with temps := f.t }))
  u.callerOf f.inst

/-- A stile sprig's release at the end of its firing: its STILESCOPE, over what the firing has issued (R276, R277). -/
def State.stileEnd (s : State) : Hold :=
  ⟨(Scope.ofCode (sprigScope ((s.cx.sprigs[s.fir.sprig]?).getD 0))).getD .device, s.sched.curSt.die, s.fir.covers⟩

/-- A token's release with that of its stile: it waits for both, and carries both (R269, R277). -/
def TokRel.join (r : TokRel) (h : List Hold) (cov : List Nat) : TokRel := ⟨r.holds ++ h, some (nunion cov (r.before.getD []))⟩

/-- The stile of a firing has been passed: the crossing tokens that engines still owe for it carry that release too, beside what a
FENCE before them asks of them (R269, R277). -/
def State.passLate (s : State) (l : Loc) (fid : Nat) (h : List Hold) (cov : List Nat) : State :=
  let def_ := fun (d : StrandDef) => if d.fid = fid ∧ isCrossing d.route then { d with rel := d.rel.join h cov } else d
  (s.modSt l (fun v =>
    { v with strands := v.strands.map (fun k => { k with d := def_ k.d, pend := k.pend.map def_ }),
             matq := v.matq.map (fun e => if e.fid = fid ∧ e.crossing then { e with rel := e.rel.join h cov } else e) })).modMm (fun m =>
    { m with thq := m.thq.map (fun q => if q.fid = fid ∧ isCrossing q.route then { q with rel := q.rel.join h cov } else q),
             accesses := m.accesses.map (fun a => if a.fid = fid then { a with op := a.op.modDef def_ } else a) })

/-- frame_trap: the firing ends without commit. Its record names the tokens sent and the lsids performed; tokens and stores
stay; calls, spawns and crossing tokens that have not left are given up; the frame parks with its inputs (R144, R318). -/
def State.frameTrap (s : State) (code detail va : Nat) : State :=
  let l := s.sched.curSt
  let r := s.report (s.stationFault code detail va) false (some (.firing l s.fir.id))
  let s0 := if hdrStile s.fir.header && !s.fir.stilePassed then r.2.passLate l s.fir.id [s.stileEnd] s.fir.covers else r.2
  let s1 := s0.dropCalls s.fir.calls
  let s2 := s1.modFir (fun f =>
    { f with trapped := true, calls := [], args := [], spawns := [], crossing := [], credits := 0,
             retDone := false, prio := none })
  s2.parkFiring l .fault

/-- A frame trap of an instruction, which has issued and is charged (R425). -/
def State.trapIns (s : State) (code detail : Nat) : State :=
  (s.chargeCtx s.sched.curSt s.fir.ctx .scalar 1).frameTrap code detail 0

/-- A frame trap of an access that the station refuses: DETAIL is its lsid, or 0x8000 and the strand, and VA its virtual address
(R415, R417). -/
def State.trapAcc (s : State) (code detail va : Nat) : State :=
  (s.chargeCtx s.sched.curSt s.fir.ctx .scalar 1).frameTrap code detail va

/-- Claim the arcs and go on, or end the firing with EMIT_COUNT at an arc claimed before (R144). -/
def State.claiming (s : State) : List Nat → (State → Out) → Out
  | [], k => k s
  | a :: as, k => if s.fir.isClaimed a then .next (s.trapIns codeEmitCount 0) else (s.claim a).claiming as k

/-! ### Tokens that a unit sends for a firing (R53, R226, R276, R350, R384) -/

/-- The firing of a name at a station, while it is in progress or parked, and whether it is at its body's end. -/
def Station.findFiring (v : Station) (fid : Nat) : Option (Firing × Bool) :=
  if v.firing.active && decide (v.firing.id = fid) then some (v.firing, false)
  else
    match v.parked.find? (fun f => decide (f.id = fid)) with
    | some f => some (f, false)
    | none => (v.ended.find? (fun f => decide (f.id = fid))).map (fun f => (f, true))

/-- Change the firing of a name at a station, where it is in progress or parked. -/
def Station.modFiring (v : Station) (fid : Nat) (f : Firing → Firing) : Station :=
  { v with firing := if v.firing.active && decide (v.firing.id = fid) then f v.firing else v.firing,
           parked := v.parked.map (fun g => if g.id = fid then f g else g) }

/-- The firing of a name has yet to pass its stile: a token that an engine owes it on a crossing arc waits for that (R277). -/
def Station.stileAhead (v : Station) (fid : Nat) : Bool :=
  match v.findFiring fid with
  | some (f, ended) => hdrStile f.header && !f.stilePassed && !ended && !f.trapped
  | none => false

/-- A matrix unit, a strand or a Thicket engine sends a token for a firing that may have ended, with the release that its
instruction or its sprig's stile gave it; in a stile sprig a crossing token waits for the release point; an argument goes with the
call request, or to the callee that the firing's call site is bound to (R53, R276, R277, R318). What an instance that has ended
is still owed is dropped. -/
def State.lateSend (s : State) (l : Loc) (fid id : Nat) (r tag : BitVec 64) (p : Payload) (rel : TokRel) : State :=
  match (s.inst? id).filter (fun i => !i.st.ended) with
  | none => s
  | some i =>
      let fl : Flight := { tok := ⟨0, tag, p⟩, src := some l, from_ := id, fid := fid, holds := rel.holds, before := rel.before }
      let put := fun (t : State) (f : Firing → Firing) => t.modSt l (fun v => v.modFiring fid f)
      if p = .null ∧ rtDropNull r then s
      else if isCrossing r && (s.st l).stileAhead fid then
        put s (fun f => { f with crossing := f.crossing ++ [⟨rtArc r, tag, p, rel, 0⟩] })
      else if rtTarget r = 3 then
        match (s.st l).findFiring fid with
        | some (_, false) =>
            let q := s.stowTile fl
            put q.2 (fun f => { f.sent1 with args := f.args ++ [⟨rtNum r, rtSprig r, q.1⟩] })
        | _ => s.sendRoute i r tag p (Map.find i.callees (16 * fid + rtNum r)) fl
      else (put s Firing.sent1).sendRoute i r tag p none fl

/-! ### The body's end (R142 to R144, R277, R311, R317) -/

/-- The arcs of the firing's sprig that count as emits (R56, R77). -/
def State.countedArcs (s : State) : List Nat :=
  (((s.cx.routes[s.fir.sprig]?).getD []).map rtArc).filter (fun a => decide (a < 16))

/-- The release point of a stile sprig is passed, with what its release still waits for and what it covers: its crossing tokens
leave behind it, and so do those that engines still owe. -/
def State.flushCrossing (s : State) (h : List Hold) (cov : List Nat) : State :=
  let l := s.fir.crossing
  let s1 := (s.modFir (fun f =>
    { f with crossing := [], stilePassed := true, stileBefore := cov, stileHold := h })).passLate s.sched.curSt s.fir.id h cov
  l.foldl (fun st c =>
    match st.fInst, st.cx.route? st.fir.sprig c.arc with
    | some i, some r =>
        let rel := c.rel.join h cov
        let fl : Flight :=
          { tok := ⟨0, c.tag, c.payload⟩, src := some st.sched.curSt, from_ := i.id, fid := st.fir.id, holds := rel.holds,
            before := rel.before, pad := c.pad }
        let st1 := st.modFir Firing.sent1
        if rtTarget r = 3 then st1.keepArg r fl else st1.sendRoute i r c.tag c.payload none fl
    | _, _ => st) s1

/-- The call requests of a firing leave with their argument tokens, in the order in which its CALLs issued (R317, R326); the
caller takes a result reservation for each result of the site (R292). -/
def State.sendCalls (s : State) (l : Loc) (f : Firing) : State :=
  f.calls.foldl (fun st c =>
    match st.inst? c.2 with
    | none => st
    | some callee =>
        let args := f.args.filter (fun a => decide (a.site = c.1))
        let st1 := args.foldl (fun u a => u.toCallee c.2 a.arg a.flight) st
        let res := (List.range callee.nresSite).map (fun k => (c.1, k))
        let st2 := st1.modInst f.inst (fun j => { j with resRes := j.resRes ++ res, callees := j.callees ++ [(16 * f.id + c.1, c.2)] })
        st2.modFab (fun b => { b with requests := b.requests ++ [{ die := l.die, inst := c.2, loc := l, spawn := none, holds := [], before := [] }] })) s

/-- The spawn requests of a firing leave behind a release at DEVICE scope (R155, R275, R311). -/
def State.sendSpawns (s : State) (l : Loc) (f : Firing) : State :=
  f.spawns.foldl (fun st q =>
    st.modFab (fun b => { b with requests := b.requests ++ [{ die := l.die, inst := f.inst, loc := l, spawn := some q, holds := [⟨.device, l.die, f.covers⟩], before := f.covers }] })) s

/-- The body's end: an emit or exit still owed ends the firing with a frame trap; else a stile sprig without STILE releases,
the requests leave, and the firing waits for its commit beside the sprig engine (R143). -/
def State.bodyEnd (s : State) : State :=
  let f := s.fir
  let l := s.sched.curSt
  if s.countedArcs.any (fun a => !f.isClaimed a) then s.frameTrap codeEmitCount 0 0
  else if decide (hdrExits f.header ≠ 0) && !f.exitDone then s.frameTrap codeNoExit 0 0
  else
    let s1 :=
      if hdrStile f.header && !f.stilePassed then
        s.flushCrossing [s.stileEnd] f.covers
      else s
    let g := s1.fir
    let s2 := (s1.sendCalls l g).sendSpawns l g
    let s3 := s2.modSt l (fun v =>
      ({ v with firing := {}, ended := v.ended ++ [{ v.firing with calls := [], args := [], spawns := [], reserved := 0 }] }).modCtx
        g.ctx (fun c => { c with temps := g.t }))
    s3.callerOf f.inst

end Sys2Proof.Machine
end

