-- ==== Sys2Proof/Machine/Shake.lean ====
section
/-!
DEFINITION. The SHAKE256 digest of 64 bytes, which signatures and attestation reports are made over (R79, R464, R466). The spec names
the function; its permutation, padding and constants are those of FIPS 202 (PRESUMED, LOG 14).
-/

namespace Sys2Proof.Machine

/-- The 25 lanes of the permutation's state; lane (x, y) has index x + 5 y. -/
abbrev Lanes := List (BitVec 64)

/-- The lane of a column and a row, each taken modulo 5. -/
def Lanes.at (a : Lanes) (x y : Nat) : BitVec 64 := (a[x % 5 + 5 * (y % 5)]?).getD 0

/-- Lanes made by column and row. -/
def lanesOf (f : Nat → Nat → BitVec 64) : Lanes := (List.range 25).map (fun k => f (k % 5) (k / 5))

/-- Rotation of each lane. -/
def laneTurns : List Nat := [0, 1, 62, 28, 27, 36, 44, 6, 55, 20, 3, 10, 43, 25, 39, 41, 45, 15, 21, 8, 18, 2, 61, 56, 14]

/-- The constants of the 24 rounds. -/
def roundConsts : List (BitVec 64) :=
  [0x0000000000000001, 0x0000000000008082, 0x800000000000808A, 0x8000000080008000, 0x000000000000808B, 0x0000000080000001,
   0x8000000080008081, 0x8000000000008009, 0x000000000000008A, 0x0000000000000088, 0x0000000080008009, 0x000000008000000A] ++
  [0x000000008000808B, 0x800000000000008B, 0x8000000000008089, 0x8000000000008003, 0x8000000000008002, 0x8000000000000080,
   0x000000000000800A, 0x800000008000000A, 0x8000000080008081, 0x8000000000008080, 0x0000000080000001, 0x8000000080008008]

/-- Parity of a column. -/
def Lanes.parity (a : Lanes) (x : Nat) : BitVec 64 := (List.range 5).foldl (fun p y => p ^^^ a.at x y) 0

/-- Each lane takes in the parities of the columns beside its own. -/
def Lanes.mixColumns (a : Lanes) : Lanes :=
  let p := (List.range 5).map a.parity
  let c := fun (x : Nat) => (p[x % 5]?).getD 0
  lanesOf (fun x y => a.at x y ^^^ c (x + 4) ^^^ (c (x + 1)).rotateLeft 1)

/-- Lanes are rotated and change places. -/
def Lanes.turn (a : Lanes) : Lanes :=
  lanesOf (fun x y =>
    let u := (x + 3 * y) % 5
    (a.at u x).rotateLeft ((laneTurns[u + 5 * x]?).getD 0))

/-- Each lane takes in the two lanes after it in its row. -/
def Lanes.mixRows (a : Lanes) : Lanes := lanesOf (fun x y => a.at x y ^^^ (~~~ a.at (x + 1) y &&& a.at (x + 2) y))

/-- One round. -/
def Lanes.round (a : Lanes) (k : BitVec 64) : Lanes :=
  match a.mixColumns.turn.mixRows with
  | [] => []
  | z :: zs => (z ^^^ k) :: zs

/-- The permutation. -/
def Lanes.permute (a : Lanes) : Lanes := roundConsts.foldl Lanes.round a

/-- Bytes of a block that the state takes in or gives. -/
def shakeRate : Nat := 136

/-- The message with its suffix and padding, a whole number of blocks. -/
def shakePad (m : List Byte) : List Byte :=
  let q := shakeRate - m.length % shakeRate
  m ++ (if q = 1 then [0x9F] else 0x1F :: (List.replicate (q - 2) 0 ++ [0x80]))

/-- The state takes in a block. -/
def Lanes.absorb (a : Lanes) (block : List Byte) : Lanes :=
  (lanesOf (fun x y => a.at x y ^^^ dbl (ofBytes ((block.drop (8 * (x + 5 * y))).take 8)))).permute

/-- The first 64 bytes of SHAKE256 over bytes. -/
def shake256 (m : List Byte) : List Byte :=
  let p := shakePad m
  let a := (List.range (p.length / shakeRate)).foldl (fun (a : Lanes) k => a.absorb ((p.drop (shakeRate * k)).take shakeRate))
    (List.replicate 25 0)
  ((a.take 8).map (fun x => bytesOf x.toNat 8)).flatten

end Sys2Proof.Machine
end

