-- ==== Sys2Proof/Machine/Image.lean ====
section
/-!
DEFINITION. Knot images: reading one (R79, R80, R295 to R297), and its validation (R84, R150, R281, R298, R330, R357).
-/

namespace Sys2Proof.Machine

/-! ### What instructions use -/

/-- The lsid of a store, atomic or copy (R84). -/
def storeLsid (i : Instr) : Option Nat :=
  match i with
  | .sts _ _ _ n => some n.val
  | .stsp _ _ _ n _ => some n.val
  | .stf _ _ _ n _ => some n.val
  | .scat _ _ _ n => some n.val
  | .scadd _ _ _ n _ => some n.val
  | .copy _ _ _ n _ _ => some n.val
  | .stm _ _ _ n _ => some n.val
  | .stmf _ _ _ n _ => some n.val
  | .tst _ _ _ n _ => some n.val
  | .aadd _ _ _ n _ _ => some n.val
  | .amin _ _ _ n _ _ => some n.val
  | .amax _ _ _ n _ _ => some n.val
  | .aminn _ _ _ n _ _ => some n.val
  | .amaxn _ _ _ n _ _ => some n.val
  | .aand _ _ _ n _ _ => some n.val
  | .aor _ _ _ n _ _ => some n.val
  | .axor _ _ _ n _ _ => some n.val
  | .axchg _ _ _ n _ _ => some n.val
  | .acas _ _ _ n _ _ => some n.val
  | .afadd _ _ _ n _ => some n.val
  | .tins _ _ _ n _ => some n.val
  | .tdel _ _ _ n _ => some n.val
  | .trhs _ _ n => some n.val
  | .tovp _ n _ => some n.val
  | _ => none

/-- The instruction is an atomic. -/
def isAtomic (i : Instr) : Bool :=
  match i with
  | .aadd _ _ _ _ _ _ => true
  | .amin _ _ _ _ _ _ => true
  | .amax _ _ _ _ _ _ => true
  | .aminn _ _ _ _ _ _ => true
  | .amaxn _ _ _ _ _ _ => true
  | .aand _ _ _ _ _ _ => true
  | .aor _ _ _ _ _ _ => true
  | .axor _ _ _ _ _ _ => true
  | .axchg _ _ _ _ _ _ => true
  | .acas _ _ _ _ _ _ => true
  | .afadd _ _ _ _ _ => true
  | _ => false

/-- The arcs that an instruction names, but for the overflow arc of a VCVT: emit arcs 0 to 15, exits from 16 (R84, R336). -/
def arcsOf (i : Instr) : List Nat :=
  match i with
  | .emit _ r => [r.val]
  | .emit2 _ r q => [r.val, q.val]
  | .emitt _ r => [r.val]
  | .emitn r => [r.val]
  | .emitr _ r _ => [r.val]
  | .exit _ k _ => [16 + k.val]
  | .exits _ k _ => [16 + k.val]
  | .steer _ t f _ => [t.val, f.val]
  | .thin _ r _ _ => [r.val]
  | .thend r => [r.val]
  | .drop r => [r.val]
  | .sdef _ _ _ (.arc a) _ false _ => [a.val]
  | .accrd n _ _ _ _ => [n.val]
  | .hash n _ _ _ => [n.val]
  | .tprb n _ _ _ => [n.val]
  | _ => []

/-- The strand of an SDEF and, when its elements go to an arc, that arc and whether they are tiles (R226, R298). -/
def sdefArc (i : Instr) : Option (Nat × Option (Nat × Bool)) :=
  match i with
  | .sdef k _ _ (.arc a) _ false z => some (k.val, some (a.val, decide (z = .e64 ∨ z = .e128 ∨ z = .e384)))
  | .sdef k _ _ _ _ _ _ => some (k.val, none)
  | _ => none

/-- The strand of an SGO. -/
def sgoOf (i : Instr) : Option Nat :=
  match i with
  | .sgo k _ => some k.val
  | _ => none

/-- The arcs on which an instruction itself sends words or tiles, and which of the two (R298): one that sends nulls only, or
nothing, sends neither. -/
def sendsOf (i : Instr) : List (Nat × Bool) :=
  match i with
  | .emitt _ r => [(r.val, true)]
  | .accrd n _ _ _ _ => [(n.val, true)]
  | .vcvt _ _ b _ _ => [(b.val, false)]
  | .emitn _ => []
  | .thend _ => []
  | .drop _ => []
  | .sdef _ _ _ _ _ _ _ => []
  | i => (arcsOf i).map (fun a => (a, false))

/-- The arcs that an SGO serves, with whether it sends tiles: by the last SDEF of its strand before it in the body, wherever that one
sends, or, where the body holds none, by every SDEF of the strand on the station (R227, R298). -/
def sgoSends (station body : List Instr) (j : Nat) (k : Nat) : List (Nat × Bool) :=
  let of_ := fun (l : List Instr) => (l.filterMap sdefArc).filter (fun d => decide (d.1 = k))
  match (of_ (body.take j)).getLast? with
  | some d => d.2.toList
  | none => (of_ station).filterMap (·.2)

/-- The arcs on which a body sends words or tiles. -/
def bodySends (station body : List Instr) : List (Nat × Bool) :=
  (body.map sendsOf).flatten ++
    (body.zipIdx.map (fun p => match sgoOf p.1 with | some k => sgoSends station body p.2 k | none => [])).flatten

/-- The call site of a CALL or CALLF, and its knot-table index. -/
def callOf (i : Instr) : Option (Nat × Nat) :=
  match i with
  | .call n k => some (n.val, k.toNat)
  | .callf n k => some (n.val, k.toNat)
  | _ => none

/-- The scope of a STILE. -/
def stileScope (i : Instr) : Option Nat :=
  match i with
  | .stilePlot => some 1
  | .stileDie => some 2
  | .stileDevice => some 3
  | .stileSystem => some 4
  | _ => none

/-- The instruction addresses the scratchpad of its own station, so that its record needs a lease (R302). -/
def usesScratch (i : Instr) : Bool :=
  match i with
  | .ldsp _ _ _ _ _ _ => true
  | .stsp _ _ _ _ _ => true
  | .ldf _ _ _ _ _ _ _ => true
  | .stf _ _ _ _ _ => true
  | .lds _ _ _ _ => true
  | .fec _ _ _ m => !m
  | .feq _ _ _ m => !m
  | .copy _ _ _ _ y x => y || x
  | .sdef _ _ _ .sp _ _ _ => true
  | _ => isAtomic i

/-- The instruction is a TLD.sp or TST.sp, which names a neighbour's scratchpad. -/
def namesNeighbour (i : Instr) : Bool :=
  match i with
  | .tld _ _ _ _ p => p
  | .tst _ _ _ _ p => p
  | _ => false

/-! ### Reading an image (R79, R80, R295 to R297) -/

/-- The double at a byte offset. -/
def dAt (b : Nat → Byte) (off : Nat) : BitVec 64 :=
  BitVec.ofNat 64 (ofBytes ((List.range 8).map (fun k => b (off + k))))

/-- The word at a byte offset. -/
def wAt (b : Nat → Byte) (off : Nat) : Word := BitVec.ofNat 32 (ofBytes ((List.range 4).map (fun k => b (off + k))))

/-- n doubles from an offset. -/
def dList (b : Nat → Byte) (off n : Nat) : List (BitVec 64) := (List.range n).map (fun k => dAt b (off + 8 * k))

/-- The routing words of each sprig in turn (R80). -/
def routeLists (b : Nat → Byte) : Nat → List (BitVec 64) → List (List (BitVec 64))
  | _, [] => []
  | off, w :: ws => dList b off (sprigNRoute w) :: routeLists b (off + 8 * sprigNRoute w) ws

/-- The station record at an offset (R80). -/
def readSta (b : Nat → Byte) (off : Nat) : StaRec :=
  let h := dAt b off
  let ns := bits h 47 4 + 1
  let nw := bits h 20 12
  let sp := dList b (off + 8) ns
  let ipos := off + 8 + 8 * ns
  let rpos := ipos + 8 * ((nw + 1) / 2)
  { head := h, sprigs := sp, words := (List.range nw).map (fun k => wAt b (ipos + 4 * k)), routes := routeLists b rpos sp,
    off := off, size := rpos + 8 * (sp.map sprigNRoute).foldl (· + ·) 0 - off }

/-- n station records from an offset. -/
def readStas (b : Nat → Byte) : Nat → Nat → List StaRec
  | 0, _ => []
  | n + 1, off => let r := readSta b off; r :: readStas b n (off + r.size)

def imgNsta (b : Nat → Byte) : Nat := bits (dAt b 8) 0 16
def imgNentry (b : Nat → Byte) : Nat := bits (dAt b 8) 16 8
def imgNres (b : Nat → Byte) : Nat := bits (dAt b 8) 24 8
def imgNsite (b : Nat → Byte) : Nat := bits (dAt b 8) 32 8
def imgNspawn (b : Nat → Byte) : Nat := bits (dAt b 8) 40 8
def imgLength (b : Nat → Byte) : Nat := (dAt b 48).toNat

/-- A call-site record (R296). -/
def readSite (b : Nat → Byte) (off : Nat) : Site :=
  let d := dAt b off
  ⟨bits d 8 5, bits d 0 3, dList b (off + 8) 4⟩

/-- An image (R79). -/
def readImage (b : Nat → Byte) : Image :=
  let h := dAt b 0
  let sta := (dAt b 16).toNat
  let sit := (dAt b 24).toNat
  let spw := (dAt b 32).toNat
  let dat := (dAt b 40).toNat
  { w := bits h 48 8 + 1, h := bits h 56 8 + 1, length := imgLength b, pleach := bit h 41, signed := bit h 40,
    entries := dList b dat (imgNentry b),
    results := (dList b (dat + 8 * imgNentry b) (imgNres b)).map (fun d => bit d 0),
    sites := (List.range (imgNsite b)).map (fun k => readSite b (sit + 40 * k)),
    spawns := (List.range (imgNspawn b)).map (fun k => dList b (spw + 32 * k) 4),
    stas := readStas b (imgNsta b) sta }

/-! ### Records of an image -/

/-- The kind of the station of a record: a plot begins at a multiple of four. -/
def StaRec.kind (r : StaRec) : Kind := if (r.x + r.y) % 2 = 0 then .compute else .bobbin

/-- The header of sprig n. -/
def StaRec.header (r : StaRec) (n : Nat) : BitVec 64 :=
  let o := sprigIoff ((r.sprigs[n]?).getD 0)
  ((r.words[o + 1]?).getD 0) ++ ((r.words[o]?).getD 0)

/-- The instructions of sprig n. -/
def StaRec.instrs (r : StaRec) (n : Nat) : List Instr := decodeBody r.kind (r.body n)

/-- The record of a station of an image. -/
def Image.sta? (m : Image) (x y : Nat) : Option StaRec := m.stas.find? (fun r => decide (r.x = x ∧ r.y = y))

/-- A routing word of TARGET 0 names a slot that exists. -/
def Image.slotExists (m : Image) (r : BitVec 64) : Bool :=
  match m.sta? (rtDx r) (rtDy r) with
  | none => false
  | some t => decide (rtSprig r < t.sprigs.length) && decide (rtSlot r < hdrSlots (t.header (rtSprig r)))

/-- A record needs a lease (R302). -/
def Image.needsLease (m : Image) (r : StaRec) : Bool :=
  decide (r.kind = .bobbin) &&
    ((List.range r.sprigs.length).any (fun n => (r.instrs n).any usesScratch) ||
      m.stas.any (fun q => decide (q.kind = .compute) && decide ((max q.x r.x - min q.x r.x) + (max q.y r.y - min q.y r.y) = 1) &&
        (List.range q.sprigs.length).any (fun n => (q.instrs n).any namesNeighbour)))

/-! ### Where a fault lies (R84, R417) -/

/-- ARG of a fault in the header or in a table. -/
def headArg (off : Nat) : Nat := (2 ^ 24 - 1) * 2 ^ 40 + off

/-- ARG of a fault in a station record. -/
def StaRec.arg (r : StaRec) : Nat := r.x * 2 ^ 58 + r.y * 2 ^ 51 + 15 * 2 ^ 47 + 127 * 2 ^ 40 + r.off

/-- ARG of a fault in a sprig, by word. -/
def StaRec.argAt (r : StaRec) (n w : Nat) : Nat := r.x * 2 ^ 58 + r.y * 2 ^ 51 + n * 2 ^ 47 + w % 128 * 2 ^ 40

/-! ### Checks: each says what must hold, and the ARG of its failure -/

/-- A check and the ARG of its failure. -/
abbrev Check := Bool × Nat

/-- A format code that is not reserved (R63). -/
def formatOk (c : Nat) : Bool := decide (c ≤ 6) || (decide (32 ≤ c) && decide (c < 64) && decide (c / 4 % 8 ≠ 0))

/-- Checks of the image header (R83, R84). -/
def headChecks (b : Nat → Byte) (sigreq : Bool) : List Check :=
  let h := dAt b 0
  let h1 := dAt b 8
  let w := bits h 48 8 + 1
  let ht := bits h 56 8 + 1
  let len := imgLength b
  let sig := (dAt b 56).toNat
  let all := fun (lo hi : Nat) => (span lo (hi - lo)).map b
  [(decide (64 ≤ len), headArg 48),
   (decide (bits h 0 32 = 0x4B4E3354), headArg 0),
   (decide (bits h 32 8 = 1), headArg 4),
   (decide (bits h 42 6 = 0), headArg 5),
   (decide (w ≤ 16), headArg 6),
   (decide (ht ≤ 20), headArg 7),
   (decide (1 ≤ imgNsta b ∧ imgNsta b ≤ 16 * w * ht), headArg 8),
   (decide (imgNentry b ≤ 16), headArg 10),
   (decide (imgNres b ≤ 4), headArg 11),
   (decide (imgNsite b ≤ 16), headArg 12),
   (decide (imgNspawn b ≤ 16), headArg 13),
   (decide (bits h1 48 16 = 0), headArg 14),
   (decide (len ≤ 2 ^ 28), headArg 48),
   (decide ((dAt b 16).toNat < len), headArg 16),
   (decide ((dAt b 24).toNat + 40 * imgNsite b ≤ len), headArg 24),
   (decide ((dAt b 32).toNat + 32 * imgNspawn b ≤ len), headArg 32),
   (decide ((dAt b 40).toNat + 8 * (imgNentry b + imgNres b) ≤ len), headArg 40),
   (decide (sig ≤ len), headArg 56),
   (!sigreq || bit h 40, headArg 5),
   (!bit h 40 || (Config.ed448Ok (shake256 (all 0 sig)) (all sig len)), headArg 56)]

/-- Checks of a station record as a whole (R80, R84, R330, R357). The spec leaves open, and the model chooses (DESIGN CHOICE, LOG 55):
a record that runs beyond LENGTH is a fault of the header at STAOFF; a sprig that does not lie within NWORDS is a fault of the
record; PLEACH = 1 is accepted in an image whose header has PLEACH = 0, and on a bobbin record, which joins no chain. -/
def recordChecks (m : Image) (r : StaRec) : List Check :=
  let ok := fun (n : Nat) => decide (sprigIoff ((r.sprigs[n]?).getD 0) + 2 + hdrLen (r.header n) ≤ r.nwords)
  let words := ((List.range r.sprigs.length).map (fun n => 2 + hdrLen (r.header n))).foldl (· + ·) 0
  [(decide (r.off + r.size ≤ m.length), headArg 16),
   (decide (r.x < 4 * m.w ∧ r.y < 4 * m.h), r.arg),
   (decide ((m.stas.filter (fun q => decide (q.x = r.x ∧ q.y = r.y))).length = 1), r.arg),
   (decide (bits r.head 0 20 = 0), r.arg),
   (formatOk r.format && (decide (r.kind = .compute) || decide (r.format = 0)), r.arg),
   ((List.range r.sprigs.length).all ok && decide (words = r.nwords), r.arg),
   (!r.pleach || decide (r.kind = .bobbin) || !(decide (r.format = 0) || decide (r.format = 4) || decide (r.format = 5)), r.arg),
   (!r.pleach || decide (r.kind = .bobbin) ||
      m.stas.all (fun q => !q.pleach || decide (q.kind = .bobbin) || decide (q.y ≠ r.y) || decide (q.format = r.format)), r.arg)]

/-- Checks of a sprig header (R56, R57, R84). -/
def headerChecks (r : StaRec) (n : Nat) : List Check :=
  let h := r.header n
  let body := r.instrs n
  let mask := body.foldl (fun (a : BitVec 32) i => match storeLsid i with | some k => a ||| BitVec.ofNat 32 (2 ^ k) | none => a) 0
  let rts := (r.routes[n]?).getD []
  [(decide (hdrMode h ≤ 2), r.argAt n 0),
   (!bit h 24 && decide (bits h 0 3 = 0), r.argAt n 0),
   (decide (hdrEmits h ≤ 16), r.argAt n 0),
   (decide (hdrSlotKind h < 2 ^ hdrSlots h), r.argAt n 0),
   (decide (hdrSlotKind h = 0) || decide (r.kind = .compute), r.argAt n 0),
   (decide (hdrMode h ≠ 2) || (decide (hdrSlots h = 1) && decide (hdrSlotKind h = 0)), r.argAt n 0),
   (decide (hdrStoreMask h = mask), r.argAt n 1),
   (decide ((rts.filter (fun q => decide (rtArc q < 16))).length = hdrEmits h), r.argAt n 0),
   (decide ((rts.filter (fun q => decide (16 ≤ rtArc q ∧ rtArc q ≤ 22))).length = hdrExits h), r.argAt n 0)]

/-- Checks of a sprig word (R76, R84); its place among the words of the sprig is not given, and is free (LOG 16). -/
def sprigChecks (r : StaRec) (n free : Nat) : List Check :=
  let w := (r.sprigs[n]?).getD 0
  let h := r.header n
  let tiles := (List.range 4).filter (fun k => bit h (20 + k))
  let regs := tiles.map (sprigTile w)
  [(decide (bits w 0 16 = 0), r.argAt n free),
   (decide (sprigCountN w ≠ 0) == decide (hdrMode h = 2), r.argAt n free),
   (decide (sprigScope w ≤ 4) && (decide (sprigScope w ≠ 0) == hdrStile h), r.argAt n free),
   (decide regs.Nodup, r.argAt n free),
   ((List.range 4).all (fun k => tiles.contains k || decide (sprigTile w k = 0)), r.argAt n free)]

/-- Argument arcs of an image: site and argument number. -/
def Image.argArcs (m : Image) : List (Nat × Nat) :=
  ((m.stas.map (fun r => r.routes.flatten)).flatten.filter (fun q => decide (rtTarget q = 3))).map (fun q => (rtNum q, rtSprig q))

/-- What a routing word names exists, and fits (R77, R84, R298). DX, DY and SLOT of a word of TARGET 3 may hold anything: no rule
asks for zero (DESIGN CHOICE, LOG 55). -/
def routeOk (m : Image) (station body : List Instr) (q : BitVec 64) : Bool :=
  decide (bits q 52 3 = 0) && decide (bits q 16 13 = 0) && decide (rtArc q ≤ 22) &&
  (match rtTarget q with
    | 0 => decide (rtNum q = 0) && m.slotExists q
    | 1 => decide (bits q 33 19 = 0) && decide (rtNum q ≤ 7)
    | 2 =>
        decide (bits q 33 19 = 0) && decide (rtNum q < m.results.length) &&
          (bodySends station body).all (fun d => decide (d.1 ≠ rtArc q) || d.2 == (m.results[rtNum q]?).getD false)
    | 3 =>
        (match m.sites[rtNum q]? with
          | none => false
          | some s => decide (rtSprig q < s.narg) && body.any (fun i => (callOf i).any (fun c => decide (c.1 = rtNum q)))) &&
        decide ((m.argArcs.filter (fun a => decide (a = (rtNum q, rtSprig q)))).length = 1)
    | _ => false)

/-- Checks of the routing words of a sprig. -/
def routeChecks (m : Image) (r : StaRec) (n free : Nat) : List Check :=
  let rts := (r.routes[n]?).getD []
  let body := r.instrs n
  let station := ((List.range r.sprigs.length).map r.instrs).flatten
  rts.map (fun q => (routeOk m station body q, r.argAt n free)) ++
    [((body.map arcsOf).flatten.all (fun a => rts.any (fun q => decide (rtArc q = a))), r.argAt n free)]

/-- The sprigs of an image that hold LGATE: station and sprig, in image order. -/
def Image.gates (m : Image) : List (Nat × Nat × Nat) :=
  (m.stas.map (fun r => ((List.range r.sprigs.length).filter (fun n =>
    (r.instrs n).any (fun i => match i with | .lgate _ => true | _ => false))).map (fun n => (r.x, r.y, n)))).flatten

/-- Instruction j of a body stands after an equal condition in the body. -/
def earlier (body : List Instr) (j : Nat) (p : Instr → Bool) : Bool := (body.take j).any p

/-- An instruction of a body is allowed where it stands (R84, R150, R281, R298, R357). -/
def insOk (m : Image) (knotcnt : Nat) (r : StaRec) (n : Nat) (body : List Instr) (j : Nat) (i : Instr) : Bool :=
  let h := r.header n
  match i with
  | .exit _ k _ => decide (k.val < hdrExits h)
  | .exits _ k e => decide (k.val < hdrExits h) && decide (e.toNat < m.spawns.length)
  | .lgate _ =>
      decide (r.x = 0 ∧ r.y = 0) && decide (m.gates.head? = some (r.x, r.y, n)) &&
        !earlier body j (fun q => match q with | .lgate _ => true | _ => false)
  | .thin _ a _ _ => !earlier body j (fun q => match q with | .thend b => decide (a = b) | _ => false)
  | .thend a => !earlier body j (fun q => match q with | .thin _ b _ _ => decide (a = b) | _ => false)
  | .emitt _ _ => decide (r.kind = .compute)
  | .lfree => (m.sta? 0 0).isSome
  | .barj _ _ _ => (m.sta? 0 0).isSome
  | .stilePlot => hdrStile h && decide (sprigScope ((r.sprigs[n]?).getD 0) = 1) && !earlier body j (fun q => (stileScope q).isSome)
  | .stileDie => hdrStile h && decide (sprigScope ((r.sprigs[n]?).getD 0) = 2) && !earlier body j (fun q => (stileScope q).isSome)
  | .stileDevice => hdrStile h && decide (sprigScope ((r.sprigs[n]?).getD 0) = 3) && !earlier body j (fun q => (stileScope q).isSome)
  | .stileSystem => hdrStile h && decide (sprigScope ((r.sprigs[n]?).getD 0) = 4) && !earlier body j (fun q => (stileScope q).isSome)
  | .call s k =>
      decide (s.val < m.sites.length) && decide (k.toNat < knotcnt) &&
        !earlier body j (fun q => (callOf q).any (fun c => decide (c.1 = s.val)))
  | .callf s k =>
      decide (s.val < m.sites.length) && decide (k.toNat < knotcnt) &&
        !earlier body j (fun q => (callOf q).any (fun c => decide (c.1 = s.val)))
  | .knotq _ k => decide (k.toNat < knotcnt)
  | .ret => !earlier body j (fun q => decide (q = .ret))
  | .wpre _ => r.pleach
  | .afeed _ => r.pleach
  | _ => true

/-- Checks of the body of a sprig: each word is an instruction of the station's kind, allowed where it stands. -/
def bodyChecks (m : Image) (knotcnt : Nat) (r : StaRec) (n : Nat) : List Check :=
  let ws := r.body n
  let body := r.instrs n
  ws.zipIdx.map (fun p => ((decode (.station r.kind) p.1).isOk, r.argAt n (p.2 + 2))) ++
    body.zipIdx.map (fun p => (insOk m knotcnt r n body p.2 p.1, r.argAt n (p.2 + 2)))

/-- Checks of the tables outside the station records (R295 to R298). -/
def tableChecks (b : Nat → Byte) (m : Image) : List Check :=
  let sit := (dAt b 24).toNat
  let spw := (dAt b 32).toNat
  let dat := (dAt b 40).toNat
  let route := fun (q : BitVec 64) =>
    decide (rtArc q = 0) && decide (rtTarget q = 0) && decide (rtNum q = 0) && decide (bits q 52 3 = 0) &&
      decide (bits q 16 13 = 0) && m.slotExists q
  m.entries.zipIdx.map (fun p => (route p.1, headArg (dat + 8 * p.2))) ++
  (List.range (imgNres b)).map (fun k =>
    (decide (bits (dAt b (dat + 8 * (imgNentry b + k))) 1 63 = 0), headArg (dat + 8 * (imgNentry b + k)))) ++
  (m.sites.zipIdx.map (fun p =>
    let d := dAt b (sit + 40 * p.2)
    (decide (bits d 13 51 = 0 ∧ bits d 3 5 = 0 ∧ p.1.narg ≤ 16 ∧ p.1.nres ≤ 4), headArg (sit + 40 * p.2)) ::
      p.1.routes.zipIdx.map (fun q =>
        (if q.2 < p.1.nres then route q.1 else decide (q.1 = 0), headArg (sit + 40 * p.2 + 8 + 8 * q.2))))).flatten ++
  (m.spawns.zipIdx.map (fun p => p.1.zipIdx.map (fun q =>
    (decide (bits q.1 42 2 ≠ 3 ∧ bits q.1 40 2 ≠ 3 ∧ bits q.1 1 39 = 0), headArg (spw + 32 * p.2 + 8 * q.2))))).flatten

/-- Checks of one station record and its sprigs. -/
def staChecks (m : Image) (knotcnt free : Nat) (r : StaRec) : List Check :=
  recordChecks m r ++
    ((List.range r.sprigs.length).map (fun n =>
      bodyChecks m knotcnt r n ++ headerChecks r n ++ sprigChecks r n free ++ routeChecks m r n free)).flatten

/-- The ARG of the first check that fails. -/
def firstBad : List Check → Option Nat
  | [] => none
  | (ok, a) :: rest => if ok then firstBad rest else some a

/-- Validation (R84): the ARG of a fault, or the validated copy. The image header comes first, then the station records, then
the tables (LOG 16). -/
def validate (b : Nat → Byte) (knotcnt : Nat) (sigreq : Bool) (free : Nat) : Except Nat Image :=
  match firstBad (headChecks b sigreq) with
  | some a => .error a
  | none =>
      let m := readImage b
      match firstBad ((m.stas.map (staChecks m knotcnt free)).flatten) with
      | some a => .error a
      | none =>
          match firstBad (tableChecks b m) with
          | some a => .error a
          | none => .ok m

end Sys2Proof.Machine
end

