-- ==== Sys2Proof/Machine/Place.lean ====
section
/-!
DEFINITION. Where an instance goes: free rectangles, folding, and the steps of a search (R299 to R303, R403).
-/

namespace Sys2Proof.Machine

/-! ### Stations that a placement may use (R301, R302, R403) -/

/-- The stations of an image's records on a rectangle. -/
def Image.stationsAt (m : Image) (die qx qy : Nat) : List (Loc × StaRec) :=
  m.stas.map (fun r => (locOf die (4 * qx + r.x) (4 * qy + r.y), r))

/-- A context slot of a station is free. -/
def Station.slotFree (v : Station) (c : Nat) : Bool := !(v.ctx c).valid && (Map.find v.shadow c).isNone

/-- The slots and shadow slots in use at a station. -/
def Station.inUse (v : Station) : List Ctx := v.ctxs.toList.filter Ctx.valid ++ v.shadow.map (·.2)

/-- The lowest run of n free words of a station's instruction store. -/
def Station.freeWords (v : Station) (n : Nat) : Option Nat :=
  let used := v.inUse.map (fun c => (c.ibase, c.ilen))
  let starts := 0 :: used.map (fun p => p.1 + p.2)
  let ok := starts.filter (fun a => decide (a + n ≤ 4096) && used.all (fun p => decide (a + n ≤ p.1 ∨ p.1 + p.2 ≤ a)))
  ok.foldl (fun b a => match b with | some x => some (min x a) | none => some a) none

/-- No slot of a station holds the lease of its scratchpad. -/
def Station.leaseFree (v : Station) : Bool := v.inUse.all (fun c => !c.leased)

/-- The guarantees of one more context of a function fit on a station, and those of n more on its quad (R403). -/
def State.guaranteesFit (s : State) (l : Loc) (vf n : Nat) : Bool :=
  let sum := fun (f : Nat × Nat × Bool → Nat) (m : Loc) => ((List.range 8).map (fun c => f (s.ctxShares (s.st m) c))).foldl (· + ·) 0
  decide (sum (·.1) l + (s.vf vf).ondie ≤ 256) &&
    decide (((quadStations l.die.val (quadX l) (quadY l)).map (sum (·.2.1))).foldl (· + ·) 0 + n * (s.vf vf).hedge ≤ 65536)

/-- A rectangle lies inside a die (R33). -/
def inDie (qx qy w h : Nat) : Bool := decide (qx + w ≤ 16) && decide (qy + h ≤ 20)

/-- The quads of a rectangle. -/
def quadsIn (qx qy w h : Nat) : List (Nat × Nat) :=
  ((List.range h).map (fun j => (List.range w).map (fun i => (qx + i, qy + j)))).flatten

/-- A free rectangle that a function may take within its quad limit (R299). -/
def State.freeRect (s : State) (vf die qx qy w h : Nat) : Bool :=
  inDie qx qy w h && (quadsIn qx qy w h).all (fun q => s.quadFree die q.1 q.2) &&
    decide (s.quadsOf vf none + w * h ≤ (s.vf vf).quadLimit)

/-- A station of a record takes one more context of a function in slot c, in a fold (R301). -/
def State.foldOk (s : State) (vf : Nat) (m : Image) (all : List (Loc × StaRec)) (c : Nat) (p : Loc × StaRec) : Bool :=
  let v := s.st p.1
  let inQuad := (all.filter (fun q => decide (quadX q.1 = quadX p.1 ∧ quadY q.1 = quadY p.1))).length
  v.slotFree c && (v.freeWords p.2.nwords).isSome && (!m.needsLease p.2 || v.leaseFree) && !v.mapped &&
    !(s.quad (quadKey p.1.die.val (quadX p.1) (quadY p.1))).mappedOut && s.guaranteesFit p.1 vf inQuad

/-- The slot with which a rectangle serves for folding (R301). -/
def State.foldSlot (s : State) (vf : Nat) (m : Image) (die qx qy : Nat) : Option Nat :=
  let all := m.stationsAt die qx qy
  (List.range 8).find? (fun c => all.all (s.foldOk vf m all c))

/-! ### Searches (R300, R303) -/

/-- A place that a search has found; `how` is HOW of AREAQ (R321): 1 adjacent, 2 nearest, 3 folding. -/
structure Plan where
  qx : Nat
  qy : Nat
  slot : Nat
  folded : Bool
  how : Nat
deriving DecidableEq, Repr

/-- A rectangle of quads. -/
structure Rect where
  x : Nat
  y : Nat
  w : Nat
  h : Nat
deriving DecidableEq, Repr

/-- The rectangle of an instance. -/
def Inst.rect (i : Inst) : Rect := ⟨i.qx, i.qy, i.w, i.h⟩

/-- The gap between two ranges. -/
def gap (a n b m : Nat) : Nat := if a + n ≤ b then b - (a + n) else a - (b + m)

/-- The quad distance of two rectangles. -/
def quadDist (a b : Rect) : Nat := gap a.x a.w b.x b.w + gap a.y a.h b.y b.h

/-- Numbers lo + 1 − w … hi by their distance from c, the smaller first, as far as they are on the die. -/
def spread (c : Nat) (w n : Nat) : List Nat :=
  let lo : Int := (c : Int) - w + 1
  let hi : Int := (c : Int) + n - 1
  let at_ := fun (d : Nat) => if d = 0 then [(c : Int)] else [(c : Int) - d, (c : Int) + d]
  (((List.range 40).map at_).flatten.filter (fun v => decide (0 ≤ v ∧ lo ≤ v ∧ v ≤ hi))).map Int.toNat

/-- Step 1 of R300: rectangles that share an edge with the caller's, east, south, west, north. -/
def adjacents (a : Rect) (w h : Nat) : List (Nat × Nat) :=
  (spread a.y h a.h).map (fun y => (a.x + a.w, y)) ++
  (spread a.x w a.w).map (fun x => (x, a.y + a.h)) ++
  (if w ≤ a.x then (spread a.y h a.h).map (fun y => (a.x - w, y)) else []) ++
  (if h ≤ a.y then (spread a.x w a.w).map (fun x => (x, a.y - h)) else [])

/-- All rectangles of a die, by lowest (qy, qx). -/
def allRects (w h : Nat) : List (Nat × Nat) :=
  ((List.range (21 - h)).map (fun y => (List.range (17 - w)).map (fun x => (x, y)))).flatten

/-- The first of a list at the least distance from a rectangle. -/
def nearest (a : Rect) (w h : Nat) (l : List (Nat × Nat)) : Option (Nat × Nat) :=
  l.foldl (fun b q => match b with
    | some x => if quadDist a ⟨q.1, q.2, w, h⟩ < quadDist a ⟨x.1, x.2, w, h⟩ then some q else b
    | none => some q) none

/-- A rectangle holds at least one quad that reads as held (R35, R301). -/
def State.someHeld (s : State) (die qx qy w h : Nat) : Bool := (quadsIn qx qy w h).any (fun q => s.readsHeld die q.1 q.2)

/-- A plan of a fold. -/
def State.foldAt (s : State) (vf : Nat) (m : Image) (die : Nat) (q : Nat × Nat) : Option Plan :=
  (s.foldSlot vf m die q.1 q.2).map (fun c => ⟨q.1, q.2, c, true, 3⟩)

/-- Step 3 of R300: inside the caller's rectangle first, then by distance. -/
def State.foldFrom (s : State) (vf : Nat) (m : Image) (die : Nat) (a : Rect) : Option Plan :=
  let inner := (allRects m.w m.h).filter (fun q =>
    decide (a.x ≤ q.1 ∧ q.1 + m.w ≤ a.x + a.w ∧ a.y ≤ q.2 ∧ q.2 + m.h ≤ a.y + a.h))
  match inner.findSome? (s.foldAt vf m die) with
  | some p => some p
  | none =>
      let serving := (allRects m.w m.h).filter (fun q =>
        s.someHeld die q.1 q.2 m.w m.h && (s.foldSlot vf m die q.1 q.2).isSome)
      (nearest a m.w m.h serving).bind (s.foldAt vf m die)

/-- Steps 1 to 3 of R300 from a rectangle; a CALLF takes step 3 only. -/
def State.planFrom (s : State) (vf : Nat) (m : Image) (die : Nat) (a : Rect) (foldOnly : Bool) : Option Plan :=
  let free := fun (q : Nat × Nat) => s.freeRect vf die q.1 q.2 m.w m.h
  let adj := if foldOnly then none else (adjacents a m.w m.h).find? free
  match adj with
  | some q => some ⟨q.1, q.2, 0, false, 1⟩
  | none =>
      match (if foldOnly then none else nearest a m.w m.h ((allRects m.w m.h).filter free)) with
      | some q => some ⟨q.1, q.2, 0, false, 2⟩
      | none => s.foldFrom vf m die a

/-- A launch, a successor, or a relink without a live caller: the first free rectangle, else the first that serves for folding
(R303). -/
def State.planAny (s : State) (vf : Nat) (m : Image) (die : Nat) : Option Plan :=
  match (allRects m.w m.h).find? (fun q => s.freeRect vf die q.1 q.2 m.w m.h) with
  | some q => some ⟨q.1, q.2, 0, false, 2⟩
  | none =>
      ((allRects m.w m.h).filter (fun q => s.someHeld die q.1 q.2 m.w m.h)).findSome? (s.foldAt vf m die)

/-- The caller of an instance, while it is LIVE or RETURNING on a die. -/
def State.anchor (s : State) (i : Inst) (die : Fin 2) : Option Inst :=
  match i.kind with
  | .callee caller _ _ => (s.inst? caller).filter (fun c => c.st.runs && decide (c.die = die))
  | .root => none
  | .spawned => none

/-- The place of an instance on a die, by what it is and what asks for it (R300, R303). A first call is anchored at its caller's
rectangle whatever state the caller is in. -/
def State.planFor (s : State) (i : Inst) (m : Image) (die : Fin 2) : Option Plan :=
  match i.kind with
  | .callee caller _ _ =>
      if i.st = .saved then
        match s.anchor i die with
        | some c => s.planFrom i.vf m die.val c.rect false
        | none => s.planAny i.vf m die.val
      else
        match s.inst? caller with
        | some c => s.planFrom i.vf m die.val c.rect i.foldOnly
        | none => none
  | .root => s.planAny i.vf m die.val
  | .spawned => s.planAny i.vf m die.val

end Sys2Proof.Machine
end

