-- ==== Sys2Proof/Machine/Knot.lean ====
section
/-!
DEFINITION. The knot cache (R82 to R85, R185), instance ids and records (R290, R296), and the call class: opcodes 0xA0 to 0xA5
(R317 to R323).
-/

namespace Sys2Proof.Machine

/-- What the engine gets: a value, a wait for a page of the partition, or a failure with its code and ARG. -/
inductive Got (α : Type) where
  | ok (a : α) (s : State)
  | wait (s : State)
  | fail (code arg : Nat) (s : State)

/-! ### The knot cache (R83) -/

/-- Bytes of validated copies that a knot cache holds, and of its backing store. -/
def knotCacheBytes : Nat := 2 ^ 23
def knotStoreBytes : Nat := 2 ^ 28

/-- The validated copy of an index at a die. -/
def State.copy? (s : State) (d : Fin 2) (vf idx : Nat) : Option KnotCopy :=
  (s.eng d).knots.find? (fun k => decide (k.vf = vf ∧ k.idx = idx))

/-- Bytes of copies in the cache, or in the backing store. -/
def copyBytes (l : List KnotCopy) (cached : Bool) : Nat :=
  ((l.filter (fun k => k.cached == cached)).map (fun k => k.img.length)).foldl (· + ·) 0

/-- The least recently used copy in the cache or the backing store that no placement is loading. -/
def lruCopy (l : List KnotCopy) (cached : Bool) (loading : Option (Nat × Nat)) : Option KnotCopy :=
  (l.filter (fun k => (k.cached == cached) && decide (some (k.vf, k.idx) ≠ loading))).foldl
    (fun b k => match b with | some x => if k.used < x.used then some k else b | none => some k) none

/-- Write copies to the backing store until n more bytes fit in the cache. -/
def cacheRoom (n : Nat) (loading : Option (Nat × Nat)) : Nat → List KnotCopy → List KnotCopy
  | 0, l => l
  | fuel + 1, l =>
      if copyBytes l true + n ≤ knotCacheBytes then l
      else
        match lruCopy l true loading with
        | none => l
        | some k => cacheRoom n loading fuel (l.map (fun x => if x.vf = k.vf ∧ x.idx = k.idx then { x with cached := false } else x))

/-- Drop copies from the backing store until it holds no more than its size. -/
def storeRoom (loading : Option (Nat × Nat)) : Nat → List KnotCopy → List KnotCopy
  | 0, l => l
  | fuel + 1, l =>
      if copyBytes l false ≤ knotStoreBytes then l
      else
        match lruCopy l false loading with
        | none => l
        | some k => storeRoom loading fuel (l.filter (fun x => decide (x.vf ≠ k.vf ∨ x.idx ≠ k.idx)))

/-- The copy that the placement under way at a die is loading. -/
def State.loadingKnot (s : State) (d : Fin 2) : Option (Nat × Nat) :=
  (s.eng d).placing.bind (fun p => (s.inst? p.inst).map (fun i => (i.vf, i.kidx)))

/-- Put a copy in as the one used last: into the cache when it is not larger, with the least recently used ones moving out. -/
def State.putCopy (s : State) (d : Fin 2) (k : KnotCopy) : State :=
  let t := s.tickEng d
  let others := (t.2.eng d).knots.filter (fun x => decide (x.vf ≠ k.vf ∨ x.idx ≠ k.idx))
  let fits := decide (k.img.length ≤ knotCacheBytes)
  let l1 := if fits then cacheRoom k.img.length (s.loadingKnot d) others.length others else others
  let l2 := { k with used := t.1, cached := fits } :: l1
  t.2.modEng d (fun e => { e with knots := storeRoom (s.loadingKnot d) l2.length l2 })

/-- KNOTREG discards the copies of an index at both engines (R185). -/
def State.dropCopies (s : State) (vf idx : Nat) : State :=
  let cut := fun (st : State) (d : Fin 2) =>
    st.modEng d (fun e => { e with knots := e.knots.filter (fun k => decide (k.vf ≠ vf ∨ k.idx ≠ idx)),
                                   bad := e.bad.filter (fun k => decide (k.vf ≠ vf ∨ k.idx ≠ idx)) })
  cut (cut s 0) 1

/-! ### Fetching (R185, R313, R314) -/

/-- A read of the engine that has failed: of a poisoned line, with its address, or a fault in fetching (R314, R423). -/
def fetchFail {α : Type} (code pa : Nat) (s : State) : Got α :=
  if code = codeUncorrectable then .fail code pa s else .fail codeFetch 0 s

/-- A poisoned line that the engine has read for an instance kills it, with UNCORRECTABLE and DETAIL 2 (R423). -/
def State.poisonRead (s : State) (d : Fin 2) (i : Inst) (pa : Nat) : State :=
  (s.report { pa := pa, code := codeUncorrectable, source := 6, vf := some i.vf, die := d, inst := i.id, detail := 2 } true none).2.killInst
    i.id codeUncorrectable

/-- Knot-table entry n of a function: the address of its image and VALID. -/
def State.knotEntry (s : State) (d : Fin 2) (vf idx : Nat) : Got (Nat × Bool) :=
  match s.unitAccess d vf (((s.vf vf).knottab.toNat + 16 * idx) % 2 ^ 64) false none .engine with
  | .fail c a t => fetchFail c a t
  | .wait t => .wait t
  | .ok pa t =>
      if t.poisoned pa 16 then .fail codeUncorrectable pa t
      else
        let g := t.homeRead vf pa 16
        .ok (fld g.1 64 64, decide (fld g.1 0 1 = 1)) g.2

/-- The physical addresses of n pages of a function from a virtual address on. -/
def State.pagesAt (s : State) (d : Fin 2) (vf : Nat) : Nat → Nat → Got (List Nat)
  | 0, _ => .ok [] s
  | n + 1, va =>
      match s.unitAccess d vf va false none .engine with
      | .fail c a t => fetchFail c a t
      | .wait t => .wait t
      | .ok pa t =>
          match t.pagesAt d vf n ((va / 65536 + 1) * 65536) with
          | .ok l u => .ok (pa / 65536 * 65536 :: l) u
          | .wait u => .wait u
          | .fail c a u => .fail c a u

/-- Bytes of a range of virtual addresses whose pages are given. -/
def State.byteAt (s : State) (va : Nat) (pages : List Nat) (off : Nat) : Byte :=
  Mem.get s.mm.mem ((pages[(va + off) / 65536 - va / 65536]?).getD 0 + (va + off) % 65536)

/-- The address of a poisoned line in n bytes of virtual addresses whose pages are given. -/
def State.poisonAt (s : State) (va n : Nat) (pages : List Nat) : Option Nat :=
  pages.zipIdx.findSome? (fun q =>
    let lo := if q.2 = 0 then va % 65536 else 0
    s.poisonLine (q.1 + lo) (min 65536 (va % 65536 + n - 65536 * q.2) - lo))

/-- Read an image from memory and validate it (R82, R84): its header first, which gives its length. -/
def State.fetchImage (s : State) (d : Fin 2) (vf va : Nat) : Got Image :=
  match s.pagesAt d vf 1 va with
  | .fail c a t => .fail c a t
  | .wait t => .wait t
  | .ok p0 t =>
    match t.poisonAt va 64 p0 with
    | some pa => .fail codeUncorrectable pa t
    | none =>
      let len := imgLength (t.byteAt va p0)
      let read := if 64 ≤ len ∧ len ≤ knotStoreBytes then len else 64
      match t.pagesAt d vf ((va % 65536 + read + 65535) / 65536) va with
      | .fail c a u => .fail c a u
      | .wait u => .wait u
      | .ok pages u =>
        match u.poisonAt va read pages with
        | some pa => .fail codeUncorrectable pa u
        | none =>
            let u1 := u.charge vf (portCol d.val 0) .hbmRead ((len + 127) / 128)
            let u2 := { u1 with sched := { u1.sched with fresh := u1.sched.fresh + 1 } }
            match validate (u.byteAt va pages) (u.vf vf).knotcnt.toNat (u.vf vf).sigreq (Config.rejectWord u.sched.fresh) with
            | .ok m => .ok m u2
            | .error a => .fail codeIllegalLoad a u2

/-- What an index's first use has found wrong (R185). -/
def State.badKnot? (s : State) (d : Fin 2) (vf idx : Nat) : Option KnotBad :=
  (s.eng d).bad.find? (fun k => decide (k.vf = vf ∧ k.idx = idx))

/-- Keep what an index's first use has found wrong. A fault of the fetch or poison is not kept: the entry or the image has not been
read. -/
def State.keepBad (s : State) (d : Fin 2) (vf idx code arg : Nat) : State :=
  if code = codeFetch ∨ code = codeUncorrectable then s else s.modEng d (fun e => { e with bad := e.bad ++ [⟨vf, idx, code, arg⟩] })

/-- The first use of an index whose entry has been read: the image is read and validated, and what that gives is kept (R82, R185). -/
def State.firstUse (s : State) (d : Fin 2) (vf idx : Nat) (e : Nat × Bool) : Got Image :=
  if !e.2 then .fail codeNoKnot 0 (s.keepBad d vf idx codeNoKnot 0)
  else
    match s.fetchImage d vf e.1 with
    | .fail c a u => .fail c a (u.keepBad d vf idx c a)
    | .wait u => .wait u
    | .ok m u => .ok m (u.putCopy d ⟨vf, idx, m, 0, true⟩)

/-- The image of a knot-table index: the validated copy of the die, what its first use found wrong, or at the first use the entry
and the image read and validated now (R82, R185). -/
def State.needImage (s : State) (d : Fin 2) (vf idx : Nat) : Got Image :=
  if (s.vf vf).knotcnt.toNat ≤ idx then .fail codeNoKnot 0 s
  else
    match s.copy? d vf idx, s.badKnot? d vf idx with
    | some k, _ => .ok k.img (s.putCopy d k)
    | none, some b => .fail b.code b.arg s
    | none, none =>
        match s.knotEntry d vf idx with
        | .fail c a t => .fail c a t
        | .wait t => .wait t
        | .ok e t => t.firstUse d vf idx e

/-! ### Instance ids and records (R290, R316) -/

/-- The first id from p on that no record holds. -/
def firstFree (used : List Nat) (p : Nat) : Nat → Option Nat
  | 0 => none
  | fuel + 1 => if used.contains (p % 2 ^ 18) then firstFree used (p + 1) fuel else some (p % 2 ^ 18)

/-- Ids in use: those of instance records, those that root records name (R197), and those of accesses, tokens and messages that an ended
instance has left under way (LOG 9). -/
def State.usedIds (s : State) : List Nat :=
  s.prick.insts.map (·.id) ++ s.prick.roots.map (·.inst) ++ s.mm.accesses.map (·.inst) ++ s.mm.copies.map (·.inst) ++ s.mm.thq.map (·.inst) ++
    (s.fab.tokens ++ s.fab.fenced).map (fun f => tagInst f.tok.tag) ++ s.fab.credits.map (·.inst) ++ s.fab.joins.map (·.inst) ++
    s.fab.sinkMsgs.map (·.inst)

/-- An id of the free space; which one is free (LOG 9). -/
def State.newId (s : State) : Option Nat × State :=
  let p := s.pick (2 ^ 18)
  (firstFree s.usedIds p.1 (s.usedIds.length + 1), p.2)

/-- Create a record. -/
def State.addInst (s : State) (i : Inst) : State := { s with prick := { s.prick with insts := s.prick.insts ++ [i] } }

/-! ### CALL, CALLF, RET (R317 to R319) -/

/-- CALL and CALLF at issue: a new record of the callee, QUEUED, whose request leaves at the body's end. It waits while no id is
free (LOG 9). -/
def State.callSite (s : State) (n idx : Nat) (foldOnly : Bool) : Out :=
  match s.fInst with
  | none => .next s.adv
  | some i =>
      match (i.img.bind (fun m => m.sites[n]?)) with
      | none => .next s.adv
      | some q =>
          let p := s.newId
          match p.1 with
          | none => .next s
          | some id =>
              let rt := s.otag
              let u := p.2.newUid
              let c : Inst :=
                { id := id, vf := i.vf, die := i.die, st := .queued, kidx := idx, kind := .callee i.id n rt, root := i.root, cls := i.cls,
                  prio := i.prio, loopBase := tagIter rt, foldOnly := foldOnly, argRes := q.narg, resRoutes := q.routes,
                  nargSite := q.narg, nresSite := q.nres, age := u.1 }
              .next ((u.2.addInst c).modFir (fun f => { f with calls := f.calls ++ [(n, id)] })).adv

/-- CALL (R317). -/
def execCall (n : Fin 16) (i : BitVec 16) (s : State) : Out := s.callSite n.val i.toNat false

/-- CALLF (R317): folding only. -/
def execCallf (n : Fin 16) (i : BitVec 16) (s : State) : Out := s.callSite n.val i.toNat true

/-- RET (R319): takes effect when the firing commits. -/
def execRet (s : State) : Out := .next (s.modFir (fun f => { f with retDone := true })).adv

/-! ### INSTID, AREAQ, KNOTQ (R320 to R322) -/

/-- The word of INSTID (R320). -/
def Inst.word (i : Inst) : Nat :=
  (i.w - 1) * 2 ^ 44 + (i.h - 1) * 2 ^ 39 + i.qy * 2 ^ 34 + i.qx * 2 ^ 30 + (if i.folded then 2 ^ 29 else 0) +
    i.die.val * 2 ^ 28 + i.slot % 8 * 2 ^ 18 + i.id

/-- INSTID (R320). -/
def execInstid (d : Fin 8) (s : State) : Out :=
  .next (s.wr d (dbl (match s.fInst with | some i => i.word | none => 0))).adv

/-- A knot of w × h quads whose records need no lease, as AREAQ asks: a smallest record on every station (LOG 23). -/
def askedKnot (w h : Nat) : Image :=
  let sta := fun (x y : Nat) =>
    (⟨BitVec.ofNat 64 (x * 2 ^ 58 + y * 2 ^ 51 + 3 * 2 ^ 20), [0], [0, 0, 0], [[]], 0, 0⟩ : StaRec)
  { w := w, h := h, length := 0, pleach := false, signed := false, entries := [], results := [], sites := [], spawns := [],
    stas := ((List.range (4 * h)).map (fun y => (List.range (4 * w)).map (fun x => sta x y))).flatten }

/-- The word of AREAQ (R321). -/
def State.areaWord (s : State) (i : Inst) (w h : Nat) : Nat :=
  let free := ((quadsIn 0 0 16 20).filter (fun q => s.quadFree i.die.val q.1 q.2)).length
  free * 2 ^ 40 + s.quadsOf i.vf (some i.die) * 2 ^ 30 +
    (match s.planFrom i.vf (askedKnot w h) i.die.val i.rect false with
      | some p => p.qy * 2 ^ 13 + p.qx * 2 ^ 9 + p.how
      | none => 0)

/-- AREAQ (R321). -/
def execAreaq (d : Fin 8) (h w : BitVec 8) (s : State) : Out :=
  .next (s.wr d (dbl (match s.fInst with | some i => s.areaWord i w.toNat h.toNat | none => 0))).adv

/-- The word of KNOTQ for a validated image (R322). -/
def Image.knotWord (m : Image) (cached : Bool) : Nat :=
  (if cached then 2 ^ 31 else 0) + (if m.pleach then 2 ^ 30 else 0) + (if m.signed then 2 ^ 29 else 0) +
    (if m.hasRet then 2 ^ 28 else 0) + m.entries.length * 2 ^ 19 + m.results.length * 2 ^ 16 + (m.h - 1) * 2 ^ 8 + (m.w - 1) * 2 ^ 4

/-- KNOTQ (R322): places nothing and writes no fault record; it waits for a page of the image, and poison in it kills the instance that
asks (R423). -/
def execKnotq (d : Fin 8) (i : BitVec 16) (s : State) : Out :=
  match s.fInst with
  | none => .next (s.wr d 0).adv
  | some q =>
      let held := (s.copy? q.die q.vf i.toNat).isSome
      match s.needImage q.die q.vf i.toNat with
      | .wait t => .next t
      | .ok m t => .next (t.wr d (dbl (m.knotWord held))).adv
      | .fail c a t =>
          if c = codeUncorrectable then .next (t.poisonRead q.die q a) else .next (t.wr d (dbl (c * 2 ^ 32))).adv

end Sys2Proof.Machine
end

