-- ==== Sys2Proof/Machine/Num.lean ====
section
/-!
DEFINITION. Exact values, the formats and their codes, rounding and conversion (R90 to R108), and the order of sums (R109 to
R115).
-/

namespace Sys2Proof.Machine

/-! ### Exact values -/

/-- An exact value: NaN, an infinity with its sign, or a sign and a magnitude m times 2^e (zero keeps its sign). -/
inductive Num where
  | nan
  | inf (neg : Bool)
  | fin (neg : Bool) (m : Nat) (e : Int)
deriving DecidableEq, Repr

/-- An integer as a value. -/
def Num.ofInt (v : Int) : Num := .fin (decide (v < 0)) v.natAbs 0

/-- A finite value as an integer times 2^e, for an e no greater than its own. -/
def scaled (neg : Bool) (m : Nat) (e e0 : Int) : Int :=
  let v : Int := (m * 2 ^ (e - e0).toNat : Nat)
  if neg then -v else v

/-- −x. -/
def Num.neg : Num → Num
  | .nan => .nan
  | .inf n => .inf (!n)
  | .fin n m e => .fin (!n) m e

/-- |x|. -/
def Num.abs : Num → Num
  | .nan => .nan
  | .inf _ => .inf false
  | .fin _ m e => .fin false m e

/-- x + y; an exact zero of opposite signs is +0, except under RD, where it is −0 (R94). -/
def Num.add (rd : Bool) : Num → Num → Num
  | .nan, _ => .nan
  | .inf _, .nan => .nan
  | .fin _ _ _, .nan => .nan
  | .inf a, .inf b => if a = b then .inf a else .nan
  | .inf a, .fin _ _ _ => .inf a
  | .fin _ _ _, .inf b => .inf b
  | .fin a m e, .fin b n f =>
      let g := min e f
      let v := scaled a m e g + scaled b n f g
      if v = 0 then .fin (if a = b then a else rd) 0 0 else .fin (decide (v < 0)) v.natAbs g

/-- x · y; 0 · Inf is NaN. -/
def Num.mul : Num → Num → Num
  | .nan, _ => .nan
  | .inf _, .nan => .nan
  | .fin _ _ _, .nan => .nan
  | .inf a, .inf b => .inf (a != b)
  | .inf a, .fin b n _ => if n = 0 then .nan else .inf (a != b)
  | .fin a m _, .inf b => if m = 0 then .nan else .inf (a != b)
  | .fin a m e, .fin b n f => .fin (a != b) (m * n) (e + f)

/-- x < y for values that are no NaN; −0 equals +0. -/
def Num.lt : Num → Num → Bool
  | .nan, _ => false
  | .inf _, .nan => false
  | .fin _ _ _, .nan => false
  | .inf a, .inf b => a && !b
  | .inf a, .fin _ _ _ => a
  | .fin _ _ _, .inf b => !b
  | .fin a m e, .fin b n f => let g := min e f; decide (scaled a m e g < scaled b n f g)

/-- The value is NaN. -/
def Num.isNan : Num → Bool
  | .nan => true
  | .inf _ => false
  | .fin _ _ _ => false

/-- x = y for values that are no NaN; −0 equals +0. -/
def Num.eq (a b : Num) : Bool := !a.isNan && !b.isNan && !a.lt b && !b.lt a

/-- The order of R95: −0 lies below +0. -/
def Num.below (a b : Num) : Bool :=
  a.lt b || (a.eq b && (match a, b with | .fin p _ _, .fin q _ _ => p && !q | _, _ => false))

/-- The selecting operations (R95). -/
def Num.pick (takeMax : Bool) (a b : Num) : Num :=
  if a.isNan then b else if b.isNan then a
  else if a.below b then (if takeMax then b else a) else (if takeMax then a else b)

/-! ### Functions of R335, to a value whose lowest bit says that the rest is not zero -/

/-- 1/x. -/
def Num.recip : Num → Num
  | .nan => .nan
  | .inf n => .fin n 0 0
  | .fin n 0 _ => .inf n
  | .fin n (m + 1) e =>
      let k := Nat.log2 (m + 1) + 80
      let q := 2 ^ k / (m + 1)
      .fin n (2 * q + (if 2 ^ k % (m + 1) = 0 then 0 else 1)) (-e - k - 1)

/-- The whole part of a square root below 2^k, bit by bit. -/
def sqrtBits (n : Nat) : Nat → Nat → Nat
  | 0, acc => acc
  | k + 1, acc => if (acc + 2 ^ k) * (acc + 2 ^ k) ≤ n then sqrtBits n k (acc + 2 ^ k) else sqrtBits n k acc

/-- 1/√x. -/
def Num.rsqrt : Num → Num
  | .nan => .nan
  | .inf true => .nan
  | .inf false => .fin false 0 0
  | .fin n 0 _ => .inf n
  | .fin true (_ + 1) _ => .nan
  | .fin false (m + 1) e =>
      let odd := e % 2 = 1
      let v := if odd then 2 * (m + 1) else m + 1
      let h : Int := (if odd then e - 1 else e) / 2
      let k := Nat.log2 v / 2 + 80
      let q := sqrtBits (2 ^ (2 * k) / v) 84 0
      .fin false (2 * q + (if q * q * v = 2 ^ (2 * k) then 0 else 1)) (-h - k - 1)

/-- Bits behind the point in the working values of 2^x and log2 x. -/
def workBits : Nat := 320

/-- ln 2 in `workBits` bits, rounded down. -/
def ln2Bits : Nat := 0xb17217f7d1cf79abc9e3b39803f2f6af40f343267298b62d8a0d175b8baafa2be7b876206debac98

/-- The sum of y^k / k! from term t on, rounded down. -/
def expSum (y t : Nat) : Nat → Nat → Nat
  | 0, _ => 0
  | n + 1, k => t + expSum y (t * y / 2 ^ workBits / (k + 1)) n (k + 1)

/-- 2^x (R335). Beyond ±2,000 every format has overflowed or rounds as at that bound. -/
def Num.exp2 : Num → Num
  | .nan => .nan
  | .inf true => .fin false 0 0
  | .inf false => .inf false
  | .fin n m e =>
      if m = 0 then .fin false 1 0
      else if 11 < (Nat.log2 m : Int) + e then .fin false 1 (if n then -2000 else 2000)
      else
        let v := scaled n m e (min e 0)
        let k := (-(min e 0)).toNat
        let i := v / (2 ^ k : Nat)
        let f := (v - i * (2 ^ k : Nat)).toNat
        if f = 0 then .fin false 1 i
        else
          let y := (f * 2 ^ workBits / 2 ^ k) * ln2Bits / 2 ^ workBits
          .fin false (2 * expSum y (2 ^ workBits) 80 0 + 1) (i - workBits - 1)

/-- The sum of t u^(2k) / (2k + 1) from term k on, rounded down. -/
def atanhSum (u2 t : Nat) : Nat → Nat → Nat
  | 0, _ => 0
  | n + 1, k => t / (2 * k + 1) + atanhSum u2 (t * u2 / 2 ^ workBits) n (k + 1)

/-- log2 x (R335). -/
def Num.log2 : Num → Num
  | .nan => .nan
  | .inf true => .nan
  | .inf false => .inf false
  | .fin n m e =>
      if m = 0 then .inf true
      else if n then .nan
      else
        let k := Nat.log2 m
        let x : Int := e + k
        if m = 2 ^ k then .fin (decide (x < 0)) x.natAbs 0
        else
          let u := (m - 2 ^ k) * 2 ^ workBits / (m + 2 ^ k)
          let l := 2 * atanhSum (u * u / 2 ^ workBits) u 120 0 * 2 ^ workBits / (ln2Bits + 1)
          if 0 ≤ x then .fin false (2 * (x.toNat * 2 ^ workBits + l) + 1) (-(workBits : Int) - 1)
          else .fin true (2 * (x.natAbs * 2 ^ workBits - l - 1024) + 1) (-(workBits : Int) - 1)

/-! ### Formats (R90, R96 to R98) -/

/-- A floating format: trailing bits, exponent of the smallest normal, code of the largest finite magnitude, position of the
sign (none: natural), code of NaN, and how it differs from the IEEE formats. -/
structure FpSpec where
  mb : Nat
  emin : Int
  maxCode : Nat
  signBit : Option Nat
  nan : Nat
  /-- It has infinities. -/
  hasInf : Bool
  /-- It has −0, and every code above its infinity is NaN. -/
  ieee : Bool
  /-- No code decodes to NaN: E2M1. -/
  noNan : Bool := false
deriving DecidableEq, Repr

/-- An element format with its width: floating, or a signed integer. -/
inductive EFmt where
  | fp (s : FpSpec) (w : Nat)
  | int (w : Nat)
deriving DecidableEq, Repr

def f32Spec : FpSpec := ⟨23, -126, 0x7F7FFFFF, some 31, 0x7FC00000, true, true, false⟩
def f16Spec : FpSpec := ⟨10, -14, 0x7BFF, some 15, 0x7E00, true, true, false⟩
def bf16Spec : FpSpec := ⟨7, -126, 0x7F7F, some 15, 0x7FC0, true, true, false⟩
def e5m2Spec : FpSpec := ⟨2, -14, 0x7B, some 7, 0x7E, true, true, false⟩
def e2m1Spec : FpSpec := ⟨1, 0, 7, some 3, 8, false, false, true⟩

/-- A binary8 format of precision p, natural or signed, finite or extended (R96, R97). -/
def b8Spec (p : Nat) (nat fin : Bool) : FpSpec :=
  if nat then ⟨p - 1, 1 - 2 ^ (8 - p), if fin then 0xFE else 0xFD, none, 0xFF, !fin, false, false⟩
  else ⟨p - 1, 1 - 2 ^ (7 - p), if fin then 0x7F else 0x7E, some 7, 0x80, !fin, false, false⟩

/-- The element format of a code of R63; a reserved code, which no placed image holds (R330), reads as FP32. -/
def fmtOf (c : BitVec 6) : EFmt :=
  if bit c 5 then .fp (b8Spec (bits c 2 3) (bit c 1) (bit c 0)) 8
  else
    match c.toNat with
    | 1 => .fp f16Spec 16
    | 2 => .fp bf16Spec 16
    | 3 => .int 8
    | 4 => .int 32
    | 5 => .fp e2m1Spec 4
    | 6 => .fp e5m2Spec 8
    | _ => .fp f32Spec 32

/-- Width of an element. -/
def EFmt.width : EFmt → Nat
  | .fp _ w => w
  | .int w => w

/-- The value of a floating code (R90, R96, R98). -/
def FpSpec.decode (s : FpSpec) (c : Nat) : Num :=
  let neg := match s.signBit with | some k => c.testBit k | none => false
  let v := match s.signBit with | some k => c % 2 ^ k | none => c
  if !s.ieee && !s.noNan && decide (c = s.nan) then .nan
  else if s.maxCode < v then (if s.hasInf && decide (v = s.maxCode + 1) then .inf neg else .nan)
  else if v < 2 ^ s.mb then .fin (neg && (s.ieee || decide (v ≠ 0))) v (s.emin - s.mb)
  else .fin neg (v % 2 ^ s.mb + 2 ^ s.mb) (((v / 2 ^ s.mb : Nat) : Int) - 1 + s.emin - s.mb)

/-- The value of n bits in two's complement. -/
def intOf (c n : Nat) : Int := if c.testBit (n - 1) then ((c % 2 ^ n : Nat) : Int) - (2 ^ n : Nat) else (c % 2 ^ n : Nat)

/-- The value of an element code (R106). -/
def EFmt.decode : EFmt → Nat → Num
  | .fp s w, c => s.decode (c % 2 ^ w)
  | .int w, c => .ofInt (intOf c w)

/-! ### Rounding (R101, R103) -/

/-- A magnitude m · 2^e rounded to a multiple of 2^q by a mode, with the draw r of R103; `odd` says whether the code of the
lower candidate is odd. -/
def roundAt (q : Int) (rm : Rm) (r : Nat) (neg : Bool) (m : Nat) (e : Int) (odd : Nat → Bool) : Nat :=
  if q ≤ e then m * 2 ^ (e - q).toNat
  else
    let h := (q - e).toNat
    let lo := m / 2 ^ h
    let rest := m % 2 ^ h
    if rest = 0 then lo
    else
      let up : Bool :=
        match rm with
        | .rne => decide (2 ^ h < 2 * rest) || (decide (2 * rest = 2 ^ h) && odd lo)
        | .rz => false
        | .ru => !neg
        | .rd => neg
        | .sr => decide (2 ^ 24 ≤ rest * 2 ^ 24 / 2 ^ h + r % 2 ^ 24)
      if up then lo + 1 else lo

/-- The code of a magnitude rounded on the grid of a format, continued above its largest finite value (R101). -/
def FpSpec.magCode (s : FpSpec) (rm : Rm) (r : Nat) (neg : Bool) (m : Nat) (e : Int) : Nat :=
  if m = 0 then 0
  else
    let q := max ((Nat.log2 m : Int) + e) s.emin - s.mb
    let base := (q + s.mb - s.emin).toNat * 2 ^ s.mb
    base + roundAt q rm r neg m e (fun lo => decide ((base + lo) % 2 = 1))

/-- A code with its sign; a format without −0 drops the sign of zero. -/
def FpSpec.signed (s : FpSpec) (neg : Bool) (v : Nat) : Nat :=
  match s.signBit with
  | some k => if neg && (s.ieee || decide (v ≠ 0)) then v + 2 ^ k else v
  | none => v

/-- A value rounded to an integer by a mode. -/
def roundInt (rm : Rm) (r : Nat) (neg : Bool) (m : Nat) (e : Int) : Int :=
  let v : Int := (roundAt 0 rm r neg m e (fun lo => decide (lo % 2 = 1)) : Nat)
  if neg then -v else v

/-- Encoding in arithmetic and FCVT: overflow by R94, NaN by R92; a natural format gives 0 for negative values (R329). -/
def FpSpec.arith (s : FpSpec) (rm : Rm) (r : Nat) : Num → Nat
  | .nan => s.nan
  | .inf n => if n && s.signBit.isNone then 0 else s.signed n (s.maxCode + 1)
  | .fin n m e =>
      if n && s.signBit.isNone then 0
      else
        let v := s.magCode rm r n m e
        if v ≤ s.maxCode then s.signed n v
        else
          let inf : Bool := match rm with | .rne => true | .rz => false | .ru => !n | .rd => n | .sr => true
          s.signed n (if inf then s.maxCode + 1 else s.maxCode)

/-- An integer clamped to n bits, signed (R89). -/
def clampS (v : Int) (n : Nat) : Int :=
  let b : Int := (2 ^ (n - 1) : Nat)
  if v < -b then -b else if b - 1 < v then b - 1 else v

/-- An integer clamped to n bits, natural (R89). -/
def clampN (v : Int) (n : Nat) : Int := if v < 0 then 0 else if ((2 ^ n : Nat) : Int) - 1 < v then ((2 ^ n : Nat) : Int) - 1 else v

/-- The low n bits of an integer. -/
def codeOfInt (v : Int) (n : Nat) : Nat := (BitVec.ofInt n v).toNat

/-- The saturating table of R107: the code, and whether the element is counted. -/
def EFmt.saturate (f : EFmt) (rm : Rm) (r : Nat) (x : Num) : Nat × Bool :=
  match f with
  | .fp s _ =>
      (match x with
      | .nan => (s.nan, s.noNan)
      | .inf n =>
          if n && s.signBit.isNone then (0, true)
          else if s.hasInf then (s.signed n (s.maxCode + 1), false)
          else (s.signed n s.maxCode, true)
      | .fin n m e =>
          if n && s.signBit.isNone then (0, decide (m ≠ 0))
          else
            let v := s.magCode rm r n m e
            if v ≤ s.maxCode then (s.signed n v, false) else (s.signed n s.maxCode, true))
  | .int w =>
      match x with
      | .nan => (0, true)
      | .inf n => (codeOfInt (if n then -(2 ^ (w - 1) : Nat) else ((2 ^ (w - 1) : Nat) : Int) - 1) w, true)
      | .fin n m e =>
          let v := roundInt rm r n m e
          (codeOfInt (clampS v w) w, decide (clampS v w ≠ v))

/-- encode_vec (R329). -/
def EFmt.encodeVec (f : EFmt) (rm : Rm) (r : Nat) (x : Num) : Nat :=
  match f with
  | .fp s _ => if s.hasInf then s.arith rm r x else (f.saturate rm r x).1
  | .int _ => (f.saturate rm r x).1

/-! ### FP32 arithmetic (R101) -/

/-- round_rne to FP32. -/
def toF32 (x : Num) : Nat := f32Spec.arith .rne 0 x

/-- fp32_add. -/
def fp32Add (a b : Nat) : Nat := toF32 (Num.add false (f32Spec.decode a) (f32Spec.decode b))

/-- fp32_fma. -/
def fp32Fma (a b : Num) (c : Nat) : Nat := toF32 (Num.add false (Num.mul a b) (f32Spec.decode c))

/-! ### The rounding generator (R103) -/

/-- The draw of an element, counted from the generator's present place. -/
def Ctx.draw (c : Ctx) (k : Nat) : Nat := bits (mix64 (c.seed ^^^ (c.rctr + BitVec.ofNat 64 k))) 0 24

/-- The generator after n draws, when the mode draws. -/
def Ctx.drawn (c : Ctx) (rm : Rm) (n : Nat) : Ctx :=
  match rm with
  | .sr => { c with rctr := c.rctr + BitVec.ofNat 64 n }
  | .rne => c
  | .rz => c
  | .ru => c
  | .rd => c

/-! ### Lanes (R114) -/

/-- Add the upper half of the lanes to the lower, h lanes each. -/
def lanesStep (l : List Nat) (h : Nat) : List Nat :=
  (List.range h).map (fun k => fp32Add ((l[k]?).getD 0) ((l[k + h]?).getD 0))

/-- The combining tree. -/
def lanesTree (l : List Nat) : Nat := ([16, 8, 4, 2, 1].foldl lanesStep l).headD 0

/-- The 32 lanes, each −0 at the start, over the elements of a row. -/
def lanesOver (n : Nat) (f : Nat → Nat → Nat) : Nat :=
  lanesTree ((List.range 32).map (fun l =>
    ((List.range n).filter (fun e => decide (e % 32 = l))).foldl (fun a e => f a e) 0x80000000))

/-- VREDS of a row. -/
def reduceSum (n : Nat) (x : Nat → Num) : Nat :=
  lanesOver n (fun a e => toF32 (Num.add false (f32Spec.decode a) (x e)))

/-- VDOT of two rows. -/
def reduceDot (n : Nat) (x y : Nat → Num) : Nat := lanesOver n (fun a e => fp32Fma (x e) (y e) a)

/-! ### Group sums (R109 to R112) -/

/-- A group sum of exact products: NaN for a NaN product or infinities of both signs; zero is +0 (R109, R110). -/
def groupSum (l : List (Num × Num)) : Num :=
  match l.foldl (fun a p => Num.add false a (Num.mul p.1 p.2)) (.fin false 0 0) with
  | .fin _ 0 _ => .fin false 0 0
  | v => v

end Sys2Proof.Machine
end

