-- ==== Sys2Proof/Machine/Tiles.lean ====
section
/-!
DEFINITION. Tile registers: elements, shapes, and how the vector unit reads them (R120, R327, R360).
-/

namespace Sys2Proof.Machine

/-- Bits of an element (R360). -/
def TWidth.bits : TWidth → Nat
  | .w4 => 4
  | .w8 => 8
  | .w16 => 16
  | .w32 => 32

/-- The width of a number of bits. -/
def TWidth.ofBits (n : Nat) : TWidth := if n ≤ 4 then .w4 else if n ≤ 8 then .w8 else if n ≤ 16 then .w16 else .w32

/-- Elements per row (R327). -/
def Tile.perRow (t : Tile) : Nat := t.rowBytes * 8 / TWidth.bits t.width

/-- The raw code of an element: row r starts at bit 3072 r. -/
def Tile.code (t : Tile) (r e : Nat) : Nat := (t.bits >>> (3072 * r + TWidth.bits t.width * e)).toNat % 2 ^ TWidth.bits t.width

/-- The bits of a row of n codes of w bits. -/
def rowBits (w : Nat) (f : Nat → Nat) : Nat → Nat
  | 0 => 0
  | n + 1 => rowBits w f n + (f n % 2 ^ w) * 2 ^ (w * n)

/-- The bits of rows, of n codes each. -/
def tileBits (w n : Nat) (f : Nat → Nat → Nat) : Nat → Nat
  | 0 => 0
  | r + 1 => tileBits w n f r + rowBits w (f r) n * 2 ^ (3072 * r)

/-- The bits inside a shape. -/
def shapeMask (rowBytes : Nat) : Nat → Nat
  | 0 => 0
  | r + 1 => shapeMask rowBytes r + (2 ^ (8 * rowBytes) - 1) * 2 ^ (3072 * r)

/-- The mask of a tile's own shape. -/
def Tile.mask (t : Tile) : BitVec 49152 := BitVec.ofNat 49152 (shapeMask t.rowBytes t.rows)

/-- A tile as a token carries it: the bits inside its shape (R117). -/
def Tile.carried (t : Tile) : Tile := { t with bits := t.bits &&& t.mask }

/-- A register with a tile delivered into it: the bits outside the shape are given (R127). -/
def Tile.landed (t : Tile) (rest : BitVec 49152) : Tile := { t with bits := (t.bits &&& t.mask) ||| (rest &&& ~~~ t.mask) }

/-- A register written over a shape, with n codes in each row; the bits outside the shape stay (LOG 22). -/
def Tile.write (old : Tile) (rows rowBytes : Nat) (w : TWidth) (n : Nat) (f : Nat → Nat → Nat) : Tile :=
  let t : Tile := { rows := rows, rowBytes := rowBytes, width := w, bits := BitVec.ofNat 49152 (tileBits (TWidth.bits w) n f rows) }
  t.landed old.bits

/-- A register written over the shape of another. -/
def Tile.writeAs (old shape : Tile) (f : Nat → Nat → Nat) : Tile :=
  old.write shape.rows shape.rowBytes shape.width shape.perRow f

/-- The element format of a tile on a station (R327). -/
def elemFmt (format : BitVec 6) (w : TWidth) : EFmt :=
  match w with
  | .w32 => if format = 3 ∨ format = 4 then .int 32 else .fp f32Spec 32
  | .w16 => if format = 1 then .fp f16Spec 16 else .fp bf16Spec 16
  | .w8 =>
      if format = 3 then .int 8
      else if bit format 5 then fmtOf format
      else if format = 5 ∨ format = 6 then .fp e5m2Spec 8
      else .int 8
  | .w4 => .fp e2m1Spec 4

/-- The value of an element (R106, R327). -/
def Tile.dec (t : Tile) (format : BitVec 6) (r e : Nat) : Num := (elemFmt format t.width).decode (t.code r e)

/-- Equal rows and equal elements per row (R328). -/
def Tile.agrees (a b : Tile) : Bool := decide (a.rows = b.rows ∧ a.perRow = b.perRow)

/-- A tile register of a slot. -/
def Ctx.tile (c : Ctx) (k : Fin 16) : Tile := c.tiles[k]

/-- A slot with a tile register written. -/
def Ctx.setTile (c : Ctx) (k : Fin 16) (t : Tile) : Ctx := { c with tiles := c.tiles.set k t }

/-- The native width of a format, and the widths that TCFG accepts (R349). -/
def nativeWidth (format : BitVec 6) : TWidth :=
  match format.toNat with
  | 0 => .w32
  | 1 => .w16
  | 2 => .w16
  | 3 => .w8
  | 4 => .w32
  | 5 => .w4
  | _ => .w8

/-- TCFG accepts a width on a station of a format (R349). -/
def acceptsWidth (format : BitVec 6) (w : TWidth) : Bool :=
  decide (w = .w32) || decide (w = nativeWidth format) || (decide (format = 5) && decide (w = .w8))

end Sys2Proof.Machine
end

