-- ==== Sys2Proof/Machine/Arrive.lean ====
section
/-!
DEFINITION. Arrival and matching (R123 to R125), readiness and selection (R133 to R137), the start of a firing, and null mode (R127, R138 to R140).
-/

namespace Sys2Proof.Machine

/-! ### Matching (R124, R125, R128) -/

/-- Mark a frame complete, with its order. -/
def State.completeFrame (s : State) (f : Frame) (done : Bool) : Frame × State :=
  if done && f.completed.isNone then
    let u := s.newUid
    ({ f with completed := some u.1 }, u.2)
  else (f, s)

/-- The slot of a frame as an arrival writes it. -/
def slotOf (p : Payload) (edge : Nat) (before : List Nat) (bank : Bool) (recs : List (Nat × Nat)) : SlotVal :=
  match p with
  | .word v => { present := true, value := v, edge := edge, before := before }
  | .tile t => { present := true, tile := some t, tileBank := bank, recs := recs, edge := edge, before := before }
  | .null => { present := true, null := true, edge := edge, before := before }

/-- A frame with an arrival written into it, and whether that completes it (R125). -/
def Frame.take (f : Frame) (h : BitVec 64) (countN slot : Nat) (q : SlotVal) : Frame × Bool :=
  match hdrMode h with
  | 0 =>
      let g := { f with slots := vset f.slots slot q }
      (g, (List.range (hdrSlots h)).all (fun k => (vget g.slots k {}).present))
  | 1 => ({ f with slots := vset f.slots slot q, count := slot, values := if q.null then 0 else 1 }, true)
  | _ =>
      let old := vget f.slots 0 {}
      let w : SlotVal := { present := true, null := false, value := if q.null then old.value else q.value, edge := q.edge,
                           before := old.before ++ q.before }
      let g := { f with slots := vset f.slots 0 w, count := f.count + 1, values := f.values + (if q.null then 0 else 1) }
      (g, decide (g.count = countN))

/-- An arrival can go to a frame of its key (R124, R125). -/
def Frame.accepts (f : Frame) (h : BitVec 64) (slot : Nat) : Bool :=
  match hdrMode h with
  | 0 => !(vget f.slots slot {}).present
  | 1 => false
  | _ => !f.complete

/-- The oldest frame of a key that takes an arrival, by its position: among the on-die entries, and, where the key's bit of the
overflow filter is set, among those of the Hedgerow's index (R124, R128, R129). -/
def Station.lookup (v : Station) (c id sprig slot : Nat) (tag : BitVec 64) : Option Nat :=
  let h := v.header c sprig
  let hit := fun (f : Frame) => f.sameKey c id sprig tag && f.accepts h slot
  let die := v.frames.findIdx? (fun f => f.holdsPlace && hit f)
  if v.overflowFilter.getLsbD (bits (keyHash c id sprig tag) 6 12) then
    let off := ((v.index c id sprig tag).find? (fun e => match v.frames[e.pos]? with | some f => f.accepts h slot | none => false)).map (·.pos)
    match die, off with
    | some a, some b => some (min a b)
    | some a, none => some a
    | none, b => b
  else die

/-- Write an arrival into the oldest frame of its key that takes it, or open a new one (R124, R128, R129). -/
def State.deliver (s : State) (l : Loc) (c sprig slot : Nat) (tag : BitVec 64) (p : Payload) (edge : Nat)
    (before : List Nat) : State :=
  let v := s.st l
  let h := v.header c sprig
  let id := (v.ctx c).inst
  let countN := sprigCountN (((v.ctx c).sprigs[sprig]?).getD 0)
  let t : Option (Bool × List (Nat × Nat)) × State :=
    match p with
    | .tile x => s.tilePlace l c id (hdrStage h) x
    | .word _ => (some (true, []), s)
    | .null => (some (true, []), s)
  match t.1 with
  | none => t.2
  | some at_ =>
      let s1 := t.2
      let q := slotOf p edge before at_.1 at_.2
      let vf := (s1.ctxVf (s1.st l) c).getD 128
      match (s1.st l).lookup c id sprig slot tag with
      | some n =>
          match (s1.st l).frames[n]? with
          | none => s1
          | some f =>
              let a : Option (List (Nat × Nat)) × State :=
                match f.place with
                | .arena => s1.arenaTake l c id 1 (hdrStage h)
                | .bank => (some [], s1.charge vf (colOf l) .hedgerow 1)
                | .onDie => (some [], s1)
                | .chosen _ _ => (some [], s1)
              match a.1 with
              | some recs =>
                  let w := { f with recs := f.recs ++ recs }.take h countN slot q
                  let d := a.2.completeFrame w.1 w.2
                  d.2.modSt l (fun x => { x with frames := x.frames.set n d.1 })
              | none => a.2
      | none =>
          let f : Frame := { ctx := c, inst := id, sprig := sprig, tag := tag }
          let pl := s1.newPlace l f
          match pl.1 with
          | none => pl.2
          | some place =>
              let w := Frame.take { f with place := place.1, recs := place.2 } h countN slot q
              let d := pl.2.completeFrame w.1 w.2
              d.2.modSt l (fun x => { x with frames := x.frames ++ [d.1] })

/-! ### Arrival (R123) -/

/-- The first token on an entry, and a token in a result slot, end their reservations (R292). -/
def Inst.convert (i : Inst) (edge : Nat) : Inst :=
  let hitE := fun e => match i.img with | some m => decide (rtEdge ((m.entries[e]?).getD 0) = edge) | none => false
  let hitR := fun (p : Nat × Nat) =>
    match i.img with
    | some m => (match m.sites[p.1]? with | some q => decide (rtEdge ((q.routes[p.2]?).getD 0) = edge) | none => false)
    | none => false
  { i with entRes := i.entRes.filter (fun e => !hitE e), resRes := i.resRes.eraseP hitR }

/-- The first four checks of an arriving token, in the order of R123: what becomes of one that fails, or nothing for one that
passes. -/
def State.refuseToken (s : State) (t : Token) : Option State :=
  let l := t.loc
  let v := s.st l
  let c := tagCtx t.tag
  let x := v.ctx c
  let id := tagInst t.tag
  if !t.parOk then
    some ((s.reportHost { code := codeUncorrectable, source := 0, vf := none, loc := some l, die := l.die, tag := t.tag,
                          detail := 3, arg := t.header.toNat }).settle id)
  else if !(x.valid && decide (x.inst = id)) then some ((s.staleToken t (some l) 0).settle id)
  else if !(decide (x.blockBase ≤ tagBlock t.tag ∧ tagBlock t.tag ≤ x.blockLast)) then
    let vf := (s.ctxVf v c).getD 0
    let s1 := s.modSt l (fun u => u.modCtx c (fun y => { y with window := y.window + 1, windowAt := some (s.now / 1600) }))
    let s2 := s1.modVf vf (fun f => { f with windrop := f.windrop + 1 })
    let s3 :=
      if x.windowAt = some (s.now / 1600) then s2
      else s2.partitionFault { code := codeWindow, source := 0, vf := some vf, loc := some l, die := l.die, inst := id, ctx := c,
                               stage := hdrStage (v.header c t.sprig), tag := t.tag, edge := t.edge }
    some (s3.settle id)
  else if !(decide (t.sprig < x.nsprig) && decide (t.slot < hdrSlots (v.header c t.sprig))) then
    some ((s.staleToken t (some l) 0 (if t.sprig < x.nsprig then hdrStage (v.header c t.sprig) else 0)).settle id)
  else none

/-- A value token arrives: the checks of R123, and its matching. -/
def State.arrive (s : State) (t : Token) (before : List Nat) : State :=
  match s.refuseToken t with
  | some u => u
  | none =>
      let l := t.loc
      let v := s.st l
      let c := tagCtx t.tag
      let id := tagInst t.tag
      let h := v.header c t.sprig
      let s1 := s.modInst id (·.convert t.edge)
      if t.tl != slotTile h t.slot then
        let s2 := s1.partitionFault { code := codeEmitCount, source := 0, vf := s.ctxVf v c, loc := some l, die := l.die,
                                      inst := id, ctx := c, stage := hdrStage h, tag := t.tag, edge := t.edge }
        s2.deliver l c t.sprig t.slot t.tag .null t.edge before
      else s1.deliver l c t.sprig t.slot t.tag t.payload t.edge before

/-! ### Readiness (R133, R134) -/

/-- The emit need of a sprig (R134). -/
def emitNeed (h : BitVec 64) (body : List Instr) : Nat :=
  hdrEmits h + hdrExits h + (body.filter (fun i => match i with | .sinkw _ _ => true | _ => false)).length

/-- What may fire or resume at a station: a ready frame, or a parked firing whose condition has cleared. -/
structure Cand where
  parked : Bool
  pos : Nat
  ctx : Nat
  sprig : Nat
  age : Nat
  order : Nat
  since : Nat
  need : Nat
deriving DecidableEq, Repr

/-- The slot's instance may fire: it runs and is not parked (R132, R291), and the slot has not been saved. -/
def State.slotRuns (s : State) (v : Station) (c : Nat) : Bool :=
  (v.ctx c).valid && !(v.ctx c).draining &&
    (match s.inst? (v.ctx c).inst with | some i => i.st.runs && !i.spillPark | none => false)

/-- The loop has allowance for an LGATE among instructions yet to be executed (R51, R133). -/
def Ctx.allows (x : Ctx) (body : List Instr) : Bool :=
  !body.any (fun i => match i with | .lgate _ => true | _ => false) || decide (0 < x.allow)

/-- A body that starts at its first instruction has what it needs: loop allowance for an LGATE, and the queue entries that it
consumes, beyond those that the parked firings of the slot are owed (R51, R133, R141). -/
def Station.gates (v : Station) (k : Kind) (c : Nat) (body : List Instr) : Bool :=
  let x := v.ctx c
  let owed := fun (n : Fin 2) => v.owed k n (fun g => decide (g.ctx = c))
  x.allows body && decide (owed 0 + consumes 0 body ≤ x.q0.length) && decide (owed 1 + consumes 1 body ≤ x.q1.length)

/-- The frames of a key become ready in the order in which they were opened: no earlier one lies off the die (R124). -/
def Station.firstOfKey (v : Station) (n : Nat) (f : Frame) : Bool :=
  (v.frames.take n).all (fun g => !g.sameKey f.ctx f.inst f.sprig f.tag || (g.complete && g.onDie))

/-- Frame f, at position n of a station, is ready, but for the out-buffer (R133). -/
def State.frameReady (s : State) (l : Loc) (n : Nat) (f : Frame) : Bool :=
  let v := s.st l
  f.complete && f.onDie && s.slotRuns v f.ctx && v.firstOfKey n f &&
    v.gates (kindOf l) f.ctx (decodeBody (kindOf l) (v.bodyOf f.ctx f.sprig))

/-- A parked firing is ready again, but for the out-buffer: its condition has cleared, what its FENCE waits for has been performed,
and its entry lies on the die; one that runs again from its first instruction passes the gates of its body again, and one that goes
on before its LGATE waits for the allowance (R51, R142, R420). -/
def State.parkedReady (s : State) (l : Loc) (g : Firing) : Bool :=
  let v := s.st l
  g.park.isCleared && g.fence.all s.holdMet && g.frame.onDie && s.slotRuns v g.ctx &&
    (g.discard ||
      (if g.trapped then v.gates (kindOf l) g.ctx (decodeBody (kindOf l) (v.bodyOf g.ctx g.sprig))
       else (v.ctx g.ctx).allows (v.bodyLeft (kindOf l) g)))

/-- What a parked firing has to reserve before it goes on: nothing after a FENCE, which it waited for with its reservation; the
whole need when it runs again from its first instruction; else the rest (R142, R420). -/
def Firing.needLeft (f : Firing) (body : List Instr) : Nat :=
  if f.park = .fence then 0
  else if f.trapped && !f.discard then emitNeed f.header body
  else emitNeed f.header body - f.used

/-- The candidates of a station. -/
def State.cands (s : State) (l : Loc) : List Cand :=
  let v := s.st l
  let fs := (v.frames.zipIdx.filter (fun p => s.frameReady l p.2 p.1)).map (fun p =>
    let f := p.1
    { parked := false, pos := p.2, ctx := f.ctx, sprig := f.sprig, age := ageKey (v.ctx f.ctx) f.tag,
      order := f.completed.getD 0, since := f.readySince.getD s.now,
      need := emitNeed (v.header f.ctx f.sprig) (decodeBody (kindOf l) (v.bodyOf f.ctx f.sprig)) : Cand })
  let ps := (v.parked.zipIdx.filter (fun p => s.parkedReady l p.1)).map (fun p =>
    let f := p.1
    { parked := true, pos := p.2, ctx := f.ctx, sprig := f.sprig, age := ageKey (v.ctx f.ctx) f.tag,
      order := f.frame.completed.getD 0, since := f.frame.readySince.getD s.now,
      need := f.needLeft (decodeBody (kindOf l) (v.bodyOf f.ctx f.sprig)) : Cand })
  fs ++ ps

/-- Effective priority (R135). -/
def State.effPrio (s : State) (v : Station) (c : Cand) : Nat := min 7 ((v.ctx c.ctx).prio + (s.now - c.since) / 1024)

/-- The first of the numbers last + 1, last + 2, … modulo n that satisfies a test (round-robin). -/
def rrNext (last n : Nat) (p : Nat → Bool) : Option Nat := ((List.range n).map (fun k => (last + 1 + k) % n)).find? p

/-- The candidate that R135 chooses among a list. -/
def State.choose (s : State) (v : Station) (l : List Cand) : Option Cand :=
  let top := (l.map (s.effPrio v)).foldl max 0
  let l1 := l.filter (fun c => decide (s.effPrio v c = top))
  match rrNext v.rrCtx 8 (fun k => l1.any (fun c => decide (c.ctx = k))) with
  | none => none
  | some k =>
      let l2 := l1.filter (fun c => decide (c.ctx = k))
      match rrNext (vget v.rrSprig k 0) 16 (fun n => l2.any (fun c => decide (c.sprig = n))) with
      | none => none
      | some n =>
          let l3 := l2.filter (fun c => decide (c.sprig = n))
          let best := fun (a b : Cand) => if b.age < a.age ∨ (b.age = a.age ∧ b.order < a.order) then b else a
          match l3 with
          | [] => none
          | x :: xs => some (xs.foldl best x)

/-- The choice of R135 with R136: a choice that cannot reserve its emit need holds back its own sprig only. -/
def State.select (s : State) (l : Loc) : Nat → List Cand → Option Cand
  | 0, _ => none
  | fuel + 1, cs =>
      match s.choose (s.st l) cs with
      | none => none
      | some c =>
          if s.outUsed l + c.need ≤ 64 then some c
          else s.select l fuel (cs.filter (fun d => decide (d.ctx ≠ c.ctx ∨ d.sprig ≠ c.sprig)))

/-- The selection of a station: a context that has yielded is skipped while another context has a candidate (R439). -/
def State.nextFire (s : State) (l : Loc) : Option Cand :=
  let cs := s.cands l
  let awake := cs.filter (fun c => !((s.st l).ctx c.ctx).skipNext)
  s.select l 128 (if awake.isEmpty then cs else awake)

/-- Note a selection: round-robin places move, and the yield is used up. -/
def Station.noteChoice (v : Station) (c : Cand) : Station :=
  let v1 := { v with rrCtx := c.ctx, rrSprig := vset v.rrSprig c.ctx c.sprig }
  { v1 with ctxs := v1.ctxs.map (fun x => { x with skipNext := false }) }

/-! ### Starting a firing (R125 to R127, R138 to R140) -/

/-- Values of i0 to i3 (R125, R126). -/
def frameVals (h : BitVec 64) (countN : Nat) (f : Frame) : Vector Double 4 :=
  let val := fun k => let q := vget f.slots k {}
    if q.null || slotTile h k || decide (hdrSlots h ≤ k) then 0 else q.value
  match hdrMode h with
  | 0 => Vector.ofFn (fun k => val k.val)
  | 1 => Vector.ofFn (fun k => if k.val = 0 then val f.count else if k.val = 1 then dbl f.count else 0)
  | _ => Vector.ofFn (fun k => if k.val = 0 then dbl countN else if k.val = 1 then (if f.values = 0 then 0 else (vget f.slots 0 {}).value) else 0)

/-- The null mask that TGET NULLS reads (R139). -/
def frameNulls (h : BitVec 64) (f : Frame) : BitVec 4 :=
  match hdrMode h with
  | 0 => (List.range 4).foldl (fun a k => if k < hdrSlots h ∧ (vget f.slots k {}).null then a ||| BitVec.ofNat 4 (2 ^ k) else a) 0
  | 1 => if f.values = 0 then 1 else 0
  | _ => if f.values = 0 then 2 else 0

/-- Null mode (R138). -/
def frameNullMode (h : BitVec 64) (f : Frame) : Bool := decide (frameNulls h f ≠ 0) && !hdrAbsorb h

/-- Copy the tile payloads of a frame into the registers that TILEMAP binds (R127): each register takes the token's shape, and
what it holds beyond that shape is free (LOG 22). -/
def Ctx.copyTiles (c : Ctx) (h sprigW : BitVec 64) (f : Frame) (fresh : Nat) : Ctx :=
  (List.range 4).foldl (fun x k =>
    match slotTile h k, (vget f.slots k {}).tile with
    | true, some t => { x with tiles := vset x.tiles (sprigTile sprigW k) (t.landed (Config.tileRest (4 * fresh + k))) }
    | _, _ => x) c

/-- The temporaries that a new firing finds: for each, zero or what the slot's earlier firing left (R140, LOG 6). -/
def State.freeTemps (s : State) (old : Vector Double 8) : Vector Double 8 × State :=
  (Vector.ofFn (fun k => if Config.keepTemp (8 * s.sched.fresh + k.val) then old[k] else 0),
    { s with sched := { s.sched with fresh := s.sched.fresh + 1 } })

/-- Start the firing of a frame at the current station. -/
def State.startFiring (s : State) (f : Frame) (need : Nat) : State :=
  let l := s.sched.curSt
  let v := s.st l
  let c := v.ctx f.ctx
  let h := v.header f.ctx f.sprig
  let sw := (c.sprigs[f.sprig]?).getD 0
  let t := s.freeTemps c.temps
  let u := t.2.newUid
  let pre := f.slots.toList.foldl (fun a q => nunion a q.before) []
  u.2.modSt l (fun x =>
    ({ x with firing :=
        { active := true, id := u.1, ctx := f.ctx, inst := f.inst, sprig := f.sprig, header := h,
          base := c.ibase + sprigIoff sw + 2, vals := frameVals h (sprigCountN sw) f, nullMask := frameNulls h f,
          nullMode := frameNullMode h f, frame := f, tag := f.tag, otag := f.tag, t := t.1, reserved := need,
          before := pre } }).modCtx f.ctx (·.copyTiles h sw f s.sched.fresh))

/-- Run a trapped firing again from its first instruction, with the same inputs (R144, R420). -/
def State.restartFiring (s : State) (g : Firing) (need : Nat) : State := s.startFiring g.frame need

/-! ### Null mode and discards (R138, R420) -/

/-- The arcs of THIN and THEND of a body, which receive nothing in null mode. -/
def thinArcs (body : List Instr) : List Nat :=
  body.filterMap (fun i => match i with | .thin _ r _ _ => some r.val | .thend r => some r.val | _ => none)

/-- The call sites of a body. -/
def callSites (body : List Instr) : List Nat :=
  body.filterMap (fun i => match i with | .call n _ => some n.val | .callf n _ => some n.val | _ => none)

/-- Send a null of the firing on an arc without any release; argument arcs discard it. -/
def State.nullArc (s : State) (arc : Nat) : State :=
  match s.fInst, s.cx.route? s.fir.sprig arc with
  | some i, some r =>
      if rtTarget r = 3 then s
      else s.sendRoute i r s.fir.otag .null none
        { tok := ⟨0, s.fir.otag, .null⟩, src := some s.sched.curSt, from_ := i.id, fid := s.fir.id }
  | _, _ => s

/-- Nulls in the result slots of a call site of the firing's own instance, under the outgoing tag. -/
def State.nullSite (s : State) (n : Nat) : State :=
  match s.fInst with
  | none => s
  | some i =>
      match (i.img.bind (fun m => m.sites[n]?)) with
      | none => s
      | some q =>
          (List.range q.nres).foldl (fun st k =>
            let r := (q.routes[k]?).getD 0
            if rtDropNull r then st
            else
              let t := s.fir.otag
              st.launchTok { tok := ⟨mkHeader (i.target r) (rtSprig r) (rtSlot r) (kindNull, false) (rtEdge r) t, t, .null⟩,
                             src := some s.sched.curSt, from_ := i.id, fid := s.fir.id }) s

/-- End the firing as null mode ends one: arcs not yet served receive nulls, every lsid counts as performed, and the frame is
consumed (R138, R420). -/
def State.nullEnd (s : State) : State :=
  let f := s.fir
  let l := s.sched.curSt
  let body := decodeBody (kindOf l) ((s.st l).bodyOf f.ctx f.sprig)
  let emits := s.countedArcs.filter (fun a => !f.isClaimed a && !(thinArcs body).contains a)
  let exits := (List.range (hdrExits f.header)).filter (fun k => !bit f.exitsSent k)
  let s1 := emits.foldl (fun st a => st.nullArc a) s
  let s2 := exits.foldl (fun st k => st.nullArc (16 + k)) s1
  let s3 := (callSites body).foldl (fun st n => st.nullSite n) s2
  let s4 := s3.dropCalls f.calls
  s4.modSt l (fun v =>
    { v with firing := {},
             ended := v.ended ++ [{ f with lsids := hdrStoreMask f.header, exitDone := true, calls := [], args := [],
                                           spawns := [], crossing := [], credits := 0, retDone := false, prio := none,
                                           reserved := 0, park := .none }] })

end Sys2Proof.Machine
end

