-- ==== Sys2Proof/Machine/CoreMem.lean ====
section
/-!
DEFINITION. Memory as a control core sees it: addresses by mode, the L1, the store buffer, and fetching (R179, R180, R188 to
R190).
-/

namespace Sys2Proof.Machine

/-! ### Where an address leads (R179, R240) -/

/-- First address of the register window as a host-mode core reaches it (R208, R400). -/
def windowBase : Nat := 0x7FF0000000000

/-- First address of the intake slots (R179). -/
def slotBase : Nat := 0xC000

/-- What an address of a core reaches. -/
inductive CoreRef where
  | lm (a : Nat)
  | window (off : Nat)
  /-- Memory, under a partition id; whether its page is marked F/E. -/
  | mem (pa vf : Nat) (fe : Bool)
  | trap (c : Cause) (info : Nat) (val : Double)
  /-- A page request is outstanding for it. -/
  | wait

/-- Where a release of a core stands: no instance, so only scopes from DIE on meet it. -/
def coreInst (c : Fin 4) : Nat := 2 ^ 20 + c.val

/-- The core's page request for an access has been answered as failed: for the tenant, or not. -/
def Core.failed (k : Core) (va need : Nat) : Option Bool := k.pageFail.filter (fun _ => decide (k.pageOf = (va / 65536, need)))

/-- Where an access or fetch of the core leads (R179). Host mode: local memory, the register window, or an unchecked
physical address; one without memory fails as its stage-2 leaf would (R240, LOG 20). Partition mode: two stages as CURVF
(R231), and the FOT. A stage-2 miss sends a page request (R193); a response that failed for the tenant gives STAGE1, and one
that failed for the host gives STAGE2 (R214, R180). -/
def State.coreRef (s : State) (va need : Nat) : CoreRef × State :=
  let k := s.cc
  if k.mode then
    if va < 0x10000 then (.lm va, s)
    else if windowBase ≤ va ∧ va < windowBase + 0x100000 then (.window (va - windowBase), s)
    else if s.portWaits va then (.wait, s)
    else if s.physOk va then (.mem va hostId false, s)
    else (.trap .memfault codeStage2 (dbl va), s)
  else if !bit k.curvf 7 then (.trap .memfault codeStage1 (dbl va), s)
  else
    let v := bits k.curvf 0 7
    let d := coreDie s.sched.curCore
    match k.failed va need with
    | some tenant =>
        (.trap .memfault (if tenant then codeStage1 else codeStage2) (dbl va),
          s.modCc (fun c => { c with pageFail := none }))
    | none =>
        match k.paged with
        | some _ => (.wait, s)
        | none =>
            let t := s.translate ⟨d, 64 + s.sched.curCore.val, v, va, need, k.ranges⟩
            match t.1 with
            | .done pa perm =>
                if t.2.portWaits pa then (.wait, t.2)
                else if t.2.fotPass v pa (decide (need = 2)) then (.mem pa v (bit (BitVec.ofNat 4 perm) 3), t.2)
                else (.trap .memfault codeFot (dbl va), t.2)
            | .fault c _ => (.trap .memfault c (dbl va), t.2)
            | .miss w ia =>
                let p := t.2.pageRequest d v va ia w (decide (need = 2)) none (.core s.sched.curCore.val)
                (.wait, p.2.modCc (fun c => { c with paged := p.1, pageFail := none, pageOf := (va / 65536, need) }))
            | .poison _ => (.trap .memfault codeUncorrectable (dbl va), t.2)
            | .more _ => (.wait, t.2)

/-! ### The L1 (R188) -/

/-- The bytes of an address in the L1, when the line is there. -/
def Core.l1Get (k : Core) (pa n : Nat) : Option Nat :=
  (k.l1.find? (fun l => decide (l.pa = pa / 128))).map (fun l => (l.bytes.extractLsb' (8 * (pa % 128)) (8 * n)).toNat)

/-- Drop the L1 line of an address. -/
def Core.l1Drop (k : Core) (pa : Nat) : Core := { k with l1 := k.l1.filter (fun l => decide (l.pa ≠ pa / 128)) }

/-- A store in the L1, when the line is there (R188). -/
def Core.l1Put (k : Core) (pa n v : Nat) : Core :=
  let upd := fun (l : L1Line) => { l with bytes := setBits l.bytes (8 * (pa % 128)) (8 * n) v }
  { k with l1 := modFirst (fun l => decide (l.pa = pa / 128)) upd k.l1 }

/-- Lines that an L1 of 32 KiB holds (R37). -/
def l1Lines : Nat := 256

/-- Read n bytes through the L1. A fill takes the whole line from the RDC or the home and may displace another line, one that is full
does; which line is free (LOG 10). -/
def State.l1Read (s : State) (vf pa n : Nat) : Nat × State :=
  match s.cc.l1Get pa n with
  | some v => (v, s)
  | none =>
      let g := s.serveRead (coreDie s.sched.curCore) vf (pa / 128 * 128) 128
      let b : BitVec 1024 := BitVec.ofNat 1024 g.1
      let s1 := g.2.modCc (fun k => { k with l1 := ⟨pa / 128, b⟩ :: k.l1 })
      let v := (b.extractLsb' (8 * (pa % 128)) (8 * n)).toNat
      match s1.cc.l1.drop 1 with
      | [] => (v, s1)
      | x :: xs =>
          let p := s1.pick (if l1Lines ≤ xs.length + 1 then xs.length + 1 else xs.length + 2)
          match (x :: xs)[p.1]? with
          | none => (v, p.2)
          | some y => (v, p.2.modCc (fun k => { k with l1 := k.l1.filter (fun l => decide (l.pa ≠ y.pa)) }))

/-! ### The store buffer (R189) -/

/-- The bytes of a buffered store that lie in a range, laid over a value. -/
def Stored.overlay (t : Stored) (pa n v : Nat) : Nat :=
  (List.range n).foldl
    (fun a i =>
      if t.pa ≤ pa + i ∧ pa + i < t.pa + t.n then
        a - a / 256 ^ i % 256 * 256 ^ i + t.value / 256 ^ (pa + i - t.pa) % 256 * 256 ^ i
      else a) v

/-- A buffered store touches a range. -/
def Stored.overlaps (t : Stored) (pa n : Nat) : Bool := decide (t.pa < pa + n ∧ pa < t.pa + t.n)

/-- Accesses of the core that are written and wait for RDC copies or for the host. -/
def State.corePending (s : State) (c : Fin 4) : List Access :=
  s.mm.accesses.filter (fun a => decide (a.agent = .core c.val))

/-- Every earlier access of the core is performed at a scope (R190, R205): FIRING orders them among themselves only, PLOT
acts as DIE. -/
def State.coreDone (s : State) (c : Fin 4) (sc : Scope) : Bool :=
  match sc with
  | .firing => true
  | _ => (s.core c).sb.isEmpty && (s.corePending c).all (fun a => a.performedAt sc (coreDie c)) &&
      (s.core c).before.all (fun u => s.performed u sc (coreDie c))

/-- A read by the core would miss its own write to a line of the other die, whose RDC copy has not been invalidated. -/
def State.coreStale (s : State) (c : Fin 4) (pa : Nat) : Bool :=
  (s.corePending c).any (fun a => a.rdcLeft && decide (a.pa / 128 = pa / 128 ∧ homeDie pa ≠ coreDie c))

/-- The old bytes of a store, as fetches see them until a GFENCE (R189). -/
def keepOld (m : Map Nat) (key old : Nat) : Nat → Map Nat
  | 0 => m
  | n + 1 => keepOld (match Map.find m key with | some _ => m | none => Map.put m key (old % 256)) (key + 1) (old / 256) n

/-- Bytes as a fetch sees them. -/
def seeOld (m : Map Nat) (key v : Nat) : Nat → Nat
  | 0 => 0
  | n + 1 => ((Map.find m key).getD (v % 256)) + 256 * seeOld m (key + 1) (v / 256) n

/-- Put a store into the buffer; the L1 line is written through (R188). -/
def State.bufferStore (s : State) (t : Stored) : State :=
  s.modCc (fun k =>
    let old := (k.l1Get t.pa t.n).getD (Mem.read s.mm.mem t.pa t.n)
    { (k.l1Put t.pa t.n t.value) with
      sb := k.sb ++ [t], fetchOld := keepOld k.fetchOld (2 ^ 52 + t.pa) old t.n })

/-- The record of a write of the core, by a store or (lsid 1) by an LDGF or GAMO, that stays until its RDC copies are gone and the
host sees it (R265). -/
def State.coreWritten (s : State) (c : Fin 4) (vf pa n : Nat) (rdc sys amo : Bool) : State :=
  if !rdc && !sys then s
  else
    let u := s.newUid
    let a : Access :=
      { uid := u.1, agent := .core c.val, loc := ⟨coreDie c, 0, 0⟩, ctx := 0, inst := 0, vf := vf, fid := 0, op := .written,
        va := pa, n := n, lsid := amo.toNat, st := .served, pa := pa, rdcLeft := rdc, wrote := [(pa, n)], sysLeft := sys }
    u.2.modMm (fun m => { m with accesses := m.accesses ++ [a] })

/-- An STGF or a GFENCE stands between a store in the buffer and a later load, which waits for it (R189). -/
def Core.barred (k : Core) : Bool := k.sb.any (·.barred)

/-- Nothing in the store buffer may be performed after a later load (R189). -/
def Core.bar (k : Core) : Core := { k with sb := k.sb.map (fun t => { t with barred := true }) }

/-- Entry n of a core's store buffer may be performed: its Simiow port takes it, no earlier entry overlaps it, and a releasing store
waits for every earlier access at DEVICE (R189, R190, R469). -/
def State.canDrain (s : State) (c : Fin 4) (n : Nat) : Bool :=
  match (s.core c).sb[n]? with
  | none => false
  | some t =>
      !s.portWaits t.pa && ((s.core c).sb.take n).all (fun e => !e.overlaps t.pa t.n) &&
      (!t.sync || (decide (n = 0) && (s.corePending c).all (fun a => a.performedAt .device (coreDie c)) &&
        t.before.all (fun u => s.performed u .device (coreDie c))))

/-- What a release of a core covers besides what it acquired: its own writes that are under way, and the releasing write, of which a
record will be kept when RDC copies or the host have yet to see it (R271). -/
def State.coreCovers (s : State) (c : Fin 4) (before : List Nat) (kept : Bool) : List Nat :=
  nunion before ((s.corePending c).map (·.uid) ++ (if kept then [s.sched.uid] else []))

/-- Perform entry n of a core's store buffer at its home, and in its L1 (R188, R189); a releasing store stays behind the releases that
its location carries (R270). A store whose frame has left OWNED fails: the core takes MEMFAULT with FOT_OWNER, with the address of the
store in EPC (R180, R246; LOG 58). -/
def State.drainStore (s : State) (c : Fin 4) (n : Nat) : State :=
  match (s.core c).sb[n]? with
  | none => s
  | some t =>
      let s0 := s.modCore c (fun k => { k with sb := k.sb.eraseIdx n })
      if !s0.fotPass t.vf t.pa true then
        s0.modCore c (fun k => { Core.trap { k with pc := t.pc } .memfault codeFot (dbl t.va) with wfe := false })
      else
        let rdc := s0.rdcCopies t.pa t.n
        let s1 := (s0.serveWrite t.vf t.pa t.n t.value).modCore c (fun k => k.l1Put t.pa t.n t.value)
        let s2 :=
          if t.sync then
            let r : Rel := ⟨.device, coreDie c, coreInst c, s1.coreCovers c t.before (rdc || isHostMem t.pa)⟩
            let old := relsIn s.mm.rels t.pa t.n
            (s1.feSet t.vf t.pa true).modMm (fun m => { m with rels := relPut m.rels t.pa t.n (old ++ [r]) })
          else s1
        s2.coreWritten c t.vf t.pa t.n rdc (isHostMem t.pa) false

/-! ### Fetching (R179, R180, R189) -/

/-- What a fetch gives. -/
inductive Fetched where
  | word (w : Word)
  /-- A FETCH trap with its INFO. -/
  | bad (info : Nat)
  | wait

/-- Fetch the word at the PC: local memory below 0xC000 in host mode, a virtual address in partition mode. A PC that is not a
multiple of 4 names no fetchable word (LOG 20). -/
def State.fetchWord (s : State) : Fetched × State :=
  let k := s.cc
  let a := k.pc.toNat
  if a % 4 ≠ 0 then (.bad 0, s)
  else if k.mode then
    if a < slotBase then (.word (BitVec.ofNat 32 (seeOld k.fetchOld a (Mem.read k.lm a 4) 4)), s)
    else (.bad 0, s)
  else
    let r := s.coreRef a 4
    match r.1 with
    | .mem pa vf _ =>
        if r.2.poisoned pa 4 then (.bad 0x60, r.2)
        else
          let g := r.2.l1Read vf pa 4
          (.word (BitVec.ofNat 32 (seeOld k.fetchOld (2 ^ 52 + pa) g.1 4)), g.2)
    | .trap _ info _ => (.bad info, r.2)
    | .wait => (.wait, r.2)
    | .lm _ => (.bad 0, r.2)
    | .window _ => (.bad 0, r.2)

end Sys2Proof.Machine
end

