-- ==== Sys2Proof/Machine/Schedule.lean ====
section
/-!
DEFINITION. Whose turn it is, and what its turn issues: the clock (R3, R183, R435), a control core (R178 to R186, R201), the
sprig engine of a station (R11, R122, R143, R332), or a step without an encoding (LOG 1).
-/

namespace Sys2Proof.Machine

/-! ### Turns (LOG 1) -/

/-- The steps that the free schedule takes, but for those that a control core's turn makes itself: INTERRUPT, ILLEGAL, FETCH and
the writes of SRW. -/
def eventList : List Instr :=
  [.tokenArrival, .frameFire, .firingCommit, .frameResume, .entryReturn, .loopCredit, .barrierJoin, .sinkWrite, .callRequest,
   .spawnRequest, .placementStart, .placementCommit, .commitAcknowledged, .placementAbort, .evictionStart, .evictionComplete,
   .savedGranuleTest, .areaArbiterPass, .fencedToken, .sweepArrival, .strandElementIssue, .memoryRequest, .walkReadComplete,
   .accessReturn, .rdcInvalidation, .binApply, .copyGranule, .heatBucketCycle, .matrixEntryStart, .matrixEntryEnd,
   .partialArrival, .thicketProbe, .thicketUpdate, .notifyWrite, .packetRead, .hostRingPoll, .faultRingPoll, .flitCrcFail,
   .timeMessage, .columnMeasurement, .energyDebit, .grantUpdate, .sliceTick, .markerInjection, .stationSave,
   .hedgerowDrainComplete, .partitionSaveComplete, .correctedError, .sramUncorrectable, .tagUncorrectable, .hbmPoison,
   .remapTableLoss] ++
  [.powerOnReset, .faladeVerify, .supplyRaise, .hbmTrain, .microcodeVerify, .simiowTrain, .powerDieFault, .flashRecovery,
   .registerWrite, .scrub, .assign, .release, .fotFrameComplete, .tlbinvAll, .tlbinvStage1, .tlbinvStage2, .tlbinvComplete,
   .pageResponseResolved, .pageResponseFailedHost, .pageResponseFailedTenant, .qiCfgWrite, .cecountClear, .uecountClear,
   .attreq, .attestationReport, .run, .doorbell, .ctlWrite, .quotaWrite, .qadd, .warnWrite, .areaWrite, .save, .resume,
   .killall, .reset, .killinst, .resumeinst, .resumeFault, .discardFault,
   .portRetrain, .hostWindowAccess, .powerOff, .mapOutListClear]

/-- The operands of turn n of the free schedule. -/
def freeArg (n : Nat) : Arg :=
  let o := Config.operand n
  { loc := locOf (o 0 % 2) (o 1 % 64) (o 2 % 80), n := o 3, m := o 4, vf := o 5 % 128, addr := o 6, size := o 7, value := o 8,
    ok := decide (o 9 % 2 = 0) }

/-- Turn n of the free schedule. -/
def freeTurn (n : Nat) : Turn :=
  let k := Config.turn n
  match k % 4 with
  | 0 => .clock
  | 1 => .core (Fin.ofNat 4 (k / 4))
  | 2 => .station (locOf (k / 4 % 2) (k / 8 % 64) (k / 512 % 80))
  | _ => .event ((eventList[k / 4 % eventList.length]?).getD .tokenArrival) (freeArg n)

/-- The next turn: the agenda first, then the free schedule. -/
def State.nextTurn (s : State) : Turn × State :=
  match s.sched.agenda with
  | t :: rest => (t, { s with sched := { s.sched with agenda := rest } })
  | [] => (freeTurn s.sched.turns, { s with sched := { s.sched with turns := s.sched.turns + 1 } })

/-! ### The clock (R3, R184, R435) -/

/-- A cycle is 0.625 ns: 40,960 of 65,536 parts. -/
def cycleParts : Nat := 40960

/-- Parts that a slew of at most 1,000 ppm moves the counter in a cycle: at most 40, or 41 in 24 of 25 cycles. -/
def slewMax (cycle : Nat) : Nat := if cycle % 25 = 0 then 40 else 41

/-- Parts that slews can still move at the full rate in k cycles. -/
def slewIn (k : Nat) : Nat := 41 * k - (k + 24) / 25

/-- Parts that a counter has to move in the cycle before a time, so that its offset is slewed out in its millisecond (R435). -/
def TimeCtr.need (t : TimeCtr) (now : Nat) : Nat := min (slewMax now) (t.slew.natAbs - slewIn (t.slewBy - (now + 1)))

/-- One cycle of a die's time counter: it advances, and a slew under way takes up to p parts of its offset (R435). -/
def TimeCtr.tick (t : TimeCtr) (p : Nat) : TimeCtr :=
  let d : Int := if 0 ≤ t.slew then min t.slew p else max t.slew (-(p : Int))
  let total : Nat := (t.frac.toNat + (cycleParts : Int) + d).toNat
  { t with ns := t.ns + dbl (total / 65536), frac := BitVec.ofNat 16 total, slew := t.slew - d }

/-- Frames that have become ready note the cycle, and frames that are no longer ready lose it (R135). -/
def State.noteReady (s : State) (key : Nat) (v : Station) : Station :=
  let l := keyLoc key
  let since := fun (ok : Bool) (f : Frame) =>
    if ok then { f with readySince := some (f.readySince.getD s.now) } else { f with readySince := none }
  let fs := v.frames.zipIdx.map (fun p => since (s.frameReady l p.2 p.1) p.1)
  let ps := v.parked.map (fun f => { f with frame := since (s.parkedReady l f) f.frame })
  { v with frames := fs, parked := ps }

/-- The time of a control core is charged to the function that CURVF names while it is VALID, else to the device overhead pool (R184). -/
def State.chargeCore (s : State) (c : Fin 4) : State :=
  let k := s.core c
  if bit k.curvf 7 then
    (s.charge (bits k.curvf 0 7) (portCol (coreDie c).val 0) .coreCycle 1).modCore c (fun x =>
      { x with site := siteAdd x.site .coreCycle 1 })
  else s.charge 128 (portCol (coreDie c).val 0) .coreCycle 1

/-- A microsecond boundary of the hub counts for the time slice of a function that is RUNNING and holds a quad (R414). -/
def State.sliceMark (s : State) : State :=
  if s.now % 1600 ≠ 0 then s
  else
    let counts := fun (v : Nat) (f : Vf) => decide (f.st = .running) && decide (f.sliceLen ≠ 0) && decide (s.quadsOf v none ≠ 0)
    s.modHost (fun h => { h with vfs := h.vfs.map (fun p => (p.1, if counts p.1 p.2 then { p.2 with due := p.2.due + 1 } else p.2)) })

/-- One fabric cycle. A counter that is ahead by more than 1 µs slews at the full rate; the pace of a smaller offset is free
within it, but fast enough for its millisecond (R435, LOG 7). -/
def State.clockTick (s : State) : State :=
 if !s.boot.powered then s
 else
  let m := slewMax s.now
  let lo := (s.clk.time.toList.map (·.need s.now)).foldl max 0
  let pace : Nat × State :=
    if s.clk.time.toList.any (fun t => decide (t.slew ≠ 0)) && decide (lo < m) then
      let p := s.pick (m + 1 - lo)
      (lo + p.1, p.2)
    else (lo, s)
  let s1 : State := { pace.2 with clk := { cycle := s.clk.cycle + 1, time := s.clk.time.map (·.tick pace.1) } }
  let s2 := (s1.fab.stations.map (fun q => keyLoc q.1)).foldl State.returns s1
  let s3 := s2.modFab (fun b => { b with stations := b.stations.map (fun q => (q.1, s2.noteReady q.1 q.2)) })
  ([0, 1, 2, 3].foldl State.chargeCore s3).sliceMark

/-! ### The turn of a control core (R86, R178 to R180, R186, R201) -/

/-- The lowest enabled pending event (R186). -/
def Core.pendingEvent (k : Core) : Option Nat := (List.range 5).find? (fun b => bit k.events b && bit k.iemask b)

/-- An interrupt is taken before the next instruction. -/
def Core.interrupted (k : Core) : Bool :=
  k.run && k.ie && k.pendingEvent.isSome && k.paged.isNone && k.pageFail.isNone && !k.wfe

/-- The operands of a step. -/
def State.withArg (s : State) (a : Arg) : State := { s with sched := { s.sched with arg := a } }

/-- What a control core issues: nothing while it is held or waits for a page, an INTR trap, a trap of the fetch, or the
instruction at its PC. -/
def State.coreIssue (s : State) (c : Fin 4) : Option Instr × State :=
  let s0 := { s with sched := { s.sched with curCore := c } }
  let k := s0.cc
  if !k.run then (none, s)
  else if k.interrupted then (some .interrupt, s0.withArg { n := c.val })
  else
    let f := s0.fetchWord
    match f.1 with
    | .wait => (none, f.2)
    | .bad info => (some .fetch, f.2.withArg { n := c.val, m := info })
    | .word w =>
        match decode .core w with
        | .ok i => (some i, f.2)
        | .error _ => (some .illegal, f.2.withArg { n := c.val, value := w.toNat })

/-! ### The turn of a station (R11, R143, R332) -/

/-- Tile registers that an instruction reads, at issue or when its queue entry starts (R332). -/
def tileReads (i : Instr) : List (Fin 16) :=
  match i with
  | .emitt k _ => [k]
  | .tst k _ _ _ _ => [k]
  | .vadd _ a b _ => [a, b]
  | .vsub _ a b _ => [a, b]
  | .vmul _ a b _ => [a, b]
  | .vfma d a b _ => [d, a, b]
  | .vmin _ a b => [a, b]
  | .vmax _ a b => [a, b]
  | .vabs _ a => [a]
  | .vneg _ a => [a]
  | .vrcp _ a _ => [a]
  | .vrsq _ a _ => [a]
  | .vexp2 _ a _ => [a]
  | .vlog2 _ a _ => [a]
  | .vcvt _ a _ _ _ => [a]
  | .vscl _ a b _ _ => [a, b]
  | .vreds _ a _ => [a]
  | .vredx _ a _ => [a]
  | .vcmp _ a b _ => [a, b]
  | .vsel _ a b m => [a, b, m]
  | .vext _ a _ _ => [a]
  | .vdot _ a b _ => [a, b]
  | .vshf _ a b => [a, b]
  | .tmov _ a => [a]
  | .txp _ a => [a]
  | .mma a b _ => [a, b]
  | .mmas k a b _ => [k, a, b]
  | .accld a _ => [a]
  | .wpre a => [a]
  | .afeed a => [a]
  | _ => []

/-- Tile registers that an instruction writes (R332). -/
def tileWrites (i : Instr) : List (Fin 16) :=
  match i with
  | .tld k _ _ _ _ => [k]
  | .vadd d _ _ _ => [d]
  | .vsub d _ _ _ => [d]
  | .vmul d _ _ _ => [d]
  | .vfma d _ _ _ => [d]
  | .vmin d _ _ => [d]
  | .vmax d _ _ => [d]
  | .vabs d _ => [d]
  | .vneg d _ => [d]
  | .vrcp d _ _ => [d]
  | .vrsq d _ _ => [d]
  | .vexp2 d _ _ => [d]
  | .vlog2 d _ _ => [d]
  | .vcvt d _ _ _ _ => [d]
  | .vscl d _ _ _ _ => [d]
  | .vcmp d _ _ _ => [d]
  | .vsel d _ _ _ => [d]
  | .vbcast d _ => [d]
  | .vshf d _ _ => [d]
  | .tcfg d _ _ _ => [d]
  | .tzero d => [d]
  | .tmov d _ => [d]
  | .txp d _ => [d]
  | _ => []

/-- Tile registers that an entry of the matrix queue reads at its start (R351). -/
def MatOp.reads : MatOp → List Nat
  | .mma a b => [a, b]
  | .mmas a b t => [a, b, t]
  | .afeed a => [a]
  | .accld a => [a]
  | .acctail => []
  | .accclr => []
  | .accrd _ _ _ _ => []

/-- An earlier queue entry of the context has yet to read a tile register. -/
def Station.tileToRead (v : Station) (c k : Nat) : Bool :=
  v.matq.any (fun e => decide (e.ctx = c) && !e.kept && e.op.reads.contains k)

/-- A TLD of the context is still writing a tile register. -/
def State.tileToWrite (s : State) (l : Loc) (c k : Nat) : Bool :=
  s.mm.accesses.any (fun a => decide (a.loc = l ∧ a.ctx = c) && (match a.op, a.st with
    | .tload _ _ _ _, .returned => false
    | .tload j _ _ _, _ => decide (j.val = k)
    | _, _ => false))

/-- An instruction waits at issue for temporaries on their way (R11), for tile registers (R332), and behind a sync load or atomic
of its firing. -/
def State.mustWait (s : State) (l : Loc) (i : Instr) : Bool :=
  let v := s.st l
  let f := v.firing
  let pend := fun (t : Fin 8) => f.pendT.any (fun p => decide (p.1 = t.val))
  i.sels.any (fun a => match a with | .t n => pend n | .i _ => false | .tg => false | .z => false | .q _ => false) ||
    (match i.dst with | some d => pend d | none => false) ||
    f.stall.isSome ||
    (tileReads i).any (fun k => s.tileToWrite l f.ctx k.val) ||
    (tileWrites i).any (fun k => s.tileToWrite l f.ctx k.val || v.tileToRead f.ctx k.val)

/-- What a station issues. -/
inductive StationTurn where
  | idle
  | bodyEnd
  | bad (w : Word)
  | issue (i : Instr)

/-- The turn of a station's sprig engine. -/
def State.stationIssue (s : State) (l : Loc) : StationTurn :=
  let v := s.st l
  let f := v.firing
  if !f.active then .idle
  else if hdrLen f.header ≤ f.pos then .bodyEnd
  else
    let w := (Map.find v.istore (f.base + f.pos)).getD 0
    match decode (.station (kindOf l)) w with
    | .error _ => .bad w
    | .ok i => if s.mustWait l i then .idle else .issue i

/-- The station whose instruction issues. -/
def State.atStation (s : State) (l : Loc) : State := { s with sched := { s.sched with curSt := l } }

/-- A step that a turn may name: one without an encoding, but for those that only a control core's own turn makes. -/
def isEvent (i : Instr) : Bool :=
  decide (i.engines = .step) && decide (i ≠ .interrupt) && decide (i ≠ .illegal) && decide (i ≠ .fetch) &&
    decide (i ≠ .knotreg) && decide (i ≠ .hfree) && decide (i ≠ .eventsClear) && decide (i ≠ .curvfWrite)

/-! ### Placing a word where the next step fetches it (LOG 2) -/

/-- Control core 0, released in host mode at PC 0 with interrupts off (R465), takes the next turn, with a word in its local
memory there. -/
def State.placeCore (s : State) (w : Word) : State :=
  let s1 := s.modCore 0 (fun k =>
    { k with run := true, pc := 0, status := 5, lm := Mem.write k.lm 0 4 w.toNat, paged := none, pageFail := none,
             wfe := false, fetchOld := k.fetchOld.filter (fun p => decide (4 ≤ p.1)) })
  { s1 with sched := { s1.sched with agenda := .core 0 :: s1.sched.agenda } }

/-- A firing in progress at a station of the kind given, on context 0, takes the next turn with a body of the one word. -/
def State.placeStation (s : State) (k : Kind) (w : Word) : State :=
  let l : Loc := match k with | .compute => ⟨0, 0, 0⟩ | .bobbin => ⟨0, 1, 0⟩
  let s1 := s.modSt l (fun v => { v with istore := Map.put v.istore 0 w, firing := { active := true } })
  { s1 with sched := { s1.sched with agenda := .station l :: s1.sched.agenda } }

end Sys2Proof.Machine
end

