-- ==== Sys2Proof/Machine/Station.lean ====
section
/-!
DEFINITION. Steps of the station's matching logic and of the messages of an instance: TOKEN_ARRIVAL, FRAME_FIRE, FIRING_COMMIT,
FRAME_RESUME, ENTRY_RETURN, LOOP_CREDIT, BARRIER_JOIN, SINK_WRITE (R28, R123 to R143, R146, R153, R282, R315). A step whose
condition does not hold does not occur: the state stays.
-/

namespace Sys2Proof.Machine

/-- The operands of the step. -/
def State.arg (s : State) : Arg := s.sched.arg

/-! ### TOKEN_ARRIVAL (R28, R123, R315, R409) -/

/-- A flight, and one sent after it, are of the same arc: sender's station and instance, the instance that they go to, and edge name. An
INJ of any core comes behind those that the root record has held (R197, R444). -/
def Flight.sameArc (a b : Flight) : Bool :=
  decide (a.tok.edge = b.tok.edge ∧ tagInst a.tok.tag = tagInst b.tok.tag ∧ a.src = b.src) &&
    (decide (a.from_ = b.from_) || decide (a.from_ = heldFrom ∧ 2 ^ 20 ≤ b.from_))

/-- A marker comes behind a token of its arc, from whichever source, that has entered the network, or behind an element of a
strand on its arc that has been issued (R408). -/
def State.behindMarker (s : State) (f g : Flight) : Bool :=
  decide (g.tok.edge = f.tok.edge ∧ tagInst g.tok.tag = tagInst f.tok.tag ∧ g.tok.kind ≠ kindMarker) && g.holds.all s.holdMet

/-- An element of a strand whose token is to come on an arc of an instance. -/
def State.elementOn (s : State) (id edge : Nat) : Bool :=
  s.mm.accesses.any (fun a => decide (a.inst = id) && !a.rests && (match a.op with
    | .elemLoad r _ d => (match d.dest with | .arc _ => decide (rtEdge d.route = edge) | .sp => false | .q _ => false) &&
        !d.tagged && decide (((s.st a.loc).strand r).st ≠ .halted)
    | _ => false))

/-- A token may arrive: what it waits for has been performed, and no older token of its arc is under way, or with the engine
that a fence sent it to (R28, R315). -/
def State.mayArrive (s : State) (f : Flight) : Bool :=
  let older := s.fab.fenced ++ s.fab.tokens.takeWhile (fun g => decide (g.uid ≠ f.uid))
  f.holds.all s.holdMet && older.all (fun g => !g.sameArc f) &&
    (decide (f.tok.kind ≠ kindMarker) || (older.all (fun g => !s.behindMarker f g) && !s.elementOn (tagInst f.tok.tag) f.tok.edge))

/-- Append a token to an instance's save image, by edge name (R315). -/
def State.saveToken (s : State) (id : Nat) (f : Flight) : State :=
  s.modInst id (fun i => { i with save := some (let m := i.save.getD {}; { m with toks := m.toks ++ [f] }) })

/-- Append a message to an instance's save image (R146). -/
def State.saveMsg (s : State) (id : Nat) (q : SavedMsg) : State :=
  s.modInst id (fun i => { i with save := some (let m := i.save.getD {}; { m with msgs := m.msgs ++ [q] }) })

/-- A stitch marker has arrived on an arc of a slot (R409). -/
def State.markArc (s : State) (t : Token) : State :=
  s.modSt t.loc (fun v => v.modCtx (tagCtx t.tag) (fun y => { y with markers := nput y.markers t.edge }))

/-- A token reaches its station's router: a region fence diverts it to the Pricking engine, a slot that has been saved and drains
appends it to the save image, else the station checks it and matches it. The pre-emption logic takes a marker and the overflow path
a spill-return token, once the station has checked it (R123); a marker that a fence diverts ends there, for what it marks has been saved
(LOG 38). -/
def State.landToken (s : State) (f : Flight) : State :=
  let l := f.tok.loc
  let id := tagInst f.tok.tag
  if f.tok.kind = kindMarker then if s.fencedAt l id then s else (s.refuseToken f.tok).getD (s.markArc f.tok)
  else if f.tok.kind = kindSpill then (s.refuseToken f.tok).getD (s.rejoin f.tok)
  else if s.fencedAt l id then s.modFab (fun b => { b with fenced := b.fenced ++ [f] })
  else
    let x := (s.st l).ctx (tagCtx f.tok.tag)
    if x.valid && decide (x.inst = id) && x.draining && f.tok.parOk then s.saveToken id f
    else s.arrive f.tok (f.before.getD [])

/-- A token that waited in the arena of its sender is read from there (R403, R404). -/
def State.tokRead (s : State) (f : Flight) : ArenaGot :=
  let l := f.src.getD f.tok.loc
  s.arenaRead l (match s.inst? f.from_ with | some i => i.slot | none => 0) f.from_ 0 f.tok.tag f.recs

/-- TOKEN_ARRIVAL (R123): token n, by its name. -/
def execTokenArrival (s : State) : Out :=
  match s.fab.tokens.find? (fun f => decide (f.uid = s.arg.n)) with
  | none => .next s
  | some f =>
      let taken := fun (t : State) => t.modFab (fun b => { b with tokens := b.tokens.filter (fun g => decide (g.uid ≠ f.uid)) })
      if s.mayArrive f then
        match s.tokRead f with
        | .ok t => .next ((taken t).landToken f)
        | .wait t => .next t
        | .gone t => .next (taken t)
      else .next s

/-! ### FRAME_FIRE and FRAME_RESUME (R127, R133 to R142, R332) -/

/-- The tile registers that a frame's payloads fill are free of earlier readers and writers (R332). -/
def State.tilesFree (s : State) (l : Loc) (f : Frame) : Bool :=
  let v := s.st l
  let sw := ((v.ctx f.ctx).sprigs[f.sprig]?).getD 0
  (List.range 4).all (fun k =>
    (vget f.slots k {}).tile.isNone ||
      (!v.tileToRead f.ctx (sprigTile sw k) && !s.tileToWrite l f.ctx (sprigTile sw k)))

/-! ### Resident registers (R347) -/

/-- The accumulators and the weight register that an instruction names. -/
def accRegs (i : Instr) : List MatReg :=
  match i with
  | .mma _ _ c => [.acc c.val]
  | .mmas _ _ _ c => [.acc c.val]
  | .accclr0 => [.acc 0]
  | .accclr1 => [.acc 1]
  | .accclr2 => [.acc 2]
  | .accclr3 => [.acc 3]
  | .accclr4 => [.acc 4]
  | .accclr5 => [.acc 5]
  | .accclr6 => [.acc 6]
  | .accclr7 => [.acc 7]
  | .accld _ c => [.acc c.val]
  | .accrd _ _ c _ _ => [.acc c.val]
  | .wpre _ => [.wr]
  | .afeed _ => [.wr, .acc 0]
  | _ => []

/-- The registers that an instruction names. -/
def instrRegs (i : Instr) : List MatReg := (tileReads i ++ tileWrites i).map (fun k => .tile k.val) ++ accRegs i

/-- The registers that a sprig's body or TILEMAP names. -/
def Station.sprigRegs (v : Station) (k : Kind) (c n : Nat) : List SlotReg :=
  let w := ((v.ctx c).sprigs[n]?).getD 0
  let h := v.header c n
  let map := ((List.range (hdrSlots h)).filter (slotTile h)).map (fun j => MatReg.tile (sprigTile w j))
  ((((decodeBody k (v.bodyOf c n)).map instrRegs).flatten ++ map).map (fun r => ⟨c, r⟩)).eraseDups

/-- The registers that an entry of the matrix queue names: the tiles that it reads, its accumulator, which is A0 for an AFEED at the tail
of its chain, and WR for an AFEED (R347, R359). -/
def MatEntry.regs (e : MatEntry) : List SlotReg :=
  let wr : List MatReg := match e.op with
    | .afeed _ => [.wr]
    | .mma _ _ => []
    | .mmas _ _ _ => []
    | .acctail => []
    | .accclr => []
    | .accld _ => []
    | .accrd _ _ _ _ => []
  (e.op.reads.map MatReg.tile ++ (if e.tail then [.acc 0] else if e.acc = 8 then [] else [MatReg.acc e.acc]) ++ wr).map (fun r => ⟨e.ctx, r⟩)

/-- Registers of the physical file that a register's kind shares: 16 tiles, 8 accumulators, one weight register. -/
def MatReg.kin : MatReg → MatReg → Bool
  | .tile _, .tile _ => true
  | .acc _, .acc _ => true
  | .wr, .wr => true
  | .tile _, _ => false
  | .acc _, _ => false
  | .wr, _ => false

/-- How many of a kind the physical file holds. -/
def MatReg.file : MatReg → Nat
  | .tile _ => 16
  | .acc _ => 8
  | .wr => 1

/-- Rows of 48 bytes that a parked register moves. -/
def MatReg.rows48 : MatReg → Nat
  | .tile _ => 128
  | .acc _ => 22
  | .wr => 128

/-- The resident register that parks for another one: the least recently used of its kind of another context, and after those one of
the same context, that neither the sprig nor an entry of the matrix queue names. -/
def Station.victim (v : Station) (r : SlotReg) (needs : List SlotReg) : Option SlotReg :=
  let free := v.resident.filter (fun q =>
    q.reg.kin r.reg && !needs.contains q && v.matq.all (fun e => !e.regs.contains q))
  match free.find? (fun q => decide (q.ctx ≠ r.ctx)) with
  | some q => some q
  | none => free.head?

/-- Make one register resident, with the rows of the bank that this moves; none while no register can park for it. -/
def Station.bring (v : Station) (r : SlotReg) (needs : List SlotReg) : Option (Station × Nat) :=
  let here := fun (u : Station) => { u with resident := (u.resident.filter (fun q => decide (q ≠ r))) ++ [r],
                                            parkedRegs := u.parkedRegs.filter (fun q => decide (q ≠ r)) }
  let back := if v.parkedRegs.contains r then r.reg.rows48 else 0
  if v.resident.contains r || decide ((v.resident.filter (fun q => q.reg.kin r.reg)).length < r.reg.file) then some (here v, back)
  else
    (v.victim r needs).map (fun q =>
      (here { v with resident := v.resident.filter (fun x => decide (x ≠ q)), parkedRegs := v.parkedRegs ++ [q] },
        back + q.reg.rows48))

/-- Make registers resident one behind the other. -/
def Station.bringAll (v : Station) (needs : List SlotReg) : List SlotReg → Option (Station × Nat)
  | [] => some (v, 0)
  | r :: rs =>
      match v.bring r needs with
      | none => none
      | some p => (p.1.bringAll needs rs).map (fun q => (q.1, p.2 + q.2))

/-- The registers of a sprig of a slot become resident before its firing issues, at the cost of its context; no state while an entry
of the matrix queue keeps a register that would have to park (R347; LOG 56). -/
def State.makeResident (s : State) (l : Loc) (c n : Nat) : Option State :=
  let v := s.st l
  let needs := v.sprigRegs (kindOf l) c n
  (v.bringAll needs needs).map (fun p => (s.setSt l p.1).charge ((s.ctxVf v c).getD 128) (colOf l) .hedgerow p.2)

/-- Charge the reading of a frame's tile payloads (R127). -/
def State.chargeTiles (s : State) (l : Loc) (f : Frame) : State :=
  let vf := (s.ctxVf (s.st l) f.ctx).getD 128
  f.slots.toList.foldl (fun st q =>
    match q.tile with
    | none => st
    | some t => if q.tileBank then st.charge vf (colOf l) .hedgerow t.rows48 else st.charge vf (colOf l) .hbmRead t.rows48) s

/-- Registers that are not resident become so where they can: those of relinked queue entries, which are never parked (R347). -/
def State.bringWhat (s : State) (l : Loc) (needs : List SlotReg) : State :=
  let away := needs.filter (fun r => !(s.st l).resident.contains r)
  away.foldl (fun st r =>
    match (st.st l).bring r needs with
    | some p => (st.setSt l p.1).charge ((s.ctxVf (s.st l) r.ctx).getD 128) (colOf l) .hedgerow p.2
    | none => st) s

/-- A frame's tile payloads that lie in the arena are read from there before its firing starts (R127, R404). -/
def State.tilesRead (s : State) (l : Loc) (f : Frame) : ArenaGot :=
  s.arenaRead l f.ctx f.inst (hdrStage ((s.st l).header f.ctx f.sprig)) f.tag
    ((f.slots.toList.filter (fun q => q.tile.isSome && !q.tileBank)).map (·.recs)).flatten

/-- The slot of an argument token's caller. -/
def State.slotOf (s : State) (f : Flight) : Nat := match s.inst? f.from_ with | some i => i.slot | none => 0

/-- The out-buffer of a station is full for what is to fire next: the oldest argument token that waits there for a callee goes into
the Hedgerow, under the caller, the call site and the edge name, while its context has rows (R53, R318; LOG 54). -/
def State.stowArg (s : State) (l : Loc) : State :=
  let stays := fun (f : Flight) => decide (f.src = some l) && !f.inBank
  let moved := fun (f : Flight) => { f with inBank := true }
  match s.prick.insts.find? (fun i => i.held.any (fun q => decide (q.1 < 16) && stays q.2)) with
  | some i =>
      (match (i.held.find? (fun q => decide (q.1 < 16) && stays q.2)) with
        | none => s
        | some q =>
            let r := s.takeRows l (s.slotOf q.2) 1
            if r.1 then
              r.2.modInst i.id (fun j =>
                { j with held := modFirst (fun q => decide (q.1 < 16) && stays q.2) (fun q => (q.1, moved q.2)) j.held })
            else r.2)
  | none =>
      (match (s.st l).parked.find? (fun g => g.args.any (fun a => stays a.flight)) with
        | none => s
        | some g =>
            let r := s.takeRows l g.ctx 1
            if r.1 then
              r.2.modSt l (fun v => v.modFiring g.id (fun h =>
                { h with args := modFirst (fun a => stays a.flight) (fun a => { a with flight := moved a.flight }) h.args }))
            else r.2)

/-- FRAME_FIRE (R135): the selected ready frame of a station starts its firing, and one in null mode ends at once (R138). -/
def execFrameFire (s : State) : Out :=
  let l := s.arg.loc
  let v := s.st l
  if v.firing.active then .next s
  else
    match s.nextFire l with
    | none => .next (if (s.cands l).isEmpty then s else s.stowArg l)
    | some c =>
        match v.frames[c.pos]? with
        | none => .next s
        | some f =>
            if c.parked || !s.tilesFree l f then .next s
            else
              match s.makeResident l f.ctx f.sprig with
              | none => .next s
              | some r =>
                  match r.tilesRead l f with
                  | .wait t => .next t
                  | .gone t => .next t
                  | .ok t =>
                      let s1 := (t.modSt l (fun x => { (x.noteChoice c) with frames := x.frames.eraseIdx c.pos })).chargeTiles l f
                      let s2 := ((s1.atStation l).startFiring f c.need).arenaDrop f.inst
                      .next ((if s2.fir.nullMode then s2.nullEnd else s2).freedEntry l f.ctx)

/-- A firing that goes on: it takes the rest of its emit need, which one that waited for a FENCE has kept. -/
def Firing.resumed (g : Firing) (need : Nat) : Firing :=
  match g.park with
  | .notified _ => { g with reserved := need }
  | .fence => { g with park := .none, fence := none }
  | _ => { g with park := .none, reserved := need }

/-- FRAME_RESUME (R142, R420): the selected parked firing goes on at its instruction; a trapped one runs again from its first
instruction; a discarded one ends with nulls. Its registers are resident again before it issues (R347). -/
def execFrameResume (s : State) : Out :=
  let l := s.arg.loc
  let v := s.st l
  if v.firing.active then .next s
  else
    match s.nextFire l with
    | none => .next s
    | some c =>
        match v.parked[c.pos]? with
        | none => .next s
        | some g =>
            if !c.parked then .next s
            else if g.discard then
              let s1 := s.modSt l (fun x =>
                { (x.noteChoice c) with parked := x.parked.eraseIdx c.pos, firing := { g with park := .none, reserved := c.need } })
              .next (((s1.atStation l).nullEnd.arenaDrop g.inst).freedEntry l g.ctx)
            else
              match s.makeResident l g.ctx g.sprig with
              | none => .next s
              | some r =>
                  if g.trapped then
                    if !s.tilesFree l g.frame then .next s
                    else
                      match r.tilesRead l g.frame with
                      | .wait t => .next t
                      | .gone t => .next t
                      | .ok t =>
                          let s1 := (t.modSt l (fun x => { (x.noteChoice c) with parked := x.parked.eraseIdx c.pos })).chargeTiles l g.frame
                          .next (((s1.atStation l).restartFiring g c.need).freedEntry l g.ctx)
                  else
                    let s0 := r.modSt l (fun x =>
                      { (x.noteChoice c) with parked := x.parked.eraseIdx c.pos, firing := g.resumed c.need })
                    .next (if g.park = .fence then s0 else s0.freedEntry l g.ctx)

/-! ### FIRING_COMMIT (R143, R146, R293, R439) -/

/-- An argument token of a firing waits for its callee's binding (R318). -/
def State.argsWait (s : State) (f : Firing) : Bool :=
  s.prick.insts.any (fun i => i.held.any (fun q => decide (q.1 < 16 ∧ q.2.fid = f.id)))

/-- The access is an element of an ordered strand: one that an SGO has started, or an STS has supplied. -/
def Access.ordered (a : Access) : Bool :=
  match a.op.strandDef with
  | some d => !d.tagged
  | none => false

/-- A firing that has ended may commit (R143): its lsids are performed; its tokens, those of its sink arcs and its arguments with
them, have entered the router; and none of its own accesses is parked on a fault, the elements of its GATHs, SCATs and SCADDs with
them. A strand that an SGO of the firing has started does not hold it back (R248). -/
def State.mayCommit (s : State) (l : Loc) (f : Firing) : Bool :=
  decide (hdrStoreMask f.header &&& ~~~ f.lsids = 0) &&
    s.fab.tokens.all (fun t => decide (t.fid ≠ f.id) || t.holds.all s.holdMet) &&
    s.fab.sinkMsgs.all (fun m => decide (m.fid ≠ f.id) || m.holds.all s.holdMet) && !s.argsWait f &&
    (s.st l).matq.all (fun e => !e.op.sends || decide (e.fid ≠ f.id)) &&
    s.mm.accesses.all (fun a => decide (a.fid ≠ f.id) || a.ordered || (match a.st with | .faulted => false | _ => true))

/-- PRIO at commit: the field of the context word on every station that the instance holds (R439). -/
def State.setPrio (s : State) (id p : Nat) : State :=
  match s.inst? id with
  | none => s
  | some i =>
      let q := min p (s.vf i.vf).priomax
      (i.stations.foldl (fun st r => st.modSt r.1 (fun v =>
        if decide ((v.ctx i.slot).inst = id) then v.modCtx i.slot (fun c => { c with word := setBits c.word 91 3 q }) else v))
        s).modInst id (fun j => { j with prio := q })

/-- A callee belongs to the root record of its caller; the accesses of a committed firing happen before that record's
retirement (R199). -/
def State.noteRoot (s : State) (id : Nat) (l : List Nat) : State :=
  match s.rootOf id with
  | none => s
  | some h => s.modRoot h (fun r => { r with before := nunion r.before l })

/-- What a commit does: loop credits leave, PRIO and RET take effect, and the instance may retire. -/
def State.commitFiring (s : State) (f : Firing) : State :=
  let s1 := s.modFab (fun b => { b with credits := b.credits ++ List.replicate f.credits ⟨f.inst⟩ })
  let s2 := match f.prio with | some p => s1.setPrio f.inst p | none => s1
  let die : Fin 2 := match s.inst? f.inst with | some i => i.die | none => 0
  let t := s2.tickEng die
  let s3 := t.2.modInst f.inst (fun i =>
    { i with lastCommit := t.1, retDone := i.retDone || f.retDone,
             st := if f.retDone ∧ i.st = .live then .returning else i.st })
  let s4 := ((s3.noteRoot f.inst f.before).arenaDrop f.inst).settle f.inst
  match s.inst? f.inst with | some i => s4.settleCaller i | none => s4

/-- FIRING_COMMIT (R143): ended firing n of a station, by its name. -/
def execFiringCommit (s : State) : Out :=
  let l := s.arg.loc
  match (s.st l).ended.find? (fun f => decide (f.id = s.arg.n)) with
  | none => .next s
  | some f =>
      if s.mayCommit l f then
        let w := hopCount l (match s.inst? f.inst with | some i => i.gate | none => l)
        let s1 := (s.modSt l (fun v => { v with ended := v.ended.filter (fun g => decide (g.id ≠ f.id)) })).charge
          ((s.ctxVf (s.st l) f.ctx).getD 128) (colOf l) .wordHop (f.credits * w)
        .next (s1.commitFiring f)
      else .next s

/-! ### ENTRY_RETURN (R131, R288) -/

/-- ENTRY_RETURN (R131): one of the entries of context n of a station that are on their way back, by m, lands in the on-die store
as the overflow path's token reaches it (R117). -/
def execEntryReturn (s : State) : Out :=
  let l := s.arg.loc
  let es := (s.st l).landing (s.arg.n % 8)
  match es[s.arg.m % es.length]? with
  | none => .next s
  | some q => .next (s.landToken { tok := q.2.returnTok l, src := some l, from_ := q.2.inst })

/-! ### LOOP_CREDIT (R146) -/

/-- Where a message to the gate station of an instance goes. -/
inductive GateTo where
  | slot (l : Loc) (c : Nat)
  | image
  | gone

/-- A message to the gate station finds its slot, the save image, or nothing (R146). -/
def State.gateTo (s : State) (id : Nat) : GateTo :=
  match s.inst? id with
  | none => .gone
  | some i =>
      let x := (s.st i.gate).ctx i.slot
      if i.st.ended then .gone
      else if x.valid && decide (x.inst = id) && !x.draining then .slot i.gate i.slot
      else .image

/-- LOOP_CREDIT (R146): a credit reaches the gate station. The allowance never exceeds ALLOW. -/
def execLoopCredit (s : State) : Out :=
  match s.fab.credits[s.arg.n]? with
  | none => .next s
  | some q =>
      let s1 := s.modFab (fun b => { b with credits := b.credits.eraseIdx s.arg.n })
      match s.gateTo q.inst with
      | .gone => .next s1
      | .image => .next (s1.saveMsg q.inst .credit)
      | .slot l c => .next (s1.modSt l (fun v => v.modCtx c (fun x => { x with allow := min (x.allow + 1) x.allowInit })))

/-! ### BARRIER_JOIN (R282, R283) -/

/-- A parked joiner is notified with its rank and acquires from every joiner of its generation. -/
def Firing.notify (f : Firing) (rank : Nat) (before : List Nat) : Firing :=
  { f with park := .notified rank, before := nunion f.before before }

/-- Notify one joiner, by the name of its firing, wherever its frame is parked: at a station, or in the save image. -/
def State.notifyJoiner (s : State) (id : Nat) (rank fid : Nat) (before : List Nat) : State :=
  let upd := fun (l : List Firing) =>
    l.map (fun f => if f.id = fid ∧ f.park = .barrier then f.notify rank before else f)
  let s1 := s.modFab (fun b =>
    { b with stations := b.stations.map (fun p => (p.1, { p.2 with parked := upd p.2.parked })) })
  s1.modInst id (fun i =>
    { i with save := i.save.map (fun m =>
        { m with stations := m.stations.map (fun q => { q with parked := upd q.parked }) }) })

/-- A join at a barrier word: the rank is the count before, and a full generation notifies every joiner. -/
def State.joinAt (s : State) (id : Nat) (l : Loc) (c b n : Nat) (j : Joiner) : State :=
  let w := vget ((s.st l).ctx c).bars b {}
  let goal := if w.count = 0 then n else w.n
  let js := w.joiners ++ [{ j with rank := w.count }]
  let put := fun (v : Barrier) =>
    s.modSt l (fun x => x.modCtx c (fun y => { y with bars := vset y.bars b v }))
  if w.count + 1 = goal then
    let all := js.foldl (fun a k => nunion a k.before) []
    js.foldl (fun st k => st.notifyJoiner id k.rank k.fid all) (put { count := 0, n := goal, gen := w.gen + 1, joiners := [] })
  else put { w with count := w.count + 1, n := goal, joiners := js }

/-- BARRIER_JOIN (R282): join n under way reaches the gate station. Joins of one station arrive in the order they were sent. -/
def execBarrierJoin (s : State) : Out :=
  match s.fab.joins[s.arg.n]? with
  | none => .next s
  | some q =>
      if (s.fab.joins.take s.arg.n).any (fun p => decide (p.inst = q.inst ∧ p.j.st = q.j.st)) then .next s
      else
        let s1 := s.modFab (fun b => { b with joins := b.joins.eraseIdx s.arg.n })
        match s.gateTo q.inst with
        | .gone => .next s1
        | .image => .next (s1.saveMsg q.inst (.join q.b q.n q.j))
        | .slot l c => .next (s1.joinAt q.inst l c q.b q.n q.j)

/-! ### SINK_WRITE (R153, R325) -/

/-- A sink register with a payload: a word sets the value; a null or a tile sets NULL with value 0. -/
def sinkOf : Payload → Sink
  | .word v => { value := v, written := true, null := false }
  | .null => { value := 0, written := true, null := true }
  | .tile _ => { value := 0, written := true, null := true }

/-- SINK_WRITE (R153): message n to an instance record arrives; writes from one station to one sink arrive in issue order. -/
def execSinkWrite (s : State) : Out :=
  match s.fab.sinkMsgs[s.arg.n]? with
  | none => .next s
  | some m =>
      let older := (s.fab.sinkMsgs.take s.arg.n).any (fun p => decide (p.inst = m.inst ∧ p.k = m.k ∧ p.src = m.src ∧ p.edge = m.edge))
      if older || !m.holds.all s.holdMet then .next s
      else
        let s1 := s.modFab (fun b => { b with sinkMsgs := b.sinkMsgs.eraseIdx s.arg.n })
        let s2 := match m.root with
          | some h => s1.modRoot h (fun r =>
              { r with sinks := vset r.sinks m.k (sinkOf m.payload), before := nunion r.before m.before })
          | none => s1.modInst m.inst (fun i => { i with sinks := vset i.sinks m.k (sinkOf m.payload) })
        .next (s2.settle m.inst)

end Sys2Proof.Machine
end

