-- ==== Sys2Proof/Machine/Request.lean ====
section
/-!
DEFINITION. Requests that reach a Pricking engine: CALL_REQUEST and SPAWN_REQUEST (R155, R297, R304, R311, R317), and what a
partition's save arena holds (R404).
-/

namespace Sys2Proof.Machine

/-! ### The save arena (R304, R311, R404; LOG 13) -/

/-- Queued launches and successors of a function on a die. -/
def State.queuedOf (s : State) (d : Fin 2) (vf : Nat) : List Nat :=
  (s.eng d).queue.filter (fun id => match s.inst? id with | some i => decide (i.vf = vf) && decide (i.st = .queued) | none => false)

/-- Pending calls of a function on a die, beyond the 1,024 that the engine holds. -/
def State.spilledCalls (s : State) (d : Fin 2) (vf : Nat) : Nat :=
  (((s.eng d).calls.drop 1024).filter (fun id => match s.inst? id with | some i => decide (i.vf = vf) | none => false)).length

/-- Entries of 64 bytes that a page of the save arena holds. -/
def arenaEntries : Nat := 1024

/-- Pages that the save images of a function have, those that an eviction has reserved among them. -/
def State.imagePages (s : State) (vf : Nat) : List Nat :=
  ((s.prick.insts.filter (fun i => decide (i.vf = vf))).map (fun i => match i.save with | some m => m.pages | none => [])).flatten

/-- Pages of the save arena that a function has in use. -/
def State.savePages (s : State) (vf : Nat) : Nat :=
  (s.imagePages vf).length +
    ([0, 1].map (fun (d : Fin 2) =>
      ((s.queuedOf d vf).length - 4096 + arenaEntries - 1) / arenaEntries +
        (s.spilledCalls d vf + arenaEntries - 1) / arenaEntries)).foldl (· + ·) 0

/-- n more pages fit in a function's save arena. -/
def State.saveFits (s : State) (vf n : Nat) : Bool := decide ((s.savePages vf + n) * 65536 ≤ (s.vf vf).savelen.toNat)

/-- The n lowest pages of a function's save arena that no image has. -/
def State.freePages (s : State) (vf n : Nat) : List Nat :=
  let held := s.imagePages vf
  ((List.range (held.length + n)).filter (fun k => !held.contains k)).take n

/-- The first bytes of pages of a function's save arena are written: each page passes as a write of the function (R404), and poison goes
from the lines that are written whole (R423). -/
def State.arenaPages (s : State) (d : Fin 2) (vf bytes : Nat) : List Nat → Got Unit
  | [] => .ok () s
  | k :: rest =>
      match s.arenaPage d vf ((s.vf vf).savebase.toNat + 65536 * k) with
      | .ok pa t =>
          let whole := fun (l : Nat) => decide (pa ≤ 128 * l ∧ 128 * l + 128 ≤ pa + min bytes 65536)
          (t.modMm (fun m => { m with poison := m.poison.filter (fun l => !whole l) })).arenaPages d vf (bytes - 65536) rest
      | .wait t => .wait t
      | .fail _ _ t => .fail codeArena 0 t

/-- n further pages of a function's save arena: their numbers, a wait for the host to map one, or SAVE_ARENA_FULL where they do not fit
or one fails its check (R404; LOG 57). -/
def State.saveRoom (s : State) (d : Fin 2) (vf n : Nat) : Got (List Nat) :=
  if s.saveFits vf n then
    match s.arenaPages d vf 0 (s.freePages vf n) with
    | .ok _ t => .ok (s.freePages vf n) t
    | .wait t => .wait t
    | .fail c a t => .fail c a t
  else .fail codeArena 0 s

/-! ### CALL_REQUEST (R304, R317) -/

/-- No earlier request of a kind from the same station is under way. -/
def State.firstFrom (s : State) (n : Nat) (l : Loc) (spawn : Bool) : Bool :=
  (s.fab.requests.take n).all (fun q => decide (q.loc ≠ l) || (q.spawn.isSome != spawn))

/-- Request n leaves the network. -/
def State.dropRequest (s : State) (n : Nat) : State := s.modFab (fun b => { b with requests := b.requests.eraseIdx n })

/-- One more pending call of a function on a die: beyond 1,024 it goes to the save arena, which may need a page for it (R304). -/
def State.callRoom (s : State) (d : Fin 2) (id : Nat) : Got (List Nat) :=
  match s.inst? id with
  | none => .ok [] s
  | some i =>
      if 1024 ≤ (s.eng d).calls.length ∧ s.spilledCalls d i.vf % arenaEntries = 0 then s.saveRoom d i.vf 1 else .ok [] s

/-- A call request that the save arena has no room for waits, and its partition is told once (R404, R419). -/
def State.callFull (s : State) (n : Nat) (q : EngReq) : State :=
  if q.reported then s
  else
    let s1 := s.modFab (fun b => { b with requests := b.requests.set n { q with reported := true } })
    s1.engineFault codeArena (match s.inst? q.inst with | some i => i.vf | none => 0) q.die.val q.inst 0 0

/-- CALL_REQUEST (R317): a call request reaches the engine of the caller's die, which is to try it. It waits while the host has yet to
map a page that it needs, or while that page does not fit (LOG 57). -/
def execCallRequest (s : State) : Out :=
  let n := s.arg.n
  match s.fab.requests[n]? with
  | none => .next s
  | some q =>
      if q.spawn.isSome || !s.firstFrom n q.loc false then .next s
      else
        match s.callRoom q.die q.inst with
        | .wait t => .next t
        | .fail _ _ t => .next (t.callFull n q)
        | .ok _ t =>
            .next ((t.dropRequest n).modEng q.die (fun e => { e with calls := e.calls ++ [q.inst], toTry := e.toTry ++ [q.inst] }))

/-! ### SPAWN_REQUEST (R155, R297, R310, R311) -/

/-- Fields of a successor double (R297). -/
def sucKidx (d : BitVec 64) : Nat := bits d 48 16
def sucEntry (d : BitVec 64) : Nat := bits d 44 4
def sucDie (d : BitVec 64) : Nat := bits d 42 2
def sucTags (d : BitVec 64) : Nat := bits d 40 2
def sucValid (d : BitVec 64) : Bool := bit d 0

/-- THREAD and ITER of a successor's first token (R297). -/
def sucThreadIter (x otag : BitVec 64) : Nat × Nat :=
  match sucTags x with
  | 0 => (tagThread otag, 0)
  | 1 => (tagThread otag, tagIter otag)
  | _ => (0, 0)

/-- Queue a new root or successor with the area arbiters of the dies that DIE allows. -/
def State.queueLaunch (s : State) (id : Nat) (dies : List (Fin 2)) : State :=
  dies.foldl (fun st d => st.modEng d (fun e => { e with queue := e.queue ++ [id] })) s

/-- Dies of a DIE field of a successor (R297). -/
def sucDies (x : BitVec 64) (d : Fin 2) : List (Fin 2) :=
  match sucDie x with
  | 0 => [d]
  | 1 => [1 - d]
  | _ => [0, 1]

/-- The die on which a record of a launch for the dies given is kept at first. -/
def homeOf (dies : List (Fin 2)) (d : Fin 2) : Fin 2 := match dies with | [e] => e | _ => d

/-- Room for one more launch in the queues of the dies given: a function's queue holds 4,096 on a die, and further ones take pages of its
save arena (R311, R404). -/
def State.launchRoom (s : State) (d : Fin 2) (vf : Nat) (dies : List (Fin 2)) : Got (List Nat) :=
  let page := dies.any (fun e =>
    decide (4096 ≤ (s.queuedOf e vf).length) && decide (((s.queuedOf e vf).length - 4096) % arenaEntries = 0))
  if page then s.saveRoom d vf 1 else .ok [] s

/-- Create one successor and queue its launch (R310, R311). -/
def State.spawnOne (s : State) (i : Inst) (q : SpawnReq) (before : List Nat) (x : BitVec 64) : State :=
  let dies := sucDies x i.die
  let d := homeOf dies i.die
  let p := s.newId
  match p.1 with
  | none => p.2
  | some id =>
      let u := p.2.newUid
      let h := i.root
      let ti := sucThreadIter x q.otag
      let tag := mkTag (s.vf i.vf).blockBase id 0 ti.1 ti.2
      let c : Inst :=
        { id := id, vf := i.vf, die := d, st := .queued, kidx := sucKidx x, kind := .spawned, root := h, cls := i.cls,
          prio := i.prio, loopBase := ti.2, thread := ti.1, entRes := [sucEntry x],
          first := some (sucEntry x, q.value, tag), firstBefore := before, age := u.1 }
      let s1 := (u.2.addInst c).modRoot h (fun r => { r with lineage := r.lineage + 1 })
      (s1.queueLaunch id dies).sampleInst c 0x0001 (sucKidx x)

/-- The image of a successor, which its request reads at the index's first use (R185, R311). Poison is left to the placement of the
successor, which is the instance that reads it (R423; LOG 72). -/
def State.spawnImage (s : State) (d : Fin 2) (vf idx : Nat) : Got Unit :=
  match s.needImage d vf idx with
  | .ok _ t => .ok () t
  | .wait t => .wait t
  | .fail c a t => if c = codeUncorrectable then .ok () t else .fail c a t

/-- The successors of request n that are left, in order: each is created, or reported as one that is not. The request waits while the page
of an image or of the save arena is awaited. -/
def State.spawnFrom (s : State) (n : Nat) (i : Inst) (q : SpawnReq) (before : List Nat) : List (BitVec 64) → State
  | [] => (s.dropRequest n).settle i.id
  | x :: rest =>
      let done := fun (t : State) =>
        t.modFab (fun b => { b with requests := b.requests.modify n (fun r => { r with made := r.made + 1 }) })
      match s.spawnImage i.die i.vf (sucKidx x) with
      | .wait t => t
      | .fail c a t => (done (t.engineFault c i.vf i.die.val i.id 0 a)).spawnFrom n i q before rest
      | .ok _ t =>
          match t.launchRoom i.die i.vf (sucDies x i.die) with
          | .wait u => u
          | .fail c a u => (done (u.engineFault c i.vf i.die.val i.id 0 a)).spawnFrom n i q before rest
          | .ok _ u => (done (u.spawnOne i q before x)).spawnFrom n i q before rest

/-- SPAWN_REQUEST (R311): the successors of a spawn-table entry are queued behind the release of R275. It waits while no instance id is
free (LOG 9). -/
def execSpawnRequest (s : State) : Out :=
  let n := s.arg.n
  match s.fab.requests[n]? with
  | none => .next s
  | some q =>
      match q.spawn, s.inst? q.inst with
      | some r, some i =>
          if !s.firstFrom n q.loc true || !q.holds.all s.holdMet || decide (2 ^ 18 < s.usedIds.eraseDups.length + 4) then .next s
          else
            let xs := ((i.img.bind (fun m => m.spawns[r.entry]?)).getD []).filter sucValid
            .next (s.spawnFrom n i r q.before (xs.drop q.made))
      | _, _ => .next s

end Sys2Proof.Machine
end

