-- ==== Sys2Proof/Machine/Commit.lean ====
section
/-!
DEFINITION. Placements: PLACEMENT_START, PLACEMENT_COMMIT, COMMIT_ACKNOWLEDGED and PLACEMENT_ABORT (R75, R81, R119, R218, R219,
R232, R278, R304, R307, R312, R314, R348).
-/

namespace Sys2Proof.Machine

/-! ### Contexts (R75, R81, R103, R218, R223, R282, R348) -/

/-- The context word of a station record. -/
def ctxWord (f : Vf) (i : Inst) (r : StaRec) (ibase : Nat) : BitVec 128 :=
  BitVec.ofNat 128 (f.blockBase * 2 ^ 120 + f.blockLast * 2 ^ 112 + i.id * 2 ^ 94 + min i.prio 7 * 2 ^ 91 + r.format * 2 ^ 85 +
    bits r.head 33 8 * 2 ^ 77 + ibase * 2 ^ 52 + (r.nwords - 1) * 2 ^ 40 + i.loopBase % 2 ^ 20 * 2 ^ 20 + (r.sprigs.length - 1) * 2 ^ 16 +
    (if r.pleach then 2 ^ 8 else 0) + 1)

/-- A context as a committed placement leaves it. -/
def newCtx (w : BitVec 128) (r : StaRec) (leased : Bool) : Ctx :=
  let t : Tile := { width := nativeWidth (BitVec.ofNat 6 r.format) }
  { word := w, sprigs := r.sprigs, routes := r.routes, leased := leased, tiles := Vector.replicate 16 t, wr := t,
    allow := bits r.head 33 8 + 1 }

/-! ### Fit and scope (R278, R295, R314) -/

/-- A callee's image fits its call site: arguments, results, and the TILE bit of each result. -/
def State.callFits (s : State) (i : Inst) (m : Image) : Bool :=
  match i.kind with
  | .root => true
  | .spawned => true
  | .callee caller _ _ =>
      decide (i.nargSite ≤ m.entries.length) && decide (m.results.length = i.nresSite) &&
        (match (s.inst? caller).bind (·.img) with
          | none => true
          | some cm => (List.range i.nresSite).all (fun k =>
              let r := (i.resRoutes[k]?).getD 0
              match cm.sta? (rtDx r) (rtDy r) with
              | some t => slotTile (t.header (rtSprig r)) (rtSlot r) == (m.results[k]?).getD false
              | none => false))

/-- Some stile sprig of STILESCOPE 1 sends on an arc that satisfies a test. -/
def Image.plotCross (m : Image) (p : BitVec 64 → Bool) : Bool :=
  m.stas.any (fun r => (List.range r.sprigs.length).any (fun n =>
    hdrStile (r.header n) && decide (sprigScope ((r.sprigs[n]?).getD 0) = 1) && ((r.routes[n]?).getD []).any p))

/-- A crossing arc of the call leaves a PLOT stile sprig (R278). -/
def State.scopeBad (s : State) (i : Inst) (m : Image) : Bool :=
  match i.kind with
  | .root => false
  | .spawned => false
  | .callee caller site _ =>
      m.plotCross (fun r => decide (rtTarget r = 2)) ||
        (match (s.inst? caller).bind (·.img) with
          | none => false
          | some cm => cm.plotCross (fun r => decide (rtTarget r = 3 ∧ rtNum r = site)))

/-! ### PLACEMENT_START (R304, R312, R313) -/

/-- The partition of an instance is RUNNING, so that the engine serves its requests (R407). -/
def State.serves (s : State) (i : Inst) : Bool := decide ((s.vf i.vf).st = .running)

/-- What the engine of a die places next: the oldest pending call that it has yet to try, else the arbiter's choice. -/
def State.nextToPlace (s : State) (d : Fin 2) : Option Inst :=
  let ok := fun (st : Inst → Bool) (id : Nat) => (s.inst? id).filter (fun i => s.serves i && st i)
  match (s.eng d).toTry.findSome? (ok (fun i => decide (i.st = .queued))) with
  | some i => some i
  | none => (s.eng d).admitted.findSome? (ok (fun i => decide (i.st = .queued ∨ i.st = .saved)))

/-- The engine takes an entry up. -/
def State.takeUp (s : State) (d : Fin 2) (id : Nat) : State :=
  s.modEng d (fun e => { e with toTry := ndrop e.toTry id, admitted := ndrop e.admitted id })

/-- The state of an instance whose placement starts. -/
def Inst.starting (i : Inst) : IState := if i.st = .saved then .relinking else .placing

/-- A placement that cannot go on, with its code and ARG: nothing is loaded, and it is to be aborted. -/
def State.failPlacing (s : State) (d : Fin 2) (i : Inst) (code arg : Nat) : State :=
  let p : Placement :=
    { inst := i.id, qx := 0, qy := 0, slot := 0, folded := false, how := 0, relink := decide (i.st = .saved), phase := .loaded,
      abort := some code, abortArg := arg }
  ((s.takeUp d i.id).modInst i.id (fun j => { j with st := i.starting })).modEng d (fun e => { e with placing := some p })

/-- No place: a call stays pending, and another entry goes back to the queue. -/
def State.noRoom (s : State) (d : Fin 2) (i : Inst) : State :=
  let admitted := (s.eng d).admitted.contains i.id
  (s.takeUp d i.id).modEng d (fun e => if admitted then { e with queue := e.queue ++ [i.id] } else e)

/-- Load the shadow of one station: the slot's context and the instruction words in the lowest run that is free. -/
def State.loadSta (s : State) (i : Inst) (m : Image) (p : Plan) (x : Loc × StaRec) : State :=
  let base := ((s.st x.1).freeWords x.2.nwords).getD 0
  let leased := decide (x.2.kind = .bobbin) && (!p.folded || m.needsLease x.2)
  let c := newCtx (ctxWord (s.vf i.vf) i x.2 base) x.2 leased
  let put := fun (w : Map Word) (q : Word × Nat) => Map.put w (base + q.2) q.1
  s.modSt x.1 (fun v =>
    { v with shadow := Map.put v.shadow p.slot c, istore := x.2.words.zipIdx.foldl put v.istore })

/-- Load every station of a placement. -/
def State.loadStas (s : State) (i : Inst) (m : Image) (p : Plan) : List (Loc × StaRec) → State
  | [] => s
  | x :: xs => (s.loadSta i m p x).loadStas i m p xs

/-- The caller's present PRIO for a callee, at its placement (R81). -/
def State.prioFor (s : State) (i : Inst) : Nat :=
  match i.kind with
  | .callee caller _ _ => if i.st = .saved then i.prio else match s.inst? caller with | some c => c.prio | none => i.prio
  | .root => i.prio
  | .spawned => i.prio

/-- Load the shadows of a placement (R312). A root now holds a reservation for each entry of its image (R292). -/
def State.loadPlacing (s : State) (d : Fin 2) (i : Inst) (m : Image) (p : Plan) : State :=
  let j := { i with prio := s.prioFor i }
  let a := (s.takeUp d i.id).loadStas j m p (m.stationsAt d.val p.qx p.qy)
  let q : Placement :=
    { inst := i.id, qx := p.qx, qy := p.qy, slot := p.slot, folded := p.folded, how := p.how, relink := decide (i.st = .saved),
      phase := .loaded }
  let res := if i.kind = .root ∧ i.st ≠ .saved then List.range m.entries.length else i.entRes
  (a.modInst i.id (fun k => { k with st := i.starting, img := some m, prio := j.prio, entRes := res })).modEng d
    (fun e => { e with placing := some q })

/-- The pages of a save image are read as accesses of the function (R404); a poisoned line in its bytes ends the read, with its address
(R423). -/
def State.readPages (s : State) (d : Fin 2) (vf bytes : Nat) : List Nat → Got Unit
  | [] => .ok () s
  | k :: rest =>
      match s.unitAccess d vf (((s.vf vf).savebase.toNat + 65536 * k) % 2 ^ 64) false none .engine with
      | .wait t => .wait t
      | .fail c a t => fetchFail c a t
      | .ok pa t =>
          match t.poisonLine pa (min bytes 65536) with
          | some a => .fail codeUncorrectable a t
          | none => t.readPages d vf (bytes - 65536) rest

/-- The image of an instance: a relink has it in its record, when its save image can be read (LOG 13). -/
def State.imageFor (s : State) (d : Fin 2) (i : Inst) : Got Image :=
  match i.save, i.img with
  | some v, some m =>
      (match s.readPages d i.vf v.bytes v.pages with
        | .ok _ t => .ok m t
        | .wait t => .wait t
        | .fail c a t => .fail c a t)
  | _, _ => s.needImage d i.vf i.kidx

/-- PLACEMENT_START (R304, R312): the engine of a die takes up one request, searches, and loads. A poisoned line in what it reads for the
instance kills it (R423). -/
def execPlacementStart (s : State) : Out :=
  let d := s.arg.loc.die
  if (s.eng d).placing.isSome then .next s
  else
    match s.nextToPlace d with
    | none => .next s
    | some i =>
        match s.imageFor d i with
        | .wait t => .next t
        | .fail c a t => .next (if c = codeUncorrectable then t.poisonRead d i a else t.failPlacing d i c a)
        | .ok m t =>
            if decide (i.st ≠ .saved) && !t.callFits i m then .next (t.failPlacing d i codeNoKnot 0)
            else if decide (i.st ≠ .saved) && t.scopeBad i m then .next (t.failPlacing d i codeScope 0)
            else
              match t.planFor i m d with
              | none => .next (t.noRoom d i)
              | some p => .next (t.loadPlacing d i m p)

/-! ### Range tables (R232) -/

/-- A range entry of 32 bytes; none where it matches no address. -/
def rangeEntry (w : Nat) : Option Range :=
  if decide (fld w 0 1 = 1) && decide (fld w 64 32 ≠ 0) && decide (fld w 5 59 = 0) && decide (fld w 96 32 = 0) &&
      decide (fld w 168 24 = 0) && decide (fld w 236 20 = 0) then
    some ⟨fld w 192 44, fld w 128 40, fld w 64 32, fld w 1 4⟩
  else none

/-- Entries n and up of a range table; one that cannot be read is not in use (LOG 16); a poisoned one ends the read, with its address
(R423). -/
def State.rangesFrom (s : State) (d : Fin 2) (vf base : Nat) : Nat → Got (List Range)
  | 0 => .ok [] s
  | n + 1 =>
      let rest := fun (e : Option Range) (t : State) =>
        match t.rangesFrom d vf base n with
        | .ok l u => Got.ok (e.toList ++ l) u
        | .wait u => .wait u
        | .fail c a u => .fail c a u
      match s.unitAccess d vf ((base + 32 * (15 - n)) % 2 ^ 64) false none .engine with
      | .wait t => .wait t
      | .fail code pa t => if code = codeUncorrectable then .fail code pa t else rest none t
      | .ok pa t =>
          if t.poisoned pa 32 then .fail codeUncorrectable pa t
          else
            let g := t.homeRead vf pa 32
            rest (rangeEntry g.1) g.2

/-- The range entries of a function: none while RANGEBASE is 0. -/
def State.rangeTable (s : State) (d : Fin 2) (vf : Nat) : Got (List Range) :=
  if (s.vf vf).rangebase = 0 then .ok [] s else s.rangesFrom d vf (s.vf vf).rangebase.toNat 16

/-! ### Edges (R307, R315) -/

/-- The routing word of an edge into an instance: entries, result slots of call sites, and arcs to its own slots. -/
def Image.edgeRoute (m : Image) (e : Nat) : Option (BitVec 64) :=
  (m.entries ++ (m.sites.map (·.routes)).flatten ++
    ((m.stas.map (fun r => r.routes.flatten)).flatten.filter (fun q => decide (rtTarget q = 0)))).find?
      (fun q => decide (rtEdge q = e ∧ q ≠ 0))

/-- A tag with another context slot (R119). -/
def retag (c : Nat) (t : BitVec 64) : BitVec 64 := setBits t 35 3 c

/-- A token for an instance by its edge name, at its present place; none where no arc has the name. -/
def Inst.byEdge (i : Inst) (t : Token) : Option Token :=
  (i.img.bind (fun m => m.edgeRoute t.edge)).map (fun r =>
    let g := retag i.slot t.tag
    ⟨mkHeader (i.target r) (rtSprig r) (rtSlot r) (t.kind, t.tl) t.edge g, g, t.payload⟩)

/-- Deliver a token to an instance by edge name: to its slot, or to the save image where the slot has been saved. -/
def State.deliverEdge (s : State) (i : Inst) (f : Flight) : State :=
  match i.byEdge f.tok with
  | none => (s.staleToken f.tok none 3).settle i.id
  | some t =>
      let x := (s.st t.loc).ctx i.slot
      if x.valid && decide (x.inst = i.id) && x.draining then s.saveToken i.id f else s.arrive t (f.before.getD [])

/-! ### What a relink restores (R307, R348) -/

/-- A context of a new placement with what its save image holds (R306). -/
def Ctx.restore (c old : Ctx) : Ctx :=
  { c with tiles := old.tiles, accs := old.accs, wr := old.wr, seed := old.seed, rctr := old.rctr, thin := old.thin, q0 := old.q0,
           q1 := old.q1, allow := old.allow, admitted := old.admitted, bars := old.bars, hstall := old.hstall,
           rretry := old.rretry }

/-- A frame in its new slot. -/
def Frame.moved (f : Frame) (c : Nat) : Frame := { f with ctx := c, tag := retag c f.tag, readySince := none }

/-- A firing in its new slot; its body starts where the instruction store now holds it. -/
def Firing.moved (f : Firing) (c : Nat) (x : Ctx) : Firing :=
  { f with ctx := c, tag := retag c f.tag, otag := retag c f.otag, frame := f.frame.moved c,
           base := x.ibase + sprigIoff ((x.sprigs[f.sprig]?).getD 0) + 2 }

/-- A strand record in its new slot. -/
def Strand.moved (k : Strand) (c : Nat) : Strand :=
  let again := fun (d : StrandDef) => { d with otag := retag c d.otag }
  { k with d := again k.d, pend := k.pend.map again }

/-- Tile payloads of a saved frame take their places (R127); one that lies in the spill arena stays there (R306). -/
def State.replaceTiles (s : State) (l : Loc) (c id : Nat) (f : Frame) : Frame × State :=
  (List.range 4).foldl
    (fun (a : Frame × State) k =>
      let q := vget a.1.slots k {}
      match q.tile with
      | none => a
      | some t =>
          if !q.tileBank then a
          else
            let r := a.2.tilePlace l c id (hdrStage ((a.2.st l).header c f.sprig)) t
            match r.1 with
            | some p => ({ a.1 with slots := vset a.1.slots k { q with tileBank := p.1, recs := p.2 } }, r.2)
            | none => (a.1, r.2)) (f, s)

/-- A saved frame takes its place at its new station: it stays in the spill arena where it lies there (R306); none where the
arena loses it. -/
def State.replaceFrame (s : State) (l : Loc) (c id : Nat) (f : Frame) : Option Frame × State :=
  let a := s.replaceTiles l c id (f.moved c)
  match f.place with
  | .arena => (some a.1, a.2)
  | _ =>
      let p := a.2.newPlace l a.1
      (p.1.map (fun x => { a.1 with place := x.1, recs := x.2 }), p.2)

/-- The frames of a saved station. -/
def State.restoreFrames (s : State) (l : Loc) (c id : Nat) (fs : List Frame) : State :=
  fs.foldl (fun st f =>
    let r := st.replaceFrame l c id f
    match r.1 with
    | some g => r.2.modSt l (fun v => { v with frames := v.frames ++ [g] })
    | none => r.2) s

/-- The parked firings of a saved station. -/
def State.restoreParked (s : State) (l : Loc) (c id : Nat) (x : Ctx) (fs : List Firing) : State :=
  fs.foldl (fun st f =>
    let r := st.replaceFrame l c id f.frame
    match r.1 with
    | some g => r.2.modSt l (fun v => { v with parked := v.parked ++ [{ (f.moved c x) with frame := g }] })
    | none => r.2) s

/-- An entry of the matrix queue in its new slot. -/
def MatEntry.moved (e : MatEntry) (c : Nat) : MatEntry := { e with ctx := c, tag := retag c e.tag, ftag := retag c e.ftag }

/-- One saved station into its new place. The registers of its queue entries become resident (R347). -/
def State.restoreSta (s : State) (i : Inst) (q : SavedStation) : State :=
  let l := locOf i.die.val (4 * i.qx + q.dx) (4 * i.qy + q.dy)
  let c := i.slot
  let s1 := s.modSt l (fun v => v.modCtx c (fun x => x.restore q.ctx))
  let x := (s1.st l).ctx c
  let s2 := (s1.restoreFrames l c i.id q.frames).restoreParked l c i.id x q.parked
  let s3 := s2.modSt l (fun v =>
    { v with ended := v.ended ++ q.ended.map (fun f => f.moved c x),
             matq := v.matq ++ q.matq.map (fun e => e.moved c),
             pleach := v.pleach ++ q.pleach.map (fun p => { p with ctx := c, tag := retag c p.tag }),
             strands := Vector.ofFn (fun k =>
               if k.val / 8 = c then (match q.strands[k.val % 8]? with | some r => r.moved c | none => {}) else v.strands[k]) })
  s3.bringWhat l (q.matq.map (fun e => (e.moved c).regs)).flatten

/-- The station of an instance's new place for one of its old place. -/
def moveLoc (old new : Inst) (l : Loc) : Loc :=
  locOf new.die.val (l.x.val + 4 * new.qx - 4 * old.qx) (l.y.val + 4 * new.qy - 4 * old.qy)

/-- The names of the firings and the SEQs of the halted strands that a save image holds. -/
def SaveImage.fids (m : SaveImage) : List Nat := (m.stations.map (fun q => (q.parked ++ q.ended).map (·.id))).flatten

/-- The strand record that an element names, in a new slot. -/
def AccOp.moved (op : AccOp) (c : Nat) : AccOp :=
  match op with
  | .elemLoad r i d => .elemLoad (8 * c + r % 8) i d
  | .elemStore r i d v => .elemStore (8 * c + r % 8) i d v
  | .scadd r i t d v => .scadd (8 * c + r % 8) i t d v
  | .scflush r b => .scflush (8 * c + r % 8) b
  | .load x => .load x
  | .store v => .store v
  | .loadF a b => .loadF a b
  | .storeF v => .storeF v
  | .fec => .fec
  | .feq => .feq
  | .amo o v x => .amo o v x
  | .tload k a b d => .tload k a b d
  | .tstore a b d v => .tstore a b d v
  | .written => .written
  | .prefetch => .prefetch

/-- A Thicket request follows its instance: one that runs at its issuing port's engine goes to that of the new place, ahead of new ones
(R370, R388). -/
def State.thMoved (s : State) (t : ThReq) (l : Loc) (c : Nat) : ThReq :=
  let here := decide (t.op = .hash ∨ t.op = .tprb)
  { t with loc := l, ctx := c, tag := retag c t.tag, resumed := true, eng := if here then s.issuePort l else t.eng }

/-- Accesses, copies, Thicket requests and pending faults of an instance follow it to its new place. -/
def State.moveUnits (s : State) (old new : Inst) : State :=
  let fids := match old.save with | some m => m.fids | none => []
  let c := new.slot
  let s1 := s.modMm (fun m =>
    { m with accesses := m.accesses.map (fun a =>
               if a.inst = old.id ∧ (a.agent = .firing ∨ a.agent = .strand ∨ a.agent = .copy) then
                 { a with loc := moveLoc old new a.loc, ctx := c, tag := retag c a.tag, op := a.op.moved c } else a),
             copies := m.copies.map (fun a => if a.inst = old.id then { a with loc := moveLoc old new a.loc, ctx := c } else a),
             thq := m.thq.map (fun t =>
               if t.inst = old.id then s.thMoved t (moveLoc old new t.loc) c else t) })
  s1.modVf old.vf (fun f =>
    { f with pendFaults := f.pendFaults.map (fun p =>
        match p.2 with
        | .firing st fid => if fids.contains fid then (p.1, .firing (moveLoc old new st) fid) else p
        | .strand st k =>
            if old.stations.any (fun x => decide (x.1 = st)) && decide (k / 8 = old.slot) then
              (p.1, .strand (moveLoc old new st) (8 * c + k % 8)) else p
        | .access _ => p
        | .copy _ => p
        | .thicket _ => p) })

/-- The saved messages of an instance are applied (R146). -/
def State.applyMsg (s : State) (i : Inst) (m : SavedMsg) : State :=
  match m with
  | .credit => s.modSt i.gate (fun v => v.modCtx i.slot (fun x => { x with allow := min (x.allow + 1) x.allowInit }))
  | .join b n j => s.joinAt i.id i.gate i.slot b n j

/-- Restore an instance from its save image, and merge its saved tokens and messages. -/
def State.restoreInst (s : State) (old new : Inst) : State :=
  match old.save with
  | none => s
  | some m =>
      let s1 := s.charge new.vf (portCol new.die.val 0) .hbmRead ((m.bytes + 127) / 128)
      let s2 := m.stations.foldl (fun st q => st.restoreSta new q) (s1.moveUnits old new)
      let s3 := m.toks.foldl (fun st f => st.deliverEdge new f) s2
      m.msgs.foldl (fun st q => st.applyMsg new q) s3

/-! ### PLACEMENT_COMMIT (R81, R119, R219, R307, R312) -/

/-- A station takes the lease of an instance of a function: bytes of another partition are cleared (R219). -/
def Station.lease (v : Station) (vf : Nat) : Station :=
  let w := { v with spRel := [] }
  if v.spOwner = some vf then w else { w with sp := [], spFull := [], spOwner := some vf }

/-- The shadow of a slot becomes the slot, with every strand record FINISHED and its COUNT 0 (R223). -/
def Station.commitSlot (v : Station) (c vf : Nat) : Station :=
  match Map.find v.shadow c with
  | none => v
  | some x =>
      let v1 := { v with shadow := Map.drop v.shadow c, ctxs := vset v.ctxs c { x with temps := (v.ctx c).temps },
                         strands := Vector.ofFn (fun k => if k.val / 8 = c then {} else v.strands[k]) }
      if x.leased then v1.lease vf else v1

/-- A station of the placement has a slot of another partition that still drains (R411). -/
def State.drainBlocks (s : State) (i : Inst) (m : Image) (p : Placement) : Bool :=
  (m.stationsAt i.die.val p.qx p.qy).any (fun x =>
    (List.range 8).any (fun c => ((s.st x.1).ctx c).draining && decide (s.ctxVf (s.st x.1) c ≠ some i.vf)))

/-- Code of the sampler record of a commit (R433). -/
def Placement.code (p : Placement) : Nat := if p.relink then 5 else if p.folded then 3 else 2

/-- Commit a placement whose range entries have been read. -/
def State.commitPlacing (s : State) (d : Fin 2) (p : Placement) (i : Inst) (m : Image) (rs : List Range) : State :=
  let j := { i with qx := p.qx, qy := p.qy, slot := p.slot, folded := p.folded, die := d, save := none, wantLink := false }
  let s1 := (m.stationsAt d.val p.qx p.qy).foldl (fun st x => st.modSt x.1 (fun v => v.commitSlot p.slot i.vf)) s
  let s2 := (s1.modInst i.id (fun _ => j)).modEng d (fun e =>
    { e with placing := some { p with phase := .committed }, calls := ndrop e.calls i.id, toTry := ndrop e.toTry i.id })
  let s3 := s2.modMm (fun q => { q with ranges := Map.put (Map.put q.ranges i.id rs) (2 ^ 18 + i.vf * 2 + d.val) rs })
  let s4 := s3.restoreInst i j
  let go := fun (k : Inst) => if k.st.ended then k else { k with st := if k.retDone then IState.returning else .live }
  let s5 := (s4.modInst i.id go).sampleInst j p.code j.word
  s5.sweepFences i.id

/-- PLACEMENT_COMMIT (R312): the loaded placement of a die commits on every station at once. It waits for the range table (R232)
and for a drain of another partition (R411), and commits on no quad that has been withdrawn (R35). A poisoned range table kills the
instance (R423). -/
def execPlacementCommit (s : State) : Out :=
  let d := s.arg.loc.die
  match (s.eng d).placing with
  | none => .next s
  | some p =>
      match s.inst? p.inst with
      | none => .next s
      | some i =>
          match i.img with
          | none => .next s
          | some m =>
              if decide (p.phase = .committed) || p.abort.isSome || decide (p.how = 0) || s.onWithdrawn d ||
                  s.drainBlocks { i with die := d } m p then .next s
              else
                match s.rangeTable d i.vf with
                | .wait t => .next t
                | .fail _ pa t => .next (t.poisonRead d i pa)
                | .ok rs t => .next (t.commitPlacing d p i m rs)

/-! ### COMMIT_ACKNOWLEDGED (R197, R307, R311, R312, R318) -/

/-- Release one held token of an instance: an argument or a held INJ for an entry, or a token that a fence diverted. -/
def State.releaseHeld (s : State) (i : Inst) (q : Nat × Flight) : State :=
  if q.1 < 16 then s.launchTok { q.2 with tok := i.entryTok q.1 q.2.tok.payload q.2.tok.tag (q.2.tok.payload.crossTl kindArg) }
  else s.deliverEdge i q.2

/-- Release one held INJ token: an entry that the image lacks drops it (R197). Released tokens leave as one stream, whichever core sent
them, so that an entry receives them in the order in which they were issued (R444). -/
def State.releaseInj (s : State) (i : Inst) (q : Nat × Flight) : State :=
  if (match i.img with | some m => decide (q.1 < m.entries.length) | none => false) then
    s.launchTok { q.2 with tok := i.entryTok q.1 q.2.tok.payload q.2.tok.tag q.2.tok.payload.kindTl, from_ := heldFrom }
  else s.staleToken { q.2.tok with tag := setBits q.2.tok.tag 38 18 i.id } none 3

/-- The entry arc's first token of a spawned successor (R311). -/
def State.releaseFirst (s : State) (i : Inst) : State :=
  match i.first with
  | none => s
  | some (e, v, tag) =>
      (s.modInst i.id (fun j => { j with first := none })).launchTok
        { tok := i.entryTok e (.word v) tag (kindWord, false), from_ := i.id, before := some i.firstBefore }

/-- COMMIT_ACKNOWLEDGED (R312): every station has acknowledged; the argument tokens, the held INJ tokens and a successor's first
token leave. -/
def execCommitAcknowledged (s : State) : Out :=
  let d := s.arg.loc.die
  match (s.eng d).placing with
  | none => .next s
  | some p =>
      if p.phase = .loaded then .next s
      else
        let s0 := s.modEng d (fun e => { e with placing := none })
        match s0.inst? p.inst with
        | none => .next s0
        | some i =>
            let inj := (match i.kind with
              | .root => (match s0.root? i.root with | some r => r.held | none => [])
              | .callee _ _ _ => []
              | .spawned => [])
            let s1 := (s0.modInst i.id (fun j => { j with held := [] })).modRoot (match i.kind with | .root => i.root | _ => 2 ^ 64)
              (fun r => { r with held := [] })
            let s2 := i.held.foldl (fun st q => st.releaseHeld i q) s1
            let s3 := inj.foldl (fun st q => st.releaseInj i q) s2
            .next ((s3.releaseFirst i).settle i.id)

/-! ### PLACEMENT_ABORT (R314) -/

/-- A request goes back to the head of its queue. -/
def State.backToQueue (s : State) (d : Fin 2) (i : Inst) (relink : Bool) : State :=
  let s1 := s.modInst i.id (fun j => { j with st := if relink then .saved else .queued })
  s1.modEng d (fun e =>
    match i.kind with
    | .callee _ _ _ =>
        if relink then { e with admitted := i.id :: e.admitted }
        else { e with toTry := if e.toTry.contains i.id then e.toTry else i.id :: e.toTry }
    | .root => { e with admitted := i.id :: e.admitted }
    | .spawned => { e with admitted := i.id :: e.admitted })

/-- Tokens that a fence has diverted for an instance that goes are dropped (R315). -/
def State.dropDiverted (s : State) (i : Inst) : State :=
  (i.held.filter (fun q => decide (q.1 = 16))).foldl (fun st q => st.staleToken q.2.tok none 3) s

/-- A request that is refused: its record goes, a caller gets nulls, a root record its status. -/
def State.refuse (s : State) (i : Inst) (code arg : Nat) : State :=
  let s1 := ((s.engineFault code i.vf i.die.val i.id 0 arg).dropDiverted i).dropEntries i
  let gone := fun (t : State) =>
    { t with prick := { t.prick with insts := t.prick.insts.filter (fun j => decide (j.id ≠ i.id)) } }
  match i.kind with
  | .callee caller _ _ =>
      (gone ((s1.nullResults i).modInst caller (fun j =>
        { j with callees := j.callees.filter (fun c => decide (c.2 ≠ i.id)) }))).settle caller
  | .root => gone ((s1.modRoot i.root (fun r => { r with held := [] })).lowerLineage i.root (some code))
  | .spawned => gone (s1.lowerLineage i.root (some code))

/-- Abort a placement with a code (R314). -/
def State.abortPlacing (s : State) (d : Fin 2) (p : Placement) (i : Inst) (code : Nat) : State :=
  let s1 := ((s.modEng d (fun e => { e with placing := none })).dropShadow i.id).sampleInst i 0x0007 code
  if code = 0 ∨ code = codeUncorrectable ∨ code = codeResidue then s1.backToQueue d i p.relink
  else if p.relink then
    (s1.engineFault code i.vf i.die.val i.id 0 p.abortArg).modInst i.id (fun j =>
      { j with st := .saved, fetchPark := true, wantLink := false })
  else s1.refuse i code p.abortArg

/-- PLACEMENT_ABORT (R314): the placement of a die that must abort leaves no station changed. -/
def execPlacementAbort (s : State) : Out :=
  let d := s.arg.loc.die
  match (s.eng d).placing with
  | none => .next s
  | some p =>
      match p.abort, s.inst? p.inst with
      | some code, some i => if p.phase = .loaded then .next (s.abortPlacing d p i code) else .next s
      | _, _ => .next s

end Sys2Proof.Machine
end

