-- ==== Sys2Proof/Machine/Access.lean ====
section
/-!
DEFINITION. Accesses of the fabric to memory and to scratchpads: issuing them (R142, R220 to R222, R267 to R271), faults at border
ports (R247 to R249, R423), serving them at their home (R231 to R246, R253, R256, R265, R284), and what comes back (R226, R470).
-/

namespace Sys2Proof.Machine

/-! ### Sizes -/

/-- Bytes of an access size. -/
def sizeBytes : Size → Nat
  | .b1 => 1
  | .b2 => 2
  | .b4 => 4
  | .b8 => 8

/-- Bytes of a strand element. -/
def elemBytes : ESize → Nat
  | .e1 => 1
  | .e2 => 2
  | .e4 => 4
  | .e8 => 8
  | .e16 => 16
  | .e64 => 64
  | .e128 => 128
  | .e384 => 384

/-- The alignment of an element (R221). -/
def elemAlign (z : ESize) : Nat := min (elemBytes z) 64

/-- Bytes of a scratchpad, and of a whole lease (R218). -/
def leaseSize : Nat := 2 ^ 18

/-- A value of n bytes, extended to 64 bits by sign or by zeros. -/
def extend (sext : Bool) (n v : Nat) : Double := if sext then sext64 (dbl v) (8 * n) else zext64 (dbl v) (8 * n)

/-! ### The scratchpad of a station (R218, R220, R222) -/

/-- A scratchpad range of a context is valid: it lies within the lease. -/
def Ctx.spValid (c : Ctx) (a n : Nat) : Bool := c.leased && decide (a + n ≤ leaseSize)

/-- Firings of a slot that wait for a granule go on. -/
def Station.wakeGranule (v : Station) (g : Nat) : Station :=
  { v with parked := v.parked.map (fun f => if f.park = .granule g then { f with park := .cleared } else f) }

/-- A granule of the scratchpad becomes full, and what waits for it goes on. -/
def Station.fill (v : Station) (g : Nat) : Station := { v.wakeGranule g with spFull := nput v.spFull g }

/-- A granule of the scratchpad becomes empty. -/
def Station.empty (v : Station) (g : Nat) : Station := { v with spFull := ndrop v.spFull g }

/-- Write bytes of the scratchpad; releases that the locations carried are forgotten. -/
def Station.spWrite (v : Station) (a n x : Nat) : Station :=
  { v with sp := Mem.write v.sp a n x, spRel := relDrop v.spRel a n }

/-- Bytes of the scratchpad modulo the lease, for strands (R222). -/
def Station.spReadMod (v : Station) (a n : Nat) : Nat :=
  let k := min n (leaseSize - a % leaseSize)
  Mem.read v.sp (a % leaseSize) k + Mem.read v.sp 0 (n - k) * 256 ^ k

/-- Write bytes of the scratchpad modulo the lease (R222). -/
def Station.spWriteMod (v : Station) (a n x : Nat) : Station :=
  let k := min n (leaseSize - a % leaseSize)
  let v1 := v.spWrite (a % leaseSize) k x
  if k < n then v1.spWrite 0 (n - k) (x / 256 ^ k) else v1

/-- An agent of an instance on a die acquires what a release left, when both stand within both scopes (R264, R270). -/
def Rel.meets (r : Rel) (sc : Scope) (die : Fin 2) (inst : Nat) : Bool :=
  let ok := fun (x : Scope) =>
    match x with
    | .firing => false
    | .plot => decide (r.inst = inst)
    | .die => decide (r.die = die)
    | .device => true
    | .system => true
  ok r.scope && ok sc

/-- What an acquire takes over. -/
def acquired (l : List Rel) (sc : Scope) (die : Fin 2) (inst : Nat) : List Nat :=
  (l.filter (fun r => r.meets sc die inst)).foldl (fun a r => nunion a r.uids) []

/-! ### Issuing (R142, R144, R267 to R271) -/

/-- Whether the instruction may use an lsid; one whose lsid has been performed traps with STORE_MASK (R144). -/
def State.lsidUsed (s : State) (n : Nat) : Bool := bit s.fir.lsids n

/-- The lsid of the firing in progress has been performed. -/
def State.lsidNow (s : State) (n : Nat) : State := s.modFir (fun f => { f with lsids := f.lsids ||| BitVec.ofNat 32 (2 ^ n) })

/-- An access of the firing in progress: its partition, its place, its tag. -/
def State.newAcc (s : State) (agent : Agent) (op : AccOp) (va n lsid : Nat) : Access :=
  { uid := s.sched.uid, agent := agent, loc := s.sched.curSt, ctx := s.fir.ctx, inst := s.fir.inst, vf := s.fVf, fid := s.fir.id,
    op := op, va := va, n := n, lsid := lsid, tag := s.fir.tag, stage := hdrStage s.fir.header }

/-- An access is the firing's own: it happens before what the firing does later. -/
def State.ownAcc (s : State) (uid : Nat) (load : Bool) : State :=
  s.modFir (fun f => { f with own := f.own ++ [(uid, load)], before := nput f.before uid })

/-- Issue an access of the firing, direct or as an element of a strand (R269, R279). -/
def State.issueAcc (s : State) (a : Access) : State :=
  (s.newUid.2.modMm (fun m => { m with accesses := m.accesses ++ [a] })).ownAcc a.uid a.op.isLoad

/-- A temporary waits for the value of an access. -/
def State.pend (s : State) (d : Fin 8) (uid : Nat) : State :=
  s.modFir (fun f => { f with pendT := f.pendT.filter (fun p => decide (p.1 ≠ d.val)) ++ [(d.val, uid)] })

/-- The firing issues nothing until an access returns. -/
def State.stallOn (s : State) (uid : Nat) : State := s.modFir (fun f => { f with stall := some uid })

/-! ### Firings, wherever they are -/

/-- The firing of a name at a station, or in the save image of its instance. -/
def State.firingOf (s : State) (l : Loc) (id fid : Nat) : Option Firing :=
  match (s.st l).findFiring fid with
  | some f => some f.1
  | none =>
      ((s.inst? id).bind (·.save)).bind (fun m =>
        m.stations.findSome? (fun q => (q.parked ++ q.ended).find? (fun f => decide (f.id = fid))))

/-- Change the firing of a name at a station: in progress, ended or parked; or in the save image of its instance. -/
def State.onFiring (s : State) (l : Loc) (id fid : Nat) (f : Firing → Firing) : State :=
  let upd := fun (g : Firing) => if g.id = fid then f g else g
  let s1 := s.modSt l (fun v =>
    { v with firing := if v.firing.active && decide (v.firing.id = fid) then f v.firing else v.firing,
             ended := v.ended.map upd, parked := v.parked.map upd })
  s1.modInst id (fun i => { i with save := i.save.map (fun m =>
    { m with stations := m.stations.map (fun q => { q with ended := q.ended.map upd, parked := q.parked.map upd }) }) })

/-- An lsid of a firing has been performed (R143). -/
def Firing.done (f : Firing) (n : Nat) : Firing := { f with lsids := f.lsids ||| BitVec.ofNat 32 (2 ^ n) }

/-- The frame of a firing that a FENCE has set aside goes back through the overflow path, and the firing parks; it goes on at its
FENCE (R31, R142, R280). A frame that the arena loses goes with its instance (R132). -/
def State.parkAside (s : State) (l : Loc) (f : Firing) (p : Park) : State :=
  let t := s.overflowPlace l f.ctx f.inst (hdrStage f.header)
  let upd := fun (pl : Place × List (Nat × Nat)) (g : Firing) =>
    if g.id = f.id then
      { g with park := p, fence := none, reserved := 0, frame := { f.frame with place := pl.1, recs := pl.2, readySince := none } }
    else g
  match t.1 with
  | none => t.2.modSt l (fun v => { v with parked := v.parked.filter (fun g => decide (g.id ≠ f.id)) })
  | some pl => t.2.modSt l (fun v => { v with parked := v.parked.map (upd pl) })

/-- Park the firing of a name when it is in progress or waits for its FENCE, else leave it where it is. -/
def State.parkIf (s : State) (l : Loc) (fid : Nat) (p : Park) : State :=
  if (s.st l).firing.active && decide ((s.st l).firing.id = fid) then s.parkFiring l p
  else
    match (s.st l).parked.find? (fun f => decide (f.id = fid ∧ f.park = .fence)) with
    | some f => s.parkAside l f p
    | none => s

/-- A firing that parked on an access goes on at once, but for one that issues nothing until the access returns. -/
def Firing.unparkAt (f : Firing) (uid : Nat) : Firing :=
  if f.park = .access uid ∧ f.stall ≠ some uid then { f with park := .cleared } else f

/-! ### Records of accesses -/

/-- Change an access. -/
def State.modAcc (s : State) (uid : Nat) (f : Access → Access) : State :=
  s.modMm (fun m => { m with accesses := m.accesses.map (fun a => if a.uid = uid then f a else a) })

/-- Drop an access. -/
def State.dropAcc (s : State) (uid : Nat) : State :=
  s.modMm (fun m => { m with accesses := m.accesses.filter (fun a => decide (a.uid ≠ uid)) })

/-- The address and the length of the next piece of an access: up to the end of its row and of its page. -/
def Access.piece (a : Access) : Nat × Nat :=
  let cut := fun (va n : Nat) => (va, min n (65536 - va % 65536))
  match a.op with
  | .tload _ _ rb st => cut ((a.va + a.prog / rb * st) % 2 ^ 64) (rb - a.prog % rb)
  | .tstore _ rb st _ => cut ((a.va + a.prog / rb * st) % 2 ^ 64) (rb - a.prog % rb)
  | _ => cut ((a.va + a.prog) % 2 ^ 64) (a.n - a.prog)

/-- A piece of an access has been served. -/
def Access.advance (a : Access) (k : Nat) : Access :=
  { a with prog := a.prog + k, st := if a.prog + k < a.n then .issued else .served }

/-- Permission that an access needs (R231): 1 READ, 2 WRITE. -/
def AccOp.need : AccOp → Nat
  | .load _ => 1
  | .loadF _ _ => 1
  | .feq => 1
  | .tload _ _ _ _ => 1
  | .elemLoad _ _ _ => 1
  | .prefetch => 1
  | .store _ => 2
  | .storeF _ => 2
  | .fec => 2
  | .amo _ _ _ => 2
  | .tstore _ _ _ _ => 2
  | .elemStore _ _ _ _ => 2
  | .scadd _ _ _ _ _ => 2
  | .scflush _ _ => 2
  | .written => 2

/-- The access needs a page marked F/E (R256, R258). -/
def AccOp.needFe : AccOp → Bool
  | .loadF _ _ => true
  | .storeF _ => true
  | .fec => true
  | .feq => true
  | .load _ => false
  | .tload _ _ _ _ => false
  | .elemLoad _ _ _ => false
  | .prefetch => false
  | .store _ => false
  | .amo _ _ _ => false
  | .tstore _ _ _ _ => false
  | .elemStore _ _ _ _ => false
  | .scadd _ _ _ _ _ => false
  | .scflush _ _ => false
  | .written => false

/-- The access reads data of its lines, so that a poisoned one kills its instance (R423). A prefetch is not one: it fills lines and
never faults (R260; DESIGN CHOICE, LOG 55). -/
def AccOp.reads : AccOp → Bool
  | .load _ => true
  | .loadF _ _ => true
  | .tload _ _ _ _ => true
  | .elemLoad _ _ _ => true
  | .amo _ _ _ => true
  | .feq => false
  | .prefetch => false
  | .store _ => false
  | .storeF _ => false
  | .fec => false
  | .tstore _ _ _ _ => false
  | .elemStore _ _ _ _ => false
  | .scadd _ _ _ _ _ => false
  | .scflush _ _ => false
  | .written => false

/-- The strand element that an access is: record, index, definition. -/
def AccOp.elem : AccOp → Option (Nat × Nat × StrandDef)
  | .elemLoad r i d => some (r, i, d)
  | .elemStore r i d _ => some (r, i, d)
  | .scadd r i _ d _ => some (r, i, d)
  | .load _ => none
  | .loadF _ _ => none
  | .tload _ _ _ _ => none
  | .amo _ _ _ => none
  | .feq => none
  | .prefetch => none
  | .store _ => none
  | .storeF _ => none
  | .fec => none
  | .tstore _ _ _ _ => none
  | .scflush _ _ => none
  | .written => none

/-- The addresses that an access touches, as ranges. -/
def Access.spans (a : Access) : List (Nat × Nat) :=
  match a.op with
  | .tload _ rows rb st => (List.range rows).map (fun r => ((a.va + r * st) % 2 ^ 64, rb))
  | .tstore rows rb st _ => (List.range rows).map (fun r => ((a.va + r * st) % 2 ^ 64, rb))
  | _ => [(a.va, a.n)]

/-- Two accesses touch a common address. -/
def Access.meets (a b : Access) : Bool := a.spans.any (fun p => b.spans.any (fun q => decide (p.1 < q.1 + q.2 ∧ q.1 < p.1 + p.2)))

/-! ### Strand records, wherever they are -/

/-- A context slot works for an instance: it still holds it and does not drain. What an ended instance has left under way goes
on without one. -/
def State.slotLive (s : State) (id : Nat) (l : Loc) (c : Nat) : Bool :=
  match s.inst? id with
  | none => true
  | some i =>
      let x := (s.st l).ctx c
      i.st.ended || (x.valid && decide (x.inst = id) && !x.draining)

/-- The saved station of an instance that stood at a station of its last place. -/
def Inst.savedAt (i : Inst) (l : Loc) : Option SavedStation :=
  (i.save.getD {}).stations.find? (fun q => decide (locOf i.die.val (4 * i.qx + q.dx) (4 * i.qy + q.dy) = l))

/-- Strand record r of an instance at a station: in the slot, or in the save image once the slot has been saved. -/
def State.strandOf (s : State) (id : Nat) (l : Loc) (r : Nat) : Strand :=
  if s.slotLive id l (r / 8) then (s.st l).strand r
  else (((s.inst? id).bind (fun i => i.savedAt l)).bind (fun q => q.strands[r % 8]?)).getD {}

/-- Change a strand record of an instance, in its slot or in the save image. -/
def State.onStrand (s : State) (id : Nat) (l : Loc) (r : Nat) (f : Strand → Strand) : State :=
  if s.slotLive id l (r / 8) then s.modSt l (fun v => v.modStrand r f)
  else
    s.modInst id (fun i =>
      let put := fun (q : SavedStation) =>
        if locOf i.die.val (4 * i.qx + q.dx) (4 * i.qy + q.dy) = l then { q with strands := q.strands.modify (r % 8) f } else q
      { i with save := i.save.map (fun m => { m with stations := m.stations.map put }) })

/-! ### Faults at border ports (R247, R248, R423) -/

/-- Part of a value: k bytes from byte p on. -/
def slice (v p k : Nat) : Nat := v / 256 ^ p % 256 ^ k

/-- The first n rows of rb bytes each, read one behind the other into x, in a tile register (R262). -/
def putRows (rb x n : Nat) (t : Tile) : Tile :=
  (List.range n).foldl (fun (u : Tile) r => { u with bits := setBits u.bits (3072 * r) (8 * rb) (slice x (rb * r) rb) }) t

/-- DETAIL and ARG of a border-port fault (R417). -/
def State.portDetail (s : State) (a : Access) : Nat × Nat :=
  match a.op.elem with
  | some (r, i, d) =>
      let y := if d.tagged then ((s.strandOf a.inst a.loc r).perf.filter (fun u => decide (a.uid < u))).length else 0
      (0x8000 + r % 8, i % 2 ^ 32 + y * 2 ^ 32)
  | none => (a.lsid, 0)

/-- The record of a border-port fault. -/
def State.portInfo (s : State) (a : Access) (code va addr2 : Nat) : FaultInfo :=
  let f := s.firingOf a.loc a.inst a.fid
  let d := s.portDetail a
  { code := code, source := 1, vf := some a.vf, loc := some a.loc, die := a.loc.die, inst := a.inst, ctx := a.ctx, tag := a.tag,
    va := va, addr2 := addr2, detail := d.1, arg := d.2,
    stage := a.stage,
    lsids := match f with | some g => g.lsids.toNat | none => 0,
    tokens := match f with | some g => g.sent | none => 0 }

/-- The access goes to the host's record, not the partition's (R247). -/
def toHostCode (code : Nat) : Bool := decide (code = codeStage2) || decide (code = codeInWalk)

/-- The strand of an access is HALTED. -/
def State.elemHalted (s : State) (a : Access) : Bool :=
  match a.op.elem with
  | some (r, _, d) => !d.tagged && decide ((s.strandOf a.inst a.loc r).st = .halted)
  | none => false

/-- An instance has not ended: a fault of its work waits for a resume. -/
def State.liveInst (s : State) (id : Nat) : Bool := (s.inst? id).any (fun i => !i.st.ended)

/-- A faulting access is kept for its resume while its instance lives: an ordered element while its record still has its definition
(R223), a tagged one whatever has become of its record (R249). -/
def State.elemOwn (s : State) (a : Access) : Bool :=
  s.liveInst a.inst && (match a.op.elem with
    | some (r, _, d) => d.tagged || decide ((s.strandOf a.inst a.loc r).d.id = d.id)
    | none => true)

/-- A tile load that stops at a row has written the rows before it (R262). -/
def State.rowsBack (s : State) (a : Access) : State :=
  match a.op with
  | .tload k _ rb _ =>
      let x := (s.st a.loc).ctx a.ctx
      if x.valid && decide (x.inst = a.inst) then
        s.modSt a.loc (fun v => v.modCtx a.ctx (fun c => c.setTile k (putRows rb a.value (a.prog / rb) c.tiles[k])))
      else s
  | _ => s

/-- An access whose fault or page has been answered runs again from its start (R249, R262). -/
def Access.again (a : Access) : Access := { a with st := .issued, prog := 0, value := 0, faultSeq := none }

/-- A border-port fault of an access (R248): a prefetch is dropped; an ordered strand halts at the element; the issuing firing parks
at a direct access, with the rows of a TLD before it done; a tagged element waits. While a strand is HALTED its other elements stay
as they are. An access that has outlived its instance, or an element its run, is reported and gone. -/
def State.portFault (s : State) (a : Access) (code va addr2 : Nat) : State :=
  match a.op with
  | .prefetch => s.dropAcc a.uid
  | _ =>
      if s.elemHalted a then s.modAcc a.uid (fun b => { b with st := .issued })
      else
        let info := s.portInfo a code va addr2
        let ordered := match a.op.elem with | some (r, _, d) => if d.tagged then none else some r | none => none
        let res : FaultFor := match ordered with | some r => .strand a.loc r | none => .access a.uid
        let t : Option Nat × State := if toHostCode code then (none, s.reportHost info) else s.report info false (some res)
        if !s.elemOwn a then t.2.dropAcc a.uid
        else
        let s1 := (t.2.rowsBack a).modAcc a.uid (fun b => { b with st := .faulted, faultSeq := t.1 })
        match ordered with
        | some r =>
            s1.onStrand a.inst a.loc r (fun k => { k with st := .halted, faultSeq := t.1 })
        | none => if a.op.elem.isSome then s1 else s1.parkIf a.loc a.fid (.access a.uid)

/-- An access has read a poisoned line. -/
def State.poisonKill (s : State) (a : Access) (va pa : Nat) : State :=
  (s.dropAcc a.uid).poisonInst a.vf a.loc a.inst a.ctx a.stage a.tag va pa

/-! ### When an access may be served (R228, R256, R261, R267, R269) -/

/-- A queue register of the slot has room for one more element of a strand (R226). -/
def State.queueRoom (s : State) (l : Loc) (c : Nat) (n : Fin 2) : Bool :=
  let x := (s.st l).ctx c
  let coming := s.mm.accesses.filter (fun a => decide (a.loc = l ∧ a.ctx = c) && decide (a.st ≠ .returned) &&
    (match a.op with | .elemLoad _ _ d => decide (d.dest = .q n) && (a.isServed || !d.tagged) | _ => false))
  decide ((if n = 0 then x.q0 else x.q1).length + coming.length < 64)

/-- Earlier accesses of the same firing to the same addresses have taken effect, and a plain load would see them. -/
def State.inOrder (s : State) (a : Access) : Bool :=
  (s.mm.accesses.takeWhile (fun b => decide (b.uid ≠ a.uid))).all (fun b =>
    decide (b.fid ≠ a.fid) || decide (b.agent ≠ .firing) || decide (a.agent ≠ .firing) || !a.meets b ||
      (b.isServed && !(b.rdcLeft && a.op.isLoad && decide (homeDie b.pa ≠ a.loc.die))))

/-- The turn of an element among those of its strand: ordered stores in increasing order; a tagged load for a queue register
when the queue has room. -/
def State.elemTurn (s : State) (a : Access) : Bool :=
  match a.op with
  | .elemStore r i d _ =>
      let k := (s.st a.loc).strand r
      d.tagged || decide (k.d.id ≠ d.id) || (decide (i = k.done) && decide (k.st = .armed))
  | .elemLoad _ _ d => (match d.dest with | .q n => !d.tagged || s.queueRoom a.loc a.ctx n | .sp => true | .arc _ => true)
  | _ => true

/-- The instance of a sync load that waits may take it: it runs (R307). -/
def State.syncMay (s : State) (a : Access) : Bool :=
  match a.st with
  | .syncWait => (match s.inst? a.inst with | some i => i.st.runs | none => false)
  | _ => true

/-- An access of a slot goes on while the slot works for its instance; one of a saved instance waits for its relink. -/
def State.accLive (s : State) (a : Access) : Bool :=
  match a.agent with
  | .firing => s.slotLive a.inst a.loc a.ctx
  | .strand => s.slotLive a.inst a.loc a.ctx
  | .copy => s.slotLive a.inst a.loc a.ctx
  | .core _ => true
  | .thicket => true
  | .engine => true

/-- An access may be served. -/
def State.canServe (s : State) (a : Access) : Bool :=
  a.holds.all s.holdMet && s.inOrder a && s.elemTurn a && s.syncMay a && s.accLive a

/-! ### Serving at the home (R231 to R246, R256, R265, R284) -/

/-- A write of an access at its home: copies in the other die's RDC are to be invalidated (R265). -/
def State.homeWrite (s : State) (a : Access) (pa k v : Nat) : State :=
  let rdc := s.rdcCopies pa k
  (s.serveWrite a.vf pa k v).modAcc a.uid (fun b =>
    { b with pa := pa, wrote := b.wrote ++ [(pa, k)], rdcLeft := b.rdcLeft || rdc, sysLeft := b.sysLeft || isHostMem pa })

/-- An access has a piece served. -/
def State.served (s : State) (uid k : Nat) : State := s.modAcc uid (·.advance k)

/-- The combination of an atomic on n bytes (R284); none where it writes nothing. -/
def amoNew (op : AmoOp) (n old v : Nat) : Option Nat :=
  let s := fun (x : Nat) => (BitVec.ofNat (8 * n) x).toInt
  match op with
  | .add => some ((old + v) % 256 ^ n)
  | .min => some (if s v < s old then v else old)
  | .max => some (if s old < s v then v else old)
  | .minn => some (min old v)
  | .maxn => some (max old v)
  | .and => some (old &&& v)
  | .or => some (old ||| v)
  | .xor => some (old ^^^ v)
  | .xchg => some v
  | .cas e => if old = e.toNat % 256 ^ n then some v else none
  | .fadd => some (fp32Add old v)

/-- An atomic's step at the home: the releases that the location carries stay behind what the atomic writes, beside its own when it
makes one; an atomic that writes nothing changes none (R270). -/
def State.serveAmo (s : State) (a : Access) (pa : Nat) (op : AmoOp) (v : Double) : State :=
  let g := s.homeRead a.vf pa a.n
  let old := relsIn s.mm.rels pa a.n
  let obs := match a.acq with | some sc => acquired old sc a.loc.die a.inst | none => []
  let s2 := match amoNew op a.n g.1 (v.toNat % 256 ^ a.n) with
    | some x =>
        let rels := old ++ a.rel.toList
        let s1 := g.2.homeWrite a pa a.n x
        if rels.isEmpty then s1 else s1.modMm (fun m => { m with rels := relPut m.rels pa a.n rels })
    | none => g.2
  ((s2.freshRdc a.loc.die.val pa).modAcc a.uid (fun b => { b with pa := pa, value := g.1, obs := obs })).served a.uid a.n

/-- A sync load at the home (R256, R257): it takes the value of a full granule, or waits there, and its firing parks. -/
def State.serveSync (s : State) (a : Access) (pa : Nat) (clear : Bool) : State :=
  if s.feFull pa then
    let g := s.homeRead a.vf pa a.n
    let obs := acquired (relsIn s.mm.rels pa a.n) .device a.loc.die a.inst
    let rdc := clear && s.rdcCopies (pa / 16 * 16) 16
    let s1 := if clear then g.2.feSet a.vf pa false else g.2.freshRdc a.loc.die.val pa
    (s1.modAcc a.uid (fun b => { b with pa := pa, value := g.1, obs := obs, wrote := b.wrote ++ [(pa / 16 * 16, 16)], rdcLeft := rdc })).served a.uid a.n
  else (s.modAcc a.uid (fun b => { b with pa := pa, st := .syncWait })).parkIf a.loc a.fid (.access a.uid)

/-- A synchronising store at the home (R256): the granule becomes full in the same step. The releases that the location carries stay
behind what this further release writes (R270). -/
def State.serveStoreF (s : State) (a : Access) (pa v : Nat) : State :=
  let s1 := (s.homeWrite a pa a.n v).feSet a.vf pa true
  let old := relsIn s.mm.rels pa a.n
  let s2 := match a.rel with
    | some r => s1.modMm (fun m => { m with rels := relPut m.rels pa a.n (old ++ [r]) })
    | none => s1
  s2.served a.uid a.n

/-- Granules of a range of memory become empty (R258). -/
def State.clearFe (s : State) (vf pa k : Nat) : State :=
  ((List.range (k / 16)).foldl (fun st j => st.feSet vf (pa + 16 * j) false) s).dropRdc pa k

/-- An element of a tagged store has been performed: the strand finishes at COUNT (R252). -/
def Strand.bump (k : Strand) (d : StrandDef) (uid : Nat) : Strand :=
  if k.d.id = d.id then { k with done := k.done + 1, perf := if d.tagged ∧ d.store then k.perf ++ [uid] else k.perf } else k

/-- A strand is armed with a definition, or finishes at once with nothing to do (R223, R225). -/
def Strand.arm (k : Strand) (d : StrandDef) : Strand :=
  { k with d := d, pend := none, pendGo := false, pendDef := false, next := 0, done := 0, perf := [],
           st := if d.count = 0 then .finished else .armed }

/-- A strand takes its pending definition: armed when its SGO has been given (R229). -/
def Strand.takePend (k : Strand) : Strand :=
  match k.pend with
  | none => k
  | some d =>
      if k.pendGo then k.arm d
      else { k with d := d, pend := none, pendDef := false, st := if k.pendDef then .idle else .finished }

/-- A strand that is armed and has performed COUNT elements is FINISHED, and takes its pending definition (R223, R229). -/
def Strand.settle (k : Strand) : Strand :=
  if k.st = .armed ∧ k.d.count ≤ k.done then ({ k with st := .finished }).takePend else k

/-- One more element of a strand is performed. -/
def State.elemDone (s : State) (l : Loc) (r : Nat) (d : StrandDef) (uid : Nat) : State :=
  s.modSt l (fun v => v.modStrand r (fun k => (k.bump d uid).settle))

/-- Updates of a scatter arena: entries of 16 bytes (LOG 24). -/
def scatEntry : Nat := 16

/-- The scatter arena of a function has room for one more update beyond the 256 of a bin on its port (R253). -/
def State.scatRoom (s : State) (vf : Nat) : Bool :=
  let beyond := (s.mm.bins.filter (fun b => decide (b.vf = vf))).map (fun b => b.ups.length - 256)
  decide ((beyond.foldl (· + ·) 0 + 1) * scatEntry ≤ (s.vf vf).scatlen.toNat)

/-- A full scatter arena has stopped the intake of a bin of a function: its SCADDs wait at issue until the port has applied it
(R254). -/
def State.scatStopped (s : State) (vf : Nat) : Bool :=
  s.mm.bins.any (fun b => decide (b.vf = vf ∧ 256 ≤ b.ups.length)) && !s.scatRoom vf

/-- A bin of a function takes one more update: 256 on the port, and more in the scatter arena while that has room (R253). -/
def State.binRoom (s : State) (vf port frame : Nat) : Bool :=
  let n := match s.mm.bins.find? (fun b => decide (b.port = port ∧ b.vf = vf ∧ b.frame = frame)) with
    | some b => b.ups.length
    | none => 0
  decide (n < 256) || s.scatRoom vf

/-- An update joins its bin (R253). -/
def addBin (l : List Bin) (port vf frame : Nat) (u : BinUpdate) : List Bin :=
  match l with
  | [] => [⟨port, vf, frame, [u]⟩]
  | b :: rest =>
      if b.port = port ∧ b.vf = vf ∧ b.frame = frame then { b with ups := b.ups ++ [u] } :: rest
      else b :: addBin rest port vf frame u

/-- A scatter-add reaches the port of its element's home slice. -/
def State.serveScadd (s : State) (a : Access) (pa r i : Nat) (t : ScType) (d : StrandDef) (v : Double) : State :=
  if s.binRoom a.vf (s.homePort pa) (pa / 65536) then
    let u : BinUpdate := { pa := pa, n := a.n, t := t, value := v, strand := r, seq := a.uid, i := i, acc := a }
    let s1 := s.modMm (fun m => { m with bins := addBin m.bins (s.homePort pa) a.vf (pa / 65536) u })
    ((s1.modAcc a.uid (fun b => { b with pa := pa })).served a.uid a.n).elemDone a.loc r d a.uid
  else s

/-- Fill the lines of a range for a prefetch (R260). -/
def State.prefetchFill (s : State) (a : Access) (pa k : Nat) : State :=
  (pieces pa k).foldl (fun st p =>
    let line := p.1 / 128
    let t := st.fillL2 line a.vf
    if homeDie p.1 ≠ a.loc.die ∧ (t.mm.rdcLine? a.loc.die.val line a.vf).isNone then t.fillRdc a.loc.die.val line a.vf else t) s

/-- A piece of an access whose address has been translated is checked and served (R231, R240, R243, R256, R258). -/
def State.serveAt (s : State) (a : Access) (pa perm : Nat) : State :=
  let p := a.piece
  let write := decide (a.op.need = 2)
  if a.op.needFe && !(bit (BitVec.ofNat 4 perm) 3) then s.portFault a codePermission p.1 0
  else if !s.fotPass a.vf pa write then s.portFault a codeFot p.1 0
  else if s.portWaits pa then s.modAcc a.uid (fun b => { b with st := .issued })
  else if a.op.reads && s.poisoned pa p.2 then s.poisonKill a p.1 pa
  else
    match a.op with
    | .load _ =>
        let g := s.serveRead a.loc.die a.vf pa p.2
        (g.2.modAcc a.uid (fun b => { b with pa := pa, value := b.value + g.1 * 256 ^ b.prog })).served a.uid p.2
    | .tload _ _ _ _ =>
        let g := s.serveRead a.loc.die a.vf pa p.2
        (g.2.modAcc a.uid (fun b => { b with pa := pa, value := b.value + g.1 * 256 ^ b.prog })).served a.uid p.2
    | .elemLoad _ _ _ =>
        let g := s.serveRead a.loc.die a.vf pa p.2
        (g.2.modAcc a.uid (fun b => { b with pa := pa, value := b.value + g.1 * 256 ^ b.prog })).served a.uid p.2
    | .store v => (s.homeWrite a pa p.2 (slice v a.prog p.2)).served a.uid p.2
    | .tstore _ _ _ v => (s.homeWrite a pa p.2 (slice v a.prog p.2)).served a.uid p.2
    | .elemStore r _ d v =>
        let s1 := (s.homeWrite a pa p.2 (slice v a.prog p.2)).served a.uid p.2
        if a.prog + p.2 < a.n then s1 else s1.elemDone a.loc r d a.uid
    | .loadF c _ => s.serveSync a pa c
    | .storeF v => s.serveStoreF a pa v
    | .fec => ((s.clearFe a.vf pa p.2).modAcc a.uid (fun b => { b with pa := pa })).served a.uid p.2
    | .feq => ((s.fillL2 (pa / 128) a.vf).modAcc a.uid (fun b => { b with pa := pa, value := if s.feFull pa then 1 else 0 })).served a.uid a.n
    | .amo op v _ => s.serveAmo a pa op v
    | .scadd r i t d v => s.serveScadd a pa r i t d v
    | .prefetch =>
        let s1 := s.prefetchFill a pa p.2
        if a.prog + p.2 < a.n then s1.served a.uid p.2 else s1.dropAcc a.uid
    | .scflush _ _ => s
    | .written => s

/-! ### Translating (R231, R236, R470) -/

/-- What translates the next piece of an access. -/
def State.treq (s : State) (a : Access) : TReq :=
  { die := a.loc.die, port := s.issuePort a.loc, vf := a.vf, va := a.piece.1, need := a.op.need,
    ranges := (Map.find s.mm.ranges a.inst).getD [] }

/-- The 64 KiB page of a function that an access asks for next. -/
def Access.page (a : Access) : Nat × Nat := (a.vf, a.piece.1 / 65536)

/-- An access holds or shares an entry of its port's miss queue: it is being walked, or waits for a page (R236). -/
def Access.missing (a : Access) : Bool :=
  match a.st with
  | .walking _ => true
  | .paged _ => true
  | .issued => false
  | .syncWait => false
  | .faulted => false
  | .served => false
  | .returned => false

/-- The entries of a port's miss queue, oldest first: misses to one page share an entry (R236). -/
def State.missQueue (s : State) (port : Nat) : List (Nat × Nat) :=
  ((s.mm.accesses.filter (fun a => a.missing && decide (s.issuePort a.loc = port))).map Access.page).eraseDups

/-- The strand that an access is an element of: its station and record. -/
def Access.strandOf (a : Access) : Option (Loc × Nat) := a.op.elem.map (fun e => (a.loc, e.1))

/-- The miss queue of an access's port takes it: its page has an entry, or an entry of the 64 is free, and one of the strand's 8
(R236, R237). -/
def State.missRoom (s : State) (a : Access) : Bool :=
  let q := s.missQueue (s.issuePort a.loc)
  let mine := ((s.mm.accesses.filter (fun b => b.missing && a.strandOf.isSome && decide (b.strandOf = a.strandOf))).map Access.page).eraseDups
  (q.contains a.page || decide (q.length < 64)) && (mine.contains a.page || decide (mine.length < 8))

/-- A stage-2 miss sends a page request; while the port has none to give it asks again, from the start of the access (R213, R214, R249).
The firing of a direct access parks, with the rows of a TLD before it done (R31, R248, R262). A prefetch that misses is dropped. -/
def State.accMiss (s : State) (a : Access) (inWalk : Bool) (ia : Nat) : State :=
  match a.op with
  | .prefetch => s.dropAcc a.uid
  | _ =>
      let p := s.pageRequest a.loc.die a.vf a.piece.1 ia inWalk (decide (a.op.need = 2)) none (.access a.uid)
      let s0 := p.2.rowsBack a
      let s1 := match p.1 with
        | some req => s0.modAcc a.uid (fun b => { b with st := .paged req })
        | none => s0.modAcc a.uid (·.again)
      if a.op.elem.isSome then s1 else s1.parkIf a.loc a.fid (.access a.uid)

/-- What a translation gives for an access; a miss that finds no place in the miss queue waits where it is (R237). -/
def State.accOut (s : State) (a : Access) (o : TOut) : State :=
  match o with
  | .more w => if a.missing || s.missRoom a then s.modAcc a.uid (fun b => { b with st := .walking w }) else s
  | .done pa perm => s.serveAt a pa perm
  | .fault c a2 => s.portFault a c a.piece.1 a2
  | .miss w ia => s.accMiss a w ia
  | .poison pa => s.poisonKill a a.piece.1 pa

/-! ### SCFLUSH (R254) -/

/-- Every SCADD of the strand issued before a flush is in its bin, and, where it waits for the sums, has been applied. -/
def State.flushed (s : State) (a : Access) (r : Nat) (sums : Bool) : Bool :=
  let mine := fun (b : Access) => decide (b.loc = a.loc ∧ b.ctx = a.ctx ∧ b.uid < a.uid)
  s.mm.accesses.all (fun b => !mine b || b.isServed || (match b.op with | .scadd q _ _ _ _ => decide (q ≠ r) | _ => true)) &&
    (!sums || s.mm.bins.all (fun b => b.ups.all (fun u =>
      decide (u.acc.loc ≠ a.loc ∨ u.acc.ctx ≠ a.ctx ∨ u.strand ≠ r ∨ a.uid ≤ u.seq))))

/-! ### Deliveries (R52, R220, R226) -/

/-- The scratchpad address of element i (R226). -/
def StrandDef.spAddr (d : StrandDef) (i : Nat) : Nat := (d.offset.toNat + i * elemBytes d.size) % leaseSize

/-- Granules that element i of a strand writes. -/
def StrandDef.granules (d : StrandDef) (i : Nat) : List Nat :=
  let a := d.spAddr i
  (span (a / 16) ((a % 16 + elemBytes d.size + 15) / 16)).map (· % (leaseSize / 16))

/-- No later element of an ordered strand writes a granule that element i writes (R52). -/
def StrandDef.lastInto (d : StrandDef) (i g : Nat) : Bool :=
  let turn := leaseSize / elemBytes d.size
  let later := (span (i + 1) 16 ++ span (i + turn - 16) 33).filter (fun j => decide (i < j ∧ j < d.count))
  later.all (fun j => !(d.granules j).contains g) && decide (d.count ≤ i + turn + 16)

/-- A scratchpad delivery of element i: bytes, and the granules that turn full. -/
def Station.deliverSp (v : Station) (d : StrandDef) (i x : Nat) : Station :=
  let v1 := v.spWriteMod (d.spAddr i) (elemBytes d.size) x
  ((d.granules i).filter (fun g => d.tagged || d.lastInto i g)).foldl Station.fill v1

/-- A tile of one row with 16-bit elements (R226). -/
def rowTile (n x : Nat) : Tile := { rows := 1, rowBytes := n, width := .w16, bits := BitVec.ofNat 49152 (x % 256 ^ n) }

/-- The token of an element on an arc. -/
def elemPayload (d : StrandDef) (x : Nat) : Payload :=
  if elemBytes d.size ≤ 8 then .word (dbl x) else .tile (rowTile (elemBytes d.size) x)

/-- Firings that wait for an element that has been delivered go on (R251). -/
def Station.wakeElement (v : Station) (c r n : Nat) : Station :=
  let upd := fun (f : Firing) =>
    match f.park with
    | .element k i => if f.ctx = c ∧ k = r % 8 ∧ i < n then { f with park := .cleared } else f
    | _ => f
  { v with parked := v.parked.map upd }

/-- Deliver a load element by its destination (R226). -/
def State.deliverElem (s : State) (a : Access) (i : Nat) (d : StrandDef) : State :=
  match d.dest with
  | .sp => s.modSt a.loc (fun v => v.deliverSp d i a.value)
  | .q n =>
      s.modSt a.loc (fun v => v.modCtx a.ctx (fun c =>
        if n = 0 then { c with q0 := c.q0 ++ [dbl a.value] } else { c with q1 := c.q1 ++ [dbl a.value] }))
  | .arc _ =>
      let tag := if d.tagged then a.tag else withIter d.otag ((tagIter d.otag + i) % 2 ^ 20)
      let tag1 := retag a.ctx tag
      s.lateSend a.loc d.fid a.inst d.route tag1 (elemPayload d a.value) d.rel

/-- The slot of an access still holds its instance. -/
def State.slotOwn (s : State) (a : Access) : Bool :=
  let x := (s.st a.loc).ctx a.ctx
  x.valid && decide (x.inst = a.inst)

/-- An element comes back: an ordered one in its turn (R228). -/
def State.elemBack (s : State) (a : Access) (r i : Nat) (d : StrandDef) : State :=
  if !s.slotOwn a then s
  else
    let s1 := (s.deliverElem a i d).elemDone a.loc r d a.uid
    s1.modSt a.loc (fun v => v.wakeElement a.ctx r (i + 1))

/-- An ordered element waits in the reorder unit for the earlier ones, and behind a HALTED element. -/
def State.elemWaits (s : State) (a : Access) : Bool :=
  match a.op with
  | .elemLoad r i d =>
      let k := (s.st a.loc).strand r
      !d.tagged && s.slotOwn a && decide (k.d.id = d.id) && decide (k.done < i)
  | _ => false

/-! ### Returns (R143, R262, R470) -/

/-- The value of a load comes back to a firing: to its temporary, with what it acquired; a firing parked at its home goes on. -/
def Firing.loaded (f : Firing) (uid : Nat) (td : Option Nat) (v : Double) (obs : List Nat) : Firing :=
  let t := match td with
    | some k => if f.pendT.any (fun p => decide (p = (k, uid))) then vset f.t k v else f.t
    | none => f.t
  { f with t := t, pendT := f.pendT.filter (fun p => decide (p.2 ≠ uid)), before := nunion f.before obs,
           stall := if f.stall = some uid then none else f.stall,
           park := if f.park = .access uid then .cleared else f.park }

/-- The value that a load gives. -/
def Access.result (a : Access) : Double :=
  match a.op with
  | .load x => extend x a.n a.value
  | .loadF _ x => extend x a.n a.value
  | .amo _ _ x => extend x a.n a.value
  | _ => dbl a.value

/-- The lsids that an access performs. -/
def State.lsidsBack (s : State) (a : Access) : State :=
  ((a.fid, a.lsid) :: a.extra).foldl (fun st p => st.onFiring a.loc a.inst p.1 (·.done p.2)) s

/-- A firing that parked on an access goes on as it has returned. -/
def Firing.unparked (f : Firing) (uid : Nat) : Firing := { f with park := if f.park = .access uid then .cleared else f.park }

/-- What an access brings back to its station; a firing that parked on it goes on (R249). -/
def State.accBack (s0 : State) (a : Access) : State :=
  let s := s0.onFiring a.loc a.inst a.fid (·.unparked a.uid)
  let val := fun (st : State) => st.onFiring a.loc a.inst a.fid (·.loaded a.uid a.td a.result a.obs)
  match a.op with
  | .load _ => val s
  | .loadF _ _ => val s
  | .feq => val s
  | .amo _ _ _ => val (s.lsidsBack a)
  | .store _ => s.lsidsBack a
  | .storeF _ => s.lsidsBack a
  | .tstore _ _ _ _ => s.lsidsBack a
  | .tload _ _ _ _ => s.rowsBack a
  | .elemLoad r i d => s.elemBack a r i d
  | .elemStore _ _ d _ => if d.dest = .sp then s else s.lsidsBack a
  | .scadd _ _ _ _ _ => s.lsidsBack a
  | .fec => s
  | .scflush _ _ => s
  | .written => s
  | .prefetch => s

/-- An access has returned: its record goes once no RDC copy is left; the Simiow port has acknowledged a write to host memory
(R265). -/
def State.accReturned (s : State) (a : Access) : State :=
  if a.rdcLeft then s.modAcc a.uid (fun b => { b with st := .returned, sysLeft := false }) else s.dropAcc a.uid

/-! ### Copies (R259) -/

/-- Granule i of a copy: where it is read and where it is written. -/
def Copy.srcAt (c : Copy) (i : Nat) : Nat := (c.src + 16 * i) % 2 ^ 64
def Copy.dstAt (c : Copy) (i : Nat) : Nat := (c.dst + 16 * i) % 2 ^ 64

/-- Bytes of a copy that are performed. -/
def Copy.performed (c : Copy) : Nat := 16 * c.moved.length

/-- The granule that a copy issues k-th: in increasing address order when its destination lies at or below its source, else in
decreasing order (R259). -/
def Copy.turn (c : Copy) (k : Nat) : Nat := if c.dst ≤ c.src then k else c.granules - 1 - k

/-- The read of granule i has been performed. -/
def Copy.hasRead (c : Copy) (i : Nat) : Bool := c.moved.contains i || (Map.find c.got i).isSome

/-- Granule i may be written: it has been read, and so has every source granule at its destination. -/
def Copy.mayWrite (c : Copy) (i : Nat) : Bool :=
  (Map.find c.got i).isSome && !c.moved.contains i &&
    (decide (c.srcSp ≠ c.dstSp) || (List.range c.granules).all (fun j => decide (c.srcAt j ≠ c.dstAt i) || c.hasRead j))

/-- Change a copy. -/
def State.modCopy (s : State) (uid : Nat) (f : Copy → Copy) : State :=
  s.modMm (fun m => { m with copies := m.copies.map (fun c => if c.uid = uid then f c else c) })

/-- The tag and the stage of the firing of a copy. -/
def State.copyTag (s : State) (c : Copy) : BitVec 64 := match s.firingOf c.loc c.inst c.fid with | some x => x.tag | none => 0
def State.copyStage (s : State) (c : Copy) : Nat :=
  match s.firingOf c.loc c.inst c.fid with
  | some x => hdrStage x.header
  | none => 0

/-- A fault of a copy: it stops at the granule (R248), or is gone where it has outlived its instance. -/
def State.copyFault (s : State) (c : Copy) (code va addr2 : Nat) : State :=
  let g := s.firingOf c.loc c.inst c.fid
  let f : FaultInfo :=
    { code := code, source := 1, vf := some c.vf, loc := some c.loc, die := c.loc.die, inst := c.inst, ctx := c.ctx, va := va,
      addr2 := addr2, detail := c.lsid, arg := c.performed, tag := s.copyTag c, stage := s.copyStage c,
      lsids := match g with | some x => x.lsids.toNat | none => 0,
      tokens := match g with | some x => x.sent | none => 0 }
  let t : Option Nat × State := if toHostCode code then (none, s.reportHost f) else s.report f false (some (.copy c.uid))
  if s.liveInst c.inst then t.2.modCopy c.uid (fun x => { x with faulted := true })
  else t.2.modMm (fun m => { m with copies := m.copies.filter (fun x => decide (x.uid ≠ c.uid)) })

end Sys2Proof.Machine
end

