-- ==== Sys2Proof/Machine/Vector.lean ====
section
/-!
DEFINITION. The vector class: opcodes 0xB0 to 0xC5 and 0xCE (R327 to R342).
-/

namespace Sys2Proof.Machine

/-! ### Shared forms -/

/-- The station format word of the firing's slot. -/
def State.format (s : State) : BitVec 6 := s.cx.format

/-- FORMAT_MISMATCH at issue, before anything is written (R328). -/
def State.mismatch (s : State) : Out := .next (s.trapIns codeFormat 0)

/-- Write a tile register of the slot. -/
def State.setTile (s : State) (d : Fin 16) (t : Tile) : State := s.modCx (·.setTile d t)

/-- Write Td over a shape with one draw for each of its elements under SR (R103, R329): the value of element (r, e) is given,
and its code is encoded in the element format of the shape. -/
def State.vecOut (s : State) (d : Fin 16) (shape : Tile) (rm : Rm) (f : Nat → Nat → Num) : State :=
  let c := s.cx
  let fmt := elemFmt s.format shape.width
  let n := shape.perRow
  let t := (c.tile d).writeAs shape (fun r e => fmt.encodeVec rm (c.draw (r * n + e)) (f r e))
  s.modCx (fun x => (x.setTile d t).drawn rm (shape.rows * n))

/-- An elementwise instruction of two tiles, in the shape and format of Ta (R328, R334). -/
def State.vec2 (s : State) (d a b : Fin 16) (rm : Rm) (f : Num → Num → Num) : Out :=
  let x := s.cx.tile a
  let y := s.cx.tile b
  if !x.agrees y then s.mismatch
  else .next (s.vecOut d x rm (fun r e => f (x.dec s.format r e) (y.dec s.format r e))).adv

/-- An elementwise function of one tile (R335). -/
def State.vec1 (s : State) (d a : Fin 16) (rm : Rm) (f : Num → Num) : Out :=
  let x := s.cx.tile a
  .next (s.vecOut d x rm (fun r e => f (x.dec s.format r e))).adv

/-! ### Arithmetic (R334) -/

/-- VADD (R334). -/
def execVadd (d a b : Fin 16) (r : Rm) (s : State) : Out := s.vec2 d a b r (Num.add (decide (r = .rd)))

/-- VSUB (R334). -/
def execVsub (d a b : Fin 16) (r : Rm) (s : State) : Out := s.vec2 d a b r (fun x y => Num.add (decide (r = .rd)) x y.neg)

/-- VMUL (R334). -/
def execVmul (d a b : Fin 16) (r : Rm) (s : State) : Out := s.vec2 d a b r Num.mul

/-- VFMA (R334): Td keeps its own shape and gives the format. -/
def execVfma (d a b : Fin 16) (r : Rm) (s : State) : Out :=
  let x := s.cx.tile a
  let y := s.cx.tile b
  let z := s.cx.tile d
  if !x.agrees y || !z.agrees x then s.mismatch
  else
    .next (s.vecOut d z r (fun i e =>
      Num.add (decide (r = .rd)) (Num.mul (x.dec s.format i e) (y.dec s.format i e)) (z.dec s.format i e))).adv

/-- VMIN (R95, R334). -/
def execVmin (d a b : Fin 16) (s : State) : Out := s.vec2 d a b .rne (Num.pick false)

/-- VMAX (R95, R334). -/
def execVmax (d a b : Fin 16) (s : State) : Out := s.vec2 d a b .rne (Num.pick true)

/-! ### Functions (R335) -/

/-- VABS (R335). -/
def execVabs (d a : Fin 16) (s : State) : Out := s.vec1 d a .rne Num.abs

/-- VNEG (R335). -/
def execVneg (d a : Fin 16) (s : State) : Out := s.vec1 d a .rne Num.neg

/-- VRCP (R335). -/
def execVrcp (d a : Fin 16) (r : Rm) (s : State) : Out := s.vec1 d a r Num.recip

/-- VRSQ (R335). -/
def execVrsq (d a : Fin 16) (r : Rm) (s : State) : Out := s.vec1 d a r Num.rsqrt

/-- VEXP2 (R335). -/
def execVexp2 (d a : Fin 16) (r : Rm) (s : State) : Out := s.vec1 d a r Num.exp2

/-- VLOG2 (R335). -/
def execVlog2 (d a : Fin 16) (r : Rm) (s : State) : Out := s.vec1 d a r Num.log2

/-! ### VCVT (R336, R337) -/

/-- The largest ⌊log2 |x|⌋ of the finite elements that are not zero, or −32,768 (R337). -/
def maxExponent (l : List Num) : Int :=
  l.foldl (fun a x => match x with
    | .nan => a
    | .inf _ => a
    | .fin _ m e => if m = 0 then a else max a ((Nat.log2 m : Int) + e)) (-32768)

/-- Elements of a tile in the order of R103. -/
def Tile.places (t : Tile) : List (Nat × Nat) :=
  ((List.range t.rows).map (fun r => (List.range t.perRow).map (fun e => (r, e)))).flatten

/-- VCVT (R336, R337). -/
def execVcvt (d a b : Fin 16) (f : BitVec 6) (r : Rm) (s : State) : Out :=
  let x := s.cx.tile a
  let fmt := fmtOf f
  let n := x.perRow
  let rb := 32 * ((n * fmt.width + 255) / 256)
  let routed := (s.cx.route? s.fir.sprig b.val).isSome
  if 384 < rb then s.mismatch
  else
    s.claiming (if routed then [b.val] else []) (fun s =>
      let c := s.cx
      let out := fun (i e : Nat) =>
        if e < n then fmt.saturate r (c.draw (i * n + e)) (x.dec s.format i e) else (0, false)
      let w := TWidth.ofBits fmt.width
      let t := (c.tile d).write x.rows rb w (rb * 8 / fmt.width) (fun i e => (out i e).1)
      let count := (x.places.filter (fun p => (out p.1 p.2).2)).length
      let top := maxExponent (x.places.map (fun p => x.dec s.format p.1 p.2))
      let s1 := s.modCx (fun y => (y.setTile d t).drawn r (x.rows * n))
      let tok : Payload :=
        if count = 0 then .null else .word (dbl (codeOfInt top 16 * 2 ^ 32 + count % 2 ^ 32))
      .next (if routed then s1.emitTok b.val s.otag tok none else s1).adv)

/-! ### VSCL (R338) -/

/-- The codes of a row of n elements that VSCL writes into the register of its own scales (R338, LOG 26): a scale whose place has
been written before is read as written. -/
def vsclRow (n k : Nat) (put : Nat → Num → Nat) (x : Nat → Num) (scale : Nat → Nat) : List Nat :=
  (List.range n).foldl (fun l e =>
    let j := k * n + e
    l ++ [put e (Num.mul (x j) (e5m2Spec.decode ((l[j / 8]?).getD (scale (j / 8)))))]) []

/-- VSCL where Td is Tb: in place, in row order. -/
def State.vsclInPlace (s : State) (d : Fin 16) (x z : Tile) (k : Nat) (r : Rm) : State :=
  let c := s.cx
  let n := z.perRow
  let fmt := elemFmt s.format z.width
  let rows := (List.range x.rows).map (fun i =>
    vsclRow n k (fun e v => fmt.encodeVec r (c.draw (i * n + e)) v) (x.dec s.format i) (z.code i))
  let t := z.writeAs { z with rows := x.rows } (fun i e => ((rows[i]?).bind (·[e]?)).getD 0)
  s.modCx (fun q => (q.setTile d t).drawn r (x.rows * n))

/-- VSCL (R338). -/
def execVscl (d a b k : Fin 16) (r : Rm) (s : State) : Out :=
  let x := s.cx.tile a
  let y := s.cx.tile b
  let z := s.cx.tile d
  let n := z.perRow
  if decide (y.rows < x.rows) || decide (y.width ≠ .w8) || decide (x.perRow < (k.val + 1) * n) ||
      decide (y.perRow < (k.val + 1) * n / 8) then s.mismatch
  else if d = b then .next (s.vsclInPlace d x z k.val r).adv
  else
    .next (s.vecOut d { z with rows := x.rows } r (fun i e =>
      let j := k.val * n + e
      Num.mul (x.dec s.format i j) (e5m2Spec.decode (y.code i (j / 8))))).adv

/-! ### Reductions (R339) -/

/-- VREDS (R339). -/
def execVreds (d : Fin 8) (a b : Fin 16) (s : State) : Out :=
  let x := s.cx.tile a
  if x.rows ≤ b.val then s.mismatch
  else .next (s.wr d (dbl (reduceSum x.perRow (x.dec s.format b.val)))).adv

/-- VREDX (R115, R339). -/
def execVredx (d : Fin 8) (a b : Fin 16) (s : State) : Out :=
  let x := s.cx.tile a
  if x.rows ≤ b.val then s.mismatch
  else
    let top := ((List.range x.perRow).map (x.dec s.format b.val)).foldl (Num.pick true) .nan
    match elemFmt s.format x.width with
    | .fp _ _ => .next (s.wr d (dbl (toF32 top))).adv
    | .int _ =>
        match top with
        | .fin n m _ => .next (s.wr d (idbl (if n then -(m : Int) else m))).adv
        | .nan => .next (s.wr d 0).adv
        | .inf _ => .next (s.wr d 0).adv

/-- VDOT (R339). -/
def execVdot (d : Fin 8) (a b r : Fin 16) (s : State) : Out :=
  let x := s.cx.tile a
  let y := s.cx.tile b
  if decide (x.rows ≤ r.val) || decide (y.rows ≤ r.val) || decide (x.perRow ≠ y.perRow) then s.mismatch
  else .next (s.wr d (dbl (reduceDot x.perRow (x.dec s.format r.val) (y.dec s.format r.val)))).adv

/-! ### Comparison and selection (R340) -/

/-- A predicate of two values (R340). -/
def predHolds (p : Pred) (a b : Num) : Bool :=
  match p with
  | .eq => a.eq b
  | .lt => a.lt b
  | .le => a.lt b || a.eq b
  | .un => a.isNan || b.isNan
  | .ne => !a.eq b

/-- VCMP (R340). -/
def execVcmp (d a b : Fin 16) (p : Pred) (s : State) : Out :=
  let x := s.cx.tile a
  let y := s.cx.tile b
  if !x.agrees y then s.mismatch
  else
    .next (s.setTile d ((s.cx.tile d).writeAs x (fun r e =>
      if predHolds p (x.dec s.format r e) (y.dec s.format r e) then 2 ^ TWidth.bits x.width - 1 else 0))).adv

/-- VSEL (R340). -/
def execVsel (d a b m : Fin 16) (s : State) : Out :=
  let x := s.cx.tile a
  let y := s.cx.tile b
  let z := s.cx.tile m
  if decide (x.rows ≠ y.rows ∨ x.rowBytes ≠ y.rowBytes ∨ x.width ≠ y.width) || !z.agrees x then s.mismatch
  else .next (s.setTile d ((s.cx.tile d).writeAs x (fun r e => if z.code r e ≠ 0 then x.code r e else y.code r e))).adv

/-! ### Moves (R341) -/

/-- VBCAST (R341): the shape is kept. -/
def execVbcast (d : Fin 16) (a : Sel) (s : State) : Out :=
  let z := s.cx.tile d
  .next ((s.eat [a]).setTile d (z.writeAs z (fun _ _ => (s.sel a).toNat))).adv

/-- VEXT (R341): row b, column c. -/
def execVext (d : Fin 8) (a b : Fin 16) (c : BitVec 12) (s : State) : Out :=
  let x := s.cx.tile a
  if decide (x.rows ≤ b.val) || decide (x.perRow ≤ c.toNat) then s.mismatch
  else .next (s.wr d (dbl (x.code b.val c.toNat))).adv

/-- VSHF (R341): the index tile's codes are natural numbers. -/
def execVshf (d a b : Fin 16) (s : State) : Out :=
  let x := s.cx.tile a
  let y := s.cx.tile b
  if !x.agrees y then s.mismatch
  else
    .next (s.setTile d ((s.cx.tile d).writeAs x (fun r e =>
      if y.code r e < x.perRow then x.code r (y.code r e) else 0))).adv

/-! ### VSEED (R342) -/

/-- VSEED (R342). -/
def execVseed (a : Sel) (s : State) : Out :=
  .next ((s.eat [a]).modCx (fun c => { c with seed := s.sel a, rctr := 0 })).adv

end Sys2Proof.Machine
end

