-- ==== Sys2Proof/Machine/Matrix.lean ====
section
/-!
DEFINITION. The matrix class: opcodes 0xD0 to 0xDB, and the steps of the matrix unit: HEAT_BUCKET_CYCLE, MATRIX_ENTRY_START,
MATRIX_ENTRY_END, PARTIAL_ARRIVAL (R109 to R113, R347 to R366).
-/

namespace Sys2Proof.Machine

/-! ### What a station's format allows (R349) -/

/-- A product of MMA, of MMAS, or none. -/
inductive MatFmt where
  | fp
  | int
  | mx
  | none
deriving DecidableEq, Repr

/-- The product of a station format word. -/
def matFmt (f : BitVec 6) : MatFmt :=
  if bit f 5 then .fp
  else
    match f.toNat with
    | 1 => .fp
    | 2 => .fp
    | 3 => .int
    | 5 => .mx
    | 6 => .fp
    | _ => .none

/-- Heat tokens of a product. -/
def matHeat (f : BitVec 6) : Nat :=
  match matFmt f with
  | .mx => 7
  | .int => 5
  | .fp => if nativeWidth f = .w16 then 6 else 5
  | .none => 0

/-- The class of the charge of a product. -/
def matWork (f : BitVec 6) : Work :=
  match matFmt f with
  | .mx => .mma4
  | .int => .mma8
  | .fp => if nativeWidth f = .w16 then .mma16 else .mma8
  | .none => .mma8

/-- The accumulators of a station hold INT32. -/
def accIsInt (f : BitVec 6) : Bool := decide (f = 3 ∨ f = 4)

/-! ### Products (R109 to R112, R362) -/

/-- Element (i, j) of an accumulator. -/
def accElem (a : BitVec 8192) (i j : Nat) : Nat := bits a (32 * (16 * i + j)) 32

/-- An accumulator from its elements. -/
def accOf (f : Nat → Nat → Nat) : BitVec 8192 := BitVec.ofNat 8192 (rowBits 512 (fun i => rowBits 32 (f i) 16) 16)

/-- A code of an operand, 0 outside its shape. -/
def Tile.codeIn (t : Tile) (r e : Nat) : Nat := if r < t.rows ∧ e < t.perRow then t.code r e else 0

/-- A value of an operand in the native format of a station. -/
def Tile.valIn (t : Tile) (f : BitVec 6) (r e : Nat) : Num := (elemFmt f t.width).decode (t.codeIn r e)

/-- Row i of A against row j of B in groups of 32 in floating point (R109). -/
def dotFp (f : BitVec 6) (a b : Tile) (groups i j acc : Nat) : Nat :=
  (List.range groups).foldl
    (fun x g => fp32Add x (toF32 (groupSum ((span (32 * g) 32).map (fun k => (a.valIn f i k, b.valIn f j k)))))) acc

/-- Row i of A against row j of B in groups of 32 in integers (R111). -/
def dotInt (a b : Tile) (i j acc : Nat) : Nat :=
  (List.range 12).foldl
    (fun x g =>
      let gs := (span (32 * g) 32).foldl (fun (t : Int) k => t + intOf (a.codeIn i k) 8 * intOf (b.codeIn j k) 8) 0
      codeOfInt (clampS (intOf x 32 + gs) 32) 32) acc

/-- Row i of A against row j of B in 96 blocks with their scales (R112). -/
def dotMx (a b t : Tile) (i j acc : Nat) : Nat :=
  (List.range 96).foldl
    (fun x m =>
      let pk := groupSum ((span (8 * m) 8).map (fun e => (e2m1Spec.decode (a.codeIn i e), e2m1Spec.decode (b.codeIn j e))))
      let sk := Num.mul (e5m2Spec.decode (t.codeIn i m)) (e5m2Spec.decode (t.codeIn j (96 + m)))
      toF32 (Num.add false (f32Spec.decode x) (Num.mul pk sk))) acc

/-- An accumulator after a product. -/
def matProduct (f : BitVec 6) (a b t : Tile) (acc : BitVec 8192) : BitVec 8192 :=
  match matFmt f with
  | .int => accOf (fun i j => dotInt a b i j (accElem acc i j))
  | .mx => accOf (fun i j => dotMx a b t i j (accElem acc i j))
  | .fp => accOf (fun i j => dotFp f a b (if nativeWidth f = .w16 then 6 else 12) i j (accElem acc i j))
  | .none => acc

/-- The tail's addition of a chain result into A0 (R359). -/
def accAdd (f : BitVec 6) (a b : BitVec 8192) : BitVec 8192 :=
  accOf (fun i j =>
    if accIsInt f then codeOfInt (clampS (intOf (accElem a i j) 32 + intOf (accElem b i j) 32) 32) 32
    else fp32Add (accElem a i j) (accElem b i j))

/-! ### Reading an accumulator (R100, R364) -/

/-- The value of an accumulator element, with the scale of R100. -/
def accValue (f : BitVec 6) (scale : Option Double) (c : Nat) : Num :=
  let v := if accIsInt f then Num.ofInt (intOf c 32) else f32Spec.decode c
  match scale with
  | none => v
  | some x =>
      let a := bf16Spec.decode (bits x 0 16)
      let b := if bits x 16 16 = 0 then Num.fin false 1 0 else bf16Spec.decode (bits x 16 16)
      f32Spec.decode (toF32 (Num.mul (Num.mul v a) b))

/-- The tile of ACCRD: the draws of SR follow the elements, and the padding draws none. -/
def accTile (c : Ctx) (acc : BitVec 8192) (scale : Option Double) (rm : Rm) (fmt : BitVec 6) : Tile :=
  let f := fmtOf fmt
  let rb := 32 * ((16 * f.width + 255) / 256)
  let code := fun (i j : Nat) =>
    if j < 16 then (f.saturate rm (c.draw (16 * i + j)) (accValue c.format scale (accElem acc i j))).1 else 0
  { rows := 16, rowBytes := rb, width := TWidth.ofBits f.width,
    bits := BitVec.ofNat 49152 (tileBits f.width (rb * 8 / f.width) code 16) }

/-! ### The queue at issue (R350) -/

/-- The entry is a product. -/
def MatOp.isProduct : MatOp → Bool
  | .mma _ _ => true
  | .mmas _ _ _ => true
  | .afeed _ => true
  | .acctail => false
  | .accclr => false
  | .accld _ => false
  | .accrd _ _ _ _ => false

/-- The entry is an AFEED. -/
def MatOp.isFeed : MatOp → Bool
  | .afeed _ => true
  | .mma _ _ => false
  | .mmas _ _ _ => false
  | .acctail => false
  | .accclr => false
  | .accld _ => false
  | .accrd _ _ _ _ => false

/-- The queue of the station holds its 8 entries. -/
def State.matFull (s : State) : Bool := decide (8 ≤ (s.st s.sched.curSt).matq.length)

/-- The entry of an operation on an accumulator (8: none) that the firing issues. -/
def State.matEntry (s : State) (op : MatOp) (acc : Nat) : MatEntry :=
  let f := s.fir
  { op := op, ctx := f.ctx, inst := f.inst, acc := acc, tag := f.otag, ftag := f.tag, fid := f.id, sprig := f.sprig, seed := s.cx.seed,
    rctr := s.cx.rctr }

/-- Enter an entry into the queue. -/
def State.enqueueE (s : State) (e : MatEntry) : State := s.modSt s.sched.curSt (fun v => { v with matq := v.matq ++ [e] })

/-- Enter an operation on an accumulator (8: none) into the queue. -/
def State.enqueue (s : State) (op : MatOp) (acc : Nat) : State := s.enqueueE (s.matEntry op acc)

/-- A queue entry that checks its operands first: it waits while the queue is full (R350). -/
def State.matIssue (s : State) (good : Bool) (op : MatOp) (acc : Nat) : Out :=
  if s.matFull then .next s
  else if good then .next (s.enqueue op acc).adv
  else s.mismatch

/-! ### Shapes and copies (R360, R361) -/

/-- TCFG (R360): the shape is set and the bits stay. -/
def execTcfg (d a : Fin 16) (w : TWidth) (b : Fin 12) (s : State) : Out :=
  if acceptsWidth s.format w then
    .next (s.setTile d { s.cx.tile d with rows := a.val + 1, rowBytes := 32 * (b.val + 1), width := w }).adv
  else s.mismatch

/-- TZERO (R360): the bits are cleared and the shape stays. -/
def execTzero (d : Fin 16) (s : State) : Out := .next (s.setTile d { s.cx.tile d with bits := 0 }).adv

/-- TMOV (R361). -/
def execTmov (d a : Fin 16) (s : State) : Out := .next (s.setTile d (s.cx.tile a)).adv

/-- TXP (R361): each 16 × 16 block is transposed. -/
def execTxp (d a : Fin 16) (s : State) : Out :=
  let x := s.cx.tile a
  if decide (x.rows ≠ 16) || decide (x.perRow % 16 ≠ 0) then s.mismatch
  else .next (s.setTile d ((s.cx.tile d).writeAs x (fun j e => x.code (e % 16) (e / 16 * 16 + j)))).adv

/-! ### Products and accumulators (R362, R363) -/

/-- MMA (R362). -/
def execMma (a b : Fin 16) (c : Fin 8) (s : State) : Out :=
  let f := s.format
  let ok := decide (matFmt f = .fp ∨ matFmt f = .int) && decide ((s.cx.tile a).width = nativeWidth f) &&
    decide ((s.cx.tile b).width = nativeWidth f)
  s.matIssue ok (.mma a.val b.val) c.val

/-- MMAS (R362). -/
def execMmas (k a b : Fin 16) (c : Fin 8) (s : State) : Out :=
  let f := s.format
  let ok := decide (matFmt f = .mx) && decide ((s.cx.tile a).width = nativeWidth f) &&
    decide ((s.cx.tile b).width = nativeWidth f) && decide ((s.cx.tile k).width = .w8) && decide (192 ≤ (s.cx.tile k).rowBytes)
  s.matIssue ok (.mmas a.val b.val k.val) c.val

/-- ACCCLR (R363) on an accumulator. -/
def State.accclr (s : State) (k : Nat) : Out := s.matIssue true .accclr k

/-- ACCCLR A0 (R363). -/
def execAccclr0 (s : State) : Out := s.accclr 0

/-- ACCCLR A1 (R363). -/
def execAccclr1 (s : State) : Out := s.accclr 1

/-- ACCCLR A2 (R363). -/
def execAccclr2 (s : State) : Out := s.accclr 2

/-- ACCCLR A3 (R363). -/
def execAccclr3 (s : State) : Out := s.accclr 3

/-- ACCCLR A4 (R363). -/
def execAccclr4 (s : State) : Out := s.accclr 4

/-- ACCCLR A5 (R363). -/
def execAccclr5 (s : State) : Out := s.accclr 5

/-- ACCCLR A6 (R363). -/
def execAccclr6 (s : State) : Out := s.accclr 6

/-- ACCCLR A7 (R363). -/
def execAccclr7 (s : State) : Out := s.accclr 7

/-- ACCLD (R363). -/
def execAccld (a : Fin 16) (c : Fin 8) (s : State) : Out :=
  let t := s.cx.tile a
  s.matIssue (decide (t.rows = 16 ∧ t.rowBytes = 64 ∧ t.width = .w32)) (.accld a.val) c.val

/-- The entry of an ACCRD, with the release of its token, which is that of an emit at its place (R269, R276, R279). -/
def State.readEntry (s : State) (op : MatOp) (acc arc : Nat) : MatEntry :=
  let r := (s.cx.route? s.fir.sprig arc).getD 0
  { s.matEntry op acc with rel := s.fir.release s.sched.curSt.die r none, crossing := isCrossing r }

/-- ACCRD (R103, R364): a counted emit whose token the matrix unit sends; the scale is read at issue, and selector z gives none. Its
draws take their place in the order of issue, and its token has an out-buffer entry from now on (R134). -/
def execAccrd (n : Fin 16) (a : Sel) (c : Fin 8) (r : Rm) (f : BitVec 6) (s : State) : Out :=
  if s.matFull then .next s
  else
    s.claiming [n.val] (fun s =>
      let scale := if a = .z then none else some (s.sel a)
      let e := s.readEntry (.accrd n.val scale r f) c.val n.val
      .next (((((s.eat [a]).modFir Firing.take1).enqueueE e).modCx (·.drawn r 256)).adv))

/-! ### Pleach mode (R357 to R359, R365) -/

/-- The compute stations of a chain: those of an instance's row whose records have PLEACH = 1, by x. -/
def State.chain (s : State) (id : Nat) (l : Loc) : List Loc :=
  match s.inst? id with
  | none => []
  | some i => (i.stations.filter (fun p => p.2.pleach && decide (p.1.y = l.y) && decide (kindOf p.1 = .compute))).map (·.1)

/-- The station is the head of its chain. -/
def State.chainHead (s : State) (id : Nat) (l : Loc) : Bool := (s.chain id l).all (fun m => decide (l.x ≤ m.x))

/-- The next station of the chain to the east; none at the tail. -/
def State.chainNext (s : State) (id : Nat) (l : Loc) : Option Loc :=
  ((s.chain id l).filter (fun m => decide (l.x < m.x))).foldl
    (fun b m => match b with | some k => if m.x < k.x then some m else b | none => some m) none

/-- WPRE (R365): waits for the queued products of its context. -/
def execWpre (a : Fin 16) (s : State) : Out :=
  if (s.st s.sched.curSt).matq.any (fun e => decide (e.ctx = s.fir.ctx) && e.op.isProduct) then .next s
  else .next (s.modCx (fun c => { c with wr := c.tile a })).adv

/-- AFEED (R365); at the tail of its chain its entry names A0 too (R347). -/
def execAfeed (a : Fin 16) (s : State) : Out :=
  let w := nativeWidth s.format
  let good := decide ((s.cx.tile a).width = w) && decide (s.cx.wr.width = w)
  if s.matFull then .next s
  else if good then
    .next (s.enqueueE { s.matEntry (.afeed a.val) 8 with tail := (s.chainNext s.fir.inst s.sched.curSt).isNone }).adv
  else s.mismatch

/-- The status word of PLSTAT (R366). -/
def plstat (v : Station) (c : Nat) : Double :=
  let x := v.ctx c
  let waiting := (v.pleach.filter (fun p => decide (p.ctx = c) && p.arrived)).length
  let queued := (v.matq.filter (fun e => decide (e.ctx = c))).length
  let stalled := match v.matq.find? (fun e => e.op.isProduct) with | some e => decide (e.ctx = c) && e.stalled | none => false
  dbl (x.hstall * 2 ^ 32 + x.rretry * 2 ^ 24 + min waiting 15 * 2 ^ 12 + queued % 16 * 2 ^ 8 +
    (if stalled then 2 else 0) + (if x.pleach then 1 else 0))

/-- PLSTAT (R366). -/
def execPlstat (d : Fin 8) (s : State) : Out := .next (s.wr d (plstat (s.st s.sched.curSt) s.fir.ctx)).adv

/-! ### Starting entries (R350, R351, R354, R359) -/

/-- The partial that an AFEED pairs with: one that has arrived with its tag (R358). -/
def Station.partialFor (v : Station) (e : MatEntry) : Option Nat :=
  v.pleach.findIdx? (fun p => decide (p.ctx = e.ctx ∧ p.tag = e.tag) && p.arrived)

/-- An AFEED at the tail of its chain: the entry on A0 that adds its result follows it directly (R359, R365). -/
def State.tailFeed (s : State) (l : Loc) (e : MatEntry) : Bool :=
  e.op.isFeed && (s.chainNext e.inst l).isNone

/-- Entry n of a queue stands first for what it waits for, but for heat tokens: products go one at a time in queue order, the
operations on one accumulator in queue order, and an AFEED away from the head of its chain waits for its partial. -/
def State.matHead (s : State) (l : Loc) (n : Nat) (e : MatEntry) : Bool :=
  let v := s.st l
  let before := v.matq.take n
  !e.started && !(v.ctx e.ctx).draining &&
    before.all (fun x => decide (x.ctx ≠ e.ctx ∨ x.acc ≠ e.acc ∨ x.acc = 8)) &&
    (decide (e.acc ≠ 0) || before.all (fun x => decide (x.ctx ≠ e.ctx) || !s.tailFeed l x)) &&
    (!e.op.isProduct || before.all (fun x => !x.op.isProduct)) &&
    (!e.op.isFeed || e.part.isSome || s.chainHead e.inst l || (v.partialFor e).isSome)

/-- The instance of an entry may start it: an evicting one starts nothing more (R353). -/
def State.matRuns (s : State) (e : MatEntry) : Bool :=
  match s.inst? e.inst with
  | some i => i.st.runs
  | none => false

/-- An entry with the operands that it reads from a slot (R351). -/
def MatEntry.operands (e : MatEntry) (c : Ctx) : MatEntry :=
  let t := fun (k : Nat) => vget c.tiles k {}
  match e.op with
  | .mma a b => { e with opA := t a, opB := t b }
  | .mmas a b k => { e with opA := t a, opB := t b, opS := t k }
  | .afeed a => { e with opA := t a, opB := c.wr }
  | .accld a => { e with opA := t a }
  | .accrd _ scale rm f =>
      { e with opA := accTile { c with seed := e.seed, rctr := e.rctr } (vget c.accs e.acc 0) scale rm f }
  | .acctail => e
  | .accclr => e

/-- An entry starts: it reads its operands, but for a product that runs again, which has them (R351, R356). -/
def MatEntry.read (e : MatEntry) (c : Ctx) : MatEntry :=
  if e.kept then { e with started := true } else { e.operands c with started := true, kept := true }

/-- Put an entry in its place in a queue. -/
def Station.setMat (v : Station) (n : Nat) (e : MatEntry) : Station := { v with matq := v.matq.set n e }

/-- Pair an AFEED with its partial, which leaves the buffer; the oldest one in the bank comes back in its place, and is read back
there (R358, R359). -/
def State.pairPartial (s : State) (l : Loc) (e : MatEntry) : MatEntry × State :=
  if !e.op.isFeed || e.part.isSome then (e, s)
  else if s.chainHead e.inst l then ({ e with part := some 0 }, s)
  else
    match (s.st l).partialFor e with
    | none => (e, s)
    | some k =>
        let p := (s.st l).pleach[k]?
        let left := (s.st l).pleach.eraseIdx k
        let back := fun (c : Nat) (t : State) => t.charge ((s.ctxVf (s.st l) c).getD 128) (colOf l) .hedgerow 22
        let s1 := fun (r : List Partial) => s.modSt l (fun v => { v with pleach := r })
        ({ e with part := p.map (·.sum) },
          if p.any (fun q => !q.recs.isEmpty) then
            ((s1 left).charge ((s.ctxVf (s.st l) e.ctx).getD 128) (colOf l) .hbmRead 22).arenaDrop e.inst
          else if p.any (·.inBank) then back e.ctx (s1 left)
          else
            match left.find? (fun q => q.inBank && q.recs.isEmpty) with
            | some q => back q.ctx (s1 (modFirst (fun q => q.inBank && q.recs.isEmpty) (fun q => { q with inBank := false }) left))
            | none => s1 left)

/-- Start an entry. A product is charged here, to the device overhead pool when it runs again (R349, R356). -/
def State.startMat (s : State) (l : Loc) (n : Nat) (e : MatEntry) : State :=
  let p := s.pairPartial l e
  let f := ((s.st l).ctx e.ctx).format
  let s1 :=
    if !e.op.isProduct then p.2
    else if e.failed = 0 then p.2.chargeCtx l e.ctx (matWork f) 1
    else p.2.charge 128 (colOf l) (matWork f) 1
  s1.modSt l (fun v => v.setMat n (p.1.read (v.ctx e.ctx)))

/-- The registers that an entry names are resident when it starts; a relinked entry's may have yet to become so (R347). -/
def State.entryReady (s : State) (l : Loc) (e : MatEntry) : Bool := e.regs.all (fun r => (s.st l).resident.contains r)

/-- What an entry needs before it starts: its registers resident, and its partial read from the arena where it lies there. -/
def State.prepMat (s : State) (l : Loc) (e : MatEntry) : ArenaGot :=
  let s1 := if s.entryReady l e then s else s.bringWhat l e.regs
  if !s1.entryReady l e then .wait s1
  else if e.op.isFeed && e.part.isNone && !s.chainHead e.inst l then
    match ((s.st l).partialFor e).bind (fun k => (s.st l).pleach[k]?) with
    | some p => s1.arenaRead l e.ctx e.inst (hdrStage ((s.st l).header e.ctx e.sprig)) e.tag p.recs
    | none => .ok s1
  else .ok s1

/-- MATRIX_ENTRY_START (R350): entry n of a station's queue starts; a product needs its grant, and the bucket starts it with that
(R354). -/
def execMatrixEntryStart (s : State) : Out :=
  let l := s.arg.loc
  let n := s.arg.n
  match (s.st l).matq[n]? with
  | none => .next s
  | some e =>
      if s.matHead l n e && s.matRuns e && (!e.op.isProduct || e.granted) then
        match s.prepMat l e with
        | .ok t => .next (t.startMat l n e)
        | .wait t => .next t
        | .gone t => .next t
      else .next s

/-! ### Ending entries (R351, R353, R356, R359) -/

/-- A partial that finds its slot saved goes to the save image (R306, R315). -/
def State.savePartial (s : State) (m : Loc) (e : MatEntry) (sum : BitVec 8192) : State :=
  s.modInst e.inst (fun i =>
    let put := fun (q : SavedStation) =>
      if q.dx = m.x.val - 4 * i.qx ∧ q.dy = m.y.val - 4 * i.qy then { q with pleach := q.pleach ++ [{ ctx := e.ctx, tag := e.tag, sum := sum, arrived := true }] } else q
    { i with save := i.save.map (fun v => { v with stations := v.stations.map put }) })

/-- Send a partial to the next station of the chain; one that finds 16 in the buffer goes to the bank, whether or not its context
has rows left there (R358; LOG 56). -/
def State.sendPartial (s : State) (l m : Loc) (e : MatEntry) (sum : BitVec 8192) : State :=
  let x := (s.st m).ctx e.ctx
  if !(x.valid && decide (x.inst = e.inst) && !x.draining) then s.savePartial m e sum
  else
    let bank := decide (16 ≤ ((s.st m).pleach.filter (fun p => !p.inBank)).length)
    let s1 := s.modSt m (fun v => { v with pleach := v.pleach ++ [{ ctx := e.ctx, tag := e.tag, sum := sum, arrived := false, inBank := bank }] })
    if bank then s1.charge ((s.ctxVf (s.st l) e.ctx).getD 128) (colOf m) .hedgerow 22 else s1

/-- Write an accumulator. -/
def State.setAcc (s : State) (l : Loc) (c k : Nat) (a : BitVec 8192) : State :=
  s.modSt l (fun v => v.modCtx c (fun x => { x with accs := vset x.accs k a }))

/-- Entry n of a queue leaves it. -/
def State.dropMat (s : State) (l : Loc) (n : Nat) : State := s.modSt l (fun v => { v with matq := v.matq.eraseIdx n })

/-- An entry ends with its effect. -/
def State.endMat (s : State) (l : Loc) (n : Nat) (e : MatEntry) : State :=
  let c := (s.st l).ctx e.ctx
  let acc := vget c.accs e.acc 0
  let f := c.format
  match e.op with
  | .mma _ _ => (s.dropMat l n).setAcc l e.ctx e.acc (matProduct f e.opA e.opB e.opS acc)
  | .mmas _ _ _ => (s.dropMat l n).setAcc l e.ctx e.acc (matProduct f e.opA e.opB e.opS acc)
  | .afeed _ =>
      let sum := matProduct f e.opA e.opB e.opS (e.part.getD 0)
      (match s.chainNext e.inst l with
        | some m => (s.dropMat l n).sendPartial l m e sum
        | none => s.modSt l (fun v => v.setMat n { e with op := .acctail, acc := 0, started := false, part := some sum }))
  | .acctail => (s.dropMat l n).setAcc l e.ctx e.acc (accAdd f acc (e.part.getD 0))
  | .accclr => (s.dropMat l n).setAcc l e.ctx e.acc 0
  | .accld _ => (s.dropMat l n).setAcc l e.ctx e.acc (accOf (fun i j => e.opA.code i j))
  | .accrd arc _ _ _ =>
      (match c.route? e.sprig arc with
        | some r => (s.dropMat l n).lateSend l e.fid e.inst r e.tag (.tile e.opA) e.rel
        | none => s.dropMat l n)

/-- DETAIL of a RESIDUE record: the accumulator of the failing product; an AFEED's result belongs to A0 (R356; LOG 30). -/
def MatEntry.residueAcc (e : MatEntry) : Nat := if e.acc = 8 then 0 else e.acc

/-- A second failure of the residue check: the record and its host copy, the evictions with the failing product first, and the
station and its quad mapped out (R356). -/
def State.residue (s : State) (l : Loc) (n : Nat) (e : MatEntry) : State :=
  let again := { e with started := false, granted := false, asked := none, stalled := false, failed := 0 }
  let s1 := (s.dropMat l n).modSt l (fun v => { v with matq := again :: v.matq, mapped := true })
  let r := s1.report { code := codeResidue, source := 0, vf := s.ctxVf (s.st l) e.ctx, loc := some l, die := l.die, inst := e.inst,
                       ctx := e.ctx, tag := e.ftag, detail := e.residueAcc, stage := hdrStage ((s.st l).header e.ctx e.sprig) } true none
  let s2 := r.2.withdraw l.die (quadX l) (quadY l) codeResidue
  let ids := (s.prick.insts.filter (fun i => i.stations.any (fun p => decide (p.1 = l)) && i.st.runs)).map (·.id)
  ids.foldl State.beginEvict s2

/-- MATRIX_ENTRY_END (R351): started entry n of a station's queue ends; the operand says whether the residue check of a
product passes (R356). -/
def execMatrixEntryEnd (s : State) : Out :=
  let l := s.arg.loc
  let n := s.arg.n
  match (s.st l).matq[n]? with
  | none => .next s
  | some e =>
      if !e.started then .next s
      else if s.arg.ok || !e.op.isProduct then .next (s.endMat l n e)
      else if e.failed = 0 then
        let again := { e with started := false, granted := false, asked := none, stalled := false, failed := 1 }
        .next (s.modSt l (fun v =>
          (v.setMat n again).modCtx e.ctx (fun c => { c with rretry := min 255 (c.rretry + 1) })))
      else .next (s.residue l n e)

/-- PARTIAL_ARRIVAL (R358): partial n of a station's lane arrives, once the partials before it have. -/
def execPartialArrival (s : State) : Out :=
  .next (s.modSt s.arg.loc (fun v =>
    match v.pleach[s.arg.n]? with
    | some p =>
        if (v.pleach.take s.arg.n).all (·.arrived) then { v with pleach := v.pleach.set s.arg.n { p with arrived := true } } else v
    | none => v))

/-! ### The heat bucket (R354, R355, R461) -/

/-- Compute station k of a supply column, of 160; their order is the model's (LOG 7). -/
def columnStation (col k : Nat) : Loc :=
  let y := k / 2
  locOf (col / 16) (4 * (col % 16) + 2 * (k % 2) + y % 2) y

/-- The product of a station that asks for heat tokens. -/
def State.heatAsk (s : State) (l : Loc) : Option (Nat × MatEntry) :=
  match (s.st l).matq.findIdx? (fun e => e.op.isProduct) with
  | none => none
  | some n =>
      match (s.st l).matq[n]? with
      | none => none
      | some e => if s.matHead l n e && s.matRuns e && !e.granted then some (n, e) else none

/-- Grant a request: the tokens are taken, and the product starts in this cycle; a stall of 64 cycles or more is recorded (R354,
R433). -/
def State.heatGrant (s : State) (col k : Nat) (l : Loc) (n : Nat) (e : MatEntry) : State :=
  let c := (s.st l).ctx e.ctx
  let s1 := (s.modCol col (fun x => { x with tokens := x.tokens - matHeat c.format, rr := k })).startMat l n
    { e with granted := true, stalled := false }
  let len := s.now - e.asked.getD s.now
  if e.stalled && decide (64 ≤ len) then
    s1.sample ((s.ctxVf (s.st l) e.ctx).getD 0) l.die 0x0040 (.unit l (hdrStage ((s.st l).header e.ctx e.sprig))) (dbl len) e.tag
  else s1

/-- The grants of a cycle from place to place of the round-robin, until a request is not covered. -/
def State.heatGrants (s : State) (col : Nat) : List Nat → State
  | [] => s
  | k :: ks =>
      match s.heatAsk (columnStation col k) with
      | none => s.heatGrants col ks
      | some (n, e) =>
          if matHeat ((s.st (columnStation col k)).ctx e.ctx).format ≤ (s.col col).tokens then
            match s.prepMat (columnStation col k) e with
            | .ok t => (t.heatGrant col k (columnStation col k) n e).heatGrants col ks
            | .wait t => t.heatGrants col ks
            | .gone t => t.heatGrants col ks
          else s

/-- A request that waits after the cycle's grants is heat-stalled; its product counts once, also when it stalls again (R355, R366). -/
def State.heatStall (s : State) (l : Loc) : State :=
  match s.heatAsk l with
  | none => s
  | some (n, e) =>
      if e.stalled || !s.entryReady l e then s
      else
        s.modSt l (fun v =>
          (v.setMat n { e with stalled := true, asked := some s.now, counted := true }).modCtx e.ctx
            (fun c => { c with hstall := if e.counted then c.hstall else min 65535 (c.hstall + 1) }))

/-- A cycle's refill: GRANT tokens in 32 cycles, up to 4,096 in the bucket (LOG 17). -/
def Column.refill (c : Column) : Column :=
  let t := c.tokens * 32 + c.frac + c.grant
  if 4096 * 32 ≤ t then { c with tokens := 4096, frac := 0 } else { c with tokens := t / 32, frac := t % 32 }

/-- HEAT_BUCKET_CYCLE (R354): the bucket of column n. -/
def execHeatBucketCycle (s : State) : Out :=
  let col := s.arg.n % 32
  let s1 := s.modCol col Column.refill
  let s2 := s1.heatGrants col ((List.range 160).map (fun k => ((s1.col col).rr + 1 + k) % 160))
  .next ((List.range 160).foldl (fun st k => st.heatStall (columnStation col k)) s2)

end Sys2Proof.Machine
end

