-- ==== Sys2Proof/Machine/Evict.lean ====
section
/-!
DEFINITION. Eviction, relinking and the area arbiter: EVICTION_START, EVICTION_COMPLETE, SAVED_GRANULE_TEST, AREA_ARBITER_PASS,
FENCED_TOKEN, SWEEP_ARRIVAL (R304 to R309, R315, R316, R353, R404).
-/

namespace Sys2Proof.Machine

/-! ### Candidates (R305) -/

/-- A firing has an access, a copy or a Thicket request that a fault or an outstanding page request holds. -/
def State.onFault (s : State) (f : Firing) : Bool :=
  s.mm.accesses.any (fun a => decide (a.fid = f.id) && (match a.st with | .faulted => true | .paged _ => true | _ => false)) ||
    s.mm.copies.any (fun c => decide (c.fid = f.id) && (c.faulted || c.paged.isSome)) ||
    s.mm.thq.any (fun t => decide (t.fid = f.id) && (t.faulted || t.paged.isSome))

/-- A firing that has ended waits only for its callee's binding, or for a fault or a page, and is not in progress (R305, R409; LOG
54). -/
def State.endedRests (s : State) (f : Firing) : Bool := s.onFault f || s.argsWait f

/-- An instance has no ready frame on any station and no firing in progress. -/
def State.quiet (s : State) (i : Inst) : Bool :=
  i.stations.all (fun p =>
    let v := s.st p.1
    v.frames.zipIdx.all (fun f => decide (f.1.inst ≠ i.id) || !s.frameReady p.1 f.2 f.1) &&
      v.parked.all (fun f => decide (f.inst ≠ i.id) || !f.park.isCleared) &&
      !(v.firing.active && decide (v.firing.inst = i.id)) &&
      v.ended.all (fun f => decide (f.inst ≠ i.id) || s.endedRests f))

/-- An instance waits for a callee: one of its calls is pending, or has a callee that has not retired. -/
def State.waitsForCallee (s : State) (id : Nat) : Bool := !(s.calleesOf id).isEmpty

/-- The access belongs to work of an instance's stations. -/
def Access.ofInst (a : Access) (id : Nat) : Bool :=
  decide (a.inst = id) && (decide (a.agent = .firing) || decide (a.agent = .strand) || decide (a.agent = .copy))

/-- Updates of an instance wait in scatter bins. -/
def State.binsHold (s : State) (id : Nat) : Bool := s.mm.bins.any (fun b => b.ups.any (fun u => decide (u.acc.inst = id)))

/-- The units of an instance's stations are at work: accesses that go on, but for those behind a HALTED element, copies, scatter
bins, Thicket requests. -/
def State.unitsBusy (s : State) (i : Inst) : Bool :=
  s.mm.accesses.any (fun a => a.ofInst i.id && !a.rests && !s.elemHalted a) ||
  s.mm.copies.any (fun c => decide (c.inst = i.id) && !c.faulted) || s.binsHold i.id ||
  s.mm.thq.any (fun t => decide (t.inst = i.id) && !t.faulted)

/-- A parked firing of the instance waits on an access: its frame may be a candidate's (R305). -/
def State.parkedOn (s : State) (a : Access) : Bool := (s.st a.loc).parked.any (fun f => decide (f.park = .access a.uid))

/-- Outstanding work of an instance (R305): accesses that are not performed, but for those that its parked frames wait on and those
of a HALTED strand; copies, scatter bins and Thicket requests that have not ended, faulted ones among them. -/
def State.outstandingWork (s : State) (i : Inst) : Bool :=
  s.mm.accesses.any (fun a => a.ofInst i.id && !(a.rests && s.parkedOn a) && !s.elemHalted a) ||
  s.mm.copies.any (fun c => decide (c.inst = i.id)) || s.binsHold i.id || s.mm.thq.any (fun t => decide (t.inst = i.id))

/-- Some strand of an instance is ARMED. -/
def State.strandsArmed (s : State) (i : Inst) : Bool :=
  i.stations.any (fun p => (List.range 8).any (fun k => decide (((s.st p.1).strand (8 * i.slot + k)).st = .armed)))

/-- Entries of an instance stand in a matrix queue. -/
def State.matQueued (s : State) (i : Inst) : Bool := i.stations.any (fun p => (s.st p.1).matq.any (fun e => decide (e.inst = i.id)))

/-- A suspended instance. -/
def State.suspended (s : State) (i : Inst) : Bool := i.st.runs && s.quiet i && s.waitsForCallee i.id

/-- An idle instance. -/
def State.idle (s : State) (i : Inst) : Bool :=
  i.st.runs && !s.waitsForCallee i.id && s.quiet i && !s.strandsArmed i && !s.outstandingWork i && !s.matQueued i

/-- The candidates on a die for a function, in the order in which they are evicted. -/
def State.evictees (s : State) (d : Fin 2) (vf : Nat) : List Inst :=
  let mine := s.prick.insts.filter (fun i =>
    decide (i.die = d) && i.st.runs && s.serves i && (decide (i.vf = vf) || decide ((s.vf i.vf).quadGuar < s.quadsOf i.vf none)))
  let sort := sortBy (fun (a b : Inst) => decide (a.lastCommit ≤ b.lastCommit))
  sort (mine.filter s.suspended) ++ sort (mine.filter s.idle)

/-! ### Save images (R306, R404, R411; LOG 13) -/

/-- Accumulators that an instruction names. -/
def accsOf (i : Instr) : List Nat :=
  match i with
  | .mma _ _ c => [c.val]
  | .mmas _ _ _ c => [c.val]
  | .accld _ c => [c.val]
  | .accrd _ _ c _ _ => [c.val]
  | .accclr0 => [0]
  | .accclr1 => [1]
  | .accclr2 => [2]
  | .accclr3 => [3]
  | .accclr4 => [4]
  | .accclr5 => [5]
  | .accclr6 => [6]
  | .accclr7 => [7]
  | _ => []

/-- Tile registers that a slot of a frame fills on a station (R76). -/
def StaRec.boundTiles (r : StaRec) : List Nat :=
  ((List.range r.sprigs.length).map (fun n =>
    ((List.range 4).filter (slotTile (r.header n))).map (sprigTile ((r.sprigs[n]?).getD 0)))).flatten

/-- Bytes of the registers that a station's save image holds: tile registers and accumulators that the sprigs name, and 80 bytes
of the context's own state. -/
def StaRec.saveBytes (r : StaRec) : Nat :=
  let body := ((List.range r.sprigs.length).map r.instrs).flatten
  let tiles := nunion [] ((body.map (fun i => tileReads i ++ tileWrites i)).flatten.map (·.val))
  let accs := nunion [] (body.map accsOf).flatten
  80 + 6144 * (tiles.filter (fun k => !r.boundTiles.contains k)).length + 1024 * accs.length

/-- The saved state of a station of an instance. -/
def State.saveSta (s : State) (i : Inst) (l : Loc) : SavedStation :=
  let v := s.st l
  let mine := fun (f : Firing) => decide (f.inst = i.id)
  { dx := l.x.val - 4 * i.qx, dy := l.y.val - 4 * i.qy, ctx := { (v.ctx i.slot) with draining := false, markers := [] },
    frames := v.frames.filter (fun f => decide (f.inst = i.id)), parked := v.parked.filter mine, ended := v.ended.filter mine,
    matq := (v.matq.filter (fun e => decide (e.inst = i.id))).map (fun e => { e with granted := false, stalled := false, asked := none }),
    strands := (List.range 8).map (fun k => v.strand (8 * i.slot + k)),
    pleach := v.pleach.filter (fun p => decide (p.ctx = i.slot)) }

/-- Bytes of a station's save image but for what the spec gives no size for: frames outside the spill arena take 48 bytes. -/
def SavedStation.known (q : SavedStation) (r : StaRec) : Nat :=
  let out := (q.frames ++ q.parked.map (·.frame)).filter (fun f => decide (f.place ≠ .arena))
  r.saveBytes + 48 * out.length

/-- Some state of a station has a size in the save image that the spec does not give: strands, queue entries, matrix entries,
partials, thinning counters, tile payloads. -/
def SavedStation.more (q : SavedStation) : Bool :=
  q.strands.any (fun k => decide (k ≠ {})) || !q.matq.isEmpty || !q.pleach.isEmpty || !q.ctx.thin.isEmpty || !q.ctx.q0.isEmpty ||
    !q.ctx.q1.isEmpty || q.frames.any (fun f => f.slots.toList.any (fun x => x.tile.isSome))

/-- The stations of an instance as a save image holds them, with their records. -/
def State.saveStas (s : State) (i : Inst) : List (SavedStation × StaRec) := i.stations.map (fun p => (s.saveSta i p.1, p.2))

/-- Bytes of a save image: those that the spec gives, and what its other parts take. -/
def savedBytes (l : List (SavedStation × StaRec)) (others : Nat) : Nat :=
  (l.map (fun q => q.1.known q.2)).sum + (if l.any (fun q => q.1.more) then others else 0)

/-- What the parts of an instance's save image take for which the spec gives no size: free, and drawn once for an eviction (LOG 13). -/
def State.saveDraw (s : State) (i : Inst) : Nat × State :=
  match i.saveSize with
  | some n => (n, s)
  | none => if (s.saveStas i).any (fun q => q.1.more) then s.pick (2 ^ 24) else (0, s)

/-- Pages of a save image. -/
def pagesOf (bytes : Nat) : Nat := (bytes + 65535) / 65536

/-- The save image of an instance in pages of the save arena: what has come in by edge name stays. -/
def State.makeSave (s : State) (i : Inst) (bytes : Nat) (pages : List Nat) : SaveImage :=
  { i.save.getD {} with stations := (s.saveStas i).map (·.1), bytes := bytes, pages := pages }

/-! ### Relinks (R307) -/

/-- Queue a SAVED instance for relink, unless it is marked, parked after a fetch fault, or queued already. -/
def State.queueRelink (s : State) (id : Nat) : State :=
  match s.inst? id with
  | none => s
  | some i =>
      if decide (i.st = .saved) && !i.mark && !i.fetchPark && !i.wantLink then
        (s.modInst id (fun j => { j with wantLink := true })).modEng i.die (fun e => { e with queue := e.queue ++ [id] })
      else s

/-- A save image asks for a relink: it holds a complete frame, a parked firing whose condition has cleared, a token, or an entry of
the matrix queue, which runs on after the relink (R307, R353, R356). -/
def SaveImage.wants (m : SaveImage) : Bool :=
  !m.toks.isEmpty ||
    m.stations.any (fun q => q.frames.any (·.complete) || q.parked.any (fun f => f.park.isCleared) || !q.matq.isEmpty)

/-- The INJ tokens held for an instance. -/
def State.heldInj (s : State) (i : Inst) : Bool :=
  match i.kind with
  | .root => (match s.root? i.root with | some r => !r.held.isEmpty | none => false)
  | .callee _ _ _ => false
  | .spawned => false

/-- Queue the relink that a save image asks for. -/
def State.relinkIfAsked (s : State) (id : Nat) : State :=
  match s.inst? id with
  | none => s
  | some i => if (match i.save with | some m => m.wants | none => false) || s.heldInj i then s.queueRelink id else s

/-! ### EVICTION_START and EVICTION_COMPLETE (R305, R306, R353) -/

/-- The arbiter entry that is blocking on a die (R309). -/
def State.blocker (s : State) (d : Fin 2) : Option Inst :=
  ((s.eng d).queue.filterMap s.inst?).foldl
    (fun (b : Option Inst) i =>
      match i.blocking, b with
      | some n, some x => if decide (n < x.blocking.getD 0) then some i else b
      | some _, none => some i
      | none, _ => b) none

/-- Skip a candidate whose image does not fit: its partition is told once for the skip. -/
def State.skipEvictee (s : State) (d : Fin 2) (i : Inst) : State :=
  if (s.eng d).skipped.contains i.id then s
  else (s.modEng d (fun e => { e with skipped := i.id :: e.skipped })).engineFault codeArena i.vf d.val i.id 0 0

/-- Reserve pages of the save arena for an instance whose eviction starts, and evict it (R305, R404). -/
def State.evictOne (s : State) (i : Inst) (others : Nat) (pages : List Nat) : State :=
  (s.modInst i.id (fun j =>
    { j with saveSize := some others, save := some { j.save.getD {} with pages := pages } })).beginEvict i.id

/-- Evict the first candidate whose save image fits; it waits where the host has yet to map a page of the save arena (LOG 57). -/
def State.evictFirst (s : State) (d : Fin 2) : List Inst → State
  | [] => s
  | i :: rest =>
      let n := s.saveDraw i
      match n.2.saveRoom d i.vf (pagesOf (savedBytes (s.saveStas i) n.1)) with
      | .ok l t => t.evictOne i n.1 l
      | .wait t => t
      | .fail _ _ t => (t.skipEvictee d i).evictFirst d rest

/-- An ended firing waits for the token of an ACCRD that has not started: the entry is saved, and the firing with it (R353). -/
def Station.readQueued (v : Station) (f : Firing) : Bool := v.matq.any (fun e => decide (e.fid = f.id) && e.op.sends && !e.started)

/-- Nothing of an evicting instance goes on at its stations: no started matrix entry, no firing that has not committed or parked,
and its units are at rest. -/
def State.canSave (s : State) (i : Inst) : Bool :=
  i.stations.all (fun p =>
    let v := s.st p.1
    v.matq.all (fun e => decide (e.inst ≠ i.id) || !e.started) &&
      !(v.firing.active && decide (v.firing.inst = i.id)) &&
      v.ended.all (fun f => decide (f.inst ≠ i.id) || s.endedRests f || v.readQueued f) &&
      v.pleach.all (fun q => decide (q.ctx ≠ i.slot) || q.arrived)) && !s.unitsBusy i

/-- The pages into which an evicting instance is saved: those that it has reserved, fewer or more by the size that its image has now; each
passes as a write of its function (R404). -/
def State.evictPages (s : State) (i : Inst) (bytes : Nat) : Got (List Nat) :=
  let had := (i.save.getD {}).pages
  let n := pagesOf bytes
  let more : Got (List Nat) := if n ≤ had.length then .ok [] s else s.saveRoom i.die i.vf (n - had.length)
  match more with
  | .ok l t =>
      let pages := (had ++ l).take n
      (match t.arenaPages i.die i.vf bytes pages with
        | .ok _ u => .ok pages u
        | .wait u => .wait u
        | .fail c a u => .fail c a u)
  | .wait t => .wait t
  | .fail c a t => .fail c a t

/-- The image of an evicting instance turns out not to fit: it is skipped, and goes on where it stands, with the tokens and messages that
have come in by edge name (R305, R315; LOG 57). -/
def State.keepEvictee (s : State) (i : Inst) : State :=
  let m := i.save.getD {}
  let j := { i with st := if i.retDone then IState.returning else .live, save := none, saveSize := none }
  let s1 := ((s.skipEvictee i.die i).modInst i.id (fun _ => j)).modEng i.die (fun e => { e with evicting := ndrop e.evicting i.id })
  let s2 := m.toks.foldl (fun st f => st.deliverEdge j f) s1
  ((m.msgs.foldl (fun st q => st.applyMsg j q) s2).sweepFences i.id).settle i.id

/-- The slots of an evicting instance are freed, and it is SAVED. One that a partition save finds EVICTING carries the partition mark
(R412). -/
def State.evicted (s : State) (i : Inst) (m : SaveImage) : State :=
  let saving := decide ((s.vf i.vf).st ≠ .running)
  let s1 := (s.freeSlots i).modInst i.id (fun j =>
    { j with st := .saved, save := some m, saveSize := none, wantLink := false, mark := saving, bypassed := 0, blocking := none })
  let s2 := s1.modEng i.die (fun e => { e with evicting := ndrop e.evicting i.id })
  let s3 := (s2.charge i.vf (portCol i.die.val 0) .hbmWrite ((m.bytes + 127) / 128)).sampleInst i 0x0004 m.bytes
  (s3.roomFreed i.die).relinkIfAsked i.id

/-- EVICTION_COMPLETE (R306): the state of evicting instance n is saved, its slots are freed, and it is SAVED. It waits where the host has
yet to map a page of the save arena; one that a partition save itself takes is marked before. -/
def execEvictionComplete (s : State) : Out :=
  match s.inst? s.arg.n with
  | none => .next s
  | some i =>
      if i.st ≠ .evicting || i.mark || !s.canSave i then .next s
      else
        let n := s.saveDraw i
        let bytes := savedBytes (s.saveStas i) n.1
        match n.2.evictPages i bytes with
        | .ok l t => .next (t.evicted i (s.makeSave i bytes l))
        | .wait t => .next (t.modInst i.id (fun j => { j with saveSize := some n.1 }))
        | .fail _ _ t => .next (t.keepEvictee i)

/-! ### SAVED_GRANULE_TEST (R307) -/

/-- A memory sync load of a saved instance finds its granule full. -/
def State.savedFull (s : State) (id : Nat) : Bool :=
  s.mm.accesses.any (fun a => decide (a.inst = id) && (match a.st with | .syncWait => true | _ => false) && s.feFull a.pa)

/-- SAVED_GRANULE_TEST (R307): every 65,536 cycles the engine tests the granules on which frames of saved instance n wait. -/
def execSavedGranuleTest (s : State) : Out :=
  let id := s.arg.n
  match s.inst? id with
  | none => .next s
  | some i =>
      if decide (i.st ≠ .saved) || decide (s.now < i.tested) then .next s
      else
        let waits := s.mm.accesses.filter (fun a => decide (a.inst = id) && (match a.st with | .syncWait => true | _ => false))
        let s1 := waits.foldl (fun st a => st.fillL2 (a.pa / 128) a.vf) s
        let s2 := s1.modInst id (fun j => { j with tested := s.now + 65536 })
        .next (if s.savedFull id then s2.queueRelink id else s2)

/-! ### AREA_ARBITER_PASS (R309) -/

/-- The deficit of a function. -/
def State.deficit (s : State) (vf : Nat) : Int := ((s.vf vf).quadGuar : Int) - (s.quadsOf vf none : Int)

/-- Entry a ranks before entry b. -/
def State.ranks (s : State) (a b : Inst) : Bool :=
  if a.cls ≠ b.cls then decide (a.cls < b.cls)
  else if s.deficit a.vf ≠ s.deficit b.vf then decide (s.deficit b.vf < s.deficit a.vf)
  else decide (a.age ≤ b.age)

/-- The entries of a die's arbiter in rank order: those of running functions, with no more than 4,096 launches and successors of
a function. -/
def State.entries (s : State) (d : Fin 2) : List Inst :=
  let q := ((s.eng d).queue.filterMap s.inst?).filter s.serves
  let keep := q.filter (fun i => decide (i.st ≠ .queued) || ((s.queuedOf d i.vf).take 4096).contains i.id)
  sortBy s.ranks keep

/-- Whether an entry fits: a place, or a failure that the placement will report; it waits while an image is awaited. -/
def State.fitsNow (s : State) (d : Fin 2) (i : Inst) : Bool × State :=
  match s.imageFor d i with
  | .wait t => (false, t)
  | .fail _ _ t => (true, t)
  | .ok m t => ((t.planFor i m d).isSome, t)

/-- An entry finds no place: its image is there, and no rectangle serves. -/
def State.noPlace (s : State) (d : Fin 2) (i : Inst) : Bool × State :=
  match s.imageFor d i with
  | .wait t => (false, t)
  | .fail _ _ t => (false, t)
  | .ok m t => ((t.planFor i m d).isNone, t)

/-- What evictions on a die are for: the oldest pending call that found no place, or the blocking entry, while it finds none (R305,
R309). -/
def State.evictFor (s : State) (d : Fin 2) : Option Inst × State :=
  let e := s.eng d
  match e.calls.findSome? (fun id => if e.toTry.contains id then none else (s.inst? id).filter s.serves) with
  | some i => (some i, s)
  | none =>
      match (s.blocker d).filter s.serves with
      | none => (none, s)
      | some i =>
          let f := s.noPlace d i
          (if f.1 then some i else none, f.2)

/-- EVICTION_START (R305, R309): the engine of a die evicts one candidate. -/
def execEvictionStart (s : State) : Out :=
  let d := s.arg.loc.die
  if !(s.eng d).evicting.isEmpty || (s.eng d).placing.isSome then .next s
  else
    let f := s.evictFor d
    match f.1 with
    | none => .next f.2
    | some i => .next (f.2.evictFirst d (f.2.evictees d i.vf))

/-- The first of at most n entries that fits, with the entries ranked above it. -/
def State.firstFit (s : State) (d : Fin 2) : Nat → List Inst → List Nat → Option (Inst × List Nat) × State
  | 0, _, _ => (none, s)
  | _, [], _ => (none, s)
  | n + 1, i :: rest, above =>
      let f := s.fitsNow d i
      if f.1 then (some (i, above), f.2) else f.2.firstFit d n rest (i.id :: above)

/-- An entry is bypassed; at 8 bypasses it becomes blocking, in the order in which it got there. An entry that may go to either die
stands in both queues, and its bypasses on the two are counted together: one count, and one mark for both dies (DESIGN CHOICE, LOG 63). -/
def State.bypass (s : State) (id : Nat) : State :=
  let u := s.newUid
  u.2.modInst id (fun i =>
    { i with bypassed := i.bypassed + 1,
             blocking := match i.blocking with | some b => some b | none => if 8 ≤ i.bypassed + 1 then some u.1 else none })

/-- AREA_ARBITER_PASS (R309): the arbiter of a die admits the first entry that fits, of at most 16. While an entry is blocking, no
other entry of its class or a lower one is admitted. An entry whose partition is being saved holds no pass up. -/
def execAreaArbiterPass (s : State) : Out :=
  let d := s.arg.loc.die
  if ((s.eng d).admitted.filterMap s.inst?).any s.serves then .next s
  else
    let es := s.entries d
    let open_ := match s.blocker d with
      | none => es
      | some b => es.filter (fun i => decide (i.cls < b.cls) || decide (i.id = b.id))
    let f := s.firstFit d 16 open_ []
    match f.1 with
    | none => .next f.2
    | some (i, _) =>
        let above := (es.takeWhile (fun j => decide (j.id ≠ i.id))).map (·.id)
        let s1 := above.foldl State.bypass f.2
        let cut := fun (st : State) (e : Fin 2) => st.modEng e (fun x => { x with queue := ndrop x.queue i.id })
        .next ((cut (cut s1 0) 1).modEng d (fun e => { e with admitted := e.admitted ++ [i.id] }))

/-! ### FENCED_TOKEN (R307, R315) -/

/-- What the engine does with a token that a fence has diverted, by the state of its instance. -/
def State.fencedTok (s : State) (f : Flight) : State :=
  let id := tagInst f.tok.tag
  match s.inst? id with
  | none => s.staleToken f.tok none 3
  | some i =>
      match i.st with
      | .evicting => s.saveToken id f
      | .saved => (s.saveToken id f).queueRelink id
      | .relinking => s.saveToken id f
      | .live => s.deliverEdge i f
      | .returning => s.deliverEdge i f
      | .queued => s.modInst id (fun j => { j with held := j.held ++ [(16, f)] })
      | .placing => s.modInst id (fun j => { j with held := j.held ++ [(16, f)] })
      | .retired => s.staleToken f.tok none 3
      | .killed => s.staleToken f.tok none 3

/-- FENCED_TOKEN (R315): the engine takes diverted token n, by its name, behind the older ones of its arc. -/
def execFencedToken (s : State) : Out :=
  match s.fab.fenced.find? (fun f => decide (f.uid = s.arg.n)) with
  | none => .next s
  | some f =>
      if (s.fab.fenced.takeWhile (fun g => decide (g.uid ≠ f.uid))).any (fun g => g.sameArc f) then .next s
      else
        .next ((s.modFab (fun b => { b with fenced := b.fenced.filter (fun g => decide (g.uid ≠ f.uid)) })).fencedTok f)

/-! ### SWEEP_ARRIVAL (R316) -/

/-- A fence whose sweeps have all arrived is lowered, and an id that it named may be free. -/
def State.lowerFences (s : State) : State :=
  let down := s.prick.fences.filter (fun p => p.2.swept && p.2.sweeps.isEmpty)
  let s1 : State :=
    { s with prick := { s.prick with fences := s.prick.fences.filter (fun p => !(p.2.swept && p.2.sweeps.isEmpty)) } }
  down.foldl (fun st p => st.reapInst p.2.inst) s1

/-- SWEEP_ARRIVAL (R316): sweep n, by its name, arrives once the tokens before it on its arc have. -/
def execSweepArrival (s : State) : Out :=
  match s.fab.sweeps.find? (fun w => decide (w.id = s.arg.n)) with
  | none => .next s
  | some w =>
      if (s.fab.tokens ++ s.fab.fenced).any (fun f => w.behind.contains f.uid) then .next s
      else
        let s1 := s.modFab (fun b => { b with sweeps := b.sweeps.filter (fun x => decide (x.id ≠ w.id)) })
        .next ((s1.modFence w.fence (fun f => { f with sweeps := ndrop f.sweeps w.id })).lowerFences)

end Sys2Proof.Machine
end

