-- ==== Sys2Proof/Machine/Memory.lean ====
section
/-!
DEFINITION. The memory class: opcodes 0x70 to 0x88 (R218 to R230, R250 to R262).
-/

namespace Sys2Proof.Machine

/-! ### Shared checks -/

/-- The address of a direct access: the sum of its two sources. -/
def State.ea (s : State) (a b : Sel) : Nat := (s.sel a + s.sel b).toNat

/-- An instruction that waits at issue: nothing has happened yet. -/
def State.waits (s : State) : Out := .next s

/-- A store whose lsid has been performed traps with STORE_MASK (R144). -/
def State.storing (s : State) (lsid : Fin 32) (k : Out) : Out :=
  if s.lsidUsed lsid.val then .next (s.trapIns codeStoreMask 0) else k

/-- A direct access of n bytes that is not aligned traps with ALIGN (R221): its lsid, and its virtual address, which a scratchpad
access does not have. -/
def State.aligned (s : State) (addr n lsid va : Nat) (k : Out) : Out :=
  if addr % n ≠ 0 then .next (s.trapAcc codeAlign lsid va) else k

/-- A scratchpad range that is not valid traps with PERMISSION (R222). -/
def State.valid (s : State) (addr n lsid : Nat) (k : Out) : Out :=
  if s.cx.spValid addr n then k else .next (s.trapAcc codePermission lsid 0)

/-- An operation that a strand does not take traps with PERMISSION (R222, R251 to R253). -/
def State.refuseStrand (s : State) (b : Nat) : State := s.trapAcc codePermission (0x8000 + b) 0

/-- Change the station whose instruction issues. -/
def State.modCur (s : State) (f : Station → Station) : State := s.modSt s.sched.curSt f

/-- The own scratchpad. -/
def State.spRead (s : State) (a n : Nat) : Nat := Mem.read (s.st s.sched.curSt).sp a n

/-- Every access that happens before the next instruction has been performed at a scope. -/
def State.releaseMet (s : State) (sc : Scope) : Bool := s.holdMet ⟨sc, s.sched.curSt.die, s.fir.covers⟩

/-- Name an access in a list of those that a release covers: the releasing write is one of them (R271). -/
def State.coversNew (s : State) : List Nat := nput s.fir.covers s.sched.uid

/-- What the firing acquires from a list of accesses. -/
def State.acquire (s : State) (l : List Nat) : State := s.modFir (fun f => { f with before := nunion f.before l })

/-! ### LDSP, STSP, LDM, STM (R255) -/

/-- LDSP (R255). -/
def execLdsp (d : Fin 8) (a b : Sel) (i : Fin 32) (x : Bool) (z : Size) (s : State) : Out :=
  let n := sizeBytes z
  let addr := s.ea a b
  s.aligned addr n i.val 0 (s.valid addr n i.val (.next (s.result d [a, b] (extend x n (s.spRead addr n)))))

/-- STSP (R255). -/
def execStsp (v a b : Sel) (i : Fin 32) (z : Size) (s : State) : Out :=
  let n := sizeBytes z
  let addr := s.ea a b
  s.storing i (s.aligned addr n i.val 0 (s.valid addr n i.val (.next
    (((s.eat [v, a, b]).modCur (fun q => q.spWrite addr n (s.sel v).toNat)).lsidNow i.val).adv)))

/-- LDM (R255): the temporary waits for the value, and the firing goes on. -/
def execLdm (d : Fin 8) (a b : Sel) (i : Fin 32) (x : Bool) (z : Size) (s : State) : Out :=
  let n := sizeBytes z
  let addr := s.ea a b
  let acc : Access := { s.newAcc .firing (.load x) addr n i.val with td := some d.val }
  s.aligned addr n i.val addr (.next (((s.eat [a, b]).issueAcc acc).pend d acc.uid).adv)

/-- STM (R255): performed at the home. -/
def execStm (v a b : Sel) (i : Fin 32) (z : Size) (s : State) : Out :=
  let n := sizeBytes z
  let addr := s.ea a b
  let acc := s.newAcc .firing (.store ((s.sel v).toNat % 256 ^ n)) addr n i.val
  s.storing i (s.aligned addr n i.val addr (.next ((s.eat [v, a, b]).issueAcc acc).adv))

/-! ### LDF, STF, LDMF, STMF (R256, R257) -/

/-- LDF (R256): the firing parks while the granule is empty; it acquires at PLOT scope. -/
def execLdf (d : Fin 8) (a b : Sel) (i : Fin 32) (c x : Bool) (z : Size) (s : State) : Out :=
  let n := sizeBytes z
  let addr := s.ea a b
  s.aligned addr n i.val 0 (s.valid addr n i.val (
    if (s.st s.sched.curSt).spFull.contains (addr / 16) then
      let s1 := s.acquire (acquired (relsIn (s.st s.sched.curSt).spRel addr n) .plot s.sched.curSt.die s.fir.inst)
      let s2 := if c then s1.modCur (fun q => q.empty (addr / 16)) else s1
      .next (s2.result d [a, b] (extend x n (s.spRead addr n)))
    else .next (s.parkFiring s.sched.curSt (.granule (addr / 16)))))

/-- STF (R256): a release at PLOT scope; the write and the bit in one step. The releases that the location carries stay behind what this
further release writes (R270). -/
def execStf (v a b : Sel) (i : Fin 32) (z : Size) (s : State) : Out :=
  let n := sizeBytes z
  let addr := s.ea a b
  s.storing i (s.aligned addr n i.val 0 (s.valid addr n i.val (
    if s.releaseMet .plot then
      let put := fun (q : Station) =>
        let w := (q.spWrite addr n (s.sel v).toNat).fill (addr / 16)
        { w with spRel := relPut w.spRel addr n (relsIn q.spRel addr n ++ [⟨.plot, s.sched.curSt.die, s.fir.inst, s.fir.covers⟩]) }
      .next (((s.eat [v, a, b]).modCur put).lsidNow i.val).adv
    else s.waits)))

/-- LDMF (R256): a sync load of memory; the firing waits for it, parked while the granule is empty, and acquires at DEVICE. -/
def execLdmf (d : Fin 8) (a b : Sel) (i : Fin 32) (c x : Bool) (z : Size) (s : State) : Out :=
  let n := sizeBytes z
  let addr := s.ea a b
  let acc : Access := { s.newAcc .firing (.loadF c x) addr n i.val with td := some d.val, acq := some .device }
  s.aligned addr n i.val addr (.next ((((s.eat [a, b]).issueAcc acc).pend d acc.uid).stallOn acc.uid).adv)

/-- STMF (R256): a release at DEVICE scope, performed once what happens before it has been. -/
def execStmf (v a b : Sel) (i : Fin 32) (z : Size) (s : State) : Out :=
  let n := sizeBytes z
  let addr := s.ea a b
  let die := s.sched.curSt.die
  let acc : Access :=
    { s.newAcc .firing (.storeF ((s.sel v).toNat % 256 ^ n)) addr n i.val with
      holds := [⟨.device, die, s.fir.covers⟩], rel := some ⟨.device, die, s.fir.inst, s.coversNew⟩ }
  s.storing i (s.aligned addr n i.val addr (.next ((s.eat [v, a, b]).issueAcc acc).adv))

/-! ### FEC, FEQ (R258) -/

/-- FEC (R258): every granule of a range becomes empty. Its lsid only names the access in a fault record (DESIGN CHOICE, LOG 55). -/
def execFec (a b : Sel) (i : Fin 32) (m : Bool) (s : State) : Out :=
  let addr := (s.sel a).toNat
  let n := (s.sel b).toNat
  let s1 := s.eat [a, b]
  s.aligned addr 16 i.val (if m then addr else 0) (s.aligned n 16 i.val (if m then addr else 0) (
    if n = 0 then .next s1.adv
    else if m then .next (s1.issueAcc (s.newAcc .firing .fec addr n i.val)).adv
    else s.valid addr n i.val (.next (s1.modCur (fun q =>
      { q with spFull := q.spFull.filter (fun g => decide (g < addr / 16 ∨ (addr + n) / 16 ≤ g)) })).adv)))

/-- FEQ (R258). R221 aligns it to 16. -/
def execFeq (d : Fin 8) (a : Sel) (i : Fin 32) (m : Bool) (s : State) : Out :=
  let addr := (s.sel a).toNat
  let acc : Access := { s.newAcc .firing .feq addr 16 i.val with td := some d.val }
  s.aligned addr 16 i.val (if m then addr else 0) (
    if m then .next (((s.eat [a]).issueAcc acc).pend d acc.uid).adv
    else s.valid addr 16 i.val (.next (s.result d [a] (if (s.st s.sched.curSt).spFull.contains (addr / 16) then 1 else 0))))

/-! ### SDEF, SLEN, SGO (R223, R225, R227, R229, R250) -/

/-- The record of a strand of the firing's slot. -/
def State.recOf (s : State) (v : Nat) : Nat := 8 * s.fir.ctx + v

/-- The strand record of the firing's slot. -/
def State.myStrand (s : State) (v : Nat) : Strand := (s.st s.sched.curSt).strand (s.recOf v)

/-- Change a strand record of the firing's slot. -/
def State.modMine (s : State) (v : Nat) (f : Strand → Strand) : State :=
  s.modCur (fun q => q.modStrand (8 * q.firing.ctx + v) f)

/-- SDEF, SLEN and SGO wait while the record is HALTED, or has a pending SGO (R229). -/
def Strand.defWaits (k : Strand) : Bool := decide (k.st = .halted) || (decide (k.st = .armed) && k.pendGo)

/-- The definition that SDEF, SLEN and SGO act on: the pending one of an ARMED record. -/
def Strand.target (k : Strand) : StrandDef := if k.st = .armed then k.pend.getD k.d else k.d

/-- SDEF (R250). -/
def execSdef (v : Fin 8) (a b : Sel) (y : StrandDest) (t w : Bool) (z : ESize) (s : State) : Out :=
  let k := s.myStrand v.val
  if k.defWaits then s.waits
  else
    let d : StrandDef :=
      { k.target with tagged := t, store := w, size := z, dest := y, base := s.sel a, stride := s.sel b }
    .next (((s.eat [a, b]).modMine v.val (fun k =>
      if k.st = .armed then { k with pend := some d, pendDef := true } else { k with d := d, st := .idle, defd := true })).adv)

/-- SLEN (R250): with no SDEF since placement, COUNT stays 0 and the record is finished. -/
def execSlen (v : Fin 8) (a : Sel) (s : State) : Out :=
  let k := s.myStrand v.val
  if k.defWaits then s.waits
  else
    let d : StrandDef := { k.target with count := (s.sel a).toNat % 2 ^ 32 }
    .next (((s.eat [a]).modMine v.val (fun k =>
      if k.st = .armed then { k with pend := some d }
      else if k.defd then { k with d := d } else { k with st := .finished })).adv)

/-- What SGO makes of a definition, under a new name: its tokens carry what the firing's tokens carry now (R276, R279). -/
def State.goDef (s : State) (d : StrandDef) (a : Sel) (r : BitVec 64) : StrandDef :=
  { d with offset := s.sel a, otag := s.otag, route := r, fid := s.fir.id, id := s.sched.uid, stage := hdrStage s.fir.header,
           rel := s.fir.lateRelease s.sched.curSt.die r }

/-- SGO arms the record, or the pending definition (R229). -/
def State.goNow (s : State) (v : Nat) (a : Sel) (r : BitVec 64) : State :=
  let d := s.goDef (s.myStrand v).target a r
  ((s.newUid.2.eat [a]).modMine v (fun k => if k.st = .armed then { k with pend := some d, pendGo := true } else k.arm d)).adv

/-- A COPY of the firing into or out of a scratchpad has yet to be performed (R52, LOG 51). A vector that a Thicket engine has yet to
read from the scratchpad is not waited for (DESIGN CHOICE, LOG 55). -/
def State.spCopying (s : State) : Bool :=
  s.mm.copies.any (fun c => decide (c.loc = s.sched.curSt ∧ c.fid = s.fir.id) && (c.srcSp || c.dstSp))

/-- SGO (R52, R222, R227, R250): it waits for the firing's scratchpad copies; its other scratchpad accesses have taken effect at
issue. -/
def execSgo (v : Fin 8) (a : Sel) (s : State) : Out :=
  let k := s.myStrand v.val
  if k.defWaits || s.spCopying then s.waits
  else if !k.defd then .next ((s.eat [a]).modMine v.val (fun q => { q with st := .finished })).adv
  else
    match k.target.dest with
    | .sp => if s.cx.leased then .next (s.goNow v.val a 0) else .next (s.refuseStrand v.val)
    | .q _ => .next (s.goNow v.val a 0)
    | .arc n =>
        if k.target.store then .next (s.goNow v.val a 0)
        else s.claiming [n.val] (fun t => .next (t.goNow v.val a ((t.cx.route? t.fir.sprig n.val).getD 0)))

/-! ### LDS, STS (R251) -/

/-- LDS (R251): element i of an ordered load strand into the scratchpad, once it has been delivered. On a record that an SDEF has redefined
and no SGO has started since, the elements of the run before count as delivered, since SDEF leaves DONE (DESIGN CHOICE, LOG 61). -/
def execLds (d : Fin 8) (a : Sel) (b : Fin 8) (_i : Fin 32) (s : State) : Out :=
  let k := s.myStrand b.val
  let i := (s.sel a).toNat
  if k.d.tagged || k.d.store || decide (k.d.dest ≠ .sp) || decide (k.d.count ≤ i) then .next (s.refuseStrand b.val)
  else if k.done ≤ i then .next (s.parkFiring s.sched.curSt (.element b.val i))
  else
    let n := min (elemBytes k.d.size) 8
    .next (s.result d [a] (dbl ((s.st s.sched.curSt).spReadMod (k.d.spAddr i) n)))

/-- The virtual address of element i (R225). -/
def StrandDef.elemVa (d : StrandDef) (i : Nat) : Nat := (d.base + dbl i * d.stride).toNat

/-- The store of element i that an STS has supplied, and the accesses of the strand's run. -/
def State.supplied (s : State) (r i id : Nat) : Option Access :=
  s.mm.accesses.find? (fun a =>
    decide (a.loc = s.sched.curSt) && (match a.op with | .elemStore q j d _ => decide (q = r ∧ j = i ∧ d.id = id) | _ => false))

/-- An access of a strand that an instruction issues: it waits for what an SBAR named (R261). -/
def State.elemAcc (s : State) (k : Strand) (op : AccOp) (va n lsid : Nat) : Access :=
  { s.newAcc .strand op va n lsid with tag := s.otag, holds := k.bar.filter (fun h => !s.holdMet h) }

/-- Issue an access of an engine, which is not the firing's own. -/
def State.issueElem (s : State) (a : Access) : State :=
  s.newUid.2.modMm (fun m => { m with accesses := m.accesses ++ [a] })

/-- STS (R251): element i of an ordered fed store strand, an access of the firing. A value for an element supplied before replaces it
while the element is not performed. -/
def execSts (v a : Sel) (b : Fin 8) (n : Fin 32) (s : State) : Out :=
  let k := s.myStrand b.val
  let i := (s.sel a).toNat
  let x := (s.sel v).toNat % 256 ^ elemBytes k.d.size
  let fed := k.d.store && !k.d.tagged && decide (k.d.dest ≠ .sp)
  if !fed || decide (k.st ≠ .armed) || decide (k.d.count ≤ i) then .next (s.refuseStrand b.val)
  else
    let s1 := s.eat [v, a]
    s.storing n (
      match s.supplied (s.recOf b.val) i k.d.id with
      | none =>
          if i < k.done then .next (s1.lsidNow n.val).adv
          else .next (s1.issueAcc (s.elemAcc k (.elemStore (s.recOf b.val) i k.d x) (k.d.elemVa i) (elemBytes k.d.size) n.val)).adv
      | some q =>
          if ((q.fid, q.lsid) :: q.extra).contains (s.fir.id, n.val) then .next (s.trapIns codeStoreMask 0)
          else if q.isServed then .next (s1.lsidNow n.val).adv
          else
            .next ((s1.modAcc q.uid (fun c =>
              { c with op := .elemStore (s.recOf b.val) i k.d x, extra := c.extra ++ [(s.fir.id, n.val)] })).ownAcc q.uid false).adv)

/-! ### GATH, SCAT, SCADD, SCFLUSH (R252 to R254) -/

/-- GATH (R252): one element of a tagged load strand, under the outgoing tag. -/
def execGath (v : Sel) (b : Fin 8) (s : State) : Out :=
  let k := s.myStrand b.val
  let i := (s.sel v).toNat
  if !k.d.tagged || k.d.store || decide (k.st ≠ .armed) then .next (s.refuseStrand b.val)
  else
    .next ((s.eat [v]).issueAcc (s.elemAcc k (.elemLoad (s.recOf b.val) i k.d) (k.d.elemVa i) (elemBytes k.d.size) 0)).adv

/-- The strand takes elements from SCAT and SCADD: tagged, fed, a store, ARMED. -/
def Strand.takesScat (k : Strand) : Bool := k.d.tagged && k.d.store && decide (k.st = .armed)

/-- SCAT (R252): one element of a tagged store strand. -/
def execScat (v a : Sel) (b : Fin 8) (n : Fin 32) (s : State) : Out :=
  let k := s.myStrand b.val
  let i := (s.sel a).toNat
  let x := (s.sel v).toNat % 256 ^ elemBytes k.d.size
  if !k.takesScat then .next (s.refuseStrand b.val)
  else
    s.storing n (.next ((s.eat [v, a]).issueAcc
      (s.elemAcc k (.elemStore (s.recOf b.val) i k.d x) (k.d.elemVa i) (elemBytes k.d.size) n.val)).adv)

/-- Bytes of a scatter-add. -/
def scBytes : ScType → Nat
  | .i64 => 8
  | .f32 => 4
  | .i32 => 4

/-- SCADD (R253): an update for the bin of the element's frame; it waits at issue while a full scatter arena has stopped a bin of the
function (R254, LOG 24). -/
def execScadd (v a : Sel) (b : Fin 8) (n : Fin 32) (t : ScType) (s : State) : Out :=
  let k := s.myStrand b.val
  let i := (s.sel a).toNat
  if !k.takesScat || decide (elemBytes k.d.size ≠ scBytes t) then .next (s.refuseStrand b.val)
  else
    s.storing n (
      if s.scatStopped s.fVf then s.waits
      else .next ((s.eat [v, a]).issueAcc
        (s.elemAcc k (.scadd (s.recOf b.val) i t k.d (s.sel v)) (k.d.elemVa i) (scBytes t) n.val)).adv)

/-- SCFLUSH (R254): an access of the firing, performed with the sums, or at FIRING scope once the updates are in their bins. -/
def execScflush (b : Fin 8) (sc : Scope) (s : State) : Out :=
  .next (s.issueAcc (s.newAcc .firing (.scflush (s.recOf b.val) (decide (sc ≠ .firing))) 0 0 0)).adv

/-! ### COPY, CPSTAT, PREF, SBAR (R259 to R261) -/

/-- COPY (R259): y marks a scratchpad destination, x a scratchpad source. -/
def execCopy (v a b : Sel) (n : Fin 32) (y x : Bool) (s : State) : Out :=
  let len := (s.sel v).toNat % 2 ^ 32
  let src := (s.sel a).toNat
  let dst := (s.sel b).toNat
  let s1 := s.eat [v, a, b]
  let go : Out :=
    let c : Copy :=
      { uid := s.sched.uid, loc := s.sched.curSt, ctx := s.fir.ctx, inst := s.fir.inst, vf := s.fVf, fid := s.fir.id, lsid := n.val,
        src := src, dst := dst, granules := len / 16, srcSp := x, dstSp := y }
    let s2 := s1.newUid.2.modMm (fun m => { m with copies := m.copies ++ [c] })
    .next (s2.modFir (fun f => { f with own := f.own ++ [(c.uid, false)], before := nput f.before c.uid })).adv
  s.storing n (s.aligned len 16 n.val 0 (s.aligned src 16 n.val (if x then 0 else src) (s.aligned dst 16 n.val (if y then 0 else dst) (
    if len = 0 then .next (s1.lsidNow n.val).adv
    else if x && !s.cx.spValid src len then .next (s.trapAcc codePermission n.val 0)
    else if y && !s.cx.spValid dst len then .next (s.trapAcc codePermission n.val 0)
    else go))))

/-- CPSTAT (R259): bytes of the COPY that are not yet performed. -/
def execCpstat (d : Fin 8) (n : Fin 32) (s : State) : Out :=
  let c := s.mm.copies.find? (fun c => decide (c.loc = s.sched.curSt ∧ c.fid = s.fir.id ∧ c.lsid = n.val))
  .next (s.result d [] (match c with | some x => dbl (16 * x.granules - x.performed) | none => 0))

/-- PREF (R260): a prefetch, which orders nothing and never faults. -/
def execPref (a b : Sel) (s : State) : Out :=
  let n := min (s.sel b).toNat 65536
  let s1 := s.eat [a, b]
  if n = 0 then .next s1.adv
  else .next (s1.issueElem (s.newAcc .engine .prefetch (s.sel a).toNat n 0)).adv

/-- Elements of a strand of a slot that have been issued, and its flushes. -/
def State.elemUids (s : State) (l : Loc) (r : Nat) : List Nat :=
  (s.mm.accesses.filter (fun a => decide (a.loc = l) &&
    (match a.op with
     | .scflush q _ => decide (q = r)
     | op => (match op.elem with | some (q, _, _) => decide (q = r) | none => false)))).map (·.uid)

/-- SBAR (R261): later elements of the named strands wait for their earlier ones. -/
def execSbar (m n : BitVec 4) (sc : Scope) (s : State) : Out :=
  let mask := m.toNat * 16 + n.toNat
  let named := (List.range 8).filter (fun k => decide (mask / 2 ^ k % 2 = 1))
  let uids := (named.map (fun k => s.elemUids s.sched.curSt (s.recOf k))).foldl nunion []
  let h : Hold := ⟨sc, s.sched.curSt.die, uids⟩
  .next (named.foldl (fun st k => st.modMine k (fun q => { q with bar := q.bar.filter (fun g => !s.holdMet g) ++ [h] })) s).adv

/-! ### TLD, TST (R262) -/

/-- The address of row r of a tile access. -/
def State.rowAddr (s : State) (a b : Sel) (r : Nat) : Nat := (s.sel a + dbl r * s.sel b).toNat

/-- The neighbouring station that an address of a .sp access names. -/
def neighbour (l : Loc) (addr : Nat) : Option (Nat × Nat) :=
  match addr / 2 ^ 18 with
  | 0 => some (l.x.val + 1, l.y.val)
  | 1 => some (l.x.val, l.y.val + 1)
  | 2 => if l.x.val = 0 then none else some (l.x.val - 1, l.y.val)
  | 3 => if l.y.val = 0 then none else some (l.x.val, l.y.val - 1)
  | _ => none

/-- The station and the scratchpad address of a row of n bytes, when the context may reach it. -/
def State.rowPlace (s : State) (addr n : Nat) : Option (Loc × Nat) :=
  match s.fInst, neighbour s.sched.curSt addr with
  | some i, some (x, y) =>
      let inside := decide (4 * i.qx ≤ x ∧ x < 4 * (i.qx + i.w) ∧ 4 * i.qy ≤ y ∧ y < 4 * (i.qy + i.h))
      let l := locOf s.sched.curSt.die.val x y
      let c := (s.st l).ctx s.fir.ctx
      if inside && c.valid && decide (c.inst = i.id) && c.spValid (addr % 2 ^ 18) n then some (l, addr % 2 ^ 18) else none
  | _, _ => none

/-- The rows of a tile register that a tile access moves. -/
def State.rowsOf (s : State) (t : Fin 16) : List Nat := List.range (s.cx.tile t).rows

/-- The bytes of a row of a tile. -/
def Tile.row (t : Tile) (r : Nat) : Nat := Machine.bits t.bits (3072 * r) (8 * t.rowBytes)

/-- A tile with the bytes of a row replaced. -/
def Tile.putRow (t : Tile) (r x : Nat) : Tile := { t with bits := setBits t.bits (3072 * r) (8 * t.rowBytes) x }

/-- The rows of a tile as one number, row behind row. -/
def Tile.packed (t : Tile) : Nat := (List.range t.rows).foldl (fun x r => x + t.row r * 256 ^ (t.rowBytes * r)) 0

/-- Every row of a tile access is aligned, and with .sp lies in a scratchpad that the context may reach. All rows are checked before any is
moved, so that a trap leaves none done: the spec gives that only for a fault on a row (DESIGN CHOICE, LOG 62). -/
def State.tileChecks (s : State) (t : Fin 16) (a b : Sel) (lsid : Nat) (p : Bool) (k : Out) : Out :=
  match (s.rowsOf t).find? (fun r => decide (s.rowAddr a b r % 32 ≠ 0)) with
  | some r => .next (s.trapAcc codeAlign lsid (if p then 0 else s.rowAddr a b r))
  | none =>
      if p && (s.rowsOf t).any (fun r => (s.rowPlace (s.rowAddr a b r) (s.cx.tile t).rowBytes).isNone) then
        .next (s.trapAcc codePermission lsid 0)
      else k

/-- TLD (R262). -/
def execTld (t : Fin 16) (a b : Sel) (i : Fin 32) (p : Bool) (s : State) : Out :=
  let k := s.cx.tile t
  let s1 := s.eat [a, b]
  s.tileChecks t a b i.val p (
    if p then
      let got := (s.rowsOf t).foldl (fun (u : Tile) r =>
        match s.rowPlace (s.rowAddr a b r) k.rowBytes with
        | some (l, x) => u.putRow r (Mem.read (s.st l).sp x k.rowBytes)
        | none => u) k
      .next (s1.modCx (fun c => c.setTile t got)).adv
    else
      .next (s1.issueAcc (s.newAcc .firing (.tload t k.rows k.rowBytes (s.sel b).toNat) (s.sel a).toNat (k.rows * k.rowBytes)
        i.val)).adv)

/-- TST (R262). -/
def execTst (t : Fin 16) (a b : Sel) (i : Fin 32) (p : Bool) (s : State) : Out :=
  let k := s.cx.tile t
  let s1 := s.eat [a, b]
  s.storing i (s.tileChecks t a b i.val p (
    if p then
      let put := (s.rowsOf t).foldl (fun (st : State) r =>
        match s.rowPlace (s.rowAddr a b r) k.rowBytes with
        | some (l, x) => st.modSt l (fun v => v.spWrite x k.rowBytes (k.row r))
        | none => st) s1
      .next (put.lsidNow i.val).adv
    else
      .next (s1.issueAcc (s.newAcc .firing (.tstore k.rows k.rowBytes (s.sel b).toNat k.packed) (s.sel a).toNat
        (k.rows * k.rowBytes) i.val)).adv))

end Sys2Proof.Machine
end

