-- ==== Sys2Proof/Machine/MemStep.lean ====
section
/-!
DEFINITION. The steps of the memory side: STRAND_ELEMENT_ISSUE, MEMORY_REQUEST, WALK_READ_COMPLETE, ACCESS_RETURN, RDC_INVALIDATION,
BIN_APPLY and COPY_GRANULE (R221 to R231, R237, R247 to R249, R253, R259, R265, R470).
-/

namespace Sys2Proof.Machine

/-- The access of a name. -/
def State.acc? (s : State) (uid : Nat) : Option Access := s.mm.accesses.find? (fun a => a.uid = uid)

/-! ### STRAND_ELEMENT_ISSUE (R224, R226, R228, R237, R261) -/

/-- The engine issues the elements of a strand: an ordered load, or an ordered store that the scratchpad feeds (R224). -/
def StrandDef.byEngine (d : StrandDef) : Bool := !d.tagged && (!d.store || decide (d.dest = .sp))

/-- An access has missed, is parked at a page or a fault, or has yet to make a request that misses (R237). -/
def State.missed (s : State) (a : Access) : Bool :=
  match a.st with
  | .walking _ => true
  | .paged _ => true
  | .faulted => true
  | .issued => (match s.beginWalk (s.treq a) with
      | .more _ => true
      | .done _ _ => false
      | .fault _ _ => false
      | .miss _ _ => true
      | .poison _ => false)
  | .syncWait => false
  | .served => false
  | .returned => false

/-- No element of the strand's run has missed and waits for its translation (R237). -/
def State.noMiss (s : State) (l : Loc) (r id : Nat) : Bool :=
  s.mm.accesses.all (fun a => decide (a.loc ≠ l) ||
    (match a.op.elem with | some (q, _, d) => decide (q ≠ r ∨ d.id ≠ id) | none => true) || !s.missed a)

/-- The stitch markers of a function's save have been injected: its strand engines issue no further elements (R408). -/
def State.injected (s : State) (vf : Nat) : Bool := decide ((s.vf vf).st = .saving) && (s.vf vf).saveAt.isNone

/-- The next element of a strand may be issued: the record is ARMED, its instance runs, and its queue register has room. -/
def State.mayIssue (s : State) (l : Loc) (n : Nat) : Bool :=
  let v := s.st l
  let k := v.strand n
  decide (k.st = .armed) && k.d.byEngine && decide (k.next < k.d.count) && s.slotRuns v (n / 8) && s.noMiss l n k.d.id &&
    (match s.ctxVf v (n / 8) with | some f => !s.injected f | none => true) &&
    (match k.d.dest with | .q q => s.queueRoom l (n / 8) q | .sp => true | .arc _ => true)

/-- STRAND_ELEMENT_ISSUE: the next element of strand record n of a station leaves; a store's data is read from the scratchpad
now (R250). -/
def execStrandElementIssue (s : State) : Out :=
  let l := s.arg.loc
  let n := s.arg.n
  let v := s.st l
  let k := v.strand n
  if !s.mayIssue l n then .next s
  else
    let i := k.next
    let z := elemBytes k.d.size
    let inst := (v.ctx (n / 8)).inst
    let op : AccOp := if k.d.store then .elemStore n i k.d (v.spReadMod (k.d.spAddr i) z) else .elemLoad n i k.d
    let a : Access :=
      { uid := s.sched.uid, agent := .strand, loc := l, ctx := n / 8, inst := inst,
        vf := match s.inst? inst with | some x => x.vf | none => 0, fid := k.d.fid, op := op, va := k.d.elemVa i, n := z,
        tag := withIter k.d.otag ((tagIter k.d.otag + i) % 2 ^ 20), stage := k.d.stage, holds := k.bar.filter (fun h => !s.holdMet h) }
    .next ((s.issueElem a).modSt l (fun q => q.modStrand n (fun x => { x with next := i + 1 })))

/-! ### MEMORY_REQUEST, WALK_READ_COMPLETE (R221, R231, R247, R423, R470) -/

/-- A strand element that is not aligned (R221). -/
def Access.elemBad (a : Access) : Bool :=
  match a.op.elem with
  | some (_, _, d) =>
      decide (a.va % elemAlign d.size ≠ 0) || (decide (d.dest = .sp) && decide (d.offset.toNat % elemAlign d.size ≠ 0))
  | none => false

/-- The scatter flush of an access has taken effect. -/
def State.flushNow (s : State) (a : Access) : Bool :=
  match a.op with
  | .scflush r b => s.flushed a r b
  | _ => false

/-- The access is a flush, or only waits to be performed: no port translates it. -/
def AccOp.portless : AccOp → Bool
  | .scflush _ _ => true
  | .written => true
  | .load _ => false
  | .loadF _ _ => false
  | .feq => false
  | .amo _ _ _ => false
  | .tload _ _ _ _ => false
  | .elemLoad _ _ _ => false
  | .store _ => false
  | .storeF _ => false
  | .fec => false
  | .tstore _ _ _ _ => false
  | .elemStore _ _ _ _ => false
  | .scadd _ _ _ _ _ => false
  | .prefetch => false

/-- Entry n of the store buffer of a core leaves it (R189), when it may. -/
def State.coreRequest (s : State) (c : Fin 4) (n : Nat) : State := if s.canDrain c n then s.drainStore c n else s

/-- An access that may go on is translated, checked, and served or sent to a walk. -/
def State.portRequest (s : State) (uid : Nat) : Out :=
  match s.acc? uid with
  | none => .next s
  | some a =>
      let ready := match a.st with
        | .issued => true
        | .syncWait => true
        | .walking _ => false
        | .paged _ => false
        | .faulted => false
        | .served => false
        | .returned => false
      if !ready then .next s
      else if a.op.portless then
        .next (if s.flushNow a then s.modAcc a.uid (fun b => { b with st := .served }) else s)
      else if !s.canServe a then .next s
      else if a.elemBad then .next (s.portFault a codeAlign a.va 0)
      else .next (s.accOut a (s.beginWalk (s.treq a)))

/-- MEMORY_REQUEST: m = 0: access n makes its request; else entry n of the store buffer of core m − 1 makes its. -/
def execMemoryRequest (s : State) : Out :=
  if s.arg.m = 0 then s.portRequest s.arg.n else .next (s.coreRequest (Fin.ofNat 4 (s.arg.m - 1)) s.arg.n)

/-- One of the four stage-1 walkers of the access's port works on its page, and, for a stage-2 read, one of the 32 stage-2 walkers of
its die: the oldest misses have them (R236). -/
def State.walkerFor (s : State) (a : Access) (w : Walk) : Bool :=
  let port := s.issuePort a.loc
  let walks := fun (b : Access) => match b.st with | .walking _ => true | _ => false
  let first := ((s.mm.accesses.filter (fun b => walks b && decide (s.issuePort b.loc = port))).map Access.page).eraseDups
  let second := (s.mm.accesses.filter (fun b => decide (b.loc.die = a.loc.die) &&
    (match b.st with | .walking x => x.pa2.isNone | _ => false))).map (·.uid)
  (first.take 4).contains a.page && (w.pa2.isSome || (second.take 32).contains a.uid)

/-- WALK_READ_COMPLETE: one descriptor read of a walk. The access goes on where its translation ends; one that may not be served
then asks again. A poisoned descriptor kills the instance, that of a prefetch too (R423; DESIGN CHOICE, LOG 55). -/
def execWalkReadComplete (s : State) : Out :=
  match s.acc? s.arg.n with
  | none => .next s
  | some a =>
      match a.st with
      | .walking w =>
          if !s.accLive a || s.portWaits w.reads || !s.walkerFor a w then .next s
          else
            let t := s.walkStep (s.treq a) w
            (match t.1 with
             | .done pa perm =>
                 if t.2.canServe { a with st := .issued } then .next (t.2.serveAt a pa perm)
                 else .next (t.2.modAcc a.uid (fun b => { b with st := .issued }))
             | .more x => .next (t.2.accOut a (.more x))
             | .fault c d => .next (t.2.accOut a (.fault c d))
             | .miss x ia => .next (t.2.accOut a (.miss x ia))
             | .poison x => .next (t.2.accOut a (.poison x)))
      | _ => .next s

/-! ### ACCESS_RETURN, RDC_INVALIDATION (R226, R228, R265, R470) -/

/-- An element of an ordered strand lies in a port's reorder unit for a slot that is being saved. -/
def State.handing (s : State) (a : Access) : Bool :=
  decide (a.st = .served) && s.injected a.vf && (match a.op with | .elemLoad _ _ d => !d.tagged | _ => false)

/-- A port hands elements over first to the saving slots whose issuing sprig has the lower STAGE (R410). -/
def State.handsLater (s : State) (a : Access) : Bool :=
  s.handing a && s.mm.accesses.any (fun b =>
    s.handing b && decide (s.issuePort b.loc = s.issuePort a.loc ∧ b.stage < a.stage) && !s.elemWaits b && s.accLive b)

/-- ACCESS_RETURN: a value or an acknowledgement comes back; an ordered element waits for its turn in the reorder unit. -/
def execAccessReturn (s : State) : Out :=
  match s.acc? s.arg.n with
  | none => .next s
  | some a =>
      if decide (a.st ≠ .served) || s.elemWaits a || !s.accLive a || s.handsLater a then .next s
      else .next ((s.accBack a).accReturned a)

/-- RDC_INVALIDATION: the copies of the lines that an access has written are gone. -/
def execRdcInvalidation (s : State) : Out :=
  match s.acc? s.arg.n with
  | none => .next s
  | some a =>
      if !a.rdcLeft || !a.isServed then .next s
      else
        let s1 := a.wrote.foldl (fun st p => st.dropRdc p.1 p.2) s
        .next (if a.st = .returned then s1.dropAcc a.uid else s1.modAcc a.uid (fun b => { b with rdcLeft := false }))

/-! ### BIN_APPLY (R253, R254) -/

/-- A flush under way has reached a bin. -/
def State.flushWants (s : State) (b : Bin) : Bool :=
  s.mm.accesses.any (fun a => !a.isServed && (match a.op with
    | .scflush r sums => sums && b.ups.any (fun u => decide (u.acc.loc = a.loc ∧ u.acc.ctx = a.ctx ∧ u.strand = r ∧ u.seq < a.uid))
    | _ => false))

/-- The sum of an update (R253). -/
def scSum (t : ScType) (old : Nat) (v : Double) : Nat :=
  match t with
  | .i64 => (old + v.toNat) % 2 ^ 64
  | .i32 => (old + v.toNat % 2 ^ 32) % 2 ^ 32
  | .f32 => fp32Add old (v.toNat % 2 ^ 32)

/-- The element of an update that its home refuses, as a resume issues it again: its strand has counted it already. -/
def BinUpdate.again (u : BinUpdate) (uid : Nat) (seq : Option Nat) : Access :=
  let op := match u.acc.op with
    | .scadd r i t d v => AccOp.scadd r i t { d with id := 2 ^ 64 } v
    | o => o
  { u.acc with uid := uid, op := op, st := .faulted, faultSeq := seq }

/-- An update that its home refuses is a fault of its SCADD element: the record is that of a tagged element, with the younger stores that
have been performed, and the element waits for its resume while its instance lives (R247 to R249). -/
def State.updateFault (s : State) (u : BinUpdate) : State :=
  let n := s.newUid
  let r := n.2.report (n.2.portInfo u.acc codeFot u.acc.va 0) false (some (.access n.1))
  if s.liveInst u.acc.inst then
    r.2.modMm (fun m => { m with accesses := m.accesses ++ [u.again n.1 r.1] })
  else r.2

/-- Apply one update at its home: it fails with FOT_OWNER when its frame has left OWNED meanwhile (R246), and a poisoned line kills the
instance (R423). -/
def State.applyUpdate (s : State) (vf : Nat) (u : BinUpdate) : State :=
  if !s.fotPass vf u.pa true then s.updateFault u
  else if s.poisoned u.pa u.n then s.poisonInst vf u.acc.loc u.acc.inst u.acc.ctx u.acc.stage u.acc.tag u.acc.va u.pa
  else
    let g := s.homeRead vf u.pa u.n
    g.2.engineWrite vf u.pa u.n (scSum u.t g.1 u.value)

/-- An invalidation of translations of a function is under way (R238). -/
def State.tlbBusy (s : State) (vf : Nat) : Bool := s.host.tlb.any (fun c => decide (c.vf = vf))

/-- BIN_APPLY: bin n is applied when it is full, when a flush reaches it, when its partition is saved, or before a TLBINV of its
function ends (R238, R253). A bin of host memory waits while the Simiow port of its home is down (R469). -/
def execBinApply (s : State) : Out :=
  match s.mm.bins[s.arg.n]? with
  | none => .next s
  | some b =>
      if b.ups.any (fun u => s.portWaits u.pa) then .next s
      else if 256 ≤ b.ups.length ∨ s.flushWants b = true ∨ (s.vf b.vf).st = .saving ∨ s.tlbBusy b.vf = true then
        .next (b.ups.foldl (fun st u => st.applyUpdate b.vf u) (s.modMm (fun m => { m with bins := m.bins.eraseIdx s.arg.n })))
      else .next s

/-! ### COPY_GRANULE (R220, R248, R259) -/

/-- A memory address of a copy, translated and checked. -/
inductive CopyAt where
  /-- Physical address; whether its page is marked F/E. -/
  | ok (pa : Nat) (fe : Bool) (s : State)
  | stop (s : State)

/-- A copy has read a poisoned line: it goes with its instance (R423). -/
def State.copyPoison (s : State) (c : Copy) (va pa : Nat) : State :=
  (s.modMm (fun m => { m with copies := m.copies.filter (fun k => decide (k.uid ≠ c.uid)) })).poisonInst c.vf c.loc c.inst c.ctx
    (s.copyStage c) (s.copyTag c) va pa

/-- Translate and check a granule of a copy; a fault stops the copy, and a stage-2 miss sends a page request. -/
def State.copyAt (s : State) (c : Copy) (va need : Nat) : CopyAt :=
  let r : TReq :=
    { die := c.loc.die, port := s.issuePort c.loc, vf := c.vf, va := va, need := need, ranges := (Map.find s.mm.ranges c.inst).getD [] }
  let t := s.translate r
  match t.1 with
  | .done pa perm =>
      if t.2.portWaits pa then .stop t.2
      else if t.2.fotPass c.vf pa (decide (need = 2)) then .ok pa (bit (BitVec.ofNat 4 perm) 3) t.2
      else .stop (t.2.copyFault c codeFot va 0)
  | .fault e a2 => .stop (t.2.copyFault c e va a2)
  | .miss w ia =>
      let p := t.2.pageRequest c.loc.die c.vf va ia w (decide (need = 2)) none (.copy c.uid)
      .stop (p.2.modCopy c.uid (fun x => { x with paged := p.1 }))
  | .poison pa => .stop (t.2.copyPoison c va pa)
  | .more _ => .stop t.2

/-- Granule i of a copy has been read: the engine issues the next one. -/
def State.copyGot (s : State) (c : Copy) (i x : Nat) : State :=
  s.modCopy c.uid (fun k => { k with got := Map.put k.got i x, next := k.next + 1 })

/-- Read granule i. -/
def State.copyRead (s : State) (c : Copy) (i : Nat) : State :=
  if c.srcSp then s.copyGot c i (Mem.read (s.st c.loc).sp (c.srcAt i) 16)
  else
    match s.copyAt c (c.srcAt i) 1 with
    | .stop t => t
    | .ok pa _ t =>
        if t.poisoned pa 16 then t.copyPoison c (c.srcAt i) pa
        else
          let g := t.serveRead c.loc.die c.vf pa 16
          g.2.copyGot c i g.1

/-- Issue granule i: its source and its destination translate, and its source is read (R259). -/
def State.copyIssue (s : State) (c : Copy) (i : Nat) : State :=
  let at_ := fun (st : State) (sp : Bool) (va need : Nat) => if sp then CopyAt.ok 0 false st else st.copyAt c va need
  match at_ s c.srcSp (c.srcAt i) 1 with
  | .stop t => t
  | .ok _ _ t =>
      match at_ t c.dstSp (c.dstAt i) 2 with
      | .stop u => u
      | .ok _ _ u => u.copyRead c i

/-- Granule i of a copy has been written; with the last one the lsid is performed and the copy is done. -/
def State.copyPut (s : State) (c : Copy) (i : Nat) : State :=
  let s1 := s.modCopy c.uid (fun k => { k with got := Map.drop k.got i, moved := nput k.moved i })
  if c.moved.length + 1 < c.granules then s1
  else
    (s1.modMm (fun m => { m with copies := m.copies.filter (fun k => decide (k.uid ≠ c.uid)) })).onFiring c.loc c.inst c.fid (·.done c.lsid)

/-- A write of a copy that still waits for RDC copies or for the host stays under the copy's name. -/
def State.copyWritten (s : State) (c : Copy) (pa : Nat) (rdc : Bool) : State :=
  if !rdc && !isHostMem pa then s
  else
    let a : Access :=
      { uid := c.uid, agent := .copy, loc := c.loc, ctx := c.ctx, inst := c.inst, vf := c.vf, fid := c.fid, op := .written, va := pa,
        n := 16, st := .served, pa := pa, rdcLeft := rdc, wrote := [(pa, 16)], sysLeft := isHostMem pa }
    let old := s.mm.accesses.find? (fun b => b.uid = c.uid)
    match old with
    | some _ => s.modAcc c.uid (fun b =>
        { b with rdcLeft := b.rdcLeft || rdc, wrote := b.wrote ++ [(pa, 16)], sysLeft := b.sysLeft || isHostMem pa, st := .served })
    | none => s.modMm (fun m => { m with accesses := m.accesses ++ [a] })

/-- Write granule i, whose bytes are x: a granule of a scratchpad or of a page marked F/E becomes full with its data (R220, R273). -/
def State.copyWrite (s : State) (c : Copy) (i x : Nat) : State :=
  if c.dstSp then
    if (s.st c.loc).ctx c.ctx |>.spValid (c.dstAt i) 16 then
      (s.modSt c.loc (fun v => (v.spWrite (c.dstAt i) 16 x).fill (c.dstAt i / 16))).copyPut c i
    else s.modMm (fun m => { m with copies := m.copies.filter (fun k => decide (k.uid ≠ c.uid)) })
  else
    match s.copyAt c (c.dstAt i) 2 with
    | .stop t => t
    | .ok pa fe t =>
        if fe then ((t.engineWrite c.vf pa 16 x).feSet c.vf pa true).copyPut c i
        else
          let rdc := t.rdcCopies pa 16
          ((t.serveWrite c.vf pa 16 x).copyWritten c pa rdc).copyPut c i

/-- COPY_GRANULE: granule m of the copy named n is issued, when it is the next one, or written once it may be. -/
def execCopyGranule (s : State) : Out :=
  match s.mm.copies.find? (fun c => c.uid = s.arg.n) with
  | none => .next s
  | some c =>
      let i := s.arg.m
      if c.granules ≤ i ∨ c.faulted = true ∨ c.paged.isSome = true ∨ !c.holds.all s.holdMet ∨ !s.slotLive c.inst c.loc c.ctx then .next s
      else if c.next < c.granules ∧ i = c.turn c.next then .next (s.copyIssue c i)
      else if c.mayWrite i then .next (s.copyWrite c i ((Map.find c.got i).getD 0))
      else .next s

end Sys2Proof.Machine
end

