-- ==== Sys2Proof/Machine/Ordering.lean ====
section
/-!
DEFINITION. The ordering class: opcodes 0x90 to 0x9D (R264 to R286).
-/

namespace Sys2Proof.Machine

/-! ### FENCE (R279, R280) -/

/-- What a fence waits for: earlier loads, sync loads, atomics and joins (acq), or everything earlier (rel, full). -/
def Firing.fenceWaits (f : Firing) (k : FenceKind) (sc : Scope) (die : Fin 2) : Hold :=
  match k with
  | .acq => ⟨sc, die, (f.own.filter (·.2)).map (·.1)⟩
  | .rel => ⟨sc, die, f.covers⟩
  | .full => ⟨sc, die, f.covers⟩

/-- A fence of kind rel or full has been passed: later tokens carry a release at its scope. One at FIRING scope orders no token. -/
def Firing.fenced (f : Firing) (k : FenceKind) (sc : Scope) (h : Hold) : Firing :=
  if k = .acq ∨ sc = .firing then f
  else { f with relHold := some h, tokRel := some (match f.tokRel with | some t => Scope.max t sc | none => sc) }

/-- The firing leaves the sprig engine to other firings of the station until its fence's condition holds; it keeps what it has
reserved. Its caller may now have nothing left to wait for (R293). -/
def State.setAside (s : State) (h : Hold) : State :=
  (s.modCur (fun v => { v with firing := {}, parked := v.parked ++ [{ v.firing with park := .fence, fence := some h }] })).callerOf
    s.fir.inst

/-- The firing's own direct accesses that a list names. -/
def State.direct (s : State) (l : List Nat) : List Nat :=
  l.filter (fun u => s.mm.accesses.any (fun a => decide (a.uid = u ∧ a.fid = s.fir.id ∧ a.agent = .firing)))

/-- What the firing's FENCE waits for: at FIRING scope only its own direct accesses (R279). -/
def State.fenceHold (s : State) (k : FenceKind) (sc : Scope) : Hold :=
  let h := s.fir.fenceWaits k sc s.sched.curSt.die
  if sc = .firing then { h with uids := s.direct h.uids } else h

/-- FENCE (R280). -/
def execFence (k : FenceKind) (sc : Scope) (s : State) : Out :=
  let h := s.fenceHold k sc
  if s.holdMet h then .next (s.modFir (fun f => f.fenced k sc h)).adv else .next (s.setAside h)

/-! ### STILE (R277, R281) -/

/-- The release point of a stile sprig at a scope. -/
def State.stile (s : State) (sc : Scope) : Out :=
  if s.releaseMet sc then .next (s.flushCrossing [] s.fir.covers).adv else s.waits

/-- STILE.plot (R281). -/
def execStilePlot (s : State) : Out := s.stile .plot

/-- STILE.die (R281). -/
def execStileDie (s : State) : Out := s.stile .die

/-- STILE.device (R281). -/
def execStileDevice (s : State) : Out := s.stile .device

/-- STILE.system (R281). -/
def execStileSystem (s : State) : Out := s.stile .system

/-! ### BARJ (R282, R283) -/

/-- BARJ (R282): a release, a join sent to the gate station, and a park until the generation is notified; then the rank. -/
def execBarj (d : Fin 8) (a : Sel) (sc : Scope) (s : State) : Out :=
  match s.fir.park with
  | .notified rank => .next ((s.modFir (fun f => { f with park := .none })).wr d (dbl rank)).adv
  | _ =>
      if s.releaseMet sc then
        let x := s.sel a
        let n := if bits x 8 8 = 0 then 1 else bits x 8 8
        let j : Join := ⟨s.fir.inst, bits x 0 3, n, ⟨s.sched.curSt, s.fir.id, 0, s.fir.covers⟩⟩
        .next (((s.eat [a]).modFab (fun b => { b with joins := b.joins ++ [j] })).parkFiring s.sched.curSt .barrier)
      else s.waits

/-! ### Atomics (R284, R285) -/

/-- Bytes of an operand width. -/
def widthBytes (w : Width) : Nat := Width.bits w / 8

/-- The release that an atomic makes. -/
def atomRelease (o : AtomOrder) (die : Fin 2) (inst : Nat) (covers : List Nat) : Option Rel :=
  match o with
  | .rel sc => some ⟨sc, die, inst, covers⟩
  | .acq _ => none
  | .relaxed => none

/-- The scope at which an atomic acquires. -/
def atomAcq (o : AtomOrder) : Option Scope :=
  match o with
  | .acq sc => some sc
  | .rel _ => none
  | .relaxed => none

/-- A releasing atomic of the scratchpad waits at issue. -/
def State.atomWaits (s : State) (o : AtomOrder) : Bool :=
  match o with
  | .rel sc => !s.releaseMet sc
  | .acq _ => false
  | .relaxed => false

/-- An atomic on the own scratchpad: one step, full/empty bits untouched; the releases of the location stay behind what it writes
(R270). -/
def State.atomSp (s : State) (d : Fin 8) (a b : Sel) (i : Fin 32) (o : AtomOrder) (n : Nat) (sx : Bool) (op : AmoOp) : State :=
  let addr := (s.sel a).toNat % 2 ^ 18
  let old := s.spRead addr n
  let die := s.sched.curSt.die
  let rels := relsIn (s.st s.sched.curSt).spRel addr n
  let left := rels ++ (atomRelease o die s.fir.inst s.fir.covers).toList
  let put := fun (v : Station) =>
    match amoNew op n old ((s.sel b).toNat % 256 ^ n) with
    | some x =>
        let w := v.spWrite addr n x
        if left.isEmpty then w else { w with spRel := relPut w.spRel addr n left }
    | none => v
  let obs := match atomAcq o with | some sc => acquired rels sc die s.fir.inst | none => []
  (((((s.eat [a, b]).modCur put).acquire obs).wr d (extend sx n old)).lsidNow i.val).adv

/-- An atomic on memory: an access that the firing waits for. -/
def State.atomMem (s : State) (d : Fin 8) (a b : Sel) (i : Fin 32) (o : AtomOrder) (n : Nat) (sx : Bool) (op : AmoOp) : State :=
  let die := s.sched.curSt.die
  let a0 := s.newAcc .firing (.amo op (s.sel b) sx) (s.sel a).toNat n i.val
  let rel := atomRelease o die s.fir.inst s.coversNew
  let acc : Access :=
    { a0 with td := some d.val, acq := atomAcq o, rel := rel, holds := (rel.map (fun r => ⟨r.scope, die, s.fir.covers⟩)).toList }
  ((((s.eat [a, b]).issueAcc acc).pend d acc.uid).stallOn acc.uid).adv

/-- An atomic (R284): the scratchpad where bit 63 of the address is set, memory otherwise. -/
def State.atomic (s : State) (d : Fin 8) (a b : Sel) (i : Fin 32) (o : AtomOrder) (n : Nat) (sx : Bool) (op : AmoOp) : Out :=
  let addr := (s.sel a).toNat
  s.storing i (
    if bit (s.sel a) 63 then
      if bits (s.sel a) 18 45 ≠ 0 then .next (s.trapAcc codePermission i.val 0)
      else s.valid (addr % 2 ^ 18) 1 i.val (s.aligned addr n i.val 0 (
        if s.atomWaits o then s.waits else .next (s.atomSp d a b i o n sx op)))
    else s.aligned addr n i.val addr (.next (s.atomMem d a b i o n sx op)))

/-- AADD (R284). -/
def execAadd (d : Fin 8) (a b : Sel) (i : Fin 32) (o : AtomOrder) (w : Width) (s : State) : Out :=
  s.atomic d a b i o (widthBytes w) true .add

/-- AMIN (R284): signed. -/
def execAmin (d : Fin 8) (a b : Sel) (i : Fin 32) (o : AtomOrder) (w : Width) (s : State) : Out :=
  s.atomic d a b i o (widthBytes w) true .min

/-- AMAX (R284): signed. -/
def execAmax (d : Fin 8) (a b : Sel) (i : Fin 32) (o : AtomOrder) (w : Width) (s : State) : Out :=
  s.atomic d a b i o (widthBytes w) true .max

/-- AMINN (R284): natural. -/
def execAminn (d : Fin 8) (a b : Sel) (i : Fin 32) (o : AtomOrder) (w : Width) (s : State) : Out :=
  s.atomic d a b i o (widthBytes w) false .minn

/-- AMAXN (R284): natural. -/
def execAmaxn (d : Fin 8) (a b : Sel) (i : Fin 32) (o : AtomOrder) (w : Width) (s : State) : Out :=
  s.atomic d a b i o (widthBytes w) false .maxn

/-- AAND (R284). -/
def execAand (d : Fin 8) (a b : Sel) (i : Fin 32) (o : AtomOrder) (w : Width) (s : State) : Out :=
  s.atomic d a b i o (widthBytes w) true .and

/-- AOR (R284). -/
def execAor (d : Fin 8) (a b : Sel) (i : Fin 32) (o : AtomOrder) (w : Width) (s : State) : Out :=
  s.atomic d a b i o (widthBytes w) true .or

/-- AXOR (R284). -/
def execAxor (d : Fin 8) (a b : Sel) (i : Fin 32) (o : AtomOrder) (w : Width) (s : State) : Out :=
  s.atomic d a b i o (widthBytes w) true .xor

/-- AXCHG (R284). -/
def execAxchg (d : Fin 8) (a b : Sel) (i : Fin 32) (o : AtomOrder) (w : Width) (s : State) : Out :=
  s.atomic d a b i o (widthBytes w) true .xchg

/-- ACAS (R284): td holds the value to compare with. -/
def execAcas (d : Fin 8) (a b : Sel) (i : Fin 32) (o : AtomOrder) (w : Width) (s : State) : Out :=
  s.atomic d a b i o (widthBytes w) true (.cas s.fir.t[d])

/-- AFADD (R284): FP32. -/
def execAfadd (d : Fin 8) (a b : Sel) (i : Fin 32) (o : AtomOrder) (s : State) : Out := s.atomic d a b i o 4 false .fadd

end Sys2Proof.Machine
end

