-- ==== Sys2Proof/Machine/Thicket.lean ====
section
/-!
DEFINITION. Tables of the Thicket engines: descriptors, families, hashing, bucket lines, inserts and deletes, and an engine's
accesses (R370 to R380, R387).
-/

namespace Sys2Proof.Machine

/-! ### Descriptors (R371) -/

/-- A field of a number replaced. -/
def setFld (x lo w v : Nat) : Nat := x - fld x lo w * 2 ^ lo + v % 2 ^ w * 2 ^ lo

def dBase (d : Nat) : Nat := fld d 0 64
def dOldBase (d : Nat) : Nat := fld d 64 64
def dNextBase (d : Nat) : Nat := fld d 128 64
def dArena (d : Nat) : Nat := fld d 192 64
def dRowBase (d : Nat) : Nat := fld d 256 64
def dMig (d : Nat) : Bool := decide (fld d 334 1 = 1)
def dPolicy (d : Nat) : Nat := fld d 335 2
def dNextFam (d : Nat) : Nat := fld d 337 4
def dNextL (d : Nat) : Nat := fld d 341 4 + 1
def dNextB (d : Nat) : Nat := fld d 345 5
def dOldFam (d : Nat) : Nat := fld d 350 4
def dOldL (d : Nat) : Nat := fld d 354 4 + 1
def dOldB (d : Nat) : Nat := fld d 358 5
def dFam (d : Nat) : Nat := fld d 363 4
def dL (d : Nat) : Nat := fld d 367 4 + 1
def dB (d : Nat) : Nat := fld d 371 5
def dGen (d : Nat) : Nat := fld d 376 8
def dCursor (d : Nat) : Nat := fld d 384 25
def dStride (d : Nat) : Nat := fld d 416 32
def dArenaNext (d : Nat) : Nat := fld d 448 32
def dArenaLim (d : Nat) : Nat := fld d 480 32

/-- The generation of the old area. -/
def dOldGen (d : Nat) : Nat := (dGen d + 255) % 256

/-- The checks of R378 on the fields of a descriptor. -/
def descFields (d : Nat) : Bool :=
  decide (fld d 320 14 = 0) && decide (fld d 409 7 = 0) && decide (2 ≤ dB d ∧ dB d ≤ 24) && decide (dPolicy d ≠ 3) &&
    decide (dBase d % 128 = 0 ∧ dOldBase d % 128 = 0 ∧ dNextBase d % 128 = 0 ∧ dArena d % 128 = 0) &&
    (!dMig d || decide (2 ≤ dOldB d ∧ dOldB d ≤ 24 ∧ dCursor d ≤ 2 ^ dOldB d))

/-- A descriptor at the start of a migration (R381): the old fields take the current ones, which take the next ones. -/
def dStart (d : Nat) : Nat :=
  let a := setFld (setFld (setFld (setFld d 64 64 (dBase d)) 358 5 (dB d)) 354 4 (dL d - 1)) 350 4 (dFam d)
  let b := setFld (setFld (setFld (setFld a 0 64 (dNextBase d)) 371 5 (dNextB d)) 367 4 (dNextL d - 1)) 363 4 (dNextFam d)
  setFld (setFld (setFld b 376 8 (dGen d + 1)) 384 25 0) 334 1 1

/-- Bytes of an area (R372). -/
def areaBytes (l b : Nat) : Nat := 128 * (l * 2 ^ b)

/-- The address of a bucket (R372). -/
def bucketVa (base l b i : Nat) : Nat := (base + 128 * (l * 2 ^ b + i)) % 2 ^ 64

/-- The next area overlaps the current one (R378). -/
def dOverlap (d : Nat) : Bool :=
  decide (dNextBase d < dBase d + areaBytes (dL d) (dB d) ∧ dBase d < dNextBase d + areaBytes (dNextL d) (dNextB d))

/-! ### Lines (R372, R373) -/

/-- A tombstone. -/
def tombstone : Nat := 0xFFFFFFFF

/-- A bucket or arena line. -/
structure ThLine where
  va : Nat
  gen : Nat := 0
  ovf : Nat := 0
  count : Nat := 0
  tomb : Bool := false
  slots : List Nat := List.replicate 30 0
deriving DecidableEq, Repr

/-- A line from its bytes. -/
def ThLine.ofNat (va x : Nat) : ThLine :=
  { va := va, gen := fld x 37 8, ovf := fld x 5 32, count := fld x 0 5, tomb := decide (fld x 45 1 = 1),
    slots := (List.range 30).map (fun k => fld x (64 + 32 * k) 32) }

/-- The bytes of a line; the reserved bits are written as zeros. -/
def ThLine.toNat (n : ThLine) : Nat :=
  n.count + n.ovf * 2 ^ 5 + n.gen * 2 ^ 37 + n.tomb.toNat * 2 ^ 45 +
    (n.slots.zipIdx.map (fun p => p.1 * 2 ^ (64 + 32 * p.2))).foldl (· + ·) 0

/-- Rows in the slots in use. -/
def ThLine.rows (n : ThLine) : List Nat := n.slots.take n.count

/-- Slots from a list of rows; the slots at and above COUNT, of which the spec says nothing when the line is written whole, hold zeros
(DESIGN CHOICE, LOG 66). -/
def ThLine.withRows (n : ThLine) (l : List Nat) : ThLine :=
  { n with slots := (l ++ List.replicate 30 0).take 30, count := min l.length 30 }

/-- Drop the tombstones of a line. -/
def ThLine.compact (n : ThLine) : ThLine :=
  if n.tomb then { (n.withRows (n.rows.filter (· ≠ tombstone))) with tomb := false } else n

/-- A row is live in a chain. -/
def liveIn (l : List ThLine) (r : Nat) : Bool := l.any (fun n => n.rows.contains r)

/-- Append a row to the first line with room; none where there is none. -/
def appendRow (r : Nat) : List ThLine → Option (List ThLine)
  | [] => none
  | n :: rest => if n.count < 30 then some (n.withRows (n.rows ++ [r]) :: rest) else (appendRow r rest).map (n :: ·)

/-- What an insert does to a chain (R379): the lines afterwards, a new arena line, ARENANEXT, and whether it is refused. -/
structure ThPlan where
  lines : List ThLine
  fresh : Option ThLine := none
  next : Nat
  refused : Bool := false
deriving DecidableEq, Repr

/-- Change the last element of a list. -/
def modLast {α : Type} (f : α → α) : List α → List α
  | [] => []
  | [x] => [f x]
  | x :: y :: rest => x :: modLast f (y :: rest)

/-- R379 on a chain read. -/
def insertPlan (d r : Nat) (g : Nat) (chain : List ThLine) : ThPlan :=
  let next := dArenaNext d
  if liveIn chain r then { lines := chain, next := next }
  else
    let c := chain.map ThLine.compact
    match appendRow r c with
    | some l => { lines := l, next := next }
    | none =>
        match dPolicy d with
        | 1 => { lines := modLast (fun n => n.withRows (n.rows.drop 1 ++ [r])) c, next := next }
        | 2 =>
            if c.length ≤ 4 ∧ next < dArenaLim d then
              { lines := modLast (fun n => { n with ovf := next + 1 }) c,
                fresh := some (({ va := (dArena d + 128 * next) % 2 ^ 64, gen := g } : ThLine).withRows [r]), next := next + 1 }
            else { lines := c, next := next, refused := true }
        | _ => { lines := c, next := next, refused := true }

/-- R380 on a line. -/
def ThLine.delete (n : ThLine) (r : Nat) : ThLine :=
  if n.rows.contains r then
    { n with slots := n.slots.zipIdx.map (fun p => if p.2 < n.count ∧ p.1 = r then tombstone else p.1), tomb := true }
  else n

/-! ### Families and hashing (R374 to R377) -/

/-- The element format of a family, when its code is valid. -/
def Family.format (f : Family) : Option EFmt :=
  let c := f.fmt.toNat
  if c ≤ 3 ∨ c = 6 ∨ (32 ≤ c ∧ fld c 2 3 ≠ 0) then some (fmtOf f.fmt) else none

/-- The registers of a family hold valid values (R374). -/
def Family.ok (f : Family) : Bool :=
  decide (32 ≤ f.dim.toNat ∧ f.dim.toNat ≤ 8192 ∧ f.dim.toNat % 32 = 0) && f.format.isSome &&
    decide (2 ≤ f.bits.toNat ∧ f.bits.toNat ≤ 24 ∧ 1 ≤ f.tables.toNat ∧ f.tables.toNat ≤ 16) &&
    (decide (f.kind = 1) || decide (f.seed.toNat % 64 = 0))

/-- Bytes of a family's vector, and of one element. -/
def Family.elemBytes (f : Family) : Nat := match f.format with | some e => e.width / 8 | none => 1
def Family.vecBytes (f : Family) : Nat := f.dim.toNat * f.elemBytes

/-- Bytes of a coefficient tile (R376). -/
def Family.tileBytes (f : Family) : Nat := f.tables.toNat * f.bits.toNat * (f.dim.toNat / 4)

/-- A coefficient (R376, R377): +1, -1 or 0. -/
def Family.coef (f : Family) (tile l j i : Nat) : Num :=
  let code :=
    if f.kind = 0 then tile / 256 ^ ((l * f.bits.toNat + j) * (f.dim.toNat / 4) + i / 4) / 4 ^ (i % 4) % 4
    else (mix64 (f.seed ^^^ dbl (l * 2 ^ 48) ^^^ dbl (j * 2 ^ 32) ^^^ dbl i)).toNat % 4
  match code with
  | 0 => .fin false 1 0
  | 1 => .fin true 1 0
  | _ => .fin false 0 0

/-- The elements of a vector. -/
def Family.elems (f : Family) (x : Nat) : List Num :=
  match f.format with
  | some e => (List.range f.dim.toNat).map (fun i => e.decode (fld x (e.width * i) e.width))
  | none => []

/-- Bit j of the index of table l (R375). -/
def Family.hashBit (f : Family) (tile : Nat) (x : List Num) (l j : Nat) : Nat :=
  let s := x.zipIdx.foldl (fun s p => fp32Add s (toF32 ((f.coef tile l j p.2).mul p.1))) 0
  if 0 < s ∧ s ≤ 0x7F800000 then 1 else 0

/-- The indices of a vector (R375); none under status NANIN. -/
def Family.hash (f : Family) (tile x : Nat) : Option (List Nat) :=
  let e := f.elems x
  if e.any Num.isNan then none
  else
    some ((List.range f.tables.toNat).map (fun l =>
      (List.range f.bits.toNat).foldl (fun a j => a + f.hashBit tile e l j * 2 ^ j) 0))

/-! ### What an engine's work comes to (R378, R387) -/

/-- The outcome of an engine's work: a value, a fault, a page that the host has to give, a descriptor failure, a poisoned line, or a
wait for a Simiow port that is down (R469). -/
inductive Th (α : Type) where
  | ok (x : α) (s : State)
  | fault (code va addr2 : Nat) (s : State)
  | miss (inWalk : Bool) (ia va : Nat) (write : Bool) (s : State)
  | desc (s : State)
  | poison (va pa : Nat) (s : State)
  | wait (s : State)

/-- Go on with a value. -/
def Th.bind {α β : Type} (x : Th α) (f : α → State → Th β) : Th β :=
  match x with
  | .ok a s => f a s
  | .fault c v a s => .fault c v a s
  | .miss w i v wr s => .miss w i v wr s
  | .desc s => .desc s
  | .poison v p s => .poison v p s
  | .wait s => .wait s

/-- Go on while a test holds, else fail the descriptor. -/
def Th.check (b : Bool) (s : State) : Th Unit := if b then .ok () s else .desc s

/-- The die of an engine. -/
def ThReq.die (t : ThReq) : Fin 2 := if t.eng < 32 then 0 else 1

/-- What translates an address for a request, as the issuing context (R370). -/
def State.thReq (s : State) (t : ThReq) (va : Nat) (write : Bool) : TReq :=
  ⟨t.die, t.eng, t.vf, va, if write then 2 else 1, (Map.find s.mm.ranges t.inst).getD []⟩

/-- The physical address of an access of a request, and whether its page is marked F/E. -/
def State.thPa (s : State) (t : ThReq) (va : Nat) (write : Bool) : Th (Nat × Bool) :=
  let o := s.translate (s.thReq t va write)
  match o.1 with
  | .done pa perm =>
      if o.2.portWaits pa then .wait o.2
      else if o.2.fotPass t.vf pa write then .ok (pa, bit (BitVec.ofNat 4 perm) 3) o.2 else .fault codeFot va 0 o.2
  | .fault c a2 => .fault c va a2 o.2
  | .miss w ia => .miss w ia va write o.2
  | .poison pa => .poison va pa o.2
  | .more _ => .wait o.2

/-- The own scratchpad holds an address (R284). -/
def inSp (va : Nat) : Bool := decide (2 ^ 63 ≤ va)

/-- Read n bytes at their home slice, within one page, or in the own scratchpad. -/
def State.thRead (s : State) (t : ThReq) (va n : Nat) : Th Nat :=
  if inSp va then .ok (Mem.read (s.st t.loc).sp (va % leaseSize) n) s
  else
    (s.thPa t va false).bind (fun p s1 =>
      if s1.poisoned p.1 n then .poison va p.1 s1
      else
        let g := s1.homeRead t.vf p.1 n
        .ok g.1 g.2)

/-- Write n bytes at their home slice, within one page, or in the own scratchpad: performed at DEVICE at once. Each granule written
becomes full, in memory on a page marked F/E (R220). -/
def State.thWrite (s : State) (t : ThReq) (va n x : Nat) : Th Unit :=
  let full := List.range (n / 16)
  if inSp va then
    .ok () (s.modSt t.loc (fun v => full.foldl (fun u k => u.fill (va % leaseSize / 16 + k)) (v.spWrite (va % leaseSize) n x)))
  else
    (s.thPa t va true).bind (fun p s1 =>
      let s2 := s1.engineWrite t.vf p.1 n x
      .ok () (if p.2 then full.foldl (fun st k => st.feSet t.vf (p.1 + 16 * k) true) s2 else s2))

/-- Read n bytes over pages: a vector or a coefficient tile. -/
def State.thBytes (s : State) (t : ThReq) (va : Nat) : Nat → Nat → Th Nat
  | 0, _ => .ok 0 s
  | fuel + 1, n =>
      if n = 0 then .ok 0 s
      else if inSp va then .ok (Mem.read (s.st t.loc).sp (va % leaseSize) n) s
      else
        let k := min n (65536 - va % 65536)
        (s.thPa t va false).bind (fun p s1 =>
          if s1.poisoned p.1 k then .poison va p.1 s1
          else
            let g := s1.serveRead t.die t.vf p.1 k
            (g.2.thBytes t ((va + k) % 2 ^ 64) fuel (n - k)).bind (fun x s2 => .ok (g.1 + x * 256 ^ k) s2))

/-- Bytes of any length. -/
def State.thBlock (s : State) (t : ThReq) (va n : Nat) : Th Nat := s.thBytes t va (n / 65536 + 2) n

/-- The family registers that a request works with. -/
def ThReq.family (t : ThReq) (k : Nat) : Family := (t.fams[k]?).getD {}

/-- Hash the vector at an address under a family; none under NANIN. One in memory that is not aligned to its element fails with ALIGN
(R387). -/
def State.thHash (s : State) (t : ThReq) (f : Family) (va : Nat) : Th (Option (List Nat)) :=
  if !inSp va && decide (va % f.elemBytes ≠ 0) then .fault codeAlign va 0 s
  else
  (s.thBlock t va f.vecBytes).bind (fun x s1 =>
    if f.kind = 1 then .ok (f.hash 0 x) s1
    else (s1.thBlock t f.seed.toNat f.tileBytes).bind (fun tile s2 => .ok (f.hash tile x) s2))

/-- An update of a shared read-only frame fails with FOT_OWNER, whether or not it writes there (R387). -/
def State.thOwn (s : State) (t : ThReq) (va : Nat) : Th Unit :=
  if inSp va then .ok () s
  else (s.thPa t va false).bind (fun p s1 => if s1.fotPass t.vf p.1 true then .ok () s1 else .fault codeFot va 0 s1)

/-- The lines of a chain that an update works on. -/
def State.thOwnAll (s : State) (t : ThReq) : List ThLine → Th Unit
  | [] => .ok () s
  | n :: rest => (s.thOwn t n.va).bind (fun _ s1 => s1.thOwnAll t rest)

/-- No page of a run of n pages, from that of an address on, translates to host memory (R378). One that does not translate is no failure
of the descriptor: an access to it faults. -/
def State.thPages (s : State) (t : ThReq) : Nat → Nat → Th Unit
  | 0, _ => .ok () s
  | n + 1, va =>
      let o := s.translate (s.thReq t va false)
      match o.1 with
      | .done pa _ => if isHostMem pa then .desc o.2 else o.2.thPages t n ((va / 65536 + 1) * 65536 % 2 ^ 64)
      | .more _ => .wait o.2
      | .fault _ _ => o.2.thPages t n ((va / 65536 + 1) * 65536 % 2 ^ 64)
      | .miss _ _ => o.2.thPages t n ((va / 65536 + 1) * 65536 % 2 ^ 64)
      | .poison _ => o.2.thPages t n ((va / 65536 + 1) * 65536 % 2 ^ 64)

/-- An area or an arena of n bytes, any part of which in host memory fails the descriptor at the start (R378). -/
def State.thWhole (s : State) (t : ThReq) (va n : Nat) : Th Unit := s.thPages t ((va % 65536 + n + 65535) / 65536) va

/-- A line of an area or of the arena that translates to host memory fails the descriptor (R378). -/
def State.thArea (s : State) (t : ThReq) (va : Nat) : Th Unit :=
  (s.thPa t va false).bind (fun p s1 => Th.check (!isHostMem p.1) s1)

/-- A family is valid and agrees with the area that it hashes (R378). -/
def ThReq.agrees (t : ThReq) (fam b l : Nat) : Bool :=
  (t.family fam).ok && decide ((t.family fam).bits.toNat = b ∧ (t.family fam).tables.toNat = l)

/-- The checks of R378 on a descriptor that a request has read: its fields, the places of its areas, the families of the areas
that it hashes, and the family that the instruction names. -/
def State.thCheck (s : State) (t : ThReq) (d : Nat) (named cur old : Bool) : Th Unit :=
  (Th.check (descFields d && (!named || decide (t.fam = dFam d)) && (!cur || t.agrees (dFam d) (dB d) (dL d)) &&
    (!(old && dMig d) || t.agrees (dOldFam d) (dOldB d) (dOldL d))) s).bind (fun _ s1 =>
  (s1.thWhole t (dBase d) (areaBytes (dL d) (dB d))).bind (fun _ s2 =>
  (if dMig d then s2.thWhole t (dOldBase d) (areaBytes (dOldL d) (dOldB d)) else .ok () s2).bind (fun _ s3 =>
  s3.thWhole t (dArena d) (128 * dArenaLim d))))

/-- Read a line of an area: one of another generation reads as empty, and a bad header fails the descriptor (R372, R378). -/
def State.thLine (s : State) (t : ThReq) (d va g : Nat) : Th (ThLine × Bool) :=
  (s.thArea t va).bind (fun _ s1 =>
  (s1.thRead t va 128).bind (fun x s2 =>
    let n := ThLine.ofNat va x
    if n.gen ≠ g then .ok ({ va := va, gen := g }, true) s2
    else (Th.check (decide (n.count ≤ 30 ∧ n.ovf ≤ dArenaLim d)) s2).bind (fun _ s3 => .ok (n, false) s3)))

/-- The address of arena line n - 1. -/
def arenaVa (d n : Nat) : Nat := (dArena d + 128 * (n - 1)) % 2 ^ 64

/-- Read a chain: a bucket line and at most four arena lines (R373, R378). -/
def State.thChain (s : State) (t : ThReq) (d g va : Nat) : Nat → Th (List ThLine)
  | 0 => .desc s
  | fuel + 1 =>
      (s.thLine t d va g).bind (fun n s1 =>
        if n.1.ovf = 0 then .ok [n.1] s1
        else (s1.thChain t d g (arenaVa d n.1.ovf) fuel).bind (fun l s2 => .ok (n.1 :: l) s2))

/-- Write the lines of a chain that have changed. -/
def State.thPut (s : State) (t : ThReq) : List (ThLine × ThLine) → Th Unit
  | [] => .ok () s
  | (a, b) :: rest =>
      (if a = b then .ok () s else s.thWrite t b.va 128 b.toNat).bind (fun _ s1 => s1.thPut t rest)

/-- Insert a row into a bucket (R379); the answer is whether the table refuses it. A new arena line in host memory fails the descriptor
before anything is written (R378). ARENANEXT is written first, then the new arena
line, then the lines of the chain. -/
def State.thInsert (s : State) (t : ThReq) (d r va g : Nat) : Th Bool :=
  (s.thChain t d g va 5).bind (fun c s0 =>
  (s0.thOwnAll t c).bind (fun _ s1 =>
    let p := insertPlan d r g c
    let room : Th Unit := match p.fresh with | some n => s1.thArea t n.va | none => .ok () s1
    room.bind (fun _ s1 =>
    (if p.next = dArenaNext d then .ok () s1 else s1.thWrite t t.desc 64 (setFld d 448 32 p.next)).bind (fun _ s2 =>
    (match p.fresh with | some n => s2.thWrite t n.va 128 n.toNat | none => .ok () s2).bind (fun _ s3 =>
    (s3.thPut t (c.zip p.lines)).bind (fun _ s4 => .ok p.refused s4))))))

/-- Delete a row from a bucket (R380). -/
def State.thDelete (s : State) (t : ThReq) (d r va g : Nat) : Th Unit :=
  (s.thChain t d g va 5).bind (fun c s1 =>
  (s1.thOwnAll t c).bind (fun _ s2 => s2.thPut t (c.map (fun n => (n, n.delete r)))))

end Sys2Proof.Machine
end

