-- ==== Sys2Proof/Machine/Retrieval.lean ====
section
/-!
DEFINITION. The retrieval class: opcodes 0xE0 to 0xE9, and the steps of the Thicket engines: THICKET_PROBE, THICKET_UPDATE (R370,
R374, R378, R381 to R396, R399).
-/

namespace Sys2Proof.Machine

/-! ### HFW, HFR (R374, R390) -/

/-- A register of a family, zero-extended. -/
def Family.get (f : Family) (r : HReg) : Double :=
  match r with
  | .kind => f.kind.zeroExtend 64
  | .dim => f.dim.zeroExtend 64
  | .fmt => f.fmt.zeroExtend 64
  | .bits => f.bits.zeroExtend 64
  | .tables => f.tables.zeroExtend 64
  | .seed => f.seed

/-- A family with a register written: the low bits of the value. -/
def Family.set (f : Family) (r : HReg) (v : Double) : Family :=
  match r with
  | .kind => { f with kind := v.truncate 1 }
  | .dim => { f with dim := v.truncate 14 }
  | .fmt => { f with fmt := v.truncate 6 }
  | .bits => { f with bits := v.truncate 5 }
  | .tables => { f with tables := v.truncate 5 }
  | .seed => { f with seed := v }

/-- HFW (R390): every engine holds the value when the instruction has issued. -/
def execHfw (a : Sel) (r : HReg) (f : Fin 16) (s : State) : Out :=
  let v := s.sel a
  .next ((s.eat [a]).modVf s.fVf (fun x => { x with families := x.families.set f (x.families[f].set r v) })).adv

/-- HFR (R390). -/
def execHfr (d : Fin 8) (r : HReg) (f : Fin 16) (s : State) : Out :=
  .next (s.result d [] ((s.vf s.fVf).families[f].get r))

/-! ### Issue of the other instructions -/

/-- An address in the own scratchpad lies within the lease (R284). -/
def State.spOk (s : State) (va n : Nat) : Bool := decide (va / 2 ^ 18 = 2 ^ 45) && s.cx.spValid (va % 2 ^ 18) n

/-- The checks of a descriptor address at issue: ALIGN, then PERMISSION, with the instruction's lsid (0: it names none). -/
def State.thDesc (s : State) (va lsid : Nat) (k : Out) : Out :=
  s.aligned va 64 lsid (if inSp va then 0 else va)
    (if inSp va && !s.spOk va 64 then .next (s.trapAcc codePermission lsid 0) else k)

/-- The checks of a vector address at issue, by the family that the instruction names. -/
def State.thVec (s : State) (va lsid : Nat) (f : Fin 16) (k : Out) : Out :=
  let x := (s.vf s.fVf).families[f]
  if inSp va then (if s.spOk va x.vecBytes then k else .next (s.trapAcc codePermission lsid 0))
  else s.aligned va x.elemBytes lsid va k

/-- The engine of a descriptor's home slice (R370); the issuing port's where the descriptor lies in the own scratchpad, which no L2 slice
homes, or where its address has no translation (DESIGN CHOICE, LOG 65). -/
def State.descPort (s : State) (va : Nat) : Nat :=
  let p := s.issuePort s.sched.curSt
  if inSp va then p
  else
    match (s.translate ⟨s.sched.curSt.die, p, s.fVf, va, 1, (Map.find s.mm.ranges s.fir.inst).getD []⟩).1 with
    | .done pa _ => s.homePort pa
    | .fault _ _ => p
    | .miss _ _ => p
    | .poison _ => p
    | .more _ => p

/-- The home of a descriptor cannot be found while a Simiow port is down: the instruction waits at issue (R469). -/
def State.descWaits (s : State) (va : Nat) : Bool :=
  !inSp va && (match (s.translate ⟨s.sched.curSt.die, s.issuePort s.sched.curSt, s.fVf, va, 1,
      (Map.find s.mm.ranges s.fir.inst).getD []⟩).1 with
    | .more _ => true
    | .done _ _ => false
    | .fault _ _ => false
    | .miss _ _ => false
    | .poison _ => false)

/-- An engine's queue is full (R389). -/
def State.engFull (s : State) (e : Nat) : Bool := decide (64 ≤ (s.mm.thq.filter (fun t => decide (t.eng = e))).length)

/-- A request of the firing in progress. -/
def State.newTh (s : State) (op : ThOp) (desc eng : Nat) : ThReq :=
  { uid := s.sched.uid, op := op, loc := s.sched.curSt, ctx := s.fir.ctx, inst := s.fir.inst, vf := s.fVf, fid := s.fir.id,
    desc := desc, eng := eng, tag := s.otag, stage := hdrStage s.fir.header }

/-- A request enters its engine's queue. -/
def State.issueTh (s : State) (t : ThReq) : State := s.newUid.2.modMm (fun m => { m with thq := m.thq ++ [t] })

/-- HASH and TPRB (R391): the arc is claimed, and the tokens come later. -/
def State.probeIns (s : State) (op : ThOp) (n : Fin 16) (a b : Sel) (f : Fin 16) : Out :=
  let desc := (s.sel a).toNat
  let vec := (s.sel b).toNat
  let e := s.issuePort s.sched.curSt
  s.thDesc desc 0 (s.thVec vec 0 f (
    if s.engFull e then s.waits
    else s.claiming [n.val] (fun s =>
      let r := (s.cx.route? s.fir.sprig n.val).getD 0
      let t : ThReq :=
        { s.newTh op desc e with vec := vec, fam := f.val, route := r, rel := s.fir.lateRelease s.sched.curSt.die r }
      .next ((s.eat [a, b]).issueTh t).adv)))

/-- HASH (R391). -/
def execHash (n : Fin 16) (a b : Sel) (f : Fin 16) (s : State) : Out := s.probeIns .hash n a b f

/-- TPRB (R391). -/
def execTprb (n : Fin 16) (a b : Sel) (f : Fin 16) (s : State) : Out := s.probeIns .tprb n a b f

/-- TINS and TDEL (R392). -/
def State.rowIns (s : State) (op : ThOp) (v a b : Sel) (i : Fin 32) (f : Fin 16) : Out :=
  let desc := (s.sel a).toNat
  let vec := (s.sel b).toNat
  let e := s.descPort desc
  s.storing i (s.thDesc desc i.val (s.thVec vec i.val f (
    if s.engFull e || s.descWaits desc then s.waits
    else
      let t : ThReq := { s.newTh op desc e with vec := vec, fam := f.val, row := (s.sel v).toNat % 2 ^ 32, lsid := i.val }
      .next ((s.eat [v, a, b]).issueTh t).adv)))

/-- TINS (R392). -/
def execTins (v a b : Sel) (i : Fin 32) (f : Fin 16) (s : State) : Out := s.rowIns .tins v a b i f

/-- TDEL (R392). -/
def execTdel (v a b : Sel) (i : Fin 32) (f : Fin 16) (s : State) : Out := s.rowIns .tdel v a b i f

/-- TRHS (R393). -/
def execTrhs (v a : Sel) (i : Fin 32) (s : State) : Out :=
  let desc := (s.sel a).toNat
  let e := s.descPort desc
  s.storing i (s.thDesc desc i.val (
    if s.engFull e || s.descWaits desc then s.waits
    else
      let t : ThReq := { s.newTh .trhs desc e with row := (s.sel v).toNat % 2 ^ 25, count := (s.sel v).toNat % 2 ^ 25, lsid := i.val }
      .next ((s.eat [v, a]).issueTh t).adv))

/-- The code of a policy (R371). -/
def ovCode : OvPolicy → Nat
  | .refuse => 0
  | .evictOldest => 1
  | .chain => 2

/-- TOVP (R394). -/
def execTovp (a : Sel) (i : Fin 32) (p : OvPolicy) (s : State) : Out :=
  let desc := (s.sel a).toNat
  let e := s.descPort desc
  s.storing i (s.thDesc desc i.val (
    if s.engFull e || s.descWaits desc then s.waits
    else .next ((s.eat [a]).issueTh { s.newTh .tovp desc e with row := ovCode p, lsid := i.val }).adv))

/-- The request is an update (R384). -/
def ThOp.isUpdate : ThOp → Bool
  | .tins => true
  | .tdel => true
  | .trhs => true
  | .tovp => true
  | .hash => false
  | .tprb => false
  | .tstat => false

/-- An update of a context slot on a descriptor, issued before a name, that has not been applied. -/
def State.ownUpdate (s : State) (l : Loc) (c inst desc before : Nat) : Bool :=
  s.mm.thq.any (fun t => t.op.isUpdate && !t.applied && decide (t.loc = l ∧ t.ctx = c ∧ t.inst = inst ∧ t.desc = desc ∧ t.uid < before))

/-- TFEN (R395): the next instruction waits until the slot's updates of the descriptor are applied, and so performed at DEVICE. -/
def execTfen (a : Sel) (_sc : Scope) (s : State) : Out :=
  let desc := (s.sel a).toNat
  s.thDesc desc 0 (
    if s.ownUpdate s.sched.curSt s.fir.ctx s.fir.inst desc s.sched.uid then s.waits else .next (s.eat [a]).adv)

/-- TSTAT (R396): the temporary waits for the value. -/
def execTstat (d : Fin 8) (a : Sel) (s : State) : Out :=
  let desc := (s.sel a).toNat
  let e := s.descPort desc
  s.thDesc desc 0 (
    if s.engFull e || s.descWaits desc then s.waits
    else
      let t : ThReq := { s.newTh .tstat desc e with td := some d.val }
      .next (((s.eat [a]).issueTh t).pend d t.uid).adv)

/-! ### Requests at the engines -/

/-- The request of a name. -/
def State.th? (s : State) (uid : Nat) : Option ThReq := s.mm.thq.find? (fun t => t.uid = uid)

/-- Replace a request. -/
def State.setTh (s : State) (t : ThReq) : State :=
  s.modMm (fun m => { m with thq := m.thq.map (fun x => if x.uid = t.uid then t else x) })

/-- Drop a request. -/
def State.dropTh (s : State) (t : ThReq) : State := s.modMm (fun m => { m with thq := m.thq.filter (fun x => decide (x.uid ≠ t.uid)) })

/-- What an engine reports about a request. -/
def State.thInfo (s : State) (t : ThReq) (code : Nat) : FaultInfo :=
  let f := s.firingOf t.loc t.inst t.fid
  { code := code, source := 2, vf := some t.vf, loc := some t.loc, die := t.loc.die, inst := t.inst, ctx := t.ctx, tag := t.tag,
    stage := t.stage,
    lsids := match f with | some g => g.lsids.toNat | none => 0,
    tokens := match f with | some g => g.sent | none => 0 }

/-- A descriptor failure is reported (R378). -/
def State.thDescFault (s : State) (t : ThReq) : State := s.partitionFault { s.thInfo t codeThicketDesc with arg := t.desc }

/-- Rows refused are reported (R379). -/
def State.thFull (s : State) (t : ThReq) (mask row : Nat) : State :=
  if mask = 0 then s else s.partitionFault { s.thInfo t codeThicketFull with detail := mask, arg := row }

/-- A fault of an engine's access (R387): an update halts, TSTAT parks its firing; both can be resumed, and run again from their start. A
TRHS then steps its whole COUNT again from the CURSOR that it finds, under the family registers of that time (DEDUCED, LOG 64). -/
def State.thHalt (s : State) (t : ThReq) (code va addr2 : Nat) : State :=
  let info := { s.thInfo t code with va := va, addr2 := addr2, detail := t.lsid }
  let r : Option Nat × State := if toHostCode code then (none, s.reportHost info) else s.report info false (some (.thicket t.uid))
  if !s.liveInst t.inst then r.2.dropTh t
  else
  let s1 := r.2.setTh { t with faulted := true, started := false, todo := [], row := if t.op = .trhs then t.count else t.row }
  match t.op with
  | .tstat => s1.parkIf t.loc t.fid (.access t.uid)
  | _ => s1

/-- A page request for a request of an engine; it waits while the port has none to give. TSTAT parks its firing (R31). -/
def State.thMiss (s : State) (t : ThReq) (inWalk : Bool) (ia va : Nat) (write : Bool) : State :=
  let p := s.pageRequest t.die t.vf va ia inWalk write none (.thicket t.uid)
  let s1 := p.2.setTh { t with paged := p.1 }
  match t.op with
  | .tstat => s1.parkIf t.loc t.fid (.access t.uid)
  | _ => s1

/-- A read of a poisoned line kills the instance. -/
def State.thPoison (s : State) (t : ThReq) (va pa : Nat) : State :=
  (s.dropTh t).poisonInst t.vf t.loc t.inst t.ctx t.stage t.tag va pa

/-! ### THICKET_PROBE (R382 to R386, R396) -/

/-- A token of a probe or a HASH. -/
def State.thSend (s : State) (t : ThReq) (tag : BitVec 64) (v : Nat) : State :=
  s.lateSend t.loc t.fid t.inst t.route tag (.word (dbl v)) t.rel

/-- The end token (R383): 0 OK, 1 NANIN, 2 DESC, 3 FAULT. -/
def State.thEnd (s : State) (t : ThReq) (status : Nat) : State :=
  (s.dropTh t).thSend t t.tag (2 ^ 63 + t.dup.toNat * 2 ^ 62 + status * 2 ^ 56 + t.sent % 2 ^ 32)

/-- The tokens of a HASH (R383). -/
def State.hashSend (s : State) (t : ThReq) (idx : List Nat) (nan : Bool) : State :=
  idx.zipIdx.foldl (fun st p =>
    st.thSend t (setBits t.tag 23 12 p.2) (p.1 % 2 ^ 24 + p.2 * 2 ^ 32 + nan.toNat * 2 ^ 63)) s

/-- A row token (R382, R383). -/
def State.rowSend (x : ThReq × State) (table r : Nat) : ThReq × State :=
  let t := x.1
  if r = tombstone ∨ t.found.contains r = true then x
  else
    let t1 := if t.found.length < 256 then { t with found := r :: t.found } else { t with dup := true }
    ({ t1 with sent := t.sent + 1 }, x.2.thSend t (setBits t.tag 23 12 table) (r + table * 2 ^ 32))

/-- What TSTAT gives (R396). -/
def thStat (d : Nat) : Double :=
  dbl (dCursor d * 2 ^ 39 + dGen d * 2 ^ 31 + (dMig d).toNat * 2 ^ 30 + dPolicy d * 2 ^ 28 + min (dArenaNext d) (2 ^ 28 - 1))

/-- The value of a TSTAT goes to its firing. -/
def State.statBack (s : State) (t : ThReq) (v : Double) : State :=
  (s.dropTh t).onFiring t.loc t.inst t.fid (·.loaded t.uid t.td v [])

/-- Lines that a probe has yet to read: those of the current area, and those of the old area at or beyond the cursor. -/
def probeTodo (d : Nat) (cur old : List Nat) : List ThTodo :=
  cur.zipIdx.map (fun p => ⟨bucketVa (dBase d) p.2 (dB d) p.1, dGen d, p.2, 0⟩) ++
    (old.zipIdx.filter (fun p => decide (dCursor d ≤ p.1))).map (fun p => ⟨bucketVa (dOldBase d) p.2 (dOldB d) p.1, dOldGen d, p.2, 0⟩)

/-- A descriptor failure of HASH, TPRB or TSTAT. -/
def State.probeDesc (s : State) (t : ThReq) (tables : Nat) : State :=
  let s1 := s.thDescFault t
  match t.op with
  | .tstat => s1.statBack t 0
  | .hash => (s1.hashSend t (List.replicate tables 0) false).thEnd t 2
  | _ => s1.thEnd t 2

/-- What a failed outcome of HASH, TPRB or TSTAT leads to (R387). -/
def State.probeFail {α : Type} (s : State) (t : ThReq) (tables : Nat) (x : Th α) : State :=
  match x with
  | .ok _ _ => s
  | .fault c va a2 s1 =>
      (match t.op with
       | .tstat => s1.thHalt t c va a2
       | _ =>
           let info := { s1.thInfo t c with va := va, addr2 := a2, detail := t.lsid }
           (if toHostCode c then s1.reportHost info else s1.partitionFault info).thEnd t 3)
  | .miss w ia va wr s1 => s1.thMiss { t with started := false } w ia va wr
  | .desc s1 => s1.probeDesc t tables
  | .poison va pa s1 => s1.thPoison t va pa
  | .wait s1 => s1

/-- A HASH or TPRB has read descriptor d: it hashes, and a probe has its lines to read. -/
def State.probeHash (s : State) (t : ThReq) (d : Nat) : Th (ThReq × Option (List Nat)) :=
  let probe := decide (t.op = .tprb)
  (s.thCheck t d true true probe).bind (fun _ s1 =>
  (s1.thHash t (t.family (dFam d)) t.vec).bind (fun cur s2 =>
  (if probe && dMig d then s2.thHash t (t.family (dOldFam d)) t.vec else .ok (some []) s2).bind (fun old s3 =>
    match cur, old with
    | some c, some o => .ok ({ t with dsc := d, todo := if probe then probeTodo d c o else [], mig := probe && dMig d }, some c) s3
    | _, _ => .ok (t, none) s3)))

/-- HASH, TPRB or TSTAT starts: it reads its descriptor. -/
def State.probeStart (s : State) (t0 : ThReq) : State :=
  let t := { t0 with started := true, fams := (s.vf t0.vf).families.toList }
  match s.thRead t t.desc 64 with
  | .ok d s1 =>
      (match t.op with
       | .tstat =>
           (match s1.thCheck t d false false false with
            | .ok _ s2 => s2.statBack t (thStat d)
            | x => s1.probeFail t 0 x)
       | _ =>
           (match s1.probeHash t d with
            | .ok (t1, some idx) s2 =>
                if t.op = .hash then (s2.dropTh t).hashSend t idx false else s2.setTh t1
            | .ok (_, none) s2 =>
                if t.op = .hash then (s2.dropTh t).hashSend t (List.replicate (dL d) 0) true else s2.thEnd t 1
            | x => s1.probeFail t (dL d) x))
  | x => s.probeFail t 0 x

/-- A probe reads its next line, or sends its end token. -/
def State.probeStep (s : State) (t : ThReq) : State :=
  match t.todo with
  | [] => s.thEnd t 0
  | q :: rest =>
      match s.thLine t t.dsc q.va q.gen with
      | .ok (_, true) s1 => s1.setTh { t with todo := rest }
      | .ok (n, false) s1 =>
          let x := n.rows.foldl (fun a r => State.rowSend a q.table r) (t, s1)
          if n.ovf = 0 then x.2.setTh { x.1 with todo := rest }
          else if 4 ≤ q.depth then x.2.probeDesc x.1 0
          else x.2.setTh { x.1 with todo := ⟨arenaVa t.dsc n.ovf, q.gen, q.table, q.depth + 1⟩ :: rest }
      | .miss w ia va wr s1 => s1.thMiss t w ia va wr
      | x => s.probeFail t 0 x

/-- The instance of a request may have it started: it runs (R388), or it is EVICTING, whose save waits for what its firings have
issued (LOG 57). -/
def State.thMay (s : State) (t : ThReq) : Bool :=
  decide (((s.st t.loc).ctx t.ctx).inst = t.inst) &&
    (s.slotRuns (s.st t.loc) t.ctx || (s.inst? t.inst).any (fun i => decide (i.st = .evicting)))

/-- A request that was issued again at a resume waits at the engine of a new one of its function: it goes first (R388). -/
def State.thBehind (s : State) (t : ThReq) : Bool :=
  !t.resumed && s.mm.thq.any (fun x =>
    x.resumed && !x.started && !x.faulted && x.paged.isNone && decide (x.eng = t.eng ∧ x.vf = t.vf))

/-- A step of an engine's work for a request, charged to its function at the engine's port (R370, R425; LOG 15). -/
def State.thCharge (s : State) (t : ThReq) : State := s.charge t.vf (portCol t.die.val (t.eng % 32)) .thicket 1

/-- THICKET_PROBE: one step of the HASH, TPRB or TSTAT named n, once its own slot's updates have been applied (R385). -/
def execThicketProbe (s : State) : Out :=
  match s.th? s.arg.n with
  | none => .next s
  | some t =>
      if t.op.isUpdate || t.faulted || t.paged.isSome then .next s
      else if t.started then .next ((s.thCharge t).probeStep t)
      else if s.ownUpdate t.loc t.ctx t.inst t.desc t.uid || !s.thMay t || s.thBehind t then .next s
      else .next ((s.thCharge t).probeStart t)

/-! ### THICKET_UPDATE (R379 to R381, R384, R392 to R394, R399) -/

/-- An update has been applied: its lsid is performed. -/
def State.thDone (s : State) (t : ThReq) : State := (s.dropTh t).onFiring t.loc t.inst t.fid (·.done t.lsid)

/-- What a failed outcome of an update leads to (R378, R387). -/
def State.updateFail {α : Type} (s : State) (t : ThReq) (x : Th α) : State :=
  match x with
  | .ok _ _ => s
  | .fault c va a2 s1 => s1.thHalt t c va a2
  | .miss w ia va wr s1 => s1.thMiss t w ia va wr
  | .desc s1 => (s1.thDescFault t).thDone t
  | .poison va pa s1 => s1.thPoison t va pa
  | .wait s1 => s1

/-- A TINS or TDEL hashes its vector: the buckets that it goes to. -/
def State.rowTodo (s : State) (t : ThReq) (d : Nat) : Th (Option (List ThTodo)) :=
  let del := decide (t.op = .tdel)
  (s.thCheck t d true true del).bind (fun _ s1 =>
  (Th.check (del || decide (t.row ≠ tombstone)) s1).bind (fun _ s2 =>
  (s2.thHash t (t.family (dFam d)) t.vec).bind (fun cur s3 =>
  (if del && dMig d then s3.thHash t (t.family (dOldFam d)) t.vec else .ok (some []) s3).bind (fun old s4 =>
    match cur, old with
    | some c, some o => .ok (some (probeTodo (setFld d 384 25 0) c o)) s4
    | _, _ => .ok none s4))))

/-- TINS or TDEL starts. -/
def State.rowStart (s : State) (t : ThReq) (d : Nat) : State :=
  match s.rowTodo t d with
  | .ok (some l) s1 => s1.setTh { t with todo := l, mask := 0 }
  | .ok none s1 => s1.thDone t
  | x => s.updateFail { t with started := false } x

/-- TINS or TDEL goes to its next bucket, or has been applied. -/
def State.rowStep (s : State) (t : ThReq) (d : Nat) : State :=
  match t.todo with
  | [] => (s.thFull t t.mask t.row).thDone t
  | q :: rest =>
      match t.op with
      | .tdel =>
          (match s.thDelete t d t.row q.va q.gen with
           | .ok _ s1 => s1.setTh { t with todo := rest }
           | x => s.updateFail t x)
      | _ =>
          (match s.thInsert t d t.row q.va q.gen with
           | .ok no s1 => s1.setTh { t with todo := rest, mask := t.mask + no.toNat * 2 ^ q.table }
           | x => s.updateFail t x)

/-- TRHS starts: with MIG = 0 the migration (R381). -/
def State.rehashStart (s : State) (t : ThReq) (d : Nat) : State :=
  if dMig d then
    match s.thCheck t d false true false with
    | .ok _ s1 => s1.setTh t
    | x => s.updateFail { t with started := false } x
  else
    let go : Th Unit :=
      (s.thCheck t d false false false).bind (fun _ s1 =>
      (Th.check (decide (2 ≤ dNextB d ∧ dNextB d ≤ 24) && !dOverlap d && t.agrees (dNextFam d) (dNextB d) (dNextL d)) s1).bind
        (fun _ s2 =>
      (s2.thWhole t (dNextBase d) (areaBytes (dNextL d) (dNextB d))).bind (fun _ s3 => s3.thWrite t t.desc 64 (dStart d))))
    match go with
    | .ok _ s1 => s1.setTh t
    | x => s.updateFail { t with started := false } x

/-- The live rows of one index of the old area, in the order of R399. -/
def State.oldRows (s : State) (t : ThReq) (d i : Nat) : List Nat → Th (List Nat)
  | [] => .ok [] s
  | l :: rest =>
      (s.thChain t d (dOldGen d) (bucketVa (dOldBase d) l (dOldB d) i) 5).bind (fun c s1 =>
      (s1.oldRows t d i rest).bind (fun r s2 => .ok ((c.map (fun n => n.rows.filter (· ≠ tombstone))).flatten ++ r) s2))

/-- Insert a row into every table of the current area: the mask of the tables that refuse it. -/
def State.insertAll (s : State) (t : ThReq) (r : Nat) : List (Nat × Nat) → Th Nat
  | [] => .ok 0 s
  | (i, l) :: rest =>
      (s.thRead t t.desc 64).bind (fun d s1 =>
      (s1.thInsert t d r (bucketVa (dBase d) l (dB d) i) (dGen d)).bind (fun no s2 =>
      (s2.insertAll t r rest).bind (fun m s3 => .ok (m + no.toNat * 2 ^ l) s3)))

/-- Migrate rows: each one's vector is hashed, and it goes into every table. A row whose vector decodes to NaN has no index, and the
migration goes on without it (DESIGN CHOICE, LOG 67). -/
def State.moveRows (s : State) (t : ThReq) (d : Nat) : List Nat → Th Unit
  | [] => .ok () s
  | r :: rest =>
      (s.thHash t (t.family (dFam d)) ((dRowBase d + r * dStride d) % 2 ^ 64)).bind (fun x s1 =>
      (match x with
       | none => Th.ok 0 s1
       | some idx => s1.insertAll t r idx.zipIdx).bind (fun m s2 => (s2.thFull t m r).moveRows t d rest))

/-- One index of a migration (R381): the cursor moves once every line has been written, and the last index releases the old
area. -/
def State.rehashIndex (s : State) (t : ThReq) (d : Nat) : Th Bool :=
  let i := dCursor d
  (s.oldRows t d i (List.range (dOldL d))).bind (fun rows s1 =>
  (s1.moveRows t d rows).bind (fun _ s2 =>
  (s2.thRead t t.desc 64).bind (fun e s3 =>
    let last := decide (i + 1 = 2 ^ dOldB d)
    let e1 := setFld e 384 25 (i + 1)
    let e2 := if last then setFld (setFld e1 334 1 0) 64 64 0 else e1
    (s3.thWrite t t.desc 64 e2).bind (fun _ s4 => .ok last s4))))

/-- TRHS goes to its next index, or has been applied. -/
def State.rehashStep (s : State) (t : ThReq) (d : Nat) : State :=
  if t.row = 0 ∨ dMig d = false ∨ 2 ^ dOldB d ≤ dCursor d then s.thDone t
  else
    match s.rehashIndex t d with
    | .ok true s1 => s1.setTh { t with row := t.row - 1, applied := true }
    | .ok false s1 => s1.setTh { t with row := t.row - 1 }
    | x => s.updateFail t x

/-- TOVP (R394). -/
def State.policySet (s : State) (t : ThReq) (d : Nat) : State :=
  match (s.thCheck t d false false false).bind (fun _ s1 => s1.thWrite t t.desc 64 (setFld d 335 2 t.row)) with
  | .ok _ s1 => s1.thDone t
  | x => s.updateFail { t with started := false } x

/-- One step of an update that has its turn: it starts with its descriptor, which it may write (R387). -/
def State.updateStep (s : State) (t0 : ThReq) : State :=
  let t := if t0.started then t0 else { t0 with started := true, fams := (s.vf t0.vf).families.toList }
  let own := fun (d : Nat) (s1 : State) => if t0.started then Th.ok d s1 else (s1.thOwn t t.desc).bind (fun _ s2 => .ok d s2)
  match (s.thRead t t.desc 64).bind own with
  | .ok d s1 =>
      (match t.op with
       | .tins => if t0.started then s1.rowStep t d else s1.rowStart t d
       | .tdel => if t0.started then s1.rowStep t d else s1.rowStart t d
       | .trhs => if t0.started then s1.rehashStep t d else s1.rehashStart t d
       | .tovp => s1.policySet t d
       | .hash => s1
       | .tprb => s1
       | .tstat => s1)
  | x => s.updateFail t0 x

/-- An update has its turn at its home engine (R384, R387): the slot's earlier updates of the descriptor have been applied, and no
other one has reached the engine before it, be it under way, waiting for a page, or halted. -/
def State.thTurn (s : State) (t : ThReq) : Bool :=
  s.mm.thq.all (fun x => decide (x.uid = t.uid) || !x.op.isUpdate || x.applied || decide (x.vf ≠ t.vf ∨ x.desc ≠ t.desc) ||
    (!x.turn && !(decide (x.loc = t.loc ∧ x.ctx = t.ctx ∧ x.inst = t.inst ∧ x.uid < t.uid))))

/-- A request holds no save up (R388): it stands on its fault; a probe that has not started is saved, and so is an update that stands
behind a halted one (R387). -/
def State.thRests (s : State) (t : ThReq) : Bool :=
  t.faulted || (!t.started && (!t.op.isUpdate ||
    s.mm.thq.any (fun x => x.op.isUpdate && x.faulted && decide (x.vf = t.vf ∧ x.desc = t.desc))))

/-- No probe that read the descriptor with MIG = 1 is still under way (R381). -/
def State.probesEnded (s : State) (t : ThReq) : Bool :=
  s.mm.thq.all (fun x => !x.mig || decide (x.vf ≠ t.vf ∨ x.desc ≠ t.desc))

/-- An update may start: its instance runs, or its partition is being saved, which applies the updates that have reached their home
engine (R388). -/
def State.updateMay (s : State) (t : ThReq) : Bool := s.thMay t || decide ((s.vf t.vf).st = .saving)

/-- THICKET_UPDATE: one step of the update named n. -/
def execThicketUpdate (s : State) : Out :=
  match s.th? s.arg.n with
  | none => .next s
  | some t =>
      if !t.op.isUpdate || t.faulted || t.paged.isSome then .next s
      else if t.applied then .next (if s.probesEnded t then s.thDone t else s)
      else if !s.thTurn t || (!t.started && (!s.updateMay t || s.thBehind t)) then .next s
      else
        let u := { t with turn := true }
        .next (((s.thCharge t).setTh u).updateStep u)

end Sys2Proof.Machine
end

