-- ==== Sys2Proof/Machine/System.lean ====
section
/-!
DEFINITION. The system class: opcodes 0xF0 to 0xF7 (R428, R436 to R442).
-/

namespace Sys2Proof.Machine

/-! ### Counters of a function (R428, R436, R440) -/

/-- A broadcast of QUOTA, WARN, CHARGED, RESID and SHARED to the stations and control cores (R428). -/
def State.broadcast (s : State) (v : Nat) : State :=
  s.modVf v (fun f => { f with bcast := #v[f.quota, f.warn, f.charged, f.resid, f.shared], bcastMade := true })

/-- A value of the block as the stations and cores read it: that of the last broadcast; before any, that of the block (R428). -/
def Vf.heard (f : Vf) (k : Nat) : Int :=
  vget (if f.bcastMade then f.bcast else #v[f.quota, f.warn, f.charged, f.resid, f.shared]) k 0

/-- QUOTA or WARN of a function (R436). -/
def State.readQuota (s : State) (v : Nat) (warn : Bool) : Double := idbl ((s.vf v).heard (if warn then 1 else 0))

/-- QARM for a function: WARN is written, WARNEN is set, and a broadcast follows (R428, R436). -/
def State.armWarn (s : State) (v : Nat) (x : Double) : State :=
  (s.modVf v (fun f => { f with warn := x.toInt, ctl := f.ctl ||| 8 })).broadcast v

/-- An energy counter of a function, or of a meter site on a die (R440). -/
def State.readMeter (s : State) (v : Nat) (site : Map Nat) (die : Fin 2) (c : Meter) : Double :=
  match c with
  | .charged => idbl ((s.vf v).heard 2)
  | .site => dbl (siteEnergy site die.val)
  | .resid => idbl ((s.vf v).heard 3)
  | .shared => idbl ((s.vf v).heard 4)

/-- The function that the core's CURVF names, while it is valid. -/
def Core.curVf (k : Core) : Option Nat := if bit k.curvf 7 then some (bits k.curvf 0 7) else none

/-- A core instruction of this class charges one scalar instruction to CURVF, or to the device overhead pool (R184, R440). -/
def State.coreScalar (s : State) : State :=
  let c := s.sched.curCore
  let col := portCol (coreDie c).val 0
  match s.cc.curVf with
  | some v => (s.charge v col .scalar 1).modCc (fun k => { k with site := siteAdd k.site .scalar 1 })
  | none => s.charge 128 col .scalar 1

/-- QRD (R436). -/
def execQrd (d : Fin 8) (w : Bool) (s : State) : Out := .next (s.result d [] (s.readQuota s.fVf w))

/-- QRD_CI (R436): 0 while CURVF is not valid. -/
def execQrdCi (d : Fin 32) (w : Bool) (s : State) : Out :=
  .next (s.coreScalar.put d (match s.cc.curVf with | some v => s.readQuota v w | none => 0))

/-- QARM (R436). -/
def execQarm (a : Sel) (s : State) : Out := .next ((s.eat [a]).armWarn s.fVf (s.sel a)).adv

/-- QARM_CI (R436): nothing while CURVF is not valid. -/
def execQarmCi (a : Fin 32) (s : State) : Out :=
  .next (match s.cc.curVf with | some v => s.coreScalar.armWarn v (s.g a) | none => s.coreScalar).cnext

/-- EMTR (R440). -/
def execEmtr (d : Fin 8) (c : Meter) (s : State) : Out :=
  .next (s.result d [] (s.readMeter s.fVf s.cx.site s.sched.curSt.die c))

/-- EMTR_CI (R440): 0 while CURVF is not valid. -/
def execEmtrCi (d : Fin 32) (c : Meter) (s : State) : Out :=
  .next (s.coreScalar.put d (match s.cc.curVf with | some v => s.readMeter v s.cc.site (coreDie s.sched.curCore) c | none => 0))

/-! ### TRC (R432, R433, R437) -/

/-- TRC (R437). -/
def execTrc (a : Sel) (c : BitVec 14) (s : State) : Out :=
  let l := s.sched.curSt
  .next ((s.eat [a]).sample s.fVf l.die (0x4000 + c.toNat) (.unit l (hdrStage s.fir.header)) (s.sel a) s.otag).adv

/-- TRC_CI (R437): nothing while CURVF is not valid; a core has no outgoing tag, and the field is zero. -/
def execTrcCi (a : Fin 32) (c : BitVec 14) (s : State) : Out :=
  let n := s.sched.curCore
  .next (match s.cc.curVf with
    | some v => s.coreScalar.sample v (coreDie n) (0x4000 + c.toNat) (.core n.val) (s.g a) 0
    | none => s.coreScalar).cnext

/-! ### TIME (R435, R438) -/

/-- The fraction of a die's time counter. -/
def State.frac (s : State) (d : Fin 2) : BitVec 16 := (vget s.clk.time d.val {}).frac

/-- The word of TIME.frac: the latched fraction and the locked flag. -/
def State.fracWord (s : State) (d : Fin 2) (f : BitVec 16) : Double :=
  dbl (f.toNat + (if s.locked d then 2 ^ 63 else 0))

/-- TIME and TIME.frac (R438). -/
def execTime (d : Fin 8) (f : Bool) (s : State) : Out :=
  let die := s.sched.curSt.die
  let x := if f then s.fir.latch.getD (s.frac die) else s.frac die
  let v := if f then s.fracWord die x else dbl (s.ns die)
  .next ((s.modFir (fun g => { g with latch := some x })).result d [] v)

/-- TIME_CI and its .frac form (R438). -/
def execTimeCi (d : Fin 32) (f : Bool) (s : State) : Out :=
  let die := coreDie s.sched.curCore
  let x := if f then s.cc.latch.getD (s.frac die) else s.frac die
  let v := if f then s.fracWord die x else dbl (s.ns die)
  .next ((s.coreScalar.modCc (fun k => { k with latch := some x })).put d v)

/-! ### PRIO, YIELD (R439) -/

/-- PRIO p: it takes effect when the firing commits (R439). -/
def State.prio (s : State) (p : Nat) : Out := .next (s.modFir (fun f => { f with prio := some p })).adv

/-- PRIO 0 (R439). -/
def execPrio0 (s : State) : Out := s.prio 0

/-- PRIO 1 (R439). -/
def execPrio1 (s : State) : Out := s.prio 1

/-- PRIO 2 (R439). -/
def execPrio2 (s : State) : Out := s.prio 2

/-- PRIO 3 (R439). -/
def execPrio3 (s : State) : Out := s.prio 3

/-- PRIO 4 (R439). -/
def execPrio4 (s : State) : Out := s.prio 4

/-- PRIO 5 (R439). -/
def execPrio5 (s : State) : Out := s.prio 5

/-- PRIO 6 (R439). -/
def execPrio6 (s : State) : Out := s.prio 6

/-- PRIO 7 (R439). -/
def execPrio7 (s : State) : Out := s.prio 7

/-- YIELD (R439). -/
def execYield (s : State) : Out := .next (s.modCx (fun c => { c with skipNext := true })).adv

/-! ### HEATQ (R354, R441) -/

/-- Compute stations of a column whose request waits. -/
def State.heatWaiting (s : State) (col : Nat) : Nat :=
  ((List.range 160).filter (fun k => (s.heatAsk (columnStation col k)).isSome)).length

/-- The word of HEATQ for a column of 32 (R441). -/
def State.heatWord (s : State) (col : Nat) : Double :=
  let c := s.col col
  dbl (col % 32 * 2 ^ 48 + c.grant % 65536 * 2 ^ 32 + s.heatWaiting col % 65536 * 2 ^ 16 + c.tokens % 8192)

/-- The columns of a die that hold the fewest tokens; where several do, which one HEATQ reports is free (LOG 7). -/
def State.emptiest (s : State) (d : Fin 2) : List Nat :=
  let l := span (16 * d.val) 16
  l.filter (fun c => l.all (fun e => decide ((s.col c).tokens ≤ (s.col e).tokens)))

/-- HEATQ (R441). -/
def execHeatq (d : Fin 8) (s : State) : Out := .next (s.result d [] (s.heatWord (colOf s.sched.curSt)))

/-- HEATQ_CI (R441). -/
def execHeatqCi (d : Fin 32) (s : State) : Out :=
  let l := s.emptiest (coreDie s.sched.curCore)
  let p := if l.length ≤ 1 then (0, s.coreScalar) else s.coreScalar.pick l.length
  .next (p.2.put d (s.heatWord ((l[p.1]?).getD (16 * (coreDie s.sched.curCore).val))))

end Sys2Proof.Machine
end

