-- ==== Sys2Proof/Machine/Preempt.lean ====
section
/-!
DEFINITION. Stitch-marker pre-emption: partition saves and resumes, and the steps SLICE_TICK, MARKER_INJECTION, STATION_SAVE,
HEDGEROW_DRAIN_COMPLETE and PARTITION_SAVE_COMPLETE (R145, R353, R388, R407 to R414, R444).
-/

namespace Sys2Proof.Machine

/-! ### Starting a save (R407, R414) -/

/-- A placement that is loading aborts because its partition is being saved (R314, R407). -/
def State.abortFor (s : State) (vf : Nat) (d : Fin 2) : State :=
  match s.loading? d with
  | none => s
  | some i =>
      if i.vf = vf then
        s.modEng d (fun e => { e with placing := e.placing.map (fun p => if p.abort.isNone then { p with abort := some 0 } else p) })
      else s

/-- The INJ tokens held for a root instance that has been placed go into its save image as its partition's save starts; one for an entry
that the image lacks is dropped (R197, R408, R444). -/
def State.heldToImage (s : State) (r : Root) : State :=
  match (s.inst? r.inst).filter (fun i => !i.st.ended && decide (i.root = r.handle) && !i.isCallee) with
  | none => s
  | some i =>
      match i.img with
      | none => s
      | some m =>
          if i.st = .queued ∨ i.st = .placing then s
          else
            let keep := fun (st : State) (q : Nat × Flight) =>
              if q.1 < m.entries.length then
                st.saveToken i.id { q.2 with tok := i.entryTok q.1 q.2.tok.payload q.2.tok.tag q.2.tok.payload.kindTl }
              else st.staleToken { q.2.tok with tag := setBits q.2.tok.tag 38 18 i.id } none 3
            r.held.foldl keep (s.modRoot r.handle (fun q => { q with held := [] }))

/-- A partition save starts: STATE becomes SAVING; one that is not RUNNING starts none (R407). Cause: 0 SAVE, 1 SLICE, 2 quota. -/
def State.startSave (s : State) (vf cause : Nat) : State :=
  if (s.vf vf).st ≠ .running then s
  else
    let s1 := s.modVf vf (fun f => { f with st := .saving, saveCause := cause, saveAt := some s.now })
    let s2 := (s1.abortFor vf 0).abortFor vf 1
    (s2.prick.roots.filter (fun r => decide (r.vf = vf))).foldl State.heldToImage s2

/-- SLICE_TICK (R414): the hub takes the microsecond boundaries that function vf has passed while it was RUNNING and held a quad into its
count, and starts a save when the count reaches SLICE. -/
def execSliceTick (s : State) : Out :=
  let v := s.arg.vf % 128
  let f := s.vf v
  let s1 := s.modVf v (fun x => { x with due := 0 })
  if f.due = 0 then .next s
  else if f.st ≠ .running ∨ f.sliceLen = 0 then .next s1
  else
    let s2 := s1.modVf v (fun x => { x with slice := x.slice + f.due })
    .next (if f.sliceLen ≤ f.slice + f.due then s2.startSave v 1 else s2)

/-! ### MARKER_INJECTION (R408) -/

/-- A stitch marker for an arc of an instance. -/
def State.sendMarker (s : State) (i : Inst) (r : BitVec 64) (src : Option Loc) : State :=
  let tag := mkTag (s.vf i.vf).blockBase i.id i.slot 0 0
  s.launchTok
    { tok := ⟨mkHeader (i.target r) (rtSprig r) (rtSlot r) (kindMarker, false) (rtEdge r) tag, tag, .null⟩, src := src, from_ := i.id }

/-- The routes of the ordered strands of an instance that feed an arc, with their stations. -/
def State.strandRoutes (s : State) (i : Inst) : List (Loc × BitVec 64) :=
  (i.stations.map (fun p => (List.range 8).filterMap (fun k =>
    let d := ((s.st p.1).strand (8 * i.slot + k))
    match d.d.dest with
    | .arc _ => if decide (d.st = .armed) && !d.d.tagged && !d.d.store && decide (rtTarget d.d.route = 0) then some (p.1, d.d.route) else none
    | .sp => none
    | .q _ => none))).flatten

/-- Markers at the sources of one instance: its entry arcs and its strand engines. -/
def State.injectInst (s : State) (i : Inst) : State :=
  let es := (match i.img with | some m => m.entries | none => []).filter (fun r => decide (r ≠ 0))
  let s1 := es.foldl (fun st r => st.sendMarker i r none) s
  (s.strandRoutes i).foldl (fun st p => st.sendMarker i p.2 (some p.1)) s1

/-- MARKER_INJECTION (R408): 64 cycles after its save started, the markers enter at every source of the LIVE and RETURNING
instances of function vf. -/
def execMarkerInjection (s : State) : Out :=
  let v := s.arg.vf % 128
  let f := s.vf v
  match f.st, f.saveAt with
  | .saving, some t =>
      if s.now < t + 64 then .next s
      else
        let s1 := s.modVf v (fun x => { x with saveAt := none })
        .next ((s1.prick.insts.filter (fun i => decide (i.vf = v) && i.st.runs)).foldl State.injectInst s1)
  | _, _ => .next s

/-! ### STATION_SAVE (R145, R353, R388, R409, R410) -/

/-- The arcs on which a slot waits for a marker: the entry arcs that end at its station, and the arcs from sprigs of other stations
with a lower STAGE than the receiving sprig (R409). -/
def Inst.waitedArcs (i : Inst) (l : Loc) (rec_ : StaRec) : List Nat :=
  let es := (match i.img with | some m => m.entries | none => []).filter (fun r => decide (r ≠ 0 ∧ i.target r = l))
  let inner := ((i.stations.filter (fun p => decide (p.1 ≠ l))).map (fun p =>
    ((List.range p.2.sprigs.length).map (fun n =>
      ((p.2.routes[n]?).getD []).filter (fun r =>
        decide (rtTarget r = 0 ∧ i.target r = l) && decide (hdrStage (p.2.header n) < hdrStage (rec_.header (rtSprig r)))))).flatten)).flatten
  (es ++ inner).map rtEdge

/-- The units of a slot are at rest: an access waits for its granule, for a page or on a fault, or stands behind a HALTED
element. -/
def State.slotRests (s : State) (id : Nat) (l : Loc) (c : Nat) : Bool :=
  let mine := fun (a : Access) =>
    decide (a.inst = id ∧ a.loc = l ∧ a.ctx = c) && (match a.agent with | .firing => true | .strand => true | .copy => true | _ => false)
  s.mm.accesses.all (fun a => !mine a || a.rests || s.elemHalted a || (match a.st with | .paged _ => true | _ => false)) &&
    s.mm.copies.all (fun k => decide (k.inst ≠ id ∨ k.loc ≠ l) || k.faulted || k.paged.isSome) &&
    s.mm.thq.all (fun t => decide (t.inst ≠ id ∨ t.loc ≠ l) || s.thRests t)

/-- Slot c of a station may be saved (R409): the markers have come, and its firings, matrix entries and units allow it. A firing that waits
for the token of an ACCRD that has not started is saved with the queue (R353). -/
def State.maySave (s : State) (i : Inst) (l : Loc) (rec_ : StaRec) : Bool :=
  let v := s.st l
  let c := i.slot
  let x := v.ctx c
  i.st.runs && s.injected i.vf && !s.binding i.id && x.valid && decide (x.inst = i.id) && !x.draining &&
    (i.waitedArcs l rec_).all (fun e => x.markers.contains e) &&
    !(v.firing.active && decide (v.firing.ctx = c)) &&
    v.parked.all (fun f => decide (f.ctx ≠ c) || decide (f.park ≠ .fence)) &&
    v.ended.all (fun f => decide (f.ctx ≠ c) || s.endedRests f || v.readQueued f) &&
    v.matq.all (fun e => decide (e.ctx ≠ c) || !e.started) && v.pleach.all (fun p => decide (p.ctx ≠ c) || p.arrived) &&
    s.slotRests i.id l c

/-- Bytes of a station's save image; what has no size in the spec is free (LOG 13). -/
def State.staBytes (s : State) (q : SavedStation) (r : StaRec) : Nat × State :=
  if q.more then
    let p := s.pick (2 ^ 20)
    (q.known r + p.1, p.2)
  else (q.known r, s)

/-- A station's part joins the save image, which may take further pages. -/
def SaveImage.add (m : SaveImage) (q : SavedStation) (bytes : Nat) (pages : List Nat) : SaveImage :=
  { m with stations := m.stations ++ [q], bytes := m.bytes + bytes, pages := m.pages ++ pages }

/-- Save the slot of an instance at a station, and send a marker on each of its arcs that stay within the instance. -/
def State.saveSlot (s : State) (i : Inst) (l : Loc) (rec_ : StaRec) : State :=
  let q := s.saveSta i l
  let b := s.staBytes q rec_
  let had := i.save.getD {}
  let pages := s.freePages i.vf (pagesOf (had.bytes + b.1) - had.pages.length)
  let s1 := b.2.modInst i.id (fun j => { j with save := some (had.add q b.1 pages) })
  let s2 := s1.modSt l (fun v => v.modCtx i.slot (fun x => { x with draining := true }))
  let s3 := (s2.charge i.vf (portCol l.die.val 0) .hbmWrite ((b.1 + 127) / 128)).charge i.vf (colOf l) .hedgerow
    (s.rowsUsed l i.slot)
  (rec_.routes.flatten.filter (fun r => decide (rtTarget r = 0))).foldl (fun st r => st.sendMarker i r (some l)) s3

/-- STATION_SAVE (R409): a station saves context slot n once the markers and its work allow. -/
def execStationSave (s : State) : Out :=
  let l := s.arg.loc
  let c := s.arg.n % 8
  match s.inst? ((s.st l).ctx c).inst with
  | none => .next s
  | some i =>
      match i.stations.find? (fun p => decide (p.1 = l)) with
      | none => .next s
      | some p => if decide (i.slot = c) && s.maySave i l p.2 then .next (s.saveSlot i l p.2) else .next s

/-! ### HEDGEROW_DRAIN_COMPLETE (R315, R411) -/

/-- An instance still holds its slot at a station. -/
def State.holdsSlot (s : State) (i : Inst) (l : Loc) : Bool :=
  let x := (s.st l).ctx i.slot
  x.valid && decide (x.inst = i.id)

/-- The last slot of an instance has drained: it is SAVED with a partition mark. -/
def State.savedInst (s : State) (i : Inst) : State :=
  if i.stations.any (fun p => s.holdsSlot i p.1) then s
  else
    (s.modInst i.id (fun j => { j with st := .saved, wantLink := false, bypassed := 0, blocking := none })).roomFreed i.die

/-- HEDGEROW_DRAIN_COMPLETE (R411): the rows of saved slot n of a station have drained, and its VALID is cleared. The fence of the
rectangle is raised before its first slot is freed (R315), once every slot of the instance has been saved. -/
def execHedgerowDrainComplete (s : State) : Out :=
  let l := s.arg.loc
  let c := s.arg.n % 8
  let x := (s.st l).ctx c
  match s.inst? x.inst with
  | none => .next s
  | some i =>
      if !(x.valid && x.draining) || decide (i.slot ≠ c) then .next s
      else if i.stations.any (fun p => s.holdsSlot i p.1 && !((s.st p.1).ctx c).draining) then .next s
      else
        let s1 := if i.st.runs then (s.raiseFence i).modInst i.id (fun j => { j with st := .evicting, mark := true }) else s
        let s2 := s1.modSt l (fun v => v.freeSlot c i.id)
        .next (s2.savedInst i)

/-! ### PARTITION_SAVE_COMPLETE and resumes (R412, R413, R417) -/

/-- An instance is queued for relink as the partition resumes; after a SLICE save it ranks as queued now (R414). -/
def State.resumeInst (s : State) (slice : Bool) (i : Inst) : State :=
  let u := s.newUid
  let s1 := u.2.modInst i.id (fun j => { j with mark := false, age := if slice then u.1 else j.age })
  (s1.sampleInst i 0x0021 0).queueRelink i.id

/-- A partition resumes (R413). -/
def State.resumeVf (s : State) (v : Nat) (slice : Bool) : State :=
  let s1 := s.modVf v (fun f => { f with st := .running, slice := 0, due := 0, resumeAsked := false, quotaOut := false, saveAt := none })
  let s2 := (s1.prick.insts.filter (fun i => decide (i.vf = v ∧ i.st = .saved))).foldl (fun st i => st.resumeInst slice i) s1
  (s2.roomFreed 0).roomFreed 1

/-- A resume that the host or QUOTA asks for: at once when SAVED, when the save completes while SAVING (R413). -/
def State.askResume (s : State) (v : Nat) : State :=
  match (s.vf v).st with
  | .running => s
  | .saving => s.modVf v (fun f => { f with resumeAsked := true })
  | .saved => s.resumeVf v false

/-- Nothing of a partition is left outside its save images but its bins and requests, which have been settled. -/
def State.allSaved (s : State) (v : Nat) : Bool :=
  s.prick.insts.all (fun i => decide (i.vf ≠ v) || decide (i.st = .queued) || decide (i.st = .saved) || i.st.ended) &&
    s.mm.bins.all (fun b => decide (b.vf ≠ v)) &&
    s.mm.thq.all (fun t => decide (t.vf ≠ v) || s.thRests t)

/-- The instances of a partition that are SAVED. -/
def State.savedOf (s : State) (v : Nat) : List Inst := s.prick.insts.filter (fun i => decide (i.vf = v ∧ i.st = .saved))

/-- The record of a save that the quota caused; which of the saved instances it names is free (LOG 9). -/
def State.quotaRecord (s : State) (v : Nat) : State :=
  let l := s.savedOf v
  let p := s.pick l.length
  p.2.partitionFault
    { code := codeQuota, source := 5, vf := some v, named := !l.isEmpty, inst := match l[p.1]? with | some i => i.id | none => 0,
      die := match l[p.1]? with | some i => i.die | none => 0, arg := (idbl (s.vf v).saveQuota).toNat }

/-- A save has completed: STATE becomes SAVED, and the SAVE records are written. -/
def State.completeSave (s : State) (v : Nat) : State :=
  let f := s.vf v
  let l := s.savedOf v
  let s1 := s.modVf v (fun x => { x with st := .saved })
  let cut := fun (st : State) (d : Fin 2) (id : Nat) =>
    st.modEng d (fun e => { e with queue := ndrop e.queue id, admitted := ndrop e.admitted id })
  let s2 := l.foldl (fun st i =>
    ((cut (cut st 0 i.id) 1 i.id).modInst i.id (fun j => { j with mark := true, wantLink := false })).sampleInst i 0x0020
      (match i.save with | some m => m.bytes | none => 0)) s1
  let s3 := if f.saveCause = 2 then s2.quotaRecord v else s2
  if f.saveCause = 1 then s3.resumeVf v true else if f.resumeAsked then s3.resumeVf v false else s3

/-- The pages of the save images of instances pass as writes of their function (R404). -/
def State.imagesPass (s : State) : List Inst → Got Unit
  | [] => .ok () s
  | i :: rest =>
      let m := i.save.getD {}
      match s.arenaPages i.die i.vf m.bytes m.pages with
      | .ok _ t => t.imagesPass rest
      | o => o

/-- PARTITION_SAVE_COMPLETE (R412): every instance of function vf is SAVED, its bins have been applied and its Thicket requests have
been settled. It waits where the host has yet to map a page of the save arena; images that do not fit are reported, and the save waits until
they do (R404, R419; LOG 57). -/
def execPartitionSaveComplete (s : State) : Out :=
  let v := s.arg.vf % 128
  if !s.injected v || !s.allSaved v then .next s
  else
    match s.savedOf v with
    | [] => .next (s.completeSave v)
    | i :: _ =>
        match (if s.saveFits v 0 then s.imagesPass (s.savedOf v) else .fail codeArena 0 s) with
        | .ok _ t => .next (t.completeSave v)
        | .wait t => .next t
        | .fail _ _ t => .next (t.skipEvictee i.die i)

end Sys2Proof.Machine
end

