-- ==== Sys2Proof/Machine/Pages.lean ====
section
/-!
DEFINITION. The host's commands over frames, translations and pages: FOTCMD with SCRUB, ASSIGN, RELEASE and FOT_FRAME_COMPLETE
(R243 to R246), TLBINV and TLBINV_COMPLETE (R238), and page responses (R208, R214, R247).
-/

namespace Sys2Proof.Machine

/-! ### Frame ownership commands (R244, R245) -/

/-- A frame number names an HBM frame on this device. -/
def State.frameOk (s : State) (n : Nat) : Bool := hbmFrame n && s.physOk (n * 65536)

/-- The OWNER of a command is one that its operation accepts. -/
def FotCmd.ownerOk (c : FotCmd) : Bool := if c.op = 2 then decide (c.owner < 0x80 ∨ c.owner = 0xFF) else decide (c.owner = 0)

/-- Set the entry of a frame. -/
def State.setFot (s : State) (n st owner : Nat) : State := s.modMm (fun m => { m with fot := Map.put m.fot n (st, owner) })

/-- A command takes up its next frame: SCRUB takes a FREE one to SCRUBBING. -/
def State.fotTake (s : State) (c : FotCmd) : State :=
  let s1 := s.modHost (fun h => { h with fot := some c })
  if c.op = 1 ∧ c.ownerOk = true ∧ s.frameOk c.frame = true ∧ (s.fotEntry c.frame).1 = 0 then s1.setFot c.frame 1 0 else s1

/-- A write of FOTCMD with an operation: ignored while BUSY. -/
def State.fotWrite (s : State) (w : Double) (op : Nat) : State :=
  if s.host.fot.isSome || decide (op = 0) then s
  else
    (s.modHost (fun h => { h with fotErr := none })).fotTake
      { op := op, owner := bits w 54 8, frame := bits w 0 36, left := bits w 36 18 + 1 }

/-- A line lies in a frame. -/
def inFrame (n line : Nat) : Bool := decide (line / 512 = n)

/-- The lines of a frame leave every L2 and RDC (R245). -/
def MemSide.dropFrame (m : MemSide) (n : Nat) : MemSide :=
  { m with l2 := m.l2.filter (fun l => !inFrame n l.addr), rdc := m.rdc.filter (fun l => !inFrame n l.addr) }

/-- Zeros in every byte of a frame, every granule empty, no poison. -/
def MemSide.zeroFrame (m : MemSide) (n : Nat) : MemSide :=
  { m with mem := m.mem.filter (fun c => decide (c.1 / 65536 ≠ n)), fe := m.fe.filter (fun g => decide (g / 4096 ≠ n)),
           poison := m.poison.filter (fun l => !inFrame n l), rels := m.rels.filter (fun r => decide (r.1 / 65536 ≠ n)) }

/-- The bytes and full/empty bits that memory holds of a dirty line replace what was written since. -/
def MemSide.revertLine (m : MemSide) (l : Line) : MemSide :=
  let fe := (List.range 8).foldl (fun (a : List Nat) k =>
    if bit l.oldFe k then nput a (l.addr * 8 + k) else ndrop a (l.addr * 8 + k)) m.fe
  { m with mem := Mem.write m.mem (l.addr * 128) 128 l.old.toNat, fe := fe }

/-- Dirty lines of a frame are lost (R245, R246). -/
def MemSide.revertFrame (m : MemSide) (n : Nat) : MemSide :=
  (m.l2.filter (fun l => l.dirty && inFrame n l.addr)).foldl MemSide.revertLine m

/-- What an operation does to its frame, and whether it takes it. -/
def State.fotFrame (s : State) (c : FotCmd) : Option State :=
  let n := c.frame
  let st := (s.fotEntry n).1
  if !c.ownerOk || !s.frameOk n then none
  else if c.op = 1 ∧ st = 1 then
    let s1 := s.modMm (fun m => (m.zeroFrame n).dropFrame n)
    some ((s1.charge 128 (portCol (homeDie (n * 65536)).val 0) .hbmWrite 512).setFot n 2 0)
  else if c.op = 2 ∧ st = 2 then some (s.setFot n 3 c.owner)
  else if c.op = 3 ∧ st = 3 then some ((s.modMm (fun m => (m.revertFrame n).dropFrame n)).setFot n 0 0)
  else none

/-- SCRUB (R245): the write of FOTCMD with OP 1. -/
def execScrub (s : State) : Out := .next (if s.boot.windowOpen then s.fotWrite (dbl s.arg.value) 1 else s)

/-- ASSIGN (R245): the write of FOTCMD with OP 2. -/
def execAssign (s : State) : Out := .next (if s.boot.windowOpen then s.fotWrite (dbl s.arg.value) 2 else s)

/-- RELEASE (R245): the write of FOTCMD with OP 3. -/
def execRelease (s : State) : Out := .next (if s.boot.windowOpen then s.fotWrite (dbl s.arg.value) 3 else s)

/-- FOT_FRAME_COMPLETE (R244, R245): the frame of the command under way finishes, or the command stops at it with ERR. -/
def execFotFrameComplete (s : State) : Out :=
  match s.host.fot with
  | none => .next s
  | some c =>
      match s.fotFrame c with
      | none => .next (s.modHost (fun h => { h with fot := none, fotErr := some c.frame }))
      | some s1 =>
          if c.left ≤ 1 then .next (s1.modHost (fun h => { h with fot := none }))
          else .next (s1.fotTake { c with frame := c.frame + 1, left := c.left - 1 })

/-- The word of FOTSTAT (R244). -/
def HostSide.fotStat (h : HostSide) : Double :=
  dbl ((if h.fot.isSome then 1 else 0) + (match h.fotErr with | some n => 2 + n * 4 | none => 0))

/-! ### Translation invalidation (R238) -/

/-- A write of TLBINV with a kind: kind 3 is ignored. -/
def State.tlbWrite (s : State) (w : Double) (kind : Nat) : State :=
  if kind = 3 then s else s.modHost (fun h => { h with tlb := h.tlb ++ [⟨kind, bits w 55 7, bits w 0 44⟩] })

/-- TLBINV_ALL (R238): the write of TLBINV with KIND 0. -/
def execTlbinvAll (s : State) : Out := .next (if s.boot.windowOpen then s.tlbWrite (dbl s.arg.value) 0 else s)

/-- TLBINV_STAGE1 (R238): the write of TLBINV with KIND 1. -/
def execTlbinvStage1 (s : State) : Out := .next (if s.boot.windowOpen then s.tlbWrite (dbl s.arg.value) 1 else s)

/-- TLBINV_STAGE2 (R238): the write of TLBINV with KIND 2. -/
def execTlbinvStage2 (s : State) : Out := .next (if s.boot.windowOpen then s.tlbWrite (dbl s.arg.value) 2 else s)

/-- A stage-1 entry is one that an invalidation removes. -/
def TlbCmd.hits1 (c : TlbCmd) (e : Tlb1) : Bool :=
  decide (e.vf = c.vf) &&
    (if c.kind = 0 then true
     else if c.kind = 1 then decide (e.va / 2 ^ e.run = c.addr * 65536 / 2 ^ e.run)
     else decide (e.ia / 65536 = c.addr % 2 ^ 40))

/-- A stage-2 entry is one that an invalidation removes. -/
def TlbCmd.hits2 (c : TlbCmd) (e : Tlb2) : Bool :=
  decide (e.vf = c.vf) && (decide (c.kind = 0) || (decide (c.kind = 2) && decide (e.ia = c.addr % 2 ^ 40)))

/-- The entries that an invalidation names go, and the function's walks under way start again. -/
def MemSide.invalidate (m : MemSide) (c : TlbCmd) : MemSide :=
  let again := fun (a : Access) => match a.st with | .walking _ => if a.vf = c.vf then { a with st := .issued } else a | _ => a
  { m with tlb1 := m.tlb1.filter (fun e => !c.hits1 e), tlb2 := m.tlb2.filter (fun e => !c.hits2 e),
           accesses := m.accesses.map again }

/-- A buffered store of a core, or an update in a bin, holds a translation of a function (R189, R253). -/
def State.holdsPa (s : State) (vf : Nat) : Bool :=
  s.mm.bins.any (fun b => decide (b.vf = vf)) ||
    ([0, 1, 2, 3] : List (Fin 4)).any (fun c => (s.core c).sb.any (fun q => decide (q.vf = vf)))

/-- TLBINV_COMPLETE (R238): the oldest invalidation finishes once what was translated before has been performed; with the last one
BUSY falls. -/
def execTlbinvComplete (s : State) : Out :=
  match s.host.tlb with
  | [] => .next s
  | c :: rest => .next (if s.holdsPa c.vf then s else (s.modMm (·.invalidate c)).modHost (fun h => { h with tlb := rest }))

/-! ### Page responses (R208, R214, R247, R387) -/

/-- The code of a failed page request: STAGE1 to the partition, or STAGE2, within a walk or not, to the host. -/
def PageReq.failCode (p : PageReq) (tenant : Bool) : Nat := if tenant then codeStage1 else if p.inWalk then codeInWalk else codeStage2

/-- The intermediate address that the record of a failed request carries. -/
def PageReq.failIa (p : PageReq) (tenant : Bool) : Nat := if tenant then 0 else p.ia

/-- Accesses that wait for a page run again from their start, or take the failure (R249, R262). -/
def State.pageAccess (s : State) (p : PageReq) (fail : Option Bool) (a : Access) : State :=
  match a.st with
  | .paged req =>
      if req ≠ p.req ∨ a.vf ≠ p.vf then s
      else
        match fail with
        | none =>
            ((s.modAcc a.uid Access.again).onFiring a.loc a.inst a.fid (·.unparkAt a.uid)).queueRelink a.inst
        | some t => s.portFault a (p.failCode t) a.piece.1 (p.failIa t)
  | _ => s

/-- A copy that waits for a page goes on, or stops at its granule. -/
def State.pageCopy (s : State) (p : PageReq) (fail : Option Bool) (c : Copy) : State :=
  if c.paged ≠ some p.req ∨ c.vf ≠ p.vf then s
  else
    let s1 := s.modCopy c.uid (fun k => { k with paged := none })
    match fail with
    | none => s1
    | some t => s1.copyFault c (p.failCode t) p.va (p.failIa t)

/-- A Thicket request that waits for a page goes on, or takes the failure (R387). -/
def State.pageThicket (s : State) (p : PageReq) (fail : Option Bool) (t : ThReq) : State :=
  if t.paged ≠ some p.req ∨ t.vf ≠ p.vf then s
  else
    let t1 := { t with paged := none }
    let s1 := s.setTh t1
    match fail with
    | none => s1
    | some f =>
        if t1.op.isUpdate || decide (t1.op = .tstat) then s1.thHalt t1 (p.failCode f) p.va (p.failIa f)
        else s1.probeFail t1 0 (Th.fault (p.failCode f) p.va (p.failIa f) s1 : Th Unit)

/-- A control core that waits for a page goes on to its instruction again, whose access takes the failure. -/
def State.pageCore (s : State) (p : PageReq) (fail : Option Bool) (c : Fin 4) : State :=
  if (s.core c).paged ≠ some p.req then s else s.modCore c (fun k => { k with paged := none, pageFail := fail })

/-- What waits for a request is a unit of the device, which asks again and finds the failure. -/
def PageFor.isUnit : PageFor → Bool
  | .access _ => false
  | .thicket _ => false
  | .core _ => false
  | .copy _ => false
  | .faultRing _ => true
  | .sampRing _ => true
  | .packet _ => true
  | .completion _ => true
  | .engine => true
  | .arena _ => true

/-- A ring whose records waited for the page takes them. -/
def State.pageRing (s : State) (f : PageFor) : State :=
  match f with
  | .faultRing v => s.flushFaults v ((s.vf v).heldFaults.length + 1)
  | .sampRing v => s.flushSamples v ((s.vf v).sampHeld.length + 1)
  | _ => s

/-- A response to an outstanding request of the present generation. Records of a spill arena that waited for the page are checked again
(R404). -/
def State.pageAnswer (s : State) (p : PageReq) (fail : Option Bool) : State :=
  let keep := fail.isSome && p.for_.isUnit
  let upd := fun (q : PageReq) => if q.req = p.req ∧ q.port = p.port then { q with failed := fail } else q
  let s1 := s.modMm (fun m =>
    { m with pageReqs := if keep then m.pageReqs.map upd else m.pageReqs.filter (fun q => decide (q.req ≠ p.req ∨ q.port ≠ p.port)) })
  let s2 := s1.mm.accesses.foldl (fun st a => st.pageAccess p fail a) s1
  let s3 := s2.mm.copies.foldl (fun st c => st.pageCopy p fail c) s2
  let s4 := s3.mm.thq.foldl (fun st t => st.pageThicket p fail t) s3
  let s5 := ([0, 1, 2, 3] : List (Fin 4)).foldl (fun st c => st.pageCore p fail c) s4
  (s5.pageRing p.for_).arenaAnswered p.vf

/-- A page response (R208, R214): one that names no outstanding request, or whose GEN is not the function's, is discarded and
counted. Failure: none resolved, true failed for the tenant, false failed for the host. -/
def State.pageResponse (s : State) (w : Double) (fail : Option Bool) : State :=
  let v := bits w 24 7
  let drop := s.modHost (fun h => { h with gendrop := h.gendrop + 1 })
  match s.mm.pageReqs.find? (fun p =>
      decide (p.port = bits w 31 1 ∧ p.vf = v ∧ p.req = bits w 48 16) && p.failed.isNone) with
  | none => drop
  | some p => if bits w 32 16 ≠ (s.vf v).gen then drop else s.pageAnswer p fail

/-- PAGE_RESPONSE_RESOLVED (R214): the write of PGRESP with STATUS 0. -/
def execPageResponseResolved (s : State) : Out :=
  .next (if s.boot.windowOpen then s.pageResponse (dbl s.arg.value) none else s)

/-- PAGE_RESPONSE_FAILED_HOST (R214): the write of PGRESP with STATUS 1. -/
def execPageResponseFailedHost (s : State) : Out :=
  .next (if s.boot.windowOpen then s.pageResponse (dbl s.arg.value) (some false) else s)

/-- PAGE_RESPONSE_FAILED_TENANT (R214): the write of PGRESP with STATUS 2. -/
def execPageResponseFailedTenant (s : State) : Out :=
  .next (if s.boot.windowOpen then s.pageResponse (dbl s.arg.value) (some true) else s)

/-- An access waits for a page. -/
def Access.isPaged (a : Access) : Bool :=
  match a.st with
  | .paged _ => true
  | .issued => false
  | .walking _ => false
  | .syncWait => false
  | .faulted => false
  | .served => false
  | .returned => false

/-- The page requests of a function's old generation are abandoned, and what waits for them at the stations ends; a core that waits for one
asks again (R214). -/
def State.abandonPages (s : State) (v : Nat) : State :=
  let reqs := (s.mm.pageReqs.filter (fun p => decide (p.vf = v))).map (·.req)
  let s1 := s.modMm (fun m =>
    { m with pageReqs := m.pageReqs.filter (fun p => decide (p.vf ≠ v)),
             accesses := m.accesses.filter (fun a => decide (a.vf ≠ v) || !a.isPaged),
             copies := m.copies.filter (fun c => decide (c.vf ≠ v) || c.paged.isNone),
             thq := m.thq.filter (fun t => decide (t.vf ≠ v) || t.paged.isNone) })
  ([0, 1, 2, 3] : List (Fin 4)).foldl (fun st c =>
    match (st.core c).paged with
    | some r => if reqs.contains r then st.modCore c (fun k => { k with paged := none }) else st
    | none => st) s1

end Sys2Proof.Machine
end

