-- ==== Sys2Proof/Machine/Errors.lean ====
section
/-!
DEFINITION. Errors in protected storage and on the links: CORRECTED_ERROR, SRAM_UNCORRECTABLE, TAG_UNCORRECTABLE, HBM_POISON,
REMAP_TABLE_LOSS, FLIT_CRC_FAIL and PORT_RETRAIN (R216, R314, R421 to R424, R468).
-/

namespace Sys2Proof.Machine

/-- A corrected error is counted, and nobody is told (R421). -/
def State.corrected (s : State) : State := s.modHost (fun h => { h with cecount := h.cecount + 1 })

/-- An uncorrectable error is counted (R208). -/
def State.uncorrected (s : State) : State := s.modHost (fun h => { h with uecount := h.uecount + 1 })

/-- CORRECTED_ERROR (R421). -/
def execCorrectedError (s : State) : Out := .next (if s.boot.powered then s.corrected else s)

/-! ### SRAM_UNCORRECTABLE (R314, R421) -/

/-- An uncorrectable error kills an instance: a record to its partition, and a copy to the host. -/
def State.killSram (s : State) (l : Loc) (c : Nat) : State :=
  let x := (s.st l).ctx c
  match s.inst? x.inst with
  | none => s
  | some i =>
      if !x.valid then s
      else
        let f : FaultInfo :=
          { code := codeUncorrectable, source := 0, vf := some i.vf, loc := some l, die := l.die, inst := i.id, ctx := c }
        (s.report f true none).2.killInst i.id codeUncorrectable

/-- An uncorrectable error in a shadow write: the placement aborts, and its quad is withdrawn (R314). -/
def State.shadowError (s : State) (l : Loc) : State :=
  match s.loading? l.die with
  | none => s
  | some i =>
      if !i.stations.any (fun p => decide (p.1 = l)) then s
      else
        let s1 := s.reportHost { code := codeUncorrectable, source := 3, vf := some i.vf, loc := some l, die := l.die, inst := i.id }
        s1.withdraw l.die (quadX l) (quadY l) codeUncorrectable

/-- SRAM_UNCORRECTABLE (R421): an uncorrectable error at a station: m = 0, in a structure that holds the state of context n; m = 1,
in one that contexts share; else in a shadow write. -/
def execSramUncorrectable (s : State) : Out :=
  let l := s.arg.loc
  if !s.boot.powered then .next s
  else
    match s.arg.m % 3 with
    | 0 => .next (s.uncorrected.killSram l (s.arg.n % 8))
    | 1 => .next ((List.range 8).foldl (fun st c => st.killSram l c) s.uncorrected)
    | _ => .next (s.uncorrected.shadowError l)

/-! ### TAG_UNCORRECTABLE (R422) -/

/-- A partition has a live context on a die and owns a frame homed there. -/
def State.ownsOn (s : State) (d : Fin 2) (v : Nat) : Bool :=
  s.prick.insts.any (fun i => decide (i.vf = v ∧ i.die = d) && i.st.holds) &&
    s.mm.fot.any (fun e => decide (e.2 = (3, v)) && decide (homeDie (e.1 * 65536) = d))

/-- A partition loses data: it is told, with a copy to the host, and killed. -/
def State.dataLoss (s : State) (d : Fin 2) (pa v : Nat) : State :=
  let f : FaultInfo := { code := codeUncorrectable, source := 6, vf := some v, named := false, die := d, detail := 1, pa := pa }
  (s.report f true none).2.killVf v codeUncorrectable

/-- The record of an error with no single owner goes to the host. -/
def State.lossToHost (s : State) (d : Fin 2) (pa : Nat) : State :=
  s.reportHost { code := codeUncorrectable, source := 6, vf := none, named := false, die := d, detail := 1, pa := pa }

/-- A dirty L2 line is lost: what memory holds is what is left. -/
def State.loseLine (s : State) (l : Line) : State :=
  s.modMm (fun m =>
    let m1 := m.revertLine l
    { m1 with l2 := m1.l2.filter (fun x => decide (x.addr ≠ l.addr ∨ x.vf ≠ l.vf)) })

/-- An error in the tag of an L2 line: in its partition field, or in its address field. -/
def State.tagError (s : State) (l : Line) (address : Bool) : State :=
  let pa := l.addr * 128
  let d := homeDie pa
  if !l.dirty then s.modMm (fun m => { m with l2 := m.l2.filter (fun x => decide (x.addr ≠ l.addr ∨ x.vf ≠ l.vf)) })
  else if l.vf = hostId then (s.loseLine l).lossToHost d pa
  else if address then
    ((List.range 128).filter (s.ownsOn d)).foldl (fun st v => st.killVf v codeUncorrectable) ((s.loseLine l).lossToHost d pa)
  else
    let e := s.fotEntry (pa / 65536)
    if e.1 = 3 ∧ e.2 < 128 ∧ isHostMem pa = false then (s.loseLine l).dataLoss d pa e.2 else (s.loseLine l).lossToHost d pa

/-- TAG_UNCORRECTABLE (R422): the tag of L2 line n or, for odd m, of RDC line n; ok: the address is intact. An RDC line is never
dirty, and it is dropped. -/
def execTagUncorrectable (s : State) : Out :=
  if s.arg.m % 2 = 1 then
    match s.mm.rdc[s.arg.n]? with
    | none => .next s
    | some _ => .next (s.uncorrected.modMm (fun m => { m with rdc := m.rdc.eraseIdx s.arg.n }))
  else
    match s.mm.l2[s.arg.n]? with
    | none => .next s
    | some l => .next (s.uncorrected.tagError l (!s.arg.ok))

/-! ### HBM_POISON (R423) -/

/-- HBM_POISON (R423): ECC cannot correct a read of the HBM line at addr. -/
def execHbmPoison (s : State) : Out :=
  let a := s.arg.addr
  if s.boot.powered && decide (a < 2 ^ 51) && s.physOk a then .next (s.uncorrected.modMm (fun m => { m with poison := nput m.poison (a / 128) }))
  else .next s

/-! ### REMAP_TABLE_LOSS (R424) -/

/-- An instance with rows in the bank of a quad, parked registers (R347) among them, is killed with MATCH_LOST. -/
def State.bankLost (s : State) (l : Loc) : State :=
  (List.range 8).foldl (fun st c =>
    let x := (st.st l).ctx c
    match st.inst? x.inst with
    | none => st
    | some i =>
        if x.valid && (decide (0 < st.rowsUsed l c) || (st.st l).parkedRegs.any (fun r => decide (r.ctx = c))) then
          (st.partitionFault { code := codeMatchLost, source := 0, vf := some i.vf, loc := some l, die := l.die, inst := i.id, ctx := c }).killInst
            i.id codeMatchLost
        else st) s

/-- REMAP_TABLE_LOSS (R424): an uncorrectable error in the remap table of the bank above a station's quad: in one copy (ok), which
is repaired from the other, or in both, and the bank is retired. -/
def execRemapTableLoss (s : State) : Out :=
  let l := s.arg.loc
  let k := quadKey l.die.val (quadX l) (quadY l)
  if !s.boot.powered then .next s
  else if s.arg.ok then .next s.uncorrected
  else
    let s1 := s.uncorrected.reportHost { code := codeUncorrectable, source := 6, vf := none, loc := some l, die := l.die, detail := 4 }
    .next ((quadStations l.die.val (quadX l) (quadY l)).foldl State.bankLost (s1.modQuad k (fun q => { q with retired := true })))

/-! ### The Simiow link (R216, R468) -/

/-- A Simiow port. -/
def State.port (s : State) (n : Nat) : Port := vget s.host.ports n {}

/-- Change a Simiow port. -/
def State.modPort (s : State) (n : Nat) (f : Port → Port) : State :=
  s.modHost (fun h => { h with ports := vset h.ports n (f (s.port n)) })

/-- FLIT_CRC_FAIL (R216): a flit of port n fails its CRC, for the first time (ok) or as a replay; after eight failed replays the
port retrains. -/
def execFlitCrcFail (s : State) : Out :=
  let n := s.arg.n % 2
  let p := s.port n
  if !s.boot.powered || p.training then .next s
  else
    let k := if s.arg.ok then 0 else p.replays + 1
    .next (s.corrected.modPort n (fun q => if k = 8 then { q with replays := 0, training := true } else { q with replays := k }))

/-- PORT_RETRAIN (R216, R468): retraining port n comes back, at the width m of DEVCAPS: down, 8, 16 or 32 lanes. -/
def execPortRetrain (s : State) : Out :=
  let n := s.arg.n % 2
  if (s.port n).training then .next (s.modPort n (fun q => { q with training := false, width := s.arg.m % 4 })).flushIrqs else .next s

end Sys2Proof.Machine
end

