-- ==== Sys2Proof/Machine/Command.lean ====
section
/-!
DEFINITION. The commands of a partition (R406): SAVE, RESUME, KILLALL, RESET, KILLINST, RESUMEINST, RESUME_FAULT and
DISCARD_FAULT (R132, R214, R249, R294, R314, R374, R387, R407, R413, R420).
-/

namespace Sys2Proof.Machine

/-- CMDERR of a function. -/
def State.cmdErr (s : State) (v : Nat) (e : Bool) : State := s.modVf v (fun f => { f with cmderr := e })

/-- A command that is accepted clears CMDERR; one that is refused sets it and does nothing else. -/
def State.cmdOut (s : State) (v : Nat) (o : Option State) : State :=
  match o with
  | some t => t.cmdErr v false
  | none => s.cmdErr v true

/-! ### Kills (R294, R406) -/

/-- KILLALL: queued launches refused for quota complete with 0x50; everything else is killed with status 0. -/
def State.killAll (s : State) (v : Nat) : State :=
  let code := if (s.vf v).quotaOut then codeQuota else 0
  let queued := s.prick.insts.filter (fun i => decide (i.vf = v ∧ i.st = .queued) && (match i.kind with | .root => true | _ => false))
  (queued.foldl (fun st i => st.killInst i.id code) s).killVf v 0

/-- RESET: KILLALL, a new generation, no root records, the hash families zero. -/
def State.resetVf (s : State) (v : Nat) : State :=
  let s1 := (s.killAll v).abandonPages v
  let s2 : State := { s1 with prick := { s1.prick with roots := s1.prick.roots.filter (fun r => decide (r.vf ≠ v)) } }
  s2.modVf v (fun f =>
    { f with ctl := setBits f.ctl 32 16 (f.gen + 1), families := Vector.replicate 16 {}, pendFaults := [] })

/-- A live instance of a function by its id. -/
def State.liveOf (s : State) (v id : Nat) : Option Inst := (s.inst? id).filter (fun i => decide (i.vf = v) && !i.st.ended)

/-- RESUMEINST of a live instance: one that the spill limit parked fires again, its overrun page an ordinary one (R132); a relink
parked after a fetch fault is queued again (R314). -/
def State.resumeParked (s : State) (i : Inst) : State :=
  if i.spillPark then
    s.modInst i.id (fun j => { j with spillPark := false, overrun := decide ((s.vf i.vf).spilllim ≤ j.pages.length) })
  else if i.fetchPark then (s.modInst i.id (fun j => { j with fetchPark := false })).queueRelink i.id
  else s

/-! ### Resuming and discarding faults (R249, R387, R420) -/

/-- The instance of a firing that stands at a station, or in a save image. -/
def State.instOfFid (s : State) (l : Loc) (fid : Nat) : Option Nat :=
  match (s.st l).findFiring fid with
  | some f => some f.1.inst
  | none => (s.prick.insts.find? (fun i => (i.save.getD {}).fids.contains fid)).map (·.id)

/-- The instance whose strand record halted with a SEQ, at a station or in a save image. -/
def State.haltedAt (s : State) (l : Loc) (r seq : Nat) : Option Nat :=
  let is := fun (k : Strand) => decide (k.st = .halted ∧ k.faultSeq = some seq)
  let x := (s.st l).ctx (r / 8)
  if x.valid && !x.draining && is ((s.st l).strand r) then some x.inst
  else
    (s.prick.insts.find? (fun i =>
      match (i.savedAt l).bind (fun q => q.strands[r % 8]?) with | some k => is k | none => false)).map (·.id)

/-- RESUME_FAULT of what a record names; none where it is gone. -/
def State.resumeFor (s : State) (seq : Nat) (r : FaultFor) : Option State :=
  match r with
  | .firing l fid =>
      (s.instOfFid l fid).map (fun id =>
        (s.onFiring l id fid (fun f => if f.park = .fault then { f with park := .cleared } else f)).queueRelink id)
  | .access u =>
      ((s.acc? u).filter (fun a => decide (a.st = .faulted))).map (fun a =>
        ((s.modAcc u Access.again).onFiring a.loc a.inst a.fid (·.unparkAt u)).queueRelink a.inst)
  | .strand l k =>
      (s.haltedAt l k seq).map (fun id =>
        let s1 := s.onStrand id l k (fun x => { x with st := .armed, faultSeq := none })
        (s1.modMm (fun m =>
          { m with accesses := m.accesses.map (fun a => if a.inst = id ∧ a.st = .faulted ∧ a.faultSeq = some seq then a.again else a) })).queueRelink
            id)
  | .copy u =>
      (s.mm.copies.find? (fun c => decide (c.uid = u) && c.faulted)).map (fun c =>
        (s.modCopy u (fun k => { k with faulted := false })).queueRelink c.inst)
  | .thicket u =>
      (s.mm.thq.find? (fun t => decide (t.uid = u) && t.faulted)).map (fun t =>
        (s.setTh { t with faulted := false }).queueRelink t.inst)

/-- End a parked firing as null mode does when it is next selected; for one that has reached its body's end every owed lsid counts
as performed. Its accesses that faults hold are given up. -/
def State.discardFiring (s : State) (l : Loc) (id fid : Nat) : State :=
  let parked := fun (f : Firing) =>
    if f.id = fid ∧ (match f.park with | .fault => true | .access _ => true | _ => false) = true then { f with discard := true, park := .cleared } else f
  let ended := fun (f : Firing) => if f.id = fid then { f with lsids := hdrStoreMask f.header } else f
  let s1 := s.modSt l (fun v => { v with parked := v.parked.map parked, ended := v.ended.map ended })
  let s2 := s1.modInst id (fun i => { i with save := i.save.map (fun m =>
    { m with stations := m.stations.map (fun q => { q with parked := q.parked.map parked, ended := q.ended.map ended }) }) })
  (s2.modMm (fun m =>
    { m with accesses := m.accesses.filter (fun a => decide (a.fid ≠ fid) || decide (a.st ≠ .faulted)) })).queueRelink id

/-- DISCARD_FAULT of what a record names; none where it is gone. A HALTED strand has no parked firing to end: it stays, and its
fault stays pending. -/
def State.discardFor (s : State) (r : FaultFor) : Option State :=
  match r with
  | .firing l fid => (s.instOfFid l fid).map (fun id => s.discardFiring l id fid)
  | .access u =>
      ((s.acc? u).filter (fun a => decide (a.st = .faulted))).map (fun a => s.discardFiring a.loc a.inst a.fid)
  | .strand _ _ => some s
  | .copy u =>
      (s.mm.copies.find? (fun c => decide (c.uid = u) && c.faulted)).map (fun c =>
        (s.modMm (fun m => { m with copies := m.copies.filter (fun k => decide (k.uid ≠ u)) })).discardFiring c.loc c.inst c.fid)
  | .thicket u =>
      (s.mm.thq.find? (fun t => decide (t.uid = u) && t.faulted)).map (fun t =>
        let s1 := s.dropTh t
        if t.op = .tstat then s1.discardFiring t.loc t.inst t.fid
        else (s1.onFiring t.loc t.inst t.fid (·.done t.lsid)).queueRelink t.inst)

/-- The pending fault of a SEQ. -/
def Vf.pending (f : Vf) (seq : Nat) : Option (Nat × FaultFor) := f.pendFaults.find? (fun p => decide (p.1 % 2 ^ 32 = seq))

/-- A pending fault has been used: it can be resumed or discarded only once. -/
def State.usePending (s : State) (v seq : Nat) : State :=
  s.modVf v (fun f => { f with pendFaults := f.pendFaults.filter (fun p => decide (p.1 ≠ seq)) })

/-- RESUME_FAULT with a SEQ. -/
def State.resumeFault (s : State) (v seq : Nat) : Option State :=
  match (s.vf v).pending seq with
  | none => none
  | some p => (s.usePending v p.1).resumeFor p.1 p.2

/-- DISCARD_FAULT with a SEQ. -/
def State.discardFault (s : State) (v seq : Nat) : Option State :=
  match (s.vf v).pending seq with
  | none => none
  | some p =>
      match p.2 with
      | .strand _ _ => s.discardFor p.2
      | _ => (s.usePending v p.1).discardFor p.2

/-! ### CMD (R406) -/

/-- A write of CMD with an operation; other operations are ignored. -/
def State.command (s : State) (v op : Nat) (w : Double) : State :=
  let id := bits w 32 18
  let seq := bits w 0 32
  match op with
  | 1 => s.cmdOut v (if (s.vf v).st = .saved then none else some (s.startSave v 0))
  | 2 => s.cmdOut v (some (s.askResume v))
  | 3 => s.cmdOut v (some (s.killAll v))
  | 4 => s.cmdOut v (some (s.resetVf v))
  | 5 => s.cmdOut v ((s.liveOf v id).map (fun i => s.killInst i.id 0))
  | 6 => s.cmdOut v ((s.liveOf v id).map (fun i => s.resumeParked i))
  | 7 => s.cmdOut v (s.resumeFault v seq)
  | 8 => s.cmdOut v (s.discardFault v seq)
  | _ => s

/-- The host's write of CMD of function vf with an operation. -/
def State.hostCmd (s : State) (op : Nat) : Out :=
  .next (if s.boot.windowOpen then s.command (s.arg.vf % 128) op (dbl s.arg.value) else s)

/-- SAVE (R407). -/
def execSave (s : State) : Out := s.hostCmd 1

/-- RESUME (R413). -/
def execResume (s : State) : Out := s.hostCmd 2

/-- KILLALL (R406). -/
def execKillall (s : State) : Out := s.hostCmd 3

/-- RESET (R406). -/
def execReset (s : State) : Out := s.hostCmd 4

/-- KILLINST (R294). -/
def execKillinst (s : State) : Out := s.hostCmd 5

/-- RESUMEINST (R406). -/
def execResumeinst (s : State) : Out := s.hostCmd 6

/-- RESUME_FAULT (R420). -/
def execResumeFault (s : State) : Out := s.hostCmd 7

/-- DISCARD_FAULT (R420). -/
def execDiscardFault (s : State) : Out := s.hostCmd 8

end Sys2Proof.Machine
end

