-- ==== Sys2Proof/Machine/Energy.lean ====
section
/-!
DEFINITION. The energy hub, the power die and the time messages: COLUMN_MEASUREMENT, ENERGY_DEBIT, GRANT_UPDATE, TIME_MESSAGE
(R425 to R430, R435, R461, R462).
-/

namespace Sys2Proof.Machine

/-! ### Shared costs (R427) -/

/-- Charge pJ of a shared cost. -/
def State.share (s : State) (vf col n : Nat) : State := s.charge vf col .shared n

/-- The leakage share of a context slot of a station: it counts at the station's meter site (R440). -/
def State.leakSlot (s : State) (col n : Nat) (l : Loc) (c : Nat) : State :=
  match s.ctxVf (s.st l) c with
  | some v => (s.share v col n).modSt l (fun q => q.modCtx c (fun x => { x with site := siteAdd x.site .shared n }))
  | none => s

/-- The leakage of a station of a held quad: its slots share it equally, or the one whose plot holds the quad bears it; what does not
divide goes to the device overhead pool. -/
def State.leakSta (s : State) (col rate : Nat) (l : Loc) : State :=
  let part := rate / 16
  match (List.range 8).filter (fun c => (s.ctxVf (s.st l) c).isSome) with
  | [] =>
      (match s.held.find? (fun i => !i.folded && i.covers l.die.val (quadX l) (quadY l)) with
       | some i => s.share i.vf col part
       | none => s.share 128 col part)
  | o :: os =>
      let each := part / (os.length + 1)
      ((o :: os).foldl (fun st c => st.leakSlot col each l c) s).share 128 col (part - each * (os.length + 1))

/-- The leakage of a quad. -/
def State.leakQuad (s : State) (col die qx qy : Nat) : State :=
  if s.quadHeld die qx qy then
    (quadStations die qx qy).foldl (fun st l => st.leakSta col (Config.rate die 2) l) s
  else s.share 128 col (Config.rate die 4)

/-- The retention of the Hedgerow rows that the slots of a station hold. -/
def State.rowsSta (s : State) (col die : Nat) (l : Loc) : State :=
  (List.range 8).foldl (fun st c =>
    st.share ((st.ctxVf (st.st l) c).getD 128) col (st.rowsUsed l c * Config.rate die 1)) s

/-- Frames of a stack (R240), and those of it that a function owns (R243). -/
def stackFrames : Nat := 0x165800
def State.framesOwned (s : State) (stack v : Nat) : Nat :=
  (s.mm.fot.filter (fun e => decide (e.2 = (3, v) ∧ e.1 * 65536 / 0x2000000000 = stack))).length

/-- The refresh and PHY idle of a stack. -/
def State.stackCost (s : State) (col stack : Nat) : State :=
  let rate := Config.rate (stack / 4) 0
  let part := fun (v : Nat) => rate * s.framesOwned stack v / stackFrames
  let sum := ((List.range 128).map part).foldl (· + ·) 0
  ((List.range 128).foldl (fun st v => st.share v col (part v)) s).share 128 col (rate - sum)

/-- The supply column on which a stack's cost is measured (LOG 15). -/
def stackColumn (stack : Nat) : Nat := stack / 4 * 16 + Config.stackCol stack % 16

/-- The shared costs of a supply column for a microsecond. -/
def State.sharedCosts (s : State) (col : Nat) : State :=
  let die := col / 16
  let qx := col % 16
  let s1 := (List.range 20).foldl (fun st qy => st.leakQuad col die qx qy) s
  let s2 := (List.range 20).foldl (fun st qy => (quadStations die qx qy).foldl (fun t l => t.rowsSta col die l) st) s1
  ((List.range 8).filter (fun k => bit s.boot.hbmUp k && decide (stackColumn k = col))).foldl (fun st k => st.stackCost col k) s2

/-! ### COLUMN_MEASUREMENT (R426) -/

/-- The energy of a charge. -/
def Charge.energy (c : Charge) : Nat := workEnergy (c.col / 16) c.work.code c.count

/-- The energy of the charges that satisfy a test. -/
def energyOf (l : List Charge) (p : Charge → Bool) : Nat := ((l.filter p).map Charge.energy).foldl (· + ·) 0

/-- The share of a residual that a charge takes: truncated to whole pJ, and no lower than the charge taken back. -/
def residShare (r : Int) (cp c : Nat) : Int := max ((r * cp).tdiv c) (-(cp : Int))

/-- Energy in pJ for the device overhead pool. -/
def State.overheadAdd (s : State) (n : Int) : State := s.modHost (fun h => { h with overhead := h.overhead + idbl n })

/-- The charges of a column that its measurement takes are those that the debit takes: a later one belongs to the next microsecond (R426,
R428). -/
def State.closeCol (s : State) (col : Nat) : State :=
  let mine := fun (c : Charge) => decide (c.col = col)
  s.modFab (fun b => { b with charges := b.charges.filter (fun c => !mine c), due := b.due ++ b.charges.filter mine })

/-- The residual of a column is split over its charges of the microsecond; the rest goes to the device overhead pool. The reading is kept
for the column's GRANT, with those of the 63 microseconds before it (R25, R462). -/
def State.splitResid (s : State) (col measured : Nat) : State :=
  let l := s.fab.due.filter (fun c => decide (c.col = col))
  let c := energyOf l (fun _ => true)
  let r : Int := (measured : Int) - c
  let cp := fun (v : Nat) => energyOf l (fun x => decide (x.vf = v))
  let parts := ((List.range 128).filter (fun v => decide (0 < cp v))).map (fun v => (v, residShare r (cp v) c))
  let left := r - (parts.map (·.2)).foldl (· + ·) 0
  (s.modCol col (fun x => { x with resid := parts, measured := true, readings := (measured :: x.readings).take 64 })).overheadAdd left

/-- The microsecond that is next to be debited has ended. -/
def State.usOver (s : State) : Bool := decide (1600 * (s.host.debits + 1) ≤ s.now)

/-- COLUMN_MEASUREMENT (R426, R427): the power die gives the measured energy of column n for the microsecond that has ended. -/
def execColumnMeasurement (s : State) : Out :=
  let n := s.arg.n % 32
  if !s.boot.powered || !s.usOver || (s.col n).measured then .next s
  else .next (((s.sharedCosts n).closeCol n).splitResid n s.arg.value)

/-! ### ENERGY_DEBIT (R428, R430) -/

/-- The work is a shared cost (R427). -/
def Work.isShared : Work → Bool
  | .record => true
  | .coreCycle => true
  | .shared => true
  | .scalar => false
  | .wordHop => false
  | .tileHop => false
  | .mma16 => false
  | .mma8 => false
  | .mma4 => false
  | .hbmRead => false
  | .hbmWrite => false
  | .hedgerow => false
  | .thicket => false
  | .simiow => false

/-- The residual of the microsecond before that a function owes. -/
def State.residOwed (s : State) (v : Nat) : Int :=
  (s.fab.cols.toList.map (fun c => (Map.find c.residOld v).getD 0)).foldl (· + ·) 0

/-- The functions that a debit touches: those charged, those that owe a residual, and those enabled. -/
def State.debtors (s : State) : List Nat :=
  (List.range 128).filter (fun v =>
    s.fab.due.any (fun c => decide (c.vf = v)) || s.fab.cols.toList.any (fun c => (Map.find c.residOld v).isSome) || (s.vf v).enable)

/-- What a debit that leaves QUOTA at or below WARN does while WARNEN is set (R430). -/
def State.quotaWarn (s : State) (v : Nat) : State :=
  let f := s.vf v
  if f.warnen && decide (f.quota ≤ f.warn) then
    ((s.modVf v (fun x => { x with ctl := setBits x.ctl 3 1 0 })).setEvent f.faultcore 3).sample v 0 0x0030 .none (idbl f.quota) 0
  else s

/-- What a debit that leaves QUOTA at or below zero does: the save of R407 starts (R430). -/
def State.quotaOver (s : State) (v : Nat) : State :=
  let f := s.vf v
  if decide (f.quota ≤ 0) && decide (f.st = .running) then
    let s1 := s.modVf v (fun x => { x with saveQuota := f.quota, quotaOut := true })
    (s1.sample v 0 0x0031 .none (idbl f.quota) 0).startSave v 2
  else s

/-- With AUTORES a partition resumes as QUOTA turns positive, from a value that it had (R413). -/
def State.autoResume (s : State) (v : Nat) (old : Int) : State :=
  if (s.vf v).autores && decide (old ≤ 0) && decide (0 < (s.vf v).quota) then s.askResume v else s

/-- Debit one function: QUOTA, CHARGED, RESID and SHARED, and the broadcast (R428); a negative residual may turn QUOTA positive. -/
def State.debitVf (s : State) (l : List Charge) (v : Nat) : State :=
  let ch := energyOf l (fun c => decide (c.vf = v))
  let sh := energyOf l (fun c => decide (c.vf = v) && c.work.isShared)
  let r := s.residOwed v
  let s1 := s.modVf v (fun f =>
    { f with quota := (idbl (f.quota - ch - r)).toInt, charged := f.charged + ch + r, resid := f.resid + r, shared := f.shared + sh })
  let s2 := ((s1.quotaWarn v).broadcast v).quotaOver v
  s2.autoResume v (s.vf v).quota

/-- ENERGY_DEBIT (R428, R430): the hub debits the microsecond that has ended, once every column has been measured: the charges that the
measurements took. -/
def execEnergyDebit (s : State) : Out :=
  if !s.boot.powered || !s.usOver || s.fab.cols.toList.any (fun c => !c.measured) then .next s
  else
    let l := s.fab.due
    let s0 := s.modFab (fun b => { b with due := [] })
    let s1 := s.debtors.foldl (fun st v => st.debitVf l v) s0
    let s2 := s1.overheadAdd (energyOf l (fun c => decide (128 ≤ c.vf)))
    let s3 := s2.modFab (fun b =>
      { b with cols := b.cols.map (fun c => { c with residOld := c.resid, resid := [], measured := false }) })
    .next (s3.modHost (fun h => { h with debits := h.debits + 1 }))

/-! ### GRANT_UPDATE (R461, R462) -/

/-- A column's GRANT may become g: below 320, and down to 160, only while the outlet is hot; above 320 up to REQ only while the
module's budget leaves room, and without room it falls toward 320 by at most 64. -/
def Column.mayGrant (c : Column) (g : Nat) (hot room : Bool) : Bool :=
  if g < 320 then hot && decide (160 ≤ g)
  else if room then decide (g ≤ max c.req 320)
  else decide (g ≤ c.grant ∧ (320 < c.grant → g < c.grant ∧ c.grant ≤ g + 64)) || decide (g = 320 ∧ c.grant < 320)

/-- The module's budget of 2,400 W, in pJ a microsecond (R462). -/
def budget : Nat := 2400000000

/-- What the columns have measured over the last 64 microseconds leaves room within the module's budget (R25, R462; LOG 17). -/
def State.budgetRoom (s : State) : Bool :=
  let l := s.fab.cols.toList.map (·.readings)
  decide ((l.map (fun r => r.foldl (· + ·) 0)).foldl (· + ·) 0 ≤ budget * (l.map List.length).foldl max 1)

/-- GRANT_UPDATE (R462): at a microsecond boundary the power die sets the GRANT of column n; m odd: the outlet is hot; ok: the
budget's room is given to the column (LOG 17). -/
def execGrantUpdate (s : State) : Out :=
  let n := s.arg.n % 32
  let t := s.now / 1600
  let c := s.col n
  if !s.boot.powered || decide (t ≤ c.granted) then .next s
  else if c.mayGrant s.arg.value (decide (s.arg.m % 2 = 1)) (s.arg.ok && s.budgetRoom) then
    .next (s.modCol n (fun x => { x with grant := s.arg.value, granted := t }))
  else .next s

/-! ### Host writes of the quota (R400, R413, R428) -/

/-- QUOTA takes a value, a broadcast follows, and with AUTORES a partition resumes when QUOTA turns positive. -/
def State.setQuota (s : State) (v : Nat) (q : Int) : State :=
  ((s.modVf v (fun x => { x with quota := q })).broadcast v).autoResume v (s.vf v).quota

/-- QADD: QUOTA grows by a signed value in one step. -/
def State.addQuota (s : State) (v : Nat) (x : Double) : State := s.setQuota v (idbl ((s.vf v).quota + x.toInt)).toInt

/-- WARN takes a value, and a broadcast follows. -/
def State.setWarn (s : State) (v : Nat) (x : Double) : State := (s.modVf v (fun f => { f with warn := x.toInt })).broadcast v

/-! ### TIME_MESSAGE (R435) -/

/-- Parts of a time of ns and a fraction. -/
def timeParts (ns frac : Nat) : Int := (ns * 65536 + frac : Nat)

/-- A counter with the offset of a message, in parts, at a host time: an offset of 1 µs or less is slewed out by
a cycle, a millisecond on; a counter that is behind by more steps forward; one that is ahead by more slews at the full rate. -/
def TimeCtr.message (t : TimeCtr) (ns : Nat) (frac by_ : Nat) : TimeCtr :=
  let off := timeParts ns frac - timeParts t.ns.toNat t.frac.toNat
  let us : Int := 65536000
  if us < off then { ns := dbl ns, frac := BitVec.ofNat 16 frac, slew := 0, slewBy := 0, lastMsg := some ns, offsetOk := false }
  else
    let near := decide (-us ≤ off)
    { t with slew := off, slewBy := if near then by_ else 0, lastMsg := some t.ns.toNat, offsetOk := near }

/-- TIME_MESSAGE (R435): the host's time, value ns and size parts, reaches the device, whose counters both take it. -/
def execTimeMessage (s : State) : Out :=
  if !s.boot.powered then .next s
  else
    let go := fun (t : TimeCtr) => t.message (s.arg.value % 2 ^ 64) (s.arg.size % 2 ^ 16) (s.now + 1600000)
    .next { s with clk := { s.clk with time := s.clk.time.map go } }

end Sys2Proof.Machine
end

