-- ==== Sys2Proof/Machine/Intake.lean ====
section
/-!
DEFINITION. The queue interfaces and the host's reads and writes of memory: NOTIFY_WRITE, PACKET_READ, QI_CFG_WRITE,
HOST_RING_POLL, FAULT_RING_POLL and HOST_WINDOW_ACCESS, and the completion record that QDONE shares (R208 to R212, R217, R418).
-/

namespace Sys2Proof.Machine

/-! ### Fields of a queue interface (R209) -/

def Qi.enable (q : Qi) : Bool := bit q.cfg 0
def Qi.core (q : Qi) : Fin 4 := Fin.ofNat 4 (bits q.cfg 1 2)
def Qi.owner (q : Qi) : Nat := bits q.cfg 3 7
def Qi.irqen (q : Qi) : Bool := bit q.cfg 10
def Qi.ring (q : Qi) : Nat := 2 ^ clampLog (bits q.cfg 11 5) 4 12
def Qi.pasid (q : Qi) : Nat := bits q.cfg 16 20
def Qi.pvalid (q : Qi) : Bool := bit q.cfg 36

/-! ### Intake slots (R179, R211) -/

/-- Intake slots of a core. -/
def slotCount : Nat := 256

/-- Numbers of the queue interfaces. -/
def qiList : List Nat := List.range 256

/-- Free slots of a core that no granted queue interface waits to fill. -/
def State.slotsOpen (s : State) (c : Fin 4) : Nat :=
  slotCount - (s.core c).slots.length - (qiList.filter (fun q => (s.qi q).granted && decide ((s.qi q).core = c))).length

/-- The lowest free slot of a core. -/
def Core.freeSlot (k : Core) : Option Nat := (List.range slotCount).find? (fun n => (Map.find k.slots n).isNone)

/-- Of the queue interfaces of a core that have stopped, the one that stopped first. -/
def State.longestStopped (s : State) (c : Fin 4) : Option Nat :=
  let l := qiList.filterMap (fun q => if (s.qi q).core = c then (s.qi q).stopped.map (fun o => (o, q)) else none)
  (l.foldl (fun (a : Option (Nat × Nat)) p => match a with | some b => if p.1 < b.1 then some p else some b | none => some p) none).map
    (·.2)

/-- A freed slot is kept for the next packet of the queue interface that has been stopped longest (R211). -/
def State.passGrant (s : State) (c : Fin 4) : State :=
  match s.longestStopped c with
  | some q => s.modQi q (fun x => { x with stopped := none, granted := true })
  | none => s

/-- A slot kept for a queue interface that has no packet for it goes to the next one. -/
def State.dropGrant (s : State) (q : Nat) : State :=
  if (s.qi q).granted then (s.modQi q (fun x => { x with granted := false })).passGrant (s.qi q).core else s

/-! ### Completion records (R212) -/

/-- A completion record: SEQ, STATUS, QI, PHASE. -/
def cplRecord (q i status ring : Nat) : Nat := i % 2 ^ 64 * 2 ^ 64 + status % 65536 * 2 ^ 48 + q * 2 ^ 40 + i / ring % 2

/-- Page requests that have failed and whose failure an attempt took, kept for the next attempt. -/
def State.keepFailed (s t : State) : State :=
  t.modMm (fun m => { m with pageReqs := m.pageReqs ++ s.mm.pageReqs.filter (fun p => p.failed.isSome && !m.pageReqs.contains p) })

/-- Write the completion record of packet i: done, or a page is awaited for it. A record that cannot be written is counted. -/
def State.complete (s : State) (q i status : Nat) : Bool × State :=
  let x := s.qi q
  match s.unitAccess (coreDie x.core) x.owner (x.cplbase.toNat + 16 * (i % x.ring)) true (some x.pasid) (.completion q) with
  | .ok pa t => (true, t.engineWrite x.owner pa 16 (cplRecord q i status x.ring))
  | .fail _ _ t => (true, t.modQi q (fun y => { y with cplLost := y.cplLost + 1 }))
  | .wait t => (false, t)

/-- The interrupt of a completion, from the die of its core (R203, R209). -/
def State.cplIrq (s : State) (q : Nat) : State :=
  let x := s.qi q
  if x.irqen then s.sendIrq (coreDie x.core) x.irq.toNat (some x.owner) else s

/-! ### NOTIFY_WRITE (R210) -/

/-- A notify write with a count C. -/
def State.notify (s : State) (q c : Nat) : State :=
  let x := s.qi q
  let n := (c + 2 ^ 32 - x.consumed.toNat) % 2 ^ 32
  if n = 0 then s
  else if x.ring < n then s.modQi q (fun y => { y with dropped := y.dropped + 1 })
  else s.modQi q (fun y => { y with submitted := BitVec.ofNat 32 c })

/-- NOTIFY_WRITE (R210): a write of size bytes of value at offset addr of the notify window, by requester vf. -/
def execNotifyWrite (s : State) : Out :=
  let a := s.arg
  let q := a.addr / 64
  if !s.boot.windowOpen || decide (256 ≤ q) then .next s
  else if decide (a.size = 4 ∧ a.addr % 64 = 0 ∧ a.vf = (s.qi q).owner) && (s.qi q).enable then .next (s.notify q (a.value % 2 ^ 32))
  else .next (s.modQi q (fun y => { y with dropped := y.dropped + 1 }))

/-! ### PACKET_READ (R211) -/

/-- Count a packet as read; a slot kept for its queue interface goes on when it has no further packet. -/
def State.packetCounted (s : State) (q : Nat) : State :=
  let s1 := s.modQi q (fun y => { y with read := y.read + 1, consumed := y.consumed + 1 })
  if (s1.qi q).submitted = (s1.qi q).consumed then s1.dropGrant q else s1

/-- A packet is refused: its completion record, its interrupt, and the count. `s0` is the state in which the read began. -/
def State.refusePacket (s s0 : State) (q status : Nat) (count : Bool) : State :=
  let r := s.complete q (s.qi q).read status
  if !r.1 then s0.keepFailed r.2
  else
    let s1 := (r.2.cplIrq q).packetCounted q
    if count then s1.modQi q (fun y => { y with refused := y.refused + 1 }) else s1

/-- A packet goes into a slot of its core. -/
def State.accept (s : State) (q slot v : Nat) : State :=
  let x := s.qi q
  let e : IntakeSlot := { qi := q, vf := x.owner, number := x.read, gen := (s.vf x.owner).gen, popped := false }
  let s1 := s.modQi q (fun y => { y with granted := false })
  let s2 := s1.modCore x.core (fun k =>
    { k with lm := Mem.write k.lm (0xC000 + 64 * slot) 64 v, slots := Map.put k.slots slot e, pktq := k.pktq ++ [(q, slot)] })
  (s2.setEvent x.core 0).packetCounted q

/-- PACKET_READ (R211): the intake reads the next packet of queue interface n. A poisoned packet is a read that fails. -/
def execPacketRead (s : State) : Out :=
  let q := s.arg.n % 256
  let x := s.qi q
  if !x.enable || decide (x.submitted = x.consumed) || x.stopped.isSome then .next s
  else if !x.granted && decide (s.slotsOpen x.core = 0) then
    let u := s.newUid
    .next (u.2.modQi q (fun y => { y with stopped := some u.1 }))
  else
    match s.unitAccess (coreDie x.core) x.owner (x.subbase.toNat + 64 * (x.read % x.ring)) false (some x.pasid) (.packet q) with
    | .wait t => .next t
    | .fail _ _ t => .next (t.refusePacket s q 0x8002 false)
    | .ok pa t =>
        if t.poisoned pa 64 then .next (t.refusePacket s q 0x8002 false)
        else
          let g := t.serveRead (coreDie x.core) x.owner pa 64
          if !x.pvalid || decide (fld g.1 0 20 ≠ x.pasid) then .next (g.2.refusePacket s q 0x8001 true)
          else
            match (g.2.core x.core).freeSlot with
            | none => .next g.2
            | some k => .next (g.2.accept q k g.1)

/-! ### QI_CFG_WRITE (R209) -/

/-- CFG after a write: while ENABLE is 1 only ENABLE, PVALID, PASID and IRQEN change; bits [63:37] are zero. -/
def Qi.cfgAfter (q : Qi) (w : Double) : Double :=
  let v := zext64 w 37
  if q.enable then setBits (setBits (setBits (setBits q.cfg 0 1 (bits v 0 1)) 36 1 (bits v 36 1)) 16 20 (bits v 16 20)) 10 1 (bits v 10 1)
  else v

/-- A write of CFG of a queue interface; one that clears ENABLE gives up its place among the stopped ones. Packets that have been
notified and not read stay notified, and are read once ENABLE is set again (DESIGN CHOICE, LOG 60). -/
def State.cfgWrite (s : State) (q : Nat) (w : Double) : State :=
  let s1 := s.modQi q (fun x => { x with cfg := x.cfgAfter w })
  if (s1.qi q).enable then s1 else (s1.dropGrant q).modQi q (fun x => { x with stopped := none })

/-- QI_CFG_WRITE (R209): the host writes CFG of queue interface n. -/
def execQiCfgWrite (s : State) : Out :=
  .next (if s.boot.windowOpen then s.cfgWrite (s.arg.n % 256) (dbl s.arg.value) else s)

/-! ### Polls of the rings (R208, R418) -/

/-- HOST_RING_POLL (R208): at a microsecond boundary the device reads R of the host rings while it holds records. -/
def execHostRingPoll (s : State) : Out :=
  let t := s.now / 1600
  if t ≤ s.host.polled then .next s
  else
    let s1 := s.modHost (fun h => { h with polled := t })
    let s2 := s1.flushHostFaults s1.host.fqHeld.length
    .next (s2.flushPages s2.host.pgHeld.length)

/-- FAULT_RING_POLL (R418): at a microsecond boundary the hub reads R of the fault ring of function vf while it holds records. -/
def execFaultRingPoll (s : State) : Out :=
  let v := s.arg.vf % 128
  let t := s.now / 1600
  if t ≤ (s.vf v).polled then .next s
  else .next ((s.modVf v (fun f => { f with polled := t })).flushFaults v (s.vf v).heldFaults.length)

/-! ### HOST_WINDOW_ACCESS (R217) -/

/-- HOST_WINDOW_ACCESS (R217): the host reads, or writes (ok) value into, size bytes at a physical address, coherently and without
a check against the FOT. -/
def execHostWindowAccess (s : State) : Out :=
  let a := s.arg
  if !s.boot.windowOpen || decide (a.size = 0 ∨ 128 < a.size) || !s.physOk a.addr || !s.physOk (a.addr + a.size - 1) ||
      s.portWaits a.addr then .next s
  else if a.ok then .next (s.engineWrite hostId a.addr a.size a.value)
  else .next (s.homeRead hostId a.addr a.size).2

end Sys2Proof.Machine
end

