-- ==== Sys2Proof/Machine/Window.lean ====
section
/-!
DEFINITION. The register window of the physical function: what each double reads and what a write of it does, for the host and for
control cores in host mode (R208, R209, R215, R238, R244, R400 to R402, R406, R460, R461, R463, R465, R466, R468), and the steps
in which the host writes a register.
-/

namespace Sys2Proof.Machine

/-! ### Reading -/

/-- A double of a QI block (R209). -/
def Qi.double (q : Qi) (k : Nat) : Double :=
  match k with
  | 0 => q.cfg
  | 1 => q.subbase
  | 2 => q.cplbase
  | 3 => q.irq.zeroExtend 64
  | 4 => q.refused ++ q.consumed
  | 5 => q.dropped
  | 6 => q.cplLost
  | _ => 0

/-- STATUS of a function (R406). -/
def Vf.statusWord (f : Vf) : Double :=
  let st := match f.st with | .running => 0 | .saving => 1 | .saved => 2
  dbl (st * 2 ^ 62 + f.cmderr.toNat * 2 ^ 61 + f.flost.toNat * 2 ^ 32 + f.windrop.toNat)

/-- A double of a VF block (R400); one that is write-only reads 0. -/
def Vf.double (f : Vf) (k : Nat) : Double :=
  match k with
  | 0 => f.ctl
  | 1 => idbl f.quota
  | 3 => idbl f.warn
  | 4 => f.rangebase
  | 5 => f.stage1root
  | 6 => f.stage2root
  | 7 => f.faultq
  | 8 => f.sampq
  | 9 => f.savebase
  | 10 => f.savelen
  | 11 => f.spillbase
  | 12 => f.spillpages
  | 13 => f.scatbase
  | 14 => f.scatlen
  | 15 => f.shares
  | 16 => f.area
  | 17 => idbl f.charged
  | 18 => idbl f.resid
  | 19 => idbl f.shared
  | 20 => f.statusWord
  | _ => 0

/-- Enabled quads of a die (R468). -/
def State.quadsOn (s : State) (die : Nat) : Nat :=
  320 - (s.fab.quads.filter (fun q => q.2.mappedOut && decide (q.1 / 320 = die))).length

/-- DEVCAPS (R468). -/
def State.devcaps (s : State) : Double :=
  let ports := fun (d : Nat) => ((List.range 32).filter (fun p => !s.portOff d p)).length
  dbl (s.quadsOn 1 * 2 ^ 55 + s.quadsOn 0 * 2 ^ 46 + ports 1 * 2 ^ 40 + ports 0 * 2 ^ 34 + s.boot.hbmUp.toNat * 2 ^ 26 +
    (s.port 1).width % 4 * 2 ^ 18 + (s.port 0).width % 4 * 2 ^ 16)

/-- BOOTSTAT (R463). -/
def Boot.stat (b : Boot) : Double := dbl (b.err % 256 * 256 + b.phase % 16)

/-- Eight bytes of IDCERT (R460): the certificate of 171 bytes, and zeros. -/
def idcertDouble (off : Nat) : Double :=
  dbl (ofBytes ((List.range 8).map (fun k => if off + k < 171 then Config.idcert (off + k) else 0)))

/-- The double at an offset of the window that is a multiple of 8 (R208); BOOTSTAT only, when bring-up stopped in phase 4 (R464). -/
def State.windowRead (s : State) (off : Nat) : Double :=
  let h := s.host
  if s.boot.statOnly && decide (off ≠ 0x8030) then 0
  else if off < 0x4000 then (s.qi (off / 64)).double (off / 8 % 8)
  else if 0x8100 ≤ off ∧ off < 0x8200 then
    let c := s.col ((off - 0x8100) / 8)
    dbl (c.grant % 65536 * 2 ^ 32 + c.req % 1024)
  else if 0x8200 ≤ off ∧ off < 0x8220 then dbl (s.core (Fin.ofNat 4 ((off - 0x8200) / 8))).run.toNat
  else if 0x8800 ≤ off ∧ off < 0x88B0 then idcertDouble (off - 0x8800)
  else if 0x10000 ≤ off ∧ off < 0x18000 then (s.vf ((off - 0x10000) / 256)).double (off / 8 % 32)
  else if 0x40000 ≤ off ∧ off < 0x80000 then
    dbl (Mem.read (s.core (Fin.ofNat 4 ((off - 0x40000) / 0x10000))).lm (off % 0x10000) 8)
  else
    match off with
    | 0x8008 => h.fotStat
    | 0x8018 => dbl (if h.tlb.isEmpty then 0 else 1)
    | 0x8020 => h.hostfq
    | 0x8028 => s.devcaps
    | 0x8030 => s.boot.stat
    | 0x8038 => h.attreq
    | 0x8040 => h.irqdrop
    | 0x8048 => h.gendrop
    | 0x8050 => h.hostfqcfg
    | 0x8058 => h.hostflost
    | 0x8060 => h.cecount
    | 0x8068 => h.uecount
    | 0x8070 => h.overhead
    | 0x8078 => h.pgreqq
    | 0x8080 => h.pgreqcfg
    | 0x8090 => h.hostirq
    | 0x8098 => h.irqremap
    | _ => 0

/-! ### CTL, SHARES and AREA (R401, R402) -/

/-- Bits of CTL that a write changes: bit 1, bits [15:4] and GEN never, and only the live ones while ENABLE is 1. -/
def ctlMask : Double := 0xFFFF0000FFFF000D
def ctlLive : Double := 0x00000000FFFF000D

/-- CTL after a write of w. -/
def Vf.ctlAfter (f : Vf) (w : Double) : Double :=
  let m := if f.enable then ctlLive else ctlMask
  (f.ctl &&& ~~~m) ||| (w &&& m)

/-- SHARES hold values that ENABLE accepts. -/
def Vf.sharesOk (f : Vf) : Bool := decide (1 ≤ f.ondie ∧ f.ondie ≤ 64 ∧ f.hedge ≤ 4096 ∧ 1 ≤ f.spilllim)

/-- Tag-block windows of two functions overlap. -/
def Vf.meets (f g : Vf) : Bool := decide (max f.blockBase g.blockBase ≤ min f.blockLast g.blockLast)

/-- Sampler records that wait while the function has no ring any more are dropped (R431). -/
def State.sampCut (s : State) (v : Nat) : State :=
  if (s.vf v).sampq = 0 ∨ (s.vf v).sampLog = 0 then s.modVf v (fun x => { x with sampHeld := [] }) else s

/-- A write of CTL (R401): setting ENABLE broadcasts, and starts the count of the time slice (R414). -/
def State.ctlWrite (s : State) (v : Nat) (w : Double) : State :=
  let f := s.vf v
  let f1 := { f with ctl := f.ctlAfter w }
  if f1.enable && (!f.sharesOk || s.host.vfs.any (fun p => decide (p.1 ≠ v) && p.2.enable && f1.meets p.2)) then s
  else if f1.enable && !f.enable then ((s.modVf v (fun _ => { f1 with slice := 0, due := 0 })).broadcast v).sampCut v
  else (s.modVf v (fun _ => f1)).sampCut v

/-- A write of AREA (R402): the time slice is counted anew. -/
def State.areaWrite (s : State) (v : Nat) (w : Double) : State :=
  s.modVf v (fun f => { f with area := w &&& 0xFFFF03FF000003FF, slice := 0, due := 0 })

/-- An address register holds an address aligned to 2^k: its low bits read zero. -/
def alignDown (w : Double) (k : Nat) : Double := setBits w 0 k 0

/-! ### Writing -/

/-- A write of a double of a QI block (R209). -/
def State.qiWrite (s : State) (q k : Nat) (w : Double) : State :=
  match k with
  | 0 => s.cfgWrite q w
  | 1 => s.modQi q (fun x => { x with subbase := alignDown w 6 })
  | 2 => s.modQi q (fun x => { x with cplbase := alignDown w 4 })
  | 3 => s.modQi q (fun x => { x with irq := w.truncate 16 })
  | _ => s

/-- A write of FAULTQ: with 0 the records held for the ring are lost (R418). -/
def State.faultqWrite (s : State) (v : Nat) (w : Double) : State :=
  let s1 := s.modVf v (fun f => { f with faultq := alignDown w 6 })
  if alignDown w 6 = 0 then s1.flushFaults v 1 else s1

/-- A write of SAMPQ. -/
def State.sampqWrite (s : State) (v : Nat) (w : Double) : State := (s.modVf v (fun f => { f with sampq := alignDown w 6 })).sampCut v

/-- A write of a double of a VF block (R400). -/
def State.vfWrite (s : State) (v k : Nat) (w : Double) : State :=
  match k with
  | 0 => s.ctlWrite v w
  | 1 => s.setQuota v w.toInt
  | 2 => s.addQuota v w
  | 3 => s.setWarn v w
  | 4 => s.modVf v (fun f => { f with rangebase := w })
  | 5 => s.modVf v (fun f => { f with stage1root := w })
  | 6 => s.modVf v (fun f => { f with stage2root := w })
  | 7 => s.faultqWrite v w
  | 8 => s.sampqWrite v w
  | 9 => s.modVf v (fun f => { f with savebase := alignDown w 16 })
  | 10 => ((s.modVf v (fun f => { f with savelen := w })).roomFreed 0).roomFreed 1
  | 11 => s.modVf v (fun f => { f with spillbase := alignDown w 16 })
  | 12 => s.modVf v (fun f => { f with spillpages := w })
  | 13 => s.modVf v (fun f => { f with scatbase := w })
  | 14 => s.modVf v (fun f => { f with scatlen := w })
  | 15 => s.modVf v (fun f => { f with shares := w &&& 0xFFFFFFFFFF000001 })
  | 16 => s.areaWrite v w
  | 21 => s.command v (bits w 60 4) w
  | _ => s

/-- A write of COLRATE (R461): REQ outside 160 to 768 is ignored. -/
def State.colrateWrite (s : State) (n : Nat) (w : Double) : State :=
  let r := bits w 0 10
  if 160 ≤ r ∧ r ≤ 768 then s.modCol n (fun c => { c with req := r }) else s

/-- RUN of a core (R465): a held core is released in host mode at PC 0 with IE = 0; with the fourth one phase 6 is complete. A bring-up
that has stopped releases none (R464). -/
def State.runCore (s : State) (c : Fin 4) : State :=
  if (s.core c).run || (decide (s.boot.err ≠ 0) && decide (s.boot.phase < 6)) then s
  else
    let s1 := s.modCore c (fun k => { k with run := true, pc := 0, status := statusWord k.pie k.pmode false true })
    let done := nput s1.boot.released c.val
    let ph := if done.length = 4 ∧ s1.boot.phase = 5 then 6 else s1.boot.phase
    { s1 with boot := { s1.boot with released := done, phase := ph } }

/-- DOORBELL of a core (R465). -/
def State.doorbell (s : State) (c : Fin 4) : State := s.setEvent c 4

/-- A write of CORECTL (R465). -/
def State.corectlWrite (s : State) (c : Fin 4) (w : Double) : State :=
  let s1 := if bit w 1 then s.doorbell c else s
  if bit w 0 then s1.runCore c else s1

/-- A write of HOSTFQ: records held for the ring are lost when there is no ring any more (R208). -/
def State.hostfqWrite (s : State) (w : Double) : State :=
  let s1 := s.modHost (fun h => { h with hostfq := alignDown w 6 })
  if s1.host.hostfq ≠ 0 then s1
  else s1.modHost (fun h => { h with fqHeld := [], hostflost := dbl (min (h.hostflost.toNat + h.fqHeld.length) (2 ^ 64 - 1)) })

/-- A write of ATTREQ (R466): Voxit reads the nonce of 64 bytes, once the Simiow port lets it (R469: it is none until then); ignored while
a report is being built. An address without memory gives no nonce, and no report is built (LOG 25). -/
def State.attWrite (s : State) (w : Double) : State :=
  if s.host.attNonce.isSome then s
  else
    let a := setBits w 0 1 0
    let s1 := s.modHost (fun h => { h with attreq := a })
    if s.physOk a.toNat && s.physOk (a.toNat + 377) then
      if s.portWaits a.toNat then s1.modHost (fun h => { h with attNonce := some [] })
      else
        let g := s1.homeRead hostId a.toNat 64
        g.2.modHost (fun h => { h with attNonce := some (bytesOf g.1 64) })
    else s1

/-- A write of PGRESP (R208): STATUS 3 is ignored. -/
def State.pgrespWrite (s : State) (w : Double) : State :=
  match bits w 0 2 with
  | 0 => s.pageResponse w none
  | 1 => s.pageResponse w (some false)
  | 2 => s.pageResponse w (some true)
  | _ => s

/-- CECOUNT and UECOUNT after a write (R208). -/
def State.ceClear (s : State) : State := s.modHost (fun h => { h with cecount := 0 })
def State.ueClear (s : State) : State := s.modHost (fun h => { h with uecount := 0 })

/-- A write of the double at an offset of the window that is a multiple of 8 (R208); other offsets ignore it. -/
def State.windowWrite (s : State) (off : Nat) (w : Double) : State :=
  if off < 0x4000 then s.qiWrite (off / 64) (off / 8 % 8) w
  else if 0x8100 ≤ off ∧ off < 0x8200 then s.colrateWrite ((off - 0x8100) / 8) w
  else if 0x8200 ≤ off ∧ off < 0x8220 then s.corectlWrite (Fin.ofNat 4 ((off - 0x8200) / 8)) w
  else if 0x10000 ≤ off ∧ off < 0x18000 then s.vfWrite ((off - 0x10000) / 256) (off / 8 % 32) w
  else if 0x40000 ≤ off ∧ off < 0x80000 then
    s.modCore (Fin.ofNat 4 ((off - 0x40000) / 0x10000)) (fun k => { k with lm := Mem.write k.lm (off % 0x10000) 8 w.toNat })
  else
    match off with
    | 0x8000 => s.fotWrite w (bits w 62 2)
    | 0x8010 => s.tlbWrite w (bits w 62 2)
    | 0x8020 => s.hostfqWrite w
    | 0x8038 => s.attWrite w
    | 0x8050 => s.modHost (fun h => { h with hostfqcfg := zext64 w 5 })
    | 0x8060 => s.ceClear
    | 0x8068 => s.ueClear
    | 0x8078 => s.modHost (fun h => { h with pgreqq := alignDown w 6 })
    | 0x8080 => s.modHost (fun h => { h with pgreqcfg := zext64 w 5 })
    | 0x8088 => s.pgrespWrite w
    | 0x8090 => s.modHost (fun h => { h with hostirq := zext64 w 17 })
    | 0x8098 => s.modHost (fun h => { h with irqremap := w &&& 0x8007FFFFFFF00000 })
    | _ => s

/-- Read n bytes, naturally aligned and at most 8, of the window. -/
def State.windowLoad (s : State) (off n : Nat) : Nat := (s.windowRead (off / 8 * 8)).toNat / 256 ^ (off % 8) % 256 ^ n

/-- Write n bytes, naturally aligned and at most 8, of the window: the other bytes of the double keep what they read (LOG 25). -/
def State.windowStore (s : State) (off n v : Nat) : State :=
  s.windowWrite (off / 8 * 8) (setBits (s.windowRead (off / 8 * 8)) (8 * (off % 8)) (8 * n) v)

/-! ### The host's writes of registers -/

/-- A write of the host that reaches the window once it is open (R464). -/
def State.hostOut (s : State) (t : State) : Out := .next (if s.boot.windowOpen then t else s)

/-- REGISTER_WRITE (R208): the host writes 2^size bytes of value at offset addr of the window. -/
def execRegisterWrite (s : State) : Out :=
  let n := 2 ^ (s.arg.size % 4)
  s.hostOut (s.windowStore (s.arg.addr % 2 ^ 20 / n * n) n s.arg.value)

/-- CECOUNT_CLEAR (R208). -/
def execCecountClear (s : State) : Out := s.hostOut s.ceClear

/-- UECOUNT_CLEAR (R208). -/
def execUecountClear (s : State) : Out := s.hostOut s.ueClear

/-- ATTREQ (R466): the host writes a physical address. -/
def execAttreq (s : State) : Out := s.hostOut (s.attWrite (dbl s.arg.addr))

/-- RUN (R465) of core n. -/
def execRun (s : State) : Out := s.hostOut (s.runCore (Fin.ofNat 4 s.arg.n))

/-- DOORBELL (R465) of core n. -/
def execDoorbell (s : State) : Out := s.hostOut (s.doorbell (Fin.ofNat 4 s.arg.n))

/-- CTL_WRITE (R401) of function vf. -/
def execCtlWrite (s : State) : Out := s.hostOut (s.ctlWrite (s.arg.vf % 128) (dbl s.arg.value))

/-- QUOTA_WRITE (R400) of function vf. -/
def execQuotaWrite (s : State) : Out := s.hostOut (s.setQuota (s.arg.vf % 128) (dbl s.arg.value).toInt)

/-- QADD (R400) of function vf. -/
def execQadd (s : State) : Out := s.hostOut (s.addQuota (s.arg.vf % 128) (dbl s.arg.value))

/-- WARN_WRITE (R400) of function vf. -/
def execWarnWrite (s : State) : Out := s.hostOut (s.setWarn (s.arg.vf % 128) (dbl s.arg.value))

/-- AREA_WRITE (R402) of function vf. -/
def execAreaWrite (s : State) : Out := s.hostOut (s.areaWrite (s.arg.vf % 128) (dbl s.arg.value))

/-! ### ATTESTATION_REPORT (R466) -/

/-- The report of 314 bytes: the nonce, two digests, DEVCAPS and the signature over them. -/
def State.attReport (s : State) (nonce : List Byte) : List Byte :=
  let digest := fun (l : List Byte) => bytesOf (ofBytes (shake256 l)) 64
  let m := nonce ++ digest s.boot.flash ++ digest Config.microcode ++ bytesOf s.devcaps.toNat 8
  m ++ bytesOf (Config.sign m) 114

/-- ATTESTATION_REPORT (R466): Voxit writes the report behind the nonce and sets ATTREQ[0]. -/
def execAttestationReport (s : State) : Out :=
  match s.host.attNonce with
  | none => .next s
  | some nonce =>
      let a := s.host.attreq.toNat
      if s.portWaits a || s.portWaits (a + 377) then .next s
      else
      let g := if nonce.isEmpty then s.homeRead hostId a 64 else (0, s)
      let rep := s.attReport (if nonce.isEmpty then bytesOf g.1 64 else nonce)
      let s1 := g.2.engineWrite hostId (a + 64) rep.length (ofBytes rep)
      .next (s1.modHost (fun h => { h with attNonce := none, attreq := h.attreq ||| 1 }))

end Sys2Proof.Machine
end

