-- ==== Sys2Proof/Machine/Control.lean ====
section
/-!
DEFINITION. The control-core class, opcodes 0x50 to 0x5C, 0x68 and 0x69: branches and jumps, loads and stores, synchronising loads
and stores, fences and atomics (R188 to R194, R205, R206, R208, R423).
-/

namespace Sys2Proof.Machine

/-! ### Branches and jumps (R191, R192) -/

/-- The core goes to an address. -/
def State.goTo (s : State) (a : Double) : State := s.modCc (fun k => { k with pc := a })

/-- A conditional branch. -/
def State.branch (s : State) (c : Bool) (o : BitVec 14) : Out := .next (if c then s.goTo (s.cc.target o) else s.cnext)

/-- BEQ (R191). -/
def execBeq (a b : Fin 32) (o : BitVec 14) (s : State) : Out := s.branch (decide (s.g a = s.g b)) o

/-- BNE (R191). -/
def execBne (a b : Fin 32) (o : BitVec 14) (s : State) : Out := s.branch (decide (s.g a ≠ s.g b)) o

/-- BLT (R191). -/
def execBlt (a b : Fin 32) (o : BitVec 14) (s : State) : Out := s.branch (decide ((s.g a).toInt < (s.g b).toInt)) o

/-- BGE (R191). -/
def execBge (a b : Fin 32) (o : BitVec 14) (s : State) : Out := s.branch (decide ((s.g b).toInt ≤ (s.g a).toInt)) o

/-- BLTN (R191). -/
def execBltn (a b : Fin 32) (o : BitVec 14) (s : State) : Out := s.branch (decide ((s.g a).toNat < (s.g b).toNat)) o

/-- BGEN (R191). -/
def execBgen (a b : Fin 32) (o : BitVec 14) (s : State) : Out := s.branch (decide ((s.g b).toNat ≤ (s.g a).toNat)) o

/-- JMP (R192). -/
def execJmp (o : BitVec 24) (s : State) : Out := .next (s.goTo (s.cc.target o))

/-- JAL (R192). -/
def execJal (o : BitVec 24) (s : State) : Out := .next ((s.modCc (fun k => k.setReg 31 (k.pc + 4))).goTo (s.cc.target o))

/-- JR (R192). -/
def execJr (a : Fin 32) (s : State) : Out :=
  let t := s.g a
  .next (if bits t 0 2 ≠ 0 then s.coreTrap .align codeAlign t else s.goTo t)

/-! ### Reading as a core (R179, R188, R189, R423) -/

/-- Address of an access: ga and a signed offset of 12 bits. -/
def State.coreAddr (s : State) (a : Fin 32) (o : BitVec 12) : Nat := (s.g a + o.signExtend 64).toNat

/-- What a read of a core gives: a value, or a state in which the instruction has trapped or waits. -/
inductive CoreGot where
  | ok (v : Nat) (s : State)
  | out (s : State)

/-- A buffered store of the core touches a range of physical addresses. -/
def Core.buffered (k : Core) (pa n : Nat) : Bool := k.sb.any (fun t => t.overlaps pa n)

/-- A read of memory through the store buffer and the L1. It waits for an own write that an RDC copy hides; a poisoned line that
the L1 does not hold traps. -/
def State.coreMem (s : State) (va pa vf n : Nat) : CoreGot :=
  if s.coreStale s.sched.curCore pa then .out s
  else if s.poisoned pa n && (s.cc.l1Get pa n).isNone then .out (s.coreTrap .memfault codeUncorrectable (dbl va))
  else
    let g := s.l1Read vf pa n
    .ok (g.2.cc.sb.foldl (fun v t => t.overlay pa n v) g.1) g.2

/-- A read of n bytes at a naturally aligned address; it waits for the stores that a fence or a release stands behind (R189). -/
def State.coreRead (s : State) (va n : Nat) : CoreGot :=
  if va % n ≠ 0 then .out (s.coreTrap .align codeAlign (dbl va))
  else if s.cc.barred then .out s
  else
    let r := s.coreRef va 1
    match r.1 with
    | .lm a => .ok (Mem.read r.2.cc.lm a n) r.2
    | .window off => .ok (r.2.windowLoad off n) r.2
    | .mem pa vf _ => r.2.coreMem va pa vf n
    | .trap c i v => .out (r.2.coreTrap c i v)
    | .wait => .out r.2

/-- LDG (R193). -/
def execLdg (d a : Fin 32) (o : BitVec 12) (z : Size) (s : State) : Out :=
  match s.coreRead (s.coreAddr a o) (sizeBytes z) with
  | .ok v t => .next (t.put d (dbl v))
  | .out t => .next t

/-! ### Writing as a core (R179, R180, R189) -/

/-- Entries of a store buffer. -/
def sbSize : Nat := 16

/-- The address lies in the intake slots of a core in host mode. -/
def State.atSlots (s : State) (va : Nat) : Bool := s.cc.mode && decide (slotBase ≤ va ∧ va < 0x10000)

/-- A store into local memory; a fetch sees it after a fence (R189). -/
def Core.lmWrite (k : Core) (a n v : Nat) : Core :=
  { k with fetchOld := keepOld k.fetchOld a (Mem.read k.lm a n) n, lm := Mem.write k.lm a n v }

/-- STG (R193). -/
def execStg (d a : Fin 32) (o : BitVec 12) (z : Size) (s : State) : Out :=
  let va := s.coreAddr a o
  let n := sizeBytes z
  let x := (s.g d).toNat % 256 ^ n
  if va % n ≠ 0 then .next (s.coreTrap .align codeAlign (dbl va))
  else if s.atSlots va then .next (s.coreTrap .priv 0 0)
  else
    let r := s.coreRef va 2
    match r.1 with
    | .lm p => .next (r.2.modCc (fun k => k.lmWrite p n x)).cnext
    | .window off => .next (r.2.windowStore off n x).cnext
    | .mem pa vf _ =>
        if sbSize ≤ r.2.cc.sb.length then .next r.2
        else .next (r.2.bufferStore { va := va, n := n, value := x, pa := pa, vf := vf, pc := r.2.cc.pc }).cnext
    | .trap c i v => .next (r.2.coreTrap c i v)
    | .wait => .next r.2

/-! ### LDGF and STGF (R187, R190, R194) -/

/-- The core acquires accesses: they happen before what follows, and its L1 is emptied (LOG 12). -/
def State.coreAcquire (s : State) (uids : List Nat) : State :=
  s.modCc (fun k => { k with before := nunion k.before uids, l1 := [] })

/-- LDGF of a full granule: the value is read at the home, and with clear the granule becomes empty, in one step; an older copy in the
RDC of the core's die goes (R268). -/
def State.coreSync (s : State) (d : Fin 32) (pa vf : Nat) (clear : Bool) : State :=
  let c := s.sched.curCore
  let g := s.homeRead vf pa 8
  let obs := acquired (relsIn g.2.mm.rels pa 8) .device (coreDie c) (coreInst c)
  let s1 :=
    if clear then
      let rdc := g.2.rdcCopies (pa / 16 * 16) 16
      (g.2.feSet vf pa false).coreWritten c vf (pa / 16 * 16) 16 rdc (isHostMem pa) true
    else g.2.freshRdc (coreDie c).val pa
  (s1.coreAcquire obs).put d (dbl g.1)

/-- LDGF (R194): it waits until the granule is full, and for the stores that a fence or a release stands behind (R189). -/
def execLdgf (d a : Fin 32) (o : BitVec 12) (c : Bool) (s : State) : Out :=
  let va := s.coreAddr a o
  if va % 8 ≠ 0 then .next (s.coreTrap .align codeAlign (dbl va))
  else if s.cc.barred then .next s
  else
    let r := s.coreRef va 1
    match r.1 with
    | .lm _ => .next (r.2.coreTrap .fepage 0 (dbl va))
    | .window _ => .next (r.2.coreTrap .fepage 0 (dbl va))
    | .mem pa vf fe =>
        if !fe then .next (r.2.coreTrap .fepage 0 (dbl va))
        else if r.2.cc.buffered (pa / 16 * 16) 16 then .next r.2
        else if r.2.poisoned pa 8 then .next (r.2.coreTrap .memfault codeUncorrectable (dbl va))
        else if r.2.feFull pa then .next (r.2.coreSync d pa vf c)
        else .next r.2
    | .trap e i v => .next (r.2.coreTrap e i v)
    | .wait => .next r.2

/-- STGF (R194): a release at DEVICE, which leaves the store buffer after the core's earlier accesses (R190); later loads wait for the
stores before it (R189). -/
def execStgf (d a : Fin 32) (o : BitVec 12) (s : State) : Out :=
  let va := s.coreAddr a o
  if va % 8 ≠ 0 then .next (s.coreTrap .align codeAlign (dbl va))
  else
    let r := s.coreRef va 2
    match r.1 with
    | .lm _ => .next (r.2.coreTrap .fepage 0 (dbl va))
    | .window _ => .next (r.2.coreTrap .fepage 0 (dbl va))
    | .mem pa vf fe =>
        if !fe then .next (r.2.coreTrap .fepage 0 (dbl va))
        else if sbSize ≤ r.2.cc.sb.length then .next r.2
        else
          let t : Stored :=
            { va := va, n := 8, value := (r.2.g d).toNat, pa := pa, vf := vf, sync := true, before := r.2.cc.before, pc := r.2.cc.pc }
          .next (((r.2.modCc Core.bar).bufferStore t).modCc (·.l1Drop pa)).cnext
    | .trap e i v => .next (r.2.coreTrap e i v)
    | .wait => .next r.2

/-! ### GFENCE (R188 to R190, R205) -/

/-- Earlier LDGF and GAMO accesses of the core are performed at a scope. -/
def State.coreLoadsDone (s : State) (c : Fin 4) (sc : Scope) : Bool :=
  match sc with
  | .firing => true
  | _ => (s.corePending c).all (fun a => decide (a.lsid ≠ 1) || a.performedAt sc (coreDie c))

/-- A fence may complete. -/
def State.gfenceMet (s : State) (c : Fin 4) (k : FenceKind) (sc : Scope) : Bool :=
  match k with
  | .acq => s.coreLoadsDone c sc
  | .rel => s.coreDone c sc
  | .full => s.coreDone c sc

/-- The fence empties the L1: of kind acq or full, at DIE or wider, and PLOT acts as DIE. -/
def fenceDrops (k : FenceKind) (sc : Scope) : Bool :=
  (match k with | .acq => true | .full => true | .rel => false) && decide (sc ≠ .firing)

/-- GFENCE (R205): it waits for what it orders, and then fetches see every store, and later loads wait for the stores before it
(R189). -/
def execGfence (k : FenceKind) (sc : Scope) (s : State) : Out :=
  if !s.gfenceMet s.sched.curCore k sc then .next s
  else .next (s.modCc (fun c => { c.bar with fetchOld := [], l1 := if fenceDrops k sc then [] else c.l1 })).cnext

/-! ### GAMO (R206) -/

/-- The combination of an operation. -/
def GamoOp.amo (o : GamoOp) : AmoOp :=
  match o with
  | .add => .add
  | .min => .min
  | .max => .max
  | .minn => .minn
  | .maxn => .maxn
  | .and => .and
  | .or => .or
  | .xor => .xor
  | .xchg => .xchg
  | .fadd => .fadd

/-- The old value is zero-extended. -/
def GamoOp.natural (o : GamoOp) : Bool :=
  match o with
  | .minn => true
  | .maxn => true
  | .fadd => true
  | .add => false
  | .min => false
  | .max => false
  | .and => false
  | .or => false
  | .xor => false
  | .xchg => false

/-- The value that GAMO writes. -/
def gamoNew (o : GamoOp) (n old v : Nat) : Nat := (amoNew (GamoOp.amo o) n old v).getD old

/-- The value that GAMO puts. -/
def gamoOld (o : GamoOp) (n old : Nat) : Double := if GamoOp.natural o then dbl old else sext64 (dbl old) (8 * n)

/-- GAMO at the home of a line (R188, R206, R270). -/
def State.gamoMem (s : State) (pa vf n v : Nat) (r : GOrder) (o : GamoOp) : Nat × State :=
  let c := s.sched.curCore
  let g := s.homeRead vf pa n
  let rels := relsIn g.2.mm.rels pa n
  let rdc := g.2.rdcCopies pa n
  let covers := g.2.coreCovers c g.2.cc.before (rdc || isHostMem pa)
  let own := match r with | .rel => [(⟨.system, coreDie c, coreInst c, covers⟩ : Rel)] | .acq => [] | .relaxed => []
  let s1 := (g.2.serveWrite vf pa n (gamoNew o n g.1 v)).modCc (fun k =>
    { k.l1Drop pa with fetchOld := keepOld k.fetchOld (2 ^ 52 + pa) g.1 n })
  let s2 := if (rels ++ own).isEmpty then s1 else s1.modMm (fun m => { m with rels := relPut m.rels pa n (rels ++ own) })
  let s3 := s2.coreWritten c vf pa n rdc (isHostMem pa) true
  (g.1, match r with | .acq => s3.coreAcquire (acquired rels .system (coreDie c) (coreInst c)) | .rel => s3 | .relaxed => s3)

/-- GAMO where its address leads; it waits for an own buffered store to its bytes. -/
def State.gamoAt (s : State) (va n v : Nat) (r : GOrder) (o : GamoOp) : CoreGot :=
  let x := s.coreRef va 2
  match x.1 with
  | .lm a =>
      let old := Mem.read x.2.cc.lm a n
      .ok old (x.2.modCc (fun k => k.lmWrite a n (gamoNew o n old v)))
  | .window off =>
      let old := x.2.windowLoad off n
      .ok old (x.2.windowStore off n (gamoNew o n old v))
  | .mem pa vf _ =>
      if x.2.cc.buffered pa n then .out x.2
      else if x.2.poisoned pa n then .out (x.2.coreTrap .memfault codeUncorrectable (dbl va))
      else
        let g := x.2.gamoMem pa vf n v r o
        .ok g.1 g.2
  | .trap c i w => .out (x.2.coreTrap c i w)
  | .wait => .out x.2

/-- GAMO (R206); it reads behind the stores that a fence or a release stands behind (R189). -/
def execGamo (d a b : Fin 32) (w : Width) (r : GOrder) (o : GamoOp) (s : State) : Out :=
  let va := (s.g a).toNat
  let n := widthBytes w
  if va % n ≠ 0 then .next (s.coreTrap .align codeAlign (dbl va))
  else if s.atSlots va then .next (s.coreTrap .priv 0 0)
  else if s.cc.barred || (match r with | .rel => !s.coreDone s.sched.curCore .system | .acq => false | .relaxed => false) then .next s
  else
    match s.gamoAt va n ((s.g b).toNat % 256 ^ n) r o with
    | .ok old t => .next (t.put d (gamoOld o n old))
    | .out t => .next t

end Sys2Proof.Machine
end

