-- ==== Sys2Proof/Machine/CoreSys.lean ====
section
/-!
DEFINITION. The control-core class, opcodes 0x5D to 0x67: launches, injections, sinks and waits (R196 to R199, R444), system registers
(R183 to R185, R200), returns and waits (R201), packets and interrupts (R202 to R204), and the traps INTERRUPT, ILLEGAL and FETCH
(R86, R180, R186).
-/

namespace Sys2Proof.Machine

/-! ### LNCH (R195, R196) -/

/-- Fields of a parameter block (R195). -/
def parThread (p : Nat) : Nat := fld p 52 12
def parClass (p : Nat) : Nat := fld p 50 2
def parDie (p : Nat) : Nat := fld p 48 2
def parPrio (p : Nat) : Nat := fld p 32 3

/-- A reserved field is not zero, or DIE is 3. -/
def parBad (p : Nat) : Bool := decide (fld p 35 13 ≠ 0 ∨ fld p 0 32 ≠ 0 ∨ parDie p = 3)

/-- The value of a refused LNCH. -/
def lnchRefusal (code : Nat) : Double := dbl (2 ^ 63 + code)

/-- An instance handle (R196). -/
def mkHandle (seq die id : Nat) : Nat := seq % 2 ^ 16 * 2 ^ 32 + die * 2 ^ 18 + id

/-- Dies on which a launch may be placed, and that of its root record. -/
def parDies (p : Nat) : List (Fin 2) := match parDie p with | 0 => [0] | 1 => [1] | _ => [0, 1]
def parHome (p : Nat) (d : Fin 2) : Fin 2 := match parDie p with | 0 => 0 | 1 => 1 | _ => d

/-- Root records of a function that have not been released. -/
def State.rootsOf (s : State) (v : Nat) : Nat := (s.prick.roots.filter (fun r => decide (r.vf = v))).length

/-- An instance id for a launch whose handle no record bears (LOG 9). -/
def State.rootId (s : State) (seq : Nat) : Option Nat × State :=
  let clash := (s.prick.roots.filter (fun r => decide (r.handle / 2 ^ 32 = seq))).map (·.inst)
  let p := s.pick (2 ^ 18)
  (firstFree (s.usedIds ++ clash) p.1 ((s.usedIds ++ clash).length + 1), p.2)

/-- The record and the root instance of a launch. -/
def State.addRoot (s : State) (v idx p id : Nat) : State :=
  let c := s.sched.curCore
  let f := s.vf v
  let d := parHome p (coreDie c)
  let h := mkHandle f.launchSeq.toNat d.val id
  let u := s.newUid
  let i : Inst :=
    { id := id, vf := v, die := d, st := .queued, kidx := idx, kind := .root, root := h, cls := parClass p,
      prio := min (parPrio p) f.priomax, thread := parThread p, age := u.1 }
  let s1 := (u.2.addInst i).modVf v (fun x => { x with launchSeq := x.launchSeq + 1 })
  let r : Root := { handle := h, vf := v, die := d, inst := id, core := c.val, lineage := 1 }
  let s2 : State := { s1 with prick := { s1.prick with roots := s1.prick.roots ++ [r] } }
  (s2.queueLaunch id (parDies p)).sampleInst i 0x0001 idx

/-- LNCH once its parameter block has been read and its entry is found valid: a refusal, or the handle. It waits while no
instance id is free. -/
def State.launch (s : State) (d : Fin 32) (v idx p : Nat) : State :=
  if 1024 ≤ s.rootsOf v then s.put d (lnchRefusal 0xE0)
  else
    let seq := (s.vf v).launchSeq.toNat
    let q := s.rootId seq
    match q.1 with
    | none => s
    | some id => (q.2.addRoot v idx p id).put d (dbl (mkHandle seq (parHome p (coreDie s.sched.curCore)).val id))

/-- LNCH with what the engine has found of the image. One that is found bad, or that cannot be read yet, is left to the placement,
since LNCH returns at once; a knot-table entry that is not valid is refused. -/
def State.launchWith (d : Fin 32) (v idx p : Nat) (g : Got Image) : State :=
  match g with
  | .ok _ t => t.launch d v idx p
  | .wait t => t.launch d v idx p
  | .fail code _ t => if code = codeNoKnot then t.put d (lnchRefusal codeNoKnot) else t.launch d v idx p

/-- LNCH with its parameter block: at the first use of the index the entry is read, and the engine of the root record's die reads and
validates the image (R82, R185). It waits while the page of the entry is awaited. -/
def State.launchBlock (s : State) (d : Fin 32) (v idx p : Nat) : State :=
  let die := parHome p (coreDie s.sched.curCore)
  if parBad p then s.put d (lnchRefusal 0xE1)
  else if (s.vf v).knotcnt.toNat ≤ idx then s.put d (lnchRefusal codeNoKnot)
  else if (s.copy? die v idx).isSome || (s.badKnot? die v idx).isSome then State.launchWith d v idx p (s.needImage die v idx)
  else
    match s.knotEntry die v idx with
    | .wait t => t
    | .fail _ _ t => t.launch d v idx p
    | .ok e t => State.launchWith d v idx p (t.firstUse die v idx e)

/-- LNCH (R196). -/
def execLnch (d a b : Fin 32) (s : State) : Out :=
  match s.cc.curVf with
  | none => .next (s.put d (lnchRefusal 0xE2))
  | some v =>
      if !(s.vf v).enable then .next (s.put d (lnchRefusal 0xE3))
      else
        match s.coreRead (s.g b).toNat 8 with
        | .out t => .next t
        | .ok p t => .next (t.launchBlock d v (s.g a).toNat p)

/-! ### INJ (R197, R444) -/

/-- The root record of CURVF that a handle names. -/
def State.rootFor (s : State) (h : Double) : Option Root :=
  match s.cc.curVf with
  | none => none
  | some v => (s.root? h.toNat).filter (fun r => decide (r.vf = v))

/-- The live root instance of a record. -/
def State.rootInst (s : State) (r : Root) : Option Inst :=
  (s.inst? r.inst).filter (fun i => !i.st.ended && decide (i.root = r.handle ∧ i.kind = .root))

/-- INSTANCE_STALE of an INJ to the partition of CURVF; nothing while CURVF is not valid. CTX is the slot of the instance, zero where
there is none (R415); TAG is 0, since no token is sent, also for a live instance whose launch tag is known (DESIGN CHOICE, LOG 69). -/
def State.injStale (s : State) (h : Double) : State :=
  match s.cc.curVf with
  | none => s
  | some v =>
      let slot := match (s.rootFor h).bind s.rootInst with | some i => i.slot | none => 0
      s.partitionFault { code := codeStale, source := 4, vf := some v, die := coreDie s.sched.curCore, core := s.sched.curCore.val,
                         ctx := slot, inst := bits h 0 18 }

/-- The launch tag of a root instance (R196). -/
def State.launchTag (s : State) (i : Inst) : BitVec 64 := mkTag (s.vf i.vf).blockBase i.id i.slot i.thread 0

/-- The token that an INJ sends, as a release at DEVICE: it covers the core's writes to host memory that SYSTEM has yet to see (R271). -/
def State.injFlight (s : State) (i : Inst) (v : Double) : Flight :=
  { tok := ⟨0, s.launchTag i, .word v⟩, from_ := coreInst s.sched.curCore, before := some (s.coreCovers s.sched.curCore s.cc.before false) }

/-- The token on entry e of a placed image. -/
def State.injOn (s : State) (i : Inst) (e : Nat) (v : Double) : Flight :=
  { s.injFlight i v with tok := i.entryTok e (.word v) (s.launchTag i) (kindWord, false) }

/-- What becomes of an INJ token. -/
inductive InjWay where
  /-- Held in the root record: the instance is not placed, or is evicted. -/
  | hold
  /-- Into the save image: the partition is SAVING or SAVED (R408). -/
  | image
  | send
deriving DecidableEq, Repr

/-- Where an INJ token for a root instance goes (R197, R408, R444). -/
def State.injWay (s : State) (r : Root) (i : Inst) : InjWay :=
  if i.img.isNone || decide (i.st = .queued ∨ i.st = .placing) then .hold
  else if (s.vf i.vf).st ≠ .running then .image
  else if s.binding i.id || !r.held.isEmpty then .hold
  else if i.st.placed then .send
  else .hold

/-- Entries of an instance's image. -/
def Inst.nentry (i : Inst) : Nat := match i.img with | some m => m.entries.length | none => 0

/-- INJ for a root instance: it waits while 64 tokens are held. -/
def State.inject (s : State) (r : Root) (i : Inst) (e : Nat) (h v : Double) : State :=
  match s.injWay r i with
  | .hold =>
      if 64 ≤ r.held.length then s
      else
        ((s.modRoot r.handle (fun q => { q with held := q.held ++ [(e, s.injFlight i v)] })).queueRelink i.id).cnext
  | .image => if i.nentry ≤ e then (s.injStale h).cnext else (s.saveToken i.id (s.injOn i e v)).cnext
  | .send => if i.nentry ≤ e then (s.injStale h).cnext else (s.launchTok (s.injOn i e v)).cnext

/-- INJ (R197): it waits for the core's earlier accesses at DEVICE. -/
def execInj (a b : Fin 32) (e : Fin 16) (s : State) : Out :=
  let h := s.g a
  if !s.coreDone s.sched.curCore .device then .next s
  else
    match s.rootFor h with
    | none => .next (s.injStale h).cnext
    | some r =>
        match s.rootInst r with
        | none => .next (s.injStale h).cnext
        | some i => .next (s.inject r i e.val h (s.g b))

/-! ### SNKR and KNWAIT (R198, R199) -/

/-- SNKFLAG: WRITTEN and NULL. -/
def snkFlag (w n : Bool) : BitVec 2 := BitVec.ofNat 2 (w.toNat * 2 + n.toNat)

/-- SNKR (R198). -/
def execSnkr (d a : Fin 32) (k : Fin 8) (s : State) : Out :=
  let x : Sink := match s.rootFor (s.g a) with | some r => vget r.sinks k.val {} | none => {}
  .next ((s.modCc (fun c => { c with snkflag := snkFlag x.written x.null })).put d x.value)

/-- KNWAIT (R199): it waits until the root record has retired and its stores are performed at DEVICE, and it acquires them. -/
def execKnwait (d a : Fin 32) (s : State) : Out :=
  match s.rootFor (s.g a) with
  | none => .next (s.put d (dbl codeStale))
  | some r =>
      if !r.retired || !r.before.all (fun u => s.performed u .device (coreDie s.sched.curCore)) then .next s
      else .next ((s.coreAcquire r.before).put d (dbl r.status))

/-! ### System registers (R183 to R185, R200, R232) -/

/-- Registers marked H, which partition mode may not name; CURVF it may read. -/
def hostReg (r : SysReg) (write : Bool) : Bool :=
  match r with
  | .status => true
  | .epc => true
  | .cause => true
  | .eval => true
  | .hvec => true
  | .curvf => write
  | .coreno => false
  | .events => true
  | .iemask => true
  | .snkflag => false
  | .knottab => false
  | .knotcnt => false
  | .knotreg => false
  | .hfree => false
  | .cycle => false

/-- The value of a system register; one that is write-only reads 0, and so do those of CURVF while it is not valid. -/
def State.sysRead (s : State) (r : SysReg) : Double :=
  let k := s.cc
  match r with
  | .status => k.status
  | .epc => k.epc
  | .cause => k.cause
  | .eval => k.eval
  | .hvec => k.hvec
  | .curvf => k.curvf.zeroExtend 64
  | .coreno => dbl s.sched.curCore.val
  | .events => k.events.zeroExtend 64
  | .iemask => k.iemask
  | .snkflag => k.snkflag.zeroExtend 64
  | .knottab => match k.curVf with | some v => (s.vf v).knottab | none => 0
  | .knotcnt => match k.curVf with | some v => (s.vf v).knotcnt.zeroExtend 64 | none => 0
  | .knotreg => 0
  | .hfree => 0
  | .cycle => s.clk.cycle

/-- SRR (R183, R200). -/
def execSrr (d : Fin 32) (r : SysReg) (s : State) : Out :=
  .next (if !s.cc.mode && hostReg r false then s.coreTrap .priv 0 0 else s.put d (s.sysRead r))

/-- Act for the function of CURVF; nothing while it is not valid. -/
def State.forCurVf (s : State) (f : State → Nat → State) : State := match s.cc.curVf with | some v => f s v | none => s

/-- KNOTREG: the engines' validated copies of an index are discarded (R185). -/
def State.knotReg (s : State) (x : Double) : State := s.forCurVf (fun t v => t.dropCopies v x.toNat)

/-- HFREE: the root record of a handle of CURVF is released (R199). -/
def State.hFree (s : State) (x : Double) : State :=
  s.forCurVf (fun t v =>
    { t with prick := { t.prick with roots := t.prick.roots.filter (fun r => decide (r.handle ≠ x.toNat ∨ r.vf ≠ v)) } })

/-- EVENTS: a written one clears. -/
def State.clearEvents (s : State) (x : Double) : State := s.modCc (fun k => { k with events := k.events &&& ~~~(x.truncate 5) })

/-- KNOTCNT: a value above 65,536 leaves one that the spec does not give, within its range (LOG 16). -/
def State.knotCount (s : State) (v : Nat) (x : Double) : State :=
  if x.toNat ≤ 65536 then s.modVf v (fun f => { f with knotcnt := x.truncate 17 })
  else
    let p := s.pick 65537
    p.2.modVf v (fun f => { f with knotcnt := BitVec.ofNat 17 p.1 })

/-- CURVF: the function, its range entries, and a new count of SITE (R232, R440). False: a page of the range table is awaited, or
a poisoned entry has made the core take MEMFAULT (R423). -/
def State.curvfTo (s : State) (x : Double) : Bool × State :=
  let set := fun (t : State) (l : List Range) => t.modCc (fun k => { k with curvf := x.truncate 8, ranges := l, site := [] })
  if !bit x 7 then (true, set s [])
  else
    match s.rangeTable (coreDie s.sched.curCore) (bits x 0 7) with
    | .wait t => (false, t)
    | .fail _ _ t => (false, t.coreTrap .memfault codeUncorrectable (s.vf (bits x 0 7)).rangebase)
    | .ok l t => (true, set t l)

/-- A write of a system register: whether the core goes on, and the state. -/
def State.sysWrite (s : State) (r : SysReg) (x : Double) : Bool × State :=
  match r with
  | .status => (true, s.modCc (fun k => { k with status := zext64 x 4 }))
  | .epc => (true, s.modCc (fun k => { k with epc := x }))
  | .cause => (true, s.modCc (fun k => { k with cause := x &&& 0xFFFF01FF }))
  | .eval => (true, s.modCc (fun k => { k with eval := x }))
  | .hvec => (true, s.modCc (fun k => { k with hvec := setBits x 0 2 0 }))
  | .curvf => s.curvfTo x
  | .coreno => (true, s)
  | .events => (true, s.clearEvents x)
  | .iemask => (true, s.modCc (fun k => { k with iemask := x }))
  | .snkflag => (true, s.modCc (fun k => { k with snkflag := x.truncate 2 }))
  | .knottab => (true, s.forCurVf (fun t v => t.modVf v (fun f => { f with knottab := setBits x 0 4 0 })))
  | .knotcnt => (true, s.forCurVf (fun t v => t.knotCount v x))
  | .knotreg => (true, s.knotReg x)
  | .hfree => (true, s.hFree x)
  | .cycle => (true, s)

/-- SRW (R183, R200). -/
def execSrw (d : Fin 32) (r : SysReg) (s : State) : Out :=
  if !s.cc.mode && hostReg r true then .next (s.coreTrap .priv 0 0)
  else
    let t := s.sysWrite r (s.g d)
    .next (if t.1 then t.2.cnext else t.2)

/-- KNOTREG (R185): the write that SRW makes. -/
def execKnotreg (s : State) : Out := .next (s.knotReg (dbl s.arg.value))

/-- HFREE (R199): the write that SRW makes. -/
def execHfree (s : State) : Out := .next (s.hFree (dbl s.arg.value))

/-- EVENTS_CLEAR (R183): the write that SRW makes. -/
def execEventsClear (s : State) : Out := .next (s.clearEvents (dbl s.arg.value))

/-- CURVF_WRITE (R200): the write that SRW makes. -/
def execCurvfWrite (s : State) : Out := .next (s.curvfTo (dbl s.arg.value)).2

/-! ### ERET and WFE (R201) -/

/-- ERET (R201). -/
def execEret (s : State) : Out := .next (if s.cc.mode then s.modCc Core.eret else s.coreTrap .priv 0 0)

/-- WFE (R201): it waits until an enabled event is pending; an interrupt is then taken at the instruction after it. -/
def execWfe (s : State) : Out :=
  if !s.cc.mode then .next (s.coreTrap .priv 0 0)
  else if s.cc.pendingEvent.isSome then .next (s.modCc (fun k => { k with wfe := false })).cnext
  else .next (s.modCc (fun k => { k with wfe := true }))

/-! ### QPOP, QDONE and IRQ (R202 to R204) -/

/-- The packet that QPOP takes: the oldest of the core, or the oldest of a queue interface, which has to be the core's. -/
def State.popPick (s : State) (x : Double) : Option (Nat × Nat) :=
  if bit x 8 then s.cc.pktq.head?
  else if (s.qi (bits x 0 8)).core ≠ s.sched.curCore then none
  else s.cc.pktq.find? (fun p => decide (p.1 = bits x 0 8))

/-- Address of an intake slot. -/
def slotAddr (k : Nat) : Double := dbl (slotBase + 64 * k)

/-- QPOP (R202). -/
def execQpop (d a : Fin 32) (s : State) : Out :=
  if !s.cc.mode then .next (s.coreTrap .priv 0 0)
  else
    match s.popPick (s.g a) with
    | none => .next (s.put d 0)
    | some p =>
        let go := fun (k : Core) =>
          { k with pktq := k.pktq.filter (fun q => decide (q.2 ≠ p.2)),
                   slots := k.slots.map (fun q => if q.1 = p.2 then (q.1, { q.2 with popped := true }) else q) }
        .next ((s.modCc go).put d (slotAddr p.2))

/-- The popped packet in the slot at an address. -/
def Core.popped (k : Core) (a : Double) : Option (Nat × IntakeSlot) :=
  (k.slots.find? (fun p => decide (slotAddr p.1 = a))).filter (fun p => p.2.popped)

/-- Free a slot of the core; it goes to a queue interface that has stopped for want of one (R211). -/
def State.slotFreed (s : State) (n : Nat) : State :=
  (s.modCc (fun k => { k with slots := Map.drop k.slots n })).passGrant s.sched.curCore

/-- QDONE of a popped packet: freed without a record when the function that it was accepted for has been reset since; else the record, the slot, the
interrupt. It waits for the page of the record. -/
def State.finish (s : State) (n : Nat) (e : IntakeSlot) (status : Nat) : State :=
  if e.gen ≠ (s.vf e.vf).gen then (s.slotFreed n).cnext
  else
    let r := s.complete e.qi e.number status
    if r.1 then ((r.2.slotFreed n).cplIrq e.qi).cnext else r.2

/-- QDONE (R203): performed after the core's earlier accesses at SYSTEM. -/
def execQdone (a b : Fin 32) (s : State) : Out :=
  match s.cc.popped (s.g a) with
  | none => .next (s.coreTrap .qstate 0 (s.g a))
  | some p =>
      if !s.cc.mode && decide (some (s.qi p.2.qi).owner ≠ s.cc.curVf) then .next (s.coreTrap .priv 0 0)
      else if !s.coreDone s.sched.curCore .system then .next s
      else .next (s.finish p.1 p.2 (bits (s.g b) 0 15))

/-- IRQ (R204): performed after the core's earlier accesses at SYSTEM; the sender is the physical function in host mode, CURVF's
function in partition mode. -/
def execIrq (a : Fin 32) (s : State) : Out :=
  let x := s.g a
  if !s.coreDone s.sched.curCore .system then .next s
  else if bits x 16 48 ≠ 0 ∨ (s.cc.mode = false ∧ s.cc.curVf = none) then
    .next (s.modHost (fun h => { h with irqdrop := h.irqdrop + 1 })).cnext
  else .next (s.sendIrq (coreDie s.sched.curCore) (bits x 0 16) (if s.cc.mode then none else s.cc.curVf)).cnext

/-! ### Traps of the turn (R86, R180, R186) -/

/-- INTERRUPT (R186): the lowest enabled pending event. -/
def execInterrupt (s : State) : Out :=
  .next (match s.cc.pendingEvent with | some b => s.coreTrap .intr b 0 | none => s)

/-- ILLEGAL (R86): value is the word. -/
def execIllegal (s : State) : Out := .next (s.coreTrap .illegal 0 (dbl s.arg.value))

/-- FETCH (R180): m is INFO. -/
def execFetch (s : State) : Out := .next (s.coreTrap .fetch s.arg.m s.cc.pc)

end Sys2Proof.Machine
end

