-- ==== Sys2Proof/Machine/Boot.lean ====
section
/-!
DEFINITION. Bring-up: POWER_ON_RESET, FALADE_VERIFY, SUPPLY_RAISE, HBM_TRAIN, MICROCODE_VERIFY, SIMIOW_TRAIN, POWER_DIE_FAULT,
FLASH_RECOVERY, POWER_OFF and MAP_OUT_LIST_CLEAR (R460, R463 to R469).
-/

namespace Sys2Proof.Machine

/-- The machine right after reset or without power: flash with its map-out list, the host's own memory, the ports that the test left
disabled, and the model's counters stay. A clear of the list that the host has asked for takes effect (R467). -/
def State.restart (s : State) (powered : Bool) : State :=
  { State.reset with
    sched := { s.sched with agenda := [] },
    mm := { State.reset.mm with mem := s.mm.mem.filter (fun c => isHostMem c.1) },
    boot := { State.reset.boot with powered := powered, flash := s.boot.flash,
                                      mapOut := if s.boot.mapClear then [] else s.boot.mapOut, portsOff := s.boot.portsOff } }

/-- POWER_ON_RESET (R464): power-on, or a reset. -/
def execPowerOnReset (s : State) : Out := .next (s.restart true)

/-- POWER_OFF (R464): the rails fall; flash keeps what it holds. -/
def execPowerOff (s : State) : Out := .next (s.restart false)

/-- The next phase of bring-up is n: the one before it is complete, and nothing has stopped the chain. -/
def Boot.at (b : Boot) (n : Nat) : Bool := b.powered && decide (b.err = 0) && !b.recovery && decide (b.phase + 1 = n)

/-- Change the bring-up state. -/
def State.modBoot (s : State) (f : Boot → Boot) : State := { s with boot := f s.boot }

/-- FALADE_VERIFY (R464): phase 1; an image that is refused leaves the recovery mailbox only. -/
def execFaladeVerify (s : State) : Out :=
  if !s.boot.at 1 then .next s
  else if Config.ed448Ok (shake256 s.boot.flash) s.boot.flash then .next (s.modBoot (fun b => { b with phase := 1 }))
  else .next (s.modBoot (fun b => { b with err := 1, recovery := true }))

/-- SUPPLY_RAISE (R464): phase 2: every COLRATE takes its reset value. -/
def execSupplyRaise (s : State) : Out :=
  if !s.boot.at 2 then .next s
  else
    let s1 := s.modFab (fun f => { f with cols := f.cols.map (fun c => { c with req := 320, grant := 320 }) })
    .next (s1.modBoot (fun b => { b with phase := 2 }))

/-- HBM_TRAIN (R464, R469): phase 3: the stacks of the mask m train; every FOT entry is FREE, and the remap tables are loaded. -/
def execHbmTrain (s : State) : Out :=
  if !s.boot.at 3 then .next s
  else
    let s1 := (s.modMm (fun m => { m with fot := [] })).modFab (fun f =>
      { f with quads := f.quads.map (fun q => (q.1, { q.2 with retired := false })) })
    .next (s1.modBoot (fun b => { b with phase := 3, hbmUp := BitVec.ofNat 8 s.arg.m }))

/-- MICROCODE_VERIFY (R464, R467): phase 4: the field map-out list is applied and the Pricking microcode verified; one that is refused
leaves a window with BOOTSTAT only. -/
def execMicrocodeVerify (s : State) : Out :=
  if !s.boot.at 4 then .next s
  else
    let s1 := s.boot.mapOut.foldl (fun st k => st.modQuad k (fun q => { q with mappedOut := true })) s
    if Config.ed448Ok (shake256 Config.microcode) Config.microcode then .next (s1.modBoot (fun b => { b with phase := 4 }))
    else .next (s1.modBoot (fun b => { b with err := 2, statOnly := true }))

/-- SIMIOW_TRAIN (R464, R468): phase 5: port 0 trains at the width m of DEVCAPS and port 1 at n, and the register window opens. -/
def execSimiowTrain (s : State) : Out :=
  if !s.boot.at 5 then .next s
  else
    let s1 := (s.modPort 0 (fun p => { p with width := s.arg.m % 4 })).modPort 1 (fun p => { p with width := s.arg.n % 4 })
    .next (s1.modBoot (fun b => { b with phase := 5, windowOpen := true })).flushIrqs

/-- POWER_DIE_FAULT (R464): ERR is 3, and bring-up stops. -/
def execPowerDieFault (s : State) : Out :=
  .next (if s.boot.powered then s.modBoot (fun b => { b with err := 3 }) else s)

/-- FLASH_RECOVERY (R464): through the recovery mailbox the host writes size bytes of value as the image in flash. -/
def execFlashRecovery (s : State) : Out :=
  .next (if s.boot.powered && s.boot.recovery then s.modBoot (fun b => { b with flash := bytesOf s.arg.value s.arg.size }) else s)

/-- MAP_OUT_LIST_CLEAR (R467): the list in flash is empty from the next reset on. -/
def execMapOutListClear (s : State) : Out :=
  .next (if s.boot.powered then s.modBoot (fun b => { b with mapClear := true }) else s)

end Sys2Proof.Machine
end

