-- ==== Sys2Proof/Machine/Integer.lean ====
section
/-!
DEFINITION. The integer class on stations (R161 to R177): one value function for each operation, which the control-core forms
share, and the meaning of each station instruction.
-/

namespace Sys2Proof.Machine

/-- n of EXTS and EXTZ (R175). -/
def XWidth.bits : XWidth → Nat
  | .x8 => 8
  | .x16 => 16
  | .x32 => 32

/-- The shift amount of the register forms: u(b) mod W (R172). -/
def shiftOf (w : Width) (b : Double) : Nat := uOf w b % Width.bits w

/-! ### Values -/

/-- The value of ADD (R168). -/
def valAdd (w : Width) (a b : Double) : Double :=
  outS w (uOf w a + uOf w b)

/-- The value of SUB (R168). -/
def valSub (w : Width) (a b : Double) : Double :=
  outS w ((uOf w a : Int) - uOf w b)

/-- The value of NEG (R168). -/
def valNeg (w : Width) (a : Double) : Double :=
  outS w (0 - (uOf w a : Int))

/-- The value of ABS (R168). -/
def valAbs (w : Width) (a : Double) : Double :=
  outS w (sOf w a).natAbs

/-- The value of ADDS (R168). -/
def valAdds (n : Bool) (w : Width) (a b : Double) : Double :=
  if n then outN w (satN w ((uOf w a : Int) + uOf w b)) else outS w (satS w (sOf w a + sOf w b))

/-- The value of SUBS (R168). -/
def valSubs (n : Bool) (w : Width) (a b : Double) : Double :=
  if n then outN w (satN w ((uOf w a : Int) - uOf w b)) else outS w (satS w (sOf w a - sOf w b))

/-- The value of MUL (R169). -/
def valMul (w : Width) (a b : Double) : Double :=
  outS w (uOf w a * uOf w b)

/-- The value of MULH (R169). -/
def valMulh (w : Width) (a b : Double) : Double :=
  outS w ((sOf w a * sOf w b) / 2 ^ Width.bits w)

/-- The value of MULHN (R169). -/
def valMulhn (w : Width) (a b : Double) : Double :=
  outN w (uOf w a * uOf w b / 2 ^ Width.bits w)

/-- The value of DIV (R170). -/
def valDiv (w : Width) (a b : Double) : Double :=
  if sOf w b = 0 then outS w (-1)
  else if sOf w a = -(2 ^ (Width.bits w - 1)) ∧ sOf w b = -1 then outS w (sOf w a)
  else outS w ((sOf w a).tdiv (sOf w b))

/-- The value of REM (R170). -/
def valRem (w : Width) (a b : Double) : Double :=
  if sOf w b = 0 then outS w (sOf w a) else outS w (sOf w a - sOf w b * (sOf w a).tdiv (sOf w b))

/-- The value of DIVN (R170). -/
def valDivn (w : Width) (a b : Double) : Double :=
  if uOf w b = 0 then outN w (2 ^ Width.bits w - 1) else outN w (uOf w a / uOf w b)

/-- The value of REMN (R170). -/
def valRemn (w : Width) (a b : Double) : Double :=
  if uOf w b = 0 then outN w (uOf w a) else outN w (uOf w a % uOf w b)

/-- The value of AND (R171). -/
def valAnd (w : Width) (a b : Double) : Double :=
  outS w (a &&& b).toNat

/-- The value of OR (R171). -/
def valOr (w : Width) (a b : Double) : Double :=
  outS w (a ||| b).toNat

/-- The value of XOR (R171). -/
def valXor (w : Width) (a b : Double) : Double :=
  outS w (a ^^^ b).toNat

/-- The value of ANDN (R171). -/
def valAndn (w : Width) (a b : Double) : Double :=
  outS w (a &&& ~~~ b).toNat

/-- The value of SHL (R172). -/
def valShl (w : Width) (a : Double) (m : Nat) : Double :=
  outS w (uOf w a * 2 ^ m)

/-- The value of SHR (R172). -/
def valShr (w : Width) (a : Double) (m : Nat) : Double :=
  outN w (uOf w a / 2 ^ m)

/-- The value of SRA (R172). -/
def valSra (w : Width) (a : Double) (m : Nat) : Double :=
  outS w (sOf w a / 2 ^ m)

/-- The value of ROTL (R172). -/
def valRotl (w : Width) (a : Double) (m : Nat) : Double :=
  outS w (uOf w a * 2 ^ m + uOf w a / 2 ^ (Width.bits w - m))

/-- The value of CLZ (R173). -/
def valClz (w : Width) (a : Double) : Double :=
  dbl (Width.bits w - topBit (uOf w a) (Width.bits w))

/-- The value of CTZ (R173). -/
def valCtz (w : Width) (a : Double) : Double :=
  dbl (zerosBelow (uOf w a) 0 (Width.bits w))

/-- The value of POPC (R173). -/
def valPopc (w : Width) (a : Double) : Double :=
  dbl (onesIn (uOf w a) (Width.bits w))

/-- The value of MIN (R174). -/
def valMin (w : Width) (a b : Double) : Double :=
  outS w (if sOf w a ≤ sOf w b then sOf w a else sOf w b)

/-- The value of MAX (R174). -/
def valMax (w : Width) (a b : Double) : Double :=
  outS w (if sOf w a ≤ sOf w b then sOf w b else sOf w a)

/-- The value of MINN (R174). -/
def valMinn (w : Width) (a b : Double) : Double :=
  outN w (min (uOf w a) (uOf w b))

/-- The value of MAXN (R174). -/
def valMaxn (w : Width) (a b : Double) : Double :=
  outN w (max (uOf w a) (uOf w b))

/-- The value of SLT (R174). -/
def valSlt (w : Width) (a b : Double) : Double :=
  ofBool (decide (sOf w a < sOf w b))

/-- The value of SLTN (R174). -/
def valSltn (w : Width) (a b : Double) : Double :=
  ofBool (decide (uOf w a < uOf w b))

/-- The value of SEQ (R174). -/
def valSeq (w : Width) (a b : Double) : Double :=
  ofBool (decide (uOf w a = uOf w b))

/-- The value of SNE (R174). -/
def valSne (w : Width) (a b : Double) : Double :=
  ofBool (decide (uOf w a ≠ uOf w b))

/-- The value of CSEL (R174). -/
def valCsel (w : Width) (p x y : Double) : Double :=
  if uOf w p ≠ 0 then outS w (uOf w x) else outS w (uOf w y)

/-- The value of MOV (R175). -/
def valMov (w : Width) (a : Double) : Double :=
  outS w (uOf w a)

/-- The value of EXTS (R175). -/
def valExts (x : XWidth) (w : Width) (a : Double) : Double :=
  outS w (sext64 a (XWidth.bits x)).toInt

/-- The value of EXTZ (R175). -/
def valExtz (x : XWidth) (w : Width) (a : Double) : Double :=
  outN w (zext64 a (XWidth.bits x)).toNat

/-- The value of MOVK (R175). -/
def valMovk (old : Double) (lane v : Nat) : Double :=
  setBits old (16 * lane) 16 v

/-- The value of BFI (R175). -/
def valBfi (src old : Double) (p len : Nat) : Double :=
  setBits old p (min len (64 - p)) (src.toNat)

/-- The value of LEA (R176). -/
def valLea (sh : Nat) (w : Width) (a b : Double) : Double :=
  outS w (uOf w a + uOf w b * 2 ^ sh)

/-! ### Station instructions -/

/-- ADD (R168). -/
def execAdd (d : Fin 8) (a b : Sel) (w : Width) (s : State) : Out :=
  .next (s.result d [a, b] (valAdd w (s.sel a) (s.sel b)))

/-- SUB (R168). -/
def execSub (d : Fin 8) (a b : Sel) (w : Width) (s : State) : Out :=
  .next (s.result d [a, b] (valSub w (s.sel a) (s.sel b)))

/-- MUL (R169). -/
def execMul (d : Fin 8) (a b : Sel) (w : Width) (s : State) : Out :=
  .next (s.result d [a, b] (valMul w (s.sel a) (s.sel b)))

/-- MULH (R169). -/
def execMulh (d : Fin 8) (a b : Sel) (w : Width) (s : State) : Out :=
  .next (s.result d [a, b] (valMulh w (s.sel a) (s.sel b)))

/-- MULHN (R169). -/
def execMulhn (d : Fin 8) (a b : Sel) (w : Width) (s : State) : Out :=
  .next (s.result d [a, b] (valMulhn w (s.sel a) (s.sel b)))

/-- DIV (R170). -/
def execDiv (d : Fin 8) (a b : Sel) (w : Width) (s : State) : Out :=
  .next (s.result d [a, b] (valDiv w (s.sel a) (s.sel b)))

/-- DIVN (R170). -/
def execDivn (d : Fin 8) (a b : Sel) (w : Width) (s : State) : Out :=
  .next (s.result d [a, b] (valDivn w (s.sel a) (s.sel b)))

/-- REM (R170). -/
def execRem (d : Fin 8) (a b : Sel) (w : Width) (s : State) : Out :=
  .next (s.result d [a, b] (valRem w (s.sel a) (s.sel b)))

/-- REMN (R170). -/
def execRemn (d : Fin 8) (a b : Sel) (w : Width) (s : State) : Out :=
  .next (s.result d [a, b] (valRemn w (s.sel a) (s.sel b)))

/-- AND (R171). -/
def execAnd (d : Fin 8) (a b : Sel) (w : Width) (s : State) : Out :=
  .next (s.result d [a, b] (valAnd w (s.sel a) (s.sel b)))

/-- OR (R171). -/
def execOr (d : Fin 8) (a b : Sel) (w : Width) (s : State) : Out :=
  .next (s.result d [a, b] (valOr w (s.sel a) (s.sel b)))

/-- XOR (R171). -/
def execXor (d : Fin 8) (a b : Sel) (w : Width) (s : State) : Out :=
  .next (s.result d [a, b] (valXor w (s.sel a) (s.sel b)))

/-- ANDN (R171). -/
def execAndn (d : Fin 8) (a b : Sel) (w : Width) (s : State) : Out :=
  .next (s.result d [a, b] (valAndn w (s.sel a) (s.sel b)))

/-- MIN (R174). -/
def execMin (d : Fin 8) (a b : Sel) (w : Width) (s : State) : Out :=
  .next (s.result d [a, b] (valMin w (s.sel a) (s.sel b)))

/-- MINN (R174). -/
def execMinn (d : Fin 8) (a b : Sel) (w : Width) (s : State) : Out :=
  .next (s.result d [a, b] (valMinn w (s.sel a) (s.sel b)))

/-- MAX (R174). -/
def execMax (d : Fin 8) (a b : Sel) (w : Width) (s : State) : Out :=
  .next (s.result d [a, b] (valMax w (s.sel a) (s.sel b)))

/-- MAXN (R174). -/
def execMaxn (d : Fin 8) (a b : Sel) (w : Width) (s : State) : Out :=
  .next (s.result d [a, b] (valMaxn w (s.sel a) (s.sel b)))

/-- SLT (R174). -/
def execSlt (d : Fin 8) (a b : Sel) (w : Width) (s : State) : Out :=
  .next (s.result d [a, b] (valSlt w (s.sel a) (s.sel b)))

/-- SLTN (R174). -/
def execSltn (d : Fin 8) (a b : Sel) (w : Width) (s : State) : Out :=
  .next (s.result d [a, b] (valSltn w (s.sel a) (s.sel b)))

/-- SEQ (R174). -/
def execSeq (d : Fin 8) (a b : Sel) (w : Width) (s : State) : Out :=
  .next (s.result d [a, b] (valSeq w (s.sel a) (s.sel b)))

/-- SNE (R174). -/
def execSne (d : Fin 8) (a b : Sel) (w : Width) (s : State) : Out :=
  .next (s.result d [a, b] (valSne w (s.sel a) (s.sel b)))

/-- SHL (R172). -/
def execShl (d : Fin 8) (a b : Sel) (w : Width) (s : State) : Out :=
  .next (s.result d [a, b] (valShl w (s.sel a) (shiftOf w (s.sel b))))

/-- SHR (R172). -/
def execShr (d : Fin 8) (a b : Sel) (w : Width) (s : State) : Out :=
  .next (s.result d [a, b] (valShr w (s.sel a) (shiftOf w (s.sel b))))

/-- SRA (R172). -/
def execSra (d : Fin 8) (a b : Sel) (w : Width) (s : State) : Out :=
  .next (s.result d [a, b] (valSra w (s.sel a) (shiftOf w (s.sel b))))

/-- ROTL (R172). -/
def execRotl (d : Fin 8) (a b : Sel) (w : Width) (s : State) : Out :=
  .next (s.result d [a, b] (valRotl w (s.sel a) (shiftOf w (s.sel b))))

/-- SHLI (R172). -/
def execShli (d : Fin 8) (a : Sel) (w : Width) (m : Fin 64) (s : State) : Out :=
  .next (s.result d [a] (valShl w (s.sel a) m.val))

/-- SHRI (R172). -/
def execShri (d : Fin 8) (a : Sel) (w : Width) (m : Fin 64) (s : State) : Out :=
  .next (s.result d [a] (valShr w (s.sel a) m.val))

/-- SRAI (R172). -/
def execSrai (d : Fin 8) (a : Sel) (w : Width) (m : Fin 64) (s : State) : Out :=
  .next (s.result d [a] (valSra w (s.sel a) m.val))

/-- CLZ (R173). -/
def execClz (d : Fin 8) (a : Sel) (w : Width) (s : State) : Out :=
  .next (s.result d [a] (valClz w (s.sel a)))

/-- CTZ (R173). -/
def execCtz (d : Fin 8) (a : Sel) (w : Width) (s : State) : Out :=
  .next (s.result d [a] (valCtz w (s.sel a)))

/-- POPC (R173). -/
def execPopc (d : Fin 8) (a : Sel) (w : Width) (s : State) : Out :=
  .next (s.result d [a] (valPopc w (s.sel a)))

/-- MOV (R175). -/
def execMov (d : Fin 8) (a : Sel) (w : Width) (s : State) : Out :=
  .next (s.result d [a] (valMov w (s.sel a)))

/-- ABS (R168). -/
def execAbs (d : Fin 8) (a : Sel) (w : Width) (s : State) : Out :=
  .next (s.result d [a] (valAbs w (s.sel a)))

/-- NEG (R168). -/
def execNeg (d : Fin 8) (a : Sel) (w : Width) (s : State) : Out :=
  .next (s.result d [a] (valNeg w (s.sel a)))

/-- ADDS (R168). -/
def execAdds (d : Fin 8) (a b : Sel) (n : Bool) (w : Width) (s : State) : Out :=
  .next (s.result d [a, b] (valAdds n w (s.sel a) (s.sel b)))

/-- SUBS (R168). -/
def execSubs (d : Fin 8) (a b : Sel) (n : Bool) (w : Width) (s : State) : Out :=
  .next (s.result d [a, b] (valSubs n w (s.sel a) (s.sel b)))

/-- ADDI (R168). -/
def execAddi (d : Fin 8) (a : Sel) (i : BitVec 16) (s : State) : Out :=
  .next (s.result d [a] (valAdd .w64 (s.sel a) (i.signExtend 64)))

/-- ANDI (R171). -/
def execAndi (d : Fin 8) (a : Sel) (i : BitVec 16) (s : State) : Out :=
  .next (s.result d [a] (valAnd .w64 (s.sel a) (i.zeroExtend 64)))

/-- ORI (R171). -/
def execOri (d : Fin 8) (a : Sel) (i : BitVec 16) (s : State) : Out :=
  .next (s.result d [a] (valOr .w64 (s.sel a) (i.zeroExtend 64)))

/-- XORI (R171). -/
def execXori (d : Fin 8) (a : Sel) (i : BitVec 16) (s : State) : Out :=
  .next (s.result d [a] (valXor .w64 (s.sel a) (i.zeroExtend 64)))

/-- SLTI (R174). -/
def execSlti (d : Fin 8) (a : Sel) (i : BitVec 16) (s : State) : Out :=
  .next (s.result d [a] (valSlt .w64 (s.sel a) (i.signExtend 64)))

/-- CSEL (R174). -/
def execCsel (d : Fin 8) (a b c : Sel) (w : Width) (s : State) : Out :=
  .next (s.result d [a, b, c] (valCsel w (s.sel a) (s.sel b) (s.sel c)))

/-- MOVI (R175). -/
def execMovi (d : Fin 8) (i : BitVec 16) (s : State) : Out :=
  .next (s.result d [] (i.signExtend 64))

/-- MOVK (R175). -/
def execMovk (d : Fin 8) (k : Fin 4) (i : BitVec 16) (s : State) : Out :=
  .next (s.result d [] (valMovk s.fir.t[d] k.val i.toNat))

/-- EXTS (R175). -/
def execExts (d : Fin 8) (a : Sel) (x : XWidth) (w : Width) (s : State) : Out :=
  .next (s.result d [a] (valExts x w (s.sel a)))

/-- EXTZ (R175). -/
def execExtz (d : Fin 8) (a : Sel) (x : XWidth) (w : Width) (s : State) : Out :=
  .next (s.result d [a] (valExtz x w (s.sel a)))

/-- BFI (R175). -/
def execBfi (d : Fin 8) (a b c : Sel) (l : Fin 64) (s : State) : Out :=
  .next (s.result d [a, b, c] (valBfi (s.sel a) (s.sel b) (bits (s.sel c) 0 6) (l.val + 1)))

/-- LEA (R176). -/
def execLea (d : Fin 8) (a b : Sel) (h : Fin 8) (w : Width) (s : State) : Out :=
  .next (s.result d [a, b] (valLea h.val w (s.sel a) (s.sel b)))

end Sys2Proof.Machine
end

