-- ==== Sys2Proof/Machine/IntegerCore.lean ====
section
/-!
DEFINITION. The integer class on control cores (R161 to R177): the CR and CI forms.
-/

namespace Sys2Proof.Machine

/-- ADD_CR (R168). -/
def execAddCr (d a b : Fin 32) (w : Width) (s : State) : Out :=
  .next (s.put d (valAdd w (s.g a) (s.g b)))

/-- SUB_CR (R168). -/
def execSubCr (d a b : Fin 32) (w : Width) (s : State) : Out :=
  .next (s.put d (valSub w (s.g a) (s.g b)))

/-- MUL_CR (R169). -/
def execMulCr (d a b : Fin 32) (w : Width) (s : State) : Out :=
  .next (s.put d (valMul w (s.g a) (s.g b)))

/-- MULH_CR (R169). -/
def execMulhCr (d a b : Fin 32) (w : Width) (s : State) : Out :=
  .next (s.put d (valMulh w (s.g a) (s.g b)))

/-- MULHN_CR (R169). -/
def execMulhnCr (d a b : Fin 32) (w : Width) (s : State) : Out :=
  .next (s.put d (valMulhn w (s.g a) (s.g b)))

/-- DIV_CR (R170). -/
def execDivCr (d a b : Fin 32) (w : Width) (s : State) : Out :=
  .next (s.put d (valDiv w (s.g a) (s.g b)))

/-- DIVN_CR (R170). -/
def execDivnCr (d a b : Fin 32) (w : Width) (s : State) : Out :=
  .next (s.put d (valDivn w (s.g a) (s.g b)))

/-- REM_CR (R170). -/
def execRemCr (d a b : Fin 32) (w : Width) (s : State) : Out :=
  .next (s.put d (valRem w (s.g a) (s.g b)))

/-- REMN_CR (R170). -/
def execRemnCr (d a b : Fin 32) (w : Width) (s : State) : Out :=
  .next (s.put d (valRemn w (s.g a) (s.g b)))

/-- AND_CR (R171). -/
def execAndCr (d a b : Fin 32) (w : Width) (s : State) : Out :=
  .next (s.put d (valAnd w (s.g a) (s.g b)))

/-- OR_CR (R171). -/
def execOrCr (d a b : Fin 32) (w : Width) (s : State) : Out :=
  .next (s.put d (valOr w (s.g a) (s.g b)))

/-- XOR_CR (R171). -/
def execXorCr (d a b : Fin 32) (w : Width) (s : State) : Out :=
  .next (s.put d (valXor w (s.g a) (s.g b)))

/-- ANDN_CR (R171). -/
def execAndnCr (d a b : Fin 32) (w : Width) (s : State) : Out :=
  .next (s.put d (valAndn w (s.g a) (s.g b)))

/-- MIN_CR (R174). -/
def execMinCr (d a b : Fin 32) (w : Width) (s : State) : Out :=
  .next (s.put d (valMin w (s.g a) (s.g b)))

/-- MINN_CR (R174). -/
def execMinnCr (d a b : Fin 32) (w : Width) (s : State) : Out :=
  .next (s.put d (valMinn w (s.g a) (s.g b)))

/-- MAX_CR (R174). -/
def execMaxCr (d a b : Fin 32) (w : Width) (s : State) : Out :=
  .next (s.put d (valMax w (s.g a) (s.g b)))

/-- MAXN_CR (R174). -/
def execMaxnCr (d a b : Fin 32) (w : Width) (s : State) : Out :=
  .next (s.put d (valMaxn w (s.g a) (s.g b)))

/-- SLT_CR (R174). -/
def execSltCr (d a b : Fin 32) (w : Width) (s : State) : Out :=
  .next (s.put d (valSlt w (s.g a) (s.g b)))

/-- SLTN_CR (R174). -/
def execSltnCr (d a b : Fin 32) (w : Width) (s : State) : Out :=
  .next (s.put d (valSltn w (s.g a) (s.g b)))

/-- SEQ_CR (R174). -/
def execSeqCr (d a b : Fin 32) (w : Width) (s : State) : Out :=
  .next (s.put d (valSeq w (s.g a) (s.g b)))

/-- SNE_CR (R174). -/
def execSneCr (d a b : Fin 32) (w : Width) (s : State) : Out :=
  .next (s.put d (valSne w (s.g a) (s.g b)))

/-- SHL_CR (R172). -/
def execShlCr (d a b : Fin 32) (w : Width) (s : State) : Out :=
  .next (s.put d (valShl w (s.g a) (shiftOf w (s.g b))))

/-- SHR_CR (R172). -/
def execShrCr (d a b : Fin 32) (w : Width) (s : State) : Out :=
  .next (s.put d (valShr w (s.g a) (shiftOf w (s.g b))))

/-- SRA_CR (R172). -/
def execSraCr (d a b : Fin 32) (w : Width) (s : State) : Out :=
  .next (s.put d (valSra w (s.g a) (shiftOf w (s.g b))))

/-- ROTL_CR (R172). -/
def execRotlCr (d a b : Fin 32) (w : Width) (s : State) : Out :=
  .next (s.put d (valRotl w (s.g a) (shiftOf w (s.g b))))

/-- SHLI_CI (R172). -/
def execShliCi (d a : Fin 32) (w : Width) (m : Fin 64) (s : State) : Out :=
  .next (s.put d (valShl w (s.g a) m.val))

/-- SHRI_CI (R172). -/
def execShriCi (d a : Fin 32) (w : Width) (m : Fin 64) (s : State) : Out :=
  .next (s.put d (valShr w (s.g a) m.val))

/-- SRAI_CI (R172). -/
def execSraiCi (d a : Fin 32) (w : Width) (m : Fin 64) (s : State) : Out :=
  .next (s.put d (valSra w (s.g a) m.val))

/-- CLZ_CR (R173). -/
def execClzCr (d a : Fin 32) (w : Width) (s : State) : Out :=
  .next (s.put d (valClz w (s.g a)))

/-- CTZ_CR (R173). -/
def execCtzCr (d a : Fin 32) (w : Width) (s : State) : Out :=
  .next (s.put d (valCtz w (s.g a)))

/-- POPC_CR (R173). -/
def execPopcCr (d a : Fin 32) (w : Width) (s : State) : Out :=
  .next (s.put d (valPopc w (s.g a)))

/-- MOV_CR (R175). -/
def execMovCr (d a : Fin 32) (w : Width) (s : State) : Out :=
  .next (s.put d (valMov w (s.g a)))

/-- ABS_CR (R168). -/
def execAbsCr (d a : Fin 32) (w : Width) (s : State) : Out :=
  .next (s.put d (valAbs w (s.g a)))

/-- NEG_CR (R168). -/
def execNegCr (d a : Fin 32) (w : Width) (s : State) : Out :=
  .next (s.put d (valNeg w (s.g a)))

/-- ADDS_CR (R168). -/
def execAddsCr (d a b : Fin 32) (n : Bool) (w : Width) (s : State) : Out :=
  .next (s.put d (valAdds n w (s.g a) (s.g b)))

/-- SUBS_CR (R168). -/
def execSubsCr (d a b : Fin 32) (n : Bool) (w : Width) (s : State) : Out :=
  .next (s.put d (valSubs n w (s.g a) (s.g b)))

/-- ADDI_CI (R168). -/
def execAddiCi (d a : Fin 32) (i : BitVec 14) (s : State) : Out :=
  .next (s.put d (valAdd .w64 (s.g a) (i.signExtend 64)))

/-- ANDI_CI (R171). -/
def execAndiCi (d a : Fin 32) (i : BitVec 14) (s : State) : Out :=
  .next (s.put d (valAnd .w64 (s.g a) (i.zeroExtend 64)))

/-- ORI_CI (R171). -/
def execOriCi (d a : Fin 32) (i : BitVec 14) (s : State) : Out :=
  .next (s.put d (valOr .w64 (s.g a) (i.zeroExtend 64)))

/-- XORI_CI (R171). -/
def execXoriCi (d a : Fin 32) (i : BitVec 14) (s : State) : Out :=
  .next (s.put d (valXor .w64 (s.g a) (i.zeroExtend 64)))

/-- SLTI_CI (R174). -/
def execSltiCi (d a : Fin 32) (i : BitVec 14) (s : State) : Out :=
  .next (s.put d (valSlt .w64 (s.g a) (i.signExtend 64)))

/-- CSEL_CR (R174). -/
def execCselCr (d a b : Fin 32) (w : Width) (s : State) : Out :=
  .next (s.put d (valCsel w (s.g a) (s.g b) (s.g d)))

/-- MOVI_CI (R175). -/
def execMoviCi (d : Fin 32) (i : BitVec 14) (s : State) : Out :=
  .next (s.put d (i.signExtend 64))

/-- MOVK_CI (R175). -/
def execMovkCi (d : Fin 32) (k : Fin 4) (i : BitVec 14) (s : State) : Out :=
  .next (s.put d (valMovk (s.g d) k.val i.toNat))

/-- EXTS_CR (R175). -/
def execExtsCr (d a : Fin 32) (x : XWidth) (w : Width) (s : State) : Out :=
  .next (s.put d (valExts x w (s.g a)))

/-- EXTZ_CR (R175). -/
def execExtzCr (d a : Fin 32) (x : XWidth) (w : Width) (s : State) : Out :=
  .next (s.put d (valExtz x w (s.g a)))

/-- BFI_CR (R175). -/
def execBfiCr (d a b : Fin 32) (l : Fin 64) (s : State) : Out :=
  .next (s.put d (valBfi (s.g a) (s.g d) (bits (s.g b) 0 6) (l.val + 1)))

/-- LEA_CR (R176). -/
def execLeaCr (d a b : Fin 32) (h : Fin 8) (w : Width) (s : State) : Out :=
  .next (s.put d (valLea h.val w (s.g a) (s.g b)))

end Sys2Proof.Machine
end

