-- ==== Sys2Proof/Machine/ScalarFp.lean ====
section
/-!
DEFINITION. Scalar floating-point instructions: opcodes 0xC6 to 0xCD (R331, R343 to R345).
-/

namespace Sys2Proof.Machine

/-- The format of a scalar instruction (R64). -/
def fpSpec : FpFmt → FpSpec
  | .f32 => f32Spec
  | .f16 => f16Spec
  | .bf16 => bf16Spec

/-- Bits of a scalar format. -/
def fpBits : FpFmt → Nat
  | .f32 => 32
  | .f16 => 16
  | .bf16 => 16

/-- An operand of a scalar instruction: the low bits of its source (R331). -/
def fpRead (f : FpFmt) (v : Double) : Num := (fpSpec f).decode (v.toNat % 2 ^ fpBits f)

/-- A scalar result rounded once by a mode, with one draw under SR (R343). -/
def State.fpOut (s : State) (d : Fin 8) (srcs : List Sel) (f : FpFmt) (rm : Rm) (x : Num) : Out :=
  .next (((s.eat srcs).modCx (·.drawn rm 1)).wr d (dbl ((fpSpec f).arith rm (s.cx.draw 0) x))).adv

/-- FADD (R343). -/
def execFadd (d : Fin 8) (a b : Sel) (f : FpFmt) (r : Rm) (s : State) : Out :=
  s.fpOut d [a, b] f r (Num.add (decide (r = .rd)) (fpRead f (s.sel a)) (fpRead f (s.sel b)))

/-- FSUB (R343). -/
def execFsub (d : Fin 8) (a b : Sel) (f : FpFmt) (r : Rm) (s : State) : Out :=
  s.fpOut d [a, b] f r (Num.add (decide (r = .rd)) (fpRead f (s.sel a)) (fpRead f (s.sel b)).neg)

/-- FMUL (R343). -/
def execFmul (d : Fin 8) (a b : Sel) (f : FpFmt) (r : Rm) (s : State) : Out :=
  s.fpOut d [a, b] f r (Num.mul (fpRead f (s.sel a)) (fpRead f (s.sel b)))

/-- FFMA (R343). -/
def execFfma (d : Fin 8) (a b c : Sel) (f : FpFmt) (r : Rm) (s : State) : Out :=
  s.fpOut d [a, b, c] f r
    (Num.add (decide (r = .rd)) (Num.mul (fpRead f (s.sel a)) (fpRead f (s.sel b))) (fpRead f (s.sel c)))

/-- FMIN (R95, R343). -/
def execFmin (d : Fin 8) (a b : Sel) (f : FpFmt) (s : State) : Out :=
  s.fpOut d [a, b] f .rne (Num.pick false (fpRead f (s.sel a)) (fpRead f (s.sel b)))

/-- FMAX (R95, R343). -/
def execFmax (d : Fin 8) (a b : Sel) (f : FpFmt) (s : State) : Out :=
  s.fpOut d [a, b] f .rne (Num.pick true (fpRead f (s.sel a)) (fpRead f (s.sel b)))

/-- An operand of FCVT in its source format (R331, R344). -/
def cvtRead (f : CvtFmt) (v : Double) : Num :=
  match f with
  | .f32 => f32Spec.decode (v.toNat % 2 ^ 32)
  | .f16 => f16Spec.decode (v.toNat % 2 ^ 16)
  | .bf16 => bf16Spec.decode (v.toNat % 2 ^ 16)
  | .i32 => .ofInt (v.truncate 32).toInt
  | .i64 => .ofInt v.toInt
  | .n32 => .ofInt (v.toNat % 2 ^ 32 : Nat)
  | .n64 => .ofInt v.toNat

/-- A value rounded to an integer and clamped; NaN gives 0 (R344). -/
def cvtInt (rm : Rm) (r : Nat) (clamp : Int → Int) (x : Num) : Int :=
  match x with
  | .nan => 0
  | .inf n => clamp (if n then -(2 ^ 70) else 2 ^ 70)
  | .fin n m e => clamp (roundInt rm r n m e)

/-- A value in the destination format of FCVT, as it stands in a temporary (R344). -/
def cvtWrite (f : CvtFmt) (rm : Rm) (r : Nat) (x : Num) : Double :=
  match f with
  | .f32 => dbl (f32Spec.arith rm r x)
  | .f16 => dbl (f16Spec.arith rm r x)
  | .bf16 => dbl (bf16Spec.arith rm r x)
  | .i32 => idbl (cvtInt rm r (clampS · 32) x)
  | .i64 => idbl (cvtInt rm r (clampS · 64) x)
  | .n32 => idbl (cvtInt rm r (clampN · 32) x)
  | .n64 => idbl (cvtInt rm r (clampN · 64) x)

/-- FCVT (R344): source format s, destination format x. -/
def execFcvt (d : Fin 8) (a : Sel) (src x : CvtFmt) (r : Rm) (s : State) : Out :=
  let v := cvtWrite x r (s.cx.draw 0) (cvtRead src (s.sel a))
  .next (((s.eat [a]).modCx (·.drawn r 1)).wr d v).adv

/-- FCMP (R340, R345). -/
def execFcmp (d : Fin 8) (a b : Sel) (p : Pred) (f : FpFmt) (s : State) : Out :=
  .next (s.result d [a, b] (ofBool (predHolds p (fpRead f (s.sel a)) (fpRead f (s.sel b)))))

end Sys2Proof.Machine
end

