-- ==== Sys2Proof/Machine/Token.lean ====
section
/-!
DEFINITION. The token class: opcodes 0x01 to 0x13 (R146 to R160).
-/

namespace Sys2Proof.Machine

/-- NOP (R151): changes no state but the firing's place. -/
def execNop (s : State) : Out := .next s.adv

/-! ### Emits (R152) -/

/-- EMIT (R152). -/
def execEmit (a : Sel) (r : Fin 16) (s : State) : Out :=
  s.claiming [r.val] (fun s => .next ((s.eat [a]).emitTok r.val s.otag (.word (s.sel a)) none).adv)

/-- EMIT2 (R152): one read, two arcs. -/
def execEmit2 (a : Sel) (r q : Fin 16) (s : State) : Out :=
  s.claiming [r.val, q.val] (fun s =>
    let v := Payload.word (s.sel a)
    .next (((s.eat [a]).emitTok r.val s.otag v none).emitTok q.val s.otag v none).adv)

/-- EMITT (R152): the rows and shape of a tile register. -/
def execEmitt (k r : Fin 16) (s : State) : Out :=
  s.claiming [r.val] (fun s => .next (s.emitTok r.val s.otag (.tile (s.cx.tile k).carried) none).adv)

/-- EMITN (R152). -/
def execEmitn (r : Fin 16) (s : State) : Out :=
  s.claiming [r.val] (fun s => .next (s.emitTok r.val s.otag .null none).adv)

/-- EMITR (R152, R269): the token is held until every earlier access is performed at the scope; later instructions go on. -/
def execEmitr (a : Sel) (r : Fin 16) (p : Scope) (s : State) : Out :=
  s.claiming [r.val] (fun s => .next ((s.eat [a]).emitTok r.val s.otag (.word (s.sel a)) (some p)).adv)

/-- DROP (R152): the arc counts as served. -/
def execDrop (r : Fin 16) (s : State) : Out := s.claiming [r.val] (fun s => .next s.adv)

/-! ### Sinks (R153) -/

/-- SINKW (R153): a value for a sink register of the instance, over the control network. -/
def execSinkw (a : Sel) (k : Fin 8) (s : State) : Out :=
  let s1 := (s.eat [a]).modFir Firing.count1
  match s.fInst with
  | some i => .next (s1.sendSink i k.val (.word (s.sel a)) (some s.sched.curSt) 0 s.fir.id [] []).adv
  | none => .next s1.adv

/-! ### Exits (R154, R155) -/

/-- Note that an exit has executed and a token has gone on exit k. -/
def State.noteExit (s : State) (k : Nat) : State :=
  s.modFir (fun f => { f with exitDone := true, exitsSent := f.exitsSent ||| BitVec.ofNat 7 (2 ^ k) })

/-- Send a payload on exit k. -/
def State.sendExit (s : State) (k : Nat) (p : Payload) : State := (s.noteExit k).emitTok (16 + k) s.otag p none

/-- EXIT (R154); .n sends nulls on the other exits. -/
def execExit (a : Sel) (k : Fin 16) (n : Bool) (s : State) : Out :=
  if s.fir.exitDone then .next (s.trapIns codeNoExit 0)
  else
    let s1 := (s.eat [a]).sendExit k.val (.word (s.sel a))
    let others := (List.range (hdrExits s.fir.header)).filter (· ≠ k.val)
    .next (if n then others.foldl (fun st j => st.sendExit j .null) s1 else s1).adv

/-- EXITS (R155): as EXIT without .n, and a spawn request that leaves at the body's end. -/
def execExits (a : Sel) (k : Fin 16) (i : BitVec 16) (s : State) : Out :=
  if s.fir.exitDone then .next (s.trapIns codeNoExit 0)
  else
    let v := s.sel a
    let s1 := (s.eat [a]).sendExit k.val (.word v)
    .next (s1.modFir (fun f => { f with spawns := f.spawns ++ [⟨i.toNat, v, f.otag⟩] })).adv

/-! ### The outgoing tag (R156) -/

/-- The value of TGET (R156). -/
def tagRead (f : Firing) (t : TagField) : Double :=
  match t with
  | .iter => dbl (tagIter f.otag)
  | .thread => dbl (tagThread f.otag)
  | .ctx => dbl (tagCtx f.otag)
  | .inst => dbl (tagInst f.otag)
  | .block => dbl (tagBlock f.otag)
  | .tag => f.otag
  | .nulls => f.nullMask.zeroExtend 64

/-- A tag with ITER or THREAD set (R156); the other fields are never changed. -/
def tagWrite (t : BitVec 64) (f : TagField) (v : Nat) : BitVec 64 :=
  match f with
  | .iter => setBits t 0 20 v
  | .thread => setBits t 23 12 v
  | .ctx => t
  | .inst => t
  | .block => t
  | .tag => t
  | .nulls => t

/-- TGET (R156). -/
def execTget (d : Fin 8) (f : TagField) (s : State) : Out := .next (s.wr d (tagRead s.fir f)).adv

/-- TSET (R156). -/
def execTset (a : Sel) (f : TagField) (s : State) : Out :=
  .next ((s.eat [a]).modFir (fun g => { g with otag := tagWrite g.otag f (s.sel a).toNat })).adv

/-- TADD (R156). -/
def execTadd (a : Sel) (f : TagField) (s : State) : Out :=
  .next ((s.eat [a]).modFir (fun g => { g with otag := tagWrite g.otag f ((tagRead g f).toNat + (s.sel a).toNat) })).adv

/-! ### Loops (R146, R157) -/

/-- LGATE (R157): one unit of allowance, and the next ITER of the loop's sequence. -/
def execLgate (d : Fin 8) (s : State) : Out :=
  let n := (s.cx.loopBase + s.cx.admitted) % 2 ^ 20
  let s1 := s.modCx (fun c => { c with allow := c.allow - 1, admitted := c.admitted + 1 })
  let s2 := s1.modFir (fun f => { f with otag := withIter f.otag n })
  .next (s2.wr d (dbl n)).adv

/-- LFREE (R157): a credit that is sent at commit. -/
def execLfree (s : State) : Out := .next (s.modFir (fun f => { f with credits := f.credits + 1 })).adv

/-! ### STEER (R158) -/

/-- STEER (R158): the value on one arc and a null on the other. -/
def execSteer (a : Sel) (t f : Fin 16) (p : Sel) (s : State) : Out :=
  s.claiming [t.val, f.val] (fun s =>
    let v := Payload.word (s.sel a)
    let s1 := s.eat [a, p]
    if s.sel p ≠ 0 then .next ((s1.emitTok t.val s.otag v none).emitTok f.val s.otag .null none).adv
    else .next ((s1.emitTok f.val s.otag v none).emitTok t.val s.otag .null none).adv)

/-! ### Thinning (R147, R148, R159) -/

/-- The target of an arc as a thinning key: DX, DY, SPRIG and SLOT (R147). -/
def rtKey (r : BitVec 64) : Nat := bits r 33 19

/-- Thinning counters of a station that lie on the die. -/
def Station.thinOnDie (v : Station) : List (Nat × ThinCounter) :=
  ((List.range 8).map (fun c => ((v.ctx c).thin.filter (fun t => decide (t.place = 0))).map (fun t => (c, t)))).flatten

/-- The least recently used counter of a list. -/
def thinLru (l : List (Nat × ThinCounter)) : Option (Nat × ThinCounter) :=
  l.foldl (fun b p => match b with | some q => if p.2.used < q.2.used then some p else b | none => some p) none

/-- Replace a counter of a slot. -/
def Ctx.putThin (c : Ctx) (t : ThinCounter) : Ctx :=
  { c with thin := c.thin.filter (fun x => decide (x.target ≠ t.target ∨ x.thread ≠ t.thread)) ++ [t] }

/-- Write the least recently used counter out when all 64 are in use (R148). -/
def State.thinRoom (s : State) (l : Loc) : State :=
  let on := (s.st l).thinOnDie
  if on.length < 64 then s
  else
    match thinLru on with
    | none => s
    | some (c, t) =>
        let r := s.takeRows l c 1
        if r.1 then r.2.modSt l (fun v => v.modCtx c (·.putThin { t with place := 1 }))
        else
          let a := r.2.arenaTake l c ((r.2.st l).ctx c).inst 1 (hdrStage s.fir.header)
          match a.1 with
          | some recs => a.2.modSt l (fun v => v.modCtx c (·.putThin { t with place := 2, recs := recs }))
          | none => a.2

/-- The counter of a key of the firing's slot. -/
def State.thinFind (s : State) (target thread : Nat) : Option ThinCounter :=
  s.cx.thin.find? (fun t => decide (t.target = target ∧ t.thread = thread))

/-- A counter that lies in the arena is read back from there before its instruction goes on (R148, R404). -/
def State.thinRead (s : State) (target thread : Nat) (k : State → Out) : Out :=
  match (s.thinFind target thread).filter (fun t => decide (t.place = 2)) with
  | none => k s
  | some t =>
      match s.arenaRead s.sched.curSt s.fir.ctx s.fir.inst (hdrStage s.fir.header) s.fir.tag t.recs with
      | .ok u => k u
      | .wait u => .next u
      | .gone u => .next u

/-- The counter of a key, brought to the die, or created with group size g (R147, R148). -/
def State.thinGet (s : State) (target thread : Nat) (g : Option Nat) : Option ThinCounter × State :=
  let l := s.sched.curSt
  match s.thinFind target thread with
  | some t =>
      if t.place = 0 then (some t, s)
      else
        let s1 := s.thinRoom l
        let w := if t.place = 1 then Work.hedgerow else Work.hbmRead
        let s2 := (s1.charge s.fVf (colOf l) w 1).modCx (·.putThin { t with place := 0, recs := [] })
        (some { t with place := 0, recs := [] }, if t.place = 2 then s2.arenaDrop s.fir.inst else s2)
  | none =>
      match g with
      | none => (none, s)
      | some n =>
          let t : ThinCounter := { target := target, thread := thread, g := n, c := 0 }
          (some t, (s.thinRoom l).modCx (·.putThin t))

/-- Write a counter back, as the one used last. -/
def State.thinPut (s : State) (t : ThinCounter) : State :=
  let u := s.newUid
  u.2.modCx (·.putThin { t with used := u.1 })

/-- The nulls that pad a group, from ITER c on (R159). -/
def State.thinPad (s : State) (arc : Nat) : Nat → Nat → State
  | 0, _ => s
  | n + 1, c => (s.emitTok arc (withIter s.otag c) .null none).thinPad arc n ((c + 1) % 2 ^ 20)

/-- THIN (R159). -/
def execThin (a : Sel) (r : Fin 16) (p : Sel) (g : BitVec 8) (s : State) : Out :=
  let key := rtKey ((s.cx.route? s.fir.sprig r.val).getD 0)
  if s.sel p = 0 then s.claiming [r.val] (fun s => .next (s.eat [a, p]).adv)
  else
    s.claiming [r.val] (fun _ => s.thinRead key (tagThread s.otag) (fun u =>
      let s := u.claim r.val
      let t := (s.eat [a, p]).thinGet key (tagThread s.otag) (some g.toNat)
      match t.1 with
      | none => .next t.2.adv
      | some c =>
          let s2 := t.2.emitTok r.val (withIter s.otag c.c) (.word (s.sel a)) none
          .next (s2.thinPut { c with c := (c.c + 1) % 2 ^ 20 }).adv))

/-- The firing pads under a name: the nulls that bear it take one entry of the out-buffer together (R159). -/
def State.padding (s : State) (name : Nat) : State := s.modFir (fun f => { f with pad := name })

/-- The nulls that THEND has sent since the firing was f have taken one entry of its reservation (R159). -/
def State.oneEntry (s : State) (f : Firing) : State :=
  s.modFir (fun g => { g with used := min g.used (f.used + 1), reserved := max g.reserved (f.reserved - 1), pad := 0 })

/-- The nulls of a THEND, under one name. -/
def State.padGroup (s : State) (arc n c : Nat) : State :=
  let u := s.newUid
  ((u.2.padding u.1).thinPad arc n c).oneEntry s.fir

/-- THEND (R159). -/
def execThend (r : Fin 16) (s : State) : Out :=
  let key := rtKey ((s.cx.route? s.fir.sprig r.val).getD 0)
  s.claiming [r.val] (fun _ => s.thinRead key (tagThread s.otag) (fun u =>
    let s := u.claim r.val
    let t := s.thinGet key (tagThread s.otag) none
    match t.1 with
    | none => .next t.2.adv
    | some c =>
        let n := min ((c.g - c.c % c.g) % c.g) (2 ^ 20 - c.c)
        .next ((t.2.padGroup r.val n c.c).thinPut { c with c := (c.c + n) % 2 ^ 20 }).adv))

/-! ### TRAP (R160) -/

/-- TRAP (R160): a frame trap with code 0x21 and the immediate. -/
def execTrap (c : BitVec 16) (s : State) : Out := .next (s.trapIns codeTrap c.toNat)

end Sys2Proof.Machine
end

