-- ==== Sys2Proof/Machine/Dispatch.lean ====
section
/-!
DEFINITION. One arm for each constructor of Instr.
-/

namespace Sys2Proof.Machine

/-- The effect of an instruction or step. -/
def exec (i : Instr) (s : State) : Host.Outcome State Fault Refusal :=
  match i with
  | .emit src r => Sys2Proof.Machine.execEmit src r s
  | .emit2 src r q => Sys2Proof.Machine.execEmit2 src r q s
  | .emitt src r => Sys2Proof.Machine.execEmitt src r s
  | .emitn r => Sys2Proof.Machine.execEmitn r s
  | .emitr src r p => Sys2Proof.Machine.execEmitr src r p s
  | .exit src k n => Sys2Proof.Machine.execExit src k n s
  | .exits src k im => Sys2Proof.Machine.execExits src k im s
  | .tget d f => Sys2Proof.Machine.execTget d f s
  | .tset a f => Sys2Proof.Machine.execTset a f s
  | .tadd a f => Sys2Proof.Machine.execTadd a f s
  | .lgate d => Sys2Proof.Machine.execLgate d s
  | .steer src t f p => Sys2Proof.Machine.execSteer src t f p s
  | .thin src r p g => Sys2Proof.Machine.execThin src r p g s
  | .thend r => Sys2Proof.Machine.execThend r s
  | .sinkw src k => Sys2Proof.Machine.execSinkw src k s
  | .drop r => Sys2Proof.Machine.execDrop r s
  | .trap c => Sys2Proof.Machine.execTrap c s
  | .add d a b w => Sys2Proof.Machine.execAdd d a b w s
  | .sub d a b w => Sys2Proof.Machine.execSub d a b w s
  | .addi d a im => Sys2Proof.Machine.execAddi d a im s
  | .mul d a b w => Sys2Proof.Machine.execMul d a b w s
  | .mulh d a b w => Sys2Proof.Machine.execMulh d a b w s
  | .mulhn d a b w => Sys2Proof.Machine.execMulhn d a b w s
  | .div d a b w => Sys2Proof.Machine.execDiv d a b w s
  | .divn d a b w => Sys2Proof.Machine.execDivn d a b w s
  | .rem d a b w => Sys2Proof.Machine.execRem d a b w s
  | .remn d a b w => Sys2Proof.Machine.execRemn d a b w s
  | .and d a b w => Sys2Proof.Machine.execAnd d a b w s
  | .or d a b w => Sys2Proof.Machine.execOr d a b w s
  | .xor d a b w => Sys2Proof.Machine.execXor d a b w s
  | .andn d a b w => Sys2Proof.Machine.execAndn d a b w s
  | .andi d a im => Sys2Proof.Machine.execAndi d a im s
  | .ori d a im => Sys2Proof.Machine.execOri d a im s
  | .xori d a im => Sys2Proof.Machine.execXori d a im s
  | .shl d a b w => Sys2Proof.Machine.execShl d a b w s
  | .shr d a b w => Sys2Proof.Machine.execShr d a b w s
  | .sra d a b w => Sys2Proof.Machine.execSra d a b w s
  | .shli d a w m => Sys2Proof.Machine.execShli d a w m s
  | .shri d a w m => Sys2Proof.Machine.execShri d a w m s
  | .srai d a w m => Sys2Proof.Machine.execSrai d a w m s
  | .rotl d a b w => Sys2Proof.Machine.execRotl d a b w s
  | .clz d a w => Sys2Proof.Machine.execClz d a w s
  | .ctz d a w => Sys2Proof.Machine.execCtz d a w s
  | .popc d a w => Sys2Proof.Machine.execPopc d a w s
  | .min d a b w => Sys2Proof.Machine.execMin d a b w s
  | .minn d a b w => Sys2Proof.Machine.execMinn d a b w s
  | .max d a b w => Sys2Proof.Machine.execMax d a b w s
  | .maxn d a b w => Sys2Proof.Machine.execMaxn d a b w s
  | .slt d a b w => Sys2Proof.Machine.execSlt d a b w s
  | .sltn d a b w => Sys2Proof.Machine.execSltn d a b w s
  | .slti d a im => Sys2Proof.Machine.execSlti d a im s
  | .seq d a b w => Sys2Proof.Machine.execSeq d a b w s
  | .sne d a b w => Sys2Proof.Machine.execSne d a b w s
  | .csel d a b c w => Sys2Proof.Machine.execCsel d a b c w s
  | .mov d a w => Sys2Proof.Machine.execMov d a w s
  | .movi d im => Sys2Proof.Machine.execMovi d im s
  | .movk d k im => Sys2Proof.Machine.execMovk d k im s
  | .exts d a x w => Sys2Proof.Machine.execExts d a x w s
  | .extz d a x w => Sys2Proof.Machine.execExtz d a x w s
  | .bfi d a b c l => Sys2Proof.Machine.execBfi d a b c l s
  | .adds d a b n w => Sys2Proof.Machine.execAdds d a b n w s
  | .subs d a b n w => Sys2Proof.Machine.execSubs d a b n w s
  | .abs d a w => Sys2Proof.Machine.execAbs d a w s
  | .neg d a w => Sys2Proof.Machine.execNeg d a w s
  | .lea d a b src w => Sys2Proof.Machine.execLea d a b src w s
  | .addCr d a b w => Sys2Proof.Machine.execAddCr d a b w s
  | .subCr d a b w => Sys2Proof.Machine.execSubCr d a b w s
  | .addiCi d a im => Sys2Proof.Machine.execAddiCi d a im s
  | .mulCr d a b w => Sys2Proof.Machine.execMulCr d a b w s
  | .mulhCr d a b w => Sys2Proof.Machine.execMulhCr d a b w s
  | .mulhnCr d a b w => Sys2Proof.Machine.execMulhnCr d a b w s
  | .divCr d a b w => Sys2Proof.Machine.execDivCr d a b w s
  | .divnCr d a b w => Sys2Proof.Machine.execDivnCr d a b w s
  | .remCr d a b w => Sys2Proof.Machine.execRemCr d a b w s
  | .remnCr d a b w => Sys2Proof.Machine.execRemnCr d a b w s
  | .andCr d a b w => Sys2Proof.Machine.execAndCr d a b w s
  | .orCr d a b w => Sys2Proof.Machine.execOrCr d a b w s
  | .xorCr d a b w => Sys2Proof.Machine.execXorCr d a b w s
  | .andnCr d a b w => Sys2Proof.Machine.execAndnCr d a b w s
  | .andiCi d a im => Sys2Proof.Machine.execAndiCi d a im s
  | .oriCi d a im => Sys2Proof.Machine.execOriCi d a im s
  | .xoriCi d a im => Sys2Proof.Machine.execXoriCi d a im s
  | .shlCr d a b w => Sys2Proof.Machine.execShlCr d a b w s
  | .shrCr d a b w => Sys2Proof.Machine.execShrCr d a b w s
  | .sraCr d a b w => Sys2Proof.Machine.execSraCr d a b w s
  | .shliCi d a w m => Sys2Proof.Machine.execShliCi d a w m s
  | .shriCi d a w m => Sys2Proof.Machine.execShriCi d a w m s
  | .sraiCi d a w m => Sys2Proof.Machine.execSraiCi d a w m s
  | .rotlCr d a b w => Sys2Proof.Machine.execRotlCr d a b w s
  | .clzCr d a w => Sys2Proof.Machine.execClzCr d a w s
  | .ctzCr d a w => Sys2Proof.Machine.execCtzCr d a w s
  | .popcCr d a w => Sys2Proof.Machine.execPopcCr d a w s
  | .minCr d a b w => Sys2Proof.Machine.execMinCr d a b w s
  | .minnCr d a b w => Sys2Proof.Machine.execMinnCr d a b w s
  | .maxCr d a b w => Sys2Proof.Machine.execMaxCr d a b w s
  | .maxnCr d a b w => Sys2Proof.Machine.execMaxnCr d a b w s
  | .sltCr d a b w => Sys2Proof.Machine.execSltCr d a b w s
  | .sltnCr d a b w => Sys2Proof.Machine.execSltnCr d a b w s
  | .sltiCi d a im => Sys2Proof.Machine.execSltiCi d a im s
  | .seqCr d a b w => Sys2Proof.Machine.execSeqCr d a b w s
  | .sneCr d a b w => Sys2Proof.Machine.execSneCr d a b w s
  | .cselCr d a b w => Sys2Proof.Machine.execCselCr d a b w s
  | .movCr d a w => Sys2Proof.Machine.execMovCr d a w s
  | .moviCi d im => Sys2Proof.Machine.execMoviCi d im s
  | .movkCi d k im => Sys2Proof.Machine.execMovkCi d k im s
  | .extsCr d a x w => Sys2Proof.Machine.execExtsCr d a x w s
  | .extzCr d a x w => Sys2Proof.Machine.execExtzCr d a x w s
  | .bfiCr d a b l => Sys2Proof.Machine.execBfiCr d a b l s
  | .addsCr d a b n w => Sys2Proof.Machine.execAddsCr d a b n w s
  | .subsCr d a b n w => Sys2Proof.Machine.execSubsCr d a b n w s
  | .absCr d a w => Sys2Proof.Machine.execAbsCr d a w s
  | .negCr d a w => Sys2Proof.Machine.execNegCr d a w s
  | .leaCr d a b src w => Sys2Proof.Machine.execLeaCr d a b src w s
  | .beq a b o => Sys2Proof.Machine.execBeq a b o s
  | .bne a b o => Sys2Proof.Machine.execBne a b o s
  | .blt a b o => Sys2Proof.Machine.execBlt a b o s
  | .bge a b o => Sys2Proof.Machine.execBge a b o s
  | .bltn a b o => Sys2Proof.Machine.execBltn a b o s
  | .bgen a b o => Sys2Proof.Machine.execBgen a b o s
  | .jmp o => Sys2Proof.Machine.execJmp o s
  | .jal o => Sys2Proof.Machine.execJal o s
  | .jr a => Sys2Proof.Machine.execJr a s
  | .ldg d a o z => Sys2Proof.Machine.execLdg d a o z s
  | .stg d a o z => Sys2Proof.Machine.execStg d a o z s
  | .ldgf d a o c => Sys2Proof.Machine.execLdgf d a o c s
  | .stgf d a o => Sys2Proof.Machine.execStgf d a o s
  | .lnch d a b => Sys2Proof.Machine.execLnch d a b s
  | .inj a b e => Sys2Proof.Machine.execInj a b e s
  | .snkr d a k => Sys2Proof.Machine.execSnkr d a k s
  | .knwait d a => Sys2Proof.Machine.execKnwait d a s
  | .srr d r => Sys2Proof.Machine.execSrr d r s
  | .srw d r => Sys2Proof.Machine.execSrw d r s
  | .qpop d a => Sys2Proof.Machine.execQpop d a s
  | .qdone a b => Sys2Proof.Machine.execQdone a b s
  | .irq a => Sys2Proof.Machine.execIrq a s
  | .gfence k src => Sys2Proof.Machine.execGfence k src s
  | .gamo d a b w r o => Sys2Proof.Machine.execGamo d a b w r o s
  | .sdef v a b y t w z => Sys2Proof.Machine.execSdef v a b y t w z s
  | .slen v a => Sys2Proof.Machine.execSlen v a s
  | .sgo v a => Sys2Proof.Machine.execSgo v a s
  | .lds d a b im => Sys2Proof.Machine.execLds d a b im s
  | .sts v a b im => Sys2Proof.Machine.execSts v a b im s
  | .ldsp d a b im x z => Sys2Proof.Machine.execLdsp d a b im x z s
  | .stsp v a b im z => Sys2Proof.Machine.execStsp v a b im z s
  | .ldf d a b im c x z => Sys2Proof.Machine.execLdf d a b im c x z s
  | .stf v a b im z => Sys2Proof.Machine.execStf v a b im z s
  | .fec a b im m => Sys2Proof.Machine.execFec a b im m s
  | .feq d a im m => Sys2Proof.Machine.execFeq d a im m s
  | .gath v b => Sys2Proof.Machine.execGath v b s
  | .scat v a b im => Sys2Proof.Machine.execScat v a b im s
  | .scadd v a b im t => Sys2Proof.Machine.execScadd v a b im t s
  | .scflush b src => Sys2Proof.Machine.execScflush b src s
  | .copy v a b im y x => Sys2Proof.Machine.execCopy v a b im y x s
  | .cpstat d im => Sys2Proof.Machine.execCpstat d im s
  | .pref a b => Sys2Proof.Machine.execPref a b s
  | .sbar m n src => Sys2Proof.Machine.execSbar m n src s
  | .ldm d a b im x z => Sys2Proof.Machine.execLdm d a b im x z s
  | .stm v a b im z => Sys2Proof.Machine.execStm v a b im z s
  | .ldmf d a b im c x z => Sys2Proof.Machine.execLdmf d a b im c x z s
  | .stmf v a b im z => Sys2Proof.Machine.execStmf v a b im z s
  | .tld t a b im p => Sys2Proof.Machine.execTld t a b im p s
  | .tst t a b im p => Sys2Proof.Machine.execTst t a b im p s
  | .fence k src => Sys2Proof.Machine.execFence k src s
  | .barj d a src => Sys2Proof.Machine.execBarj d a src s
  | .aadd d a b im o w => Sys2Proof.Machine.execAadd d a b im o w s
  | .amin d a b im o w => Sys2Proof.Machine.execAmin d a b im o w s
  | .amax d a b im o w => Sys2Proof.Machine.execAmax d a b im o w s
  | .aminn d a b im o w => Sys2Proof.Machine.execAminn d a b im o w s
  | .amaxn d a b im o w => Sys2Proof.Machine.execAmaxn d a b im o w s
  | .aand d a b im o w => Sys2Proof.Machine.execAand d a b im o w s
  | .aor d a b im o w => Sys2Proof.Machine.execAor d a b im o w s
  | .axor d a b im o w => Sys2Proof.Machine.execAxor d a b im o w s
  | .axchg d a b im o w => Sys2Proof.Machine.execAxchg d a b im o w s
  | .acas d a b im o w => Sys2Proof.Machine.execAcas d a b im o w s
  | .afadd d a b im o => Sys2Proof.Machine.execAfadd d a b im o s
  | .call n im => Sys2Proof.Machine.execCall n im s
  | .callf n im => Sys2Proof.Machine.execCallf n im s
  | .instid d => Sys2Proof.Machine.execInstid d s
  | .areaq d h w => Sys2Proof.Machine.execAreaq d h w s
  | .knotq d im => Sys2Proof.Machine.execKnotq d im s
  | .vadd d a b r => Sys2Proof.Machine.execVadd d a b r s
  | .vsub d a b r => Sys2Proof.Machine.execVsub d a b r s
  | .vmul d a b r => Sys2Proof.Machine.execVmul d a b r s
  | .vfma d a b r => Sys2Proof.Machine.execVfma d a b r s
  | .vmin d a b => Sys2Proof.Machine.execVmin d a b s
  | .vmax d a b => Sys2Proof.Machine.execVmax d a b s
  | .vabs d a => Sys2Proof.Machine.execVabs d a s
  | .vneg d a => Sys2Proof.Machine.execVneg d a s
  | .vrcp d a r => Sys2Proof.Machine.execVrcp d a r s
  | .vrsq d a r => Sys2Proof.Machine.execVrsq d a r s
  | .vexp2 d a r => Sys2Proof.Machine.execVexp2 d a r s
  | .vlog2 d a r => Sys2Proof.Machine.execVlog2 d a r s
  | .vcvt d a b f r => Sys2Proof.Machine.execVcvt d a b f r s
  | .vscl d a b k r => Sys2Proof.Machine.execVscl d a b k r s
  | .vreds d a b => Sys2Proof.Machine.execVreds d a b s
  | .vredx d a b => Sys2Proof.Machine.execVredx d a b s
  | .vcmp d a b p => Sys2Proof.Machine.execVcmp d a b p s
  | .vsel d a b m => Sys2Proof.Machine.execVsel d a b m s
  | .vbcast d a => Sys2Proof.Machine.execVbcast d a s
  | .vext d a b c => Sys2Proof.Machine.execVext d a b c s
  | .vdot d a b r => Sys2Proof.Machine.execVdot d a b r s
  | .vshf d a b => Sys2Proof.Machine.execVshf d a b s
  | .fadd d a b f r => Sys2Proof.Machine.execFadd d a b f r s
  | .fsub d a b f r => Sys2Proof.Machine.execFsub d a b f r s
  | .fmul d a b f r => Sys2Proof.Machine.execFmul d a b f r s
  | .ffma d a b c f r => Sys2Proof.Machine.execFfma d a b c f r s
  | .fcvt d a src x r => Sys2Proof.Machine.execFcvt d a src x r s
  | .fcmp d a b p f => Sys2Proof.Machine.execFcmp d a b p f s
  | .fmin d a b f => Sys2Proof.Machine.execFmin d a b f s
  | .fmax d a b f => Sys2Proof.Machine.execFmax d a b f s
  | .vseed a => Sys2Proof.Machine.execVseed a s
  | .tcfg d a w b => Sys2Proof.Machine.execTcfg d a w b s
  | .tzero d => Sys2Proof.Machine.execTzero d s
  | .tmov d a => Sys2Proof.Machine.execTmov d a s
  | .txp d a => Sys2Proof.Machine.execTxp d a s
  | .mma a b c => Sys2Proof.Machine.execMma a b c s
  | .mmas src a b c => Sys2Proof.Machine.execMmas src a b c s
  | .accrd n src c r f => Sys2Proof.Machine.execAccrd n src c r f s
  | .accld a c => Sys2Proof.Machine.execAccld a c s
  | .wpre a => Sys2Proof.Machine.execWpre a s
  | .afeed a => Sys2Proof.Machine.execAfeed a s
  | .plstat d => Sys2Proof.Machine.execPlstat d s
  | .hfw a r f => Sys2Proof.Machine.execHfw a r f s
  | .hfr d r f => Sys2Proof.Machine.execHfr d r f s
  | .hash n a b f => Sys2Proof.Machine.execHash n a b f s
  | .tins v a b im f => Sys2Proof.Machine.execTins v a b im f s
  | .tdel v a b im f => Sys2Proof.Machine.execTdel v a b im f s
  | .tprb n a b f => Sys2Proof.Machine.execTprb n a b f s
  | .trhs v a im => Sys2Proof.Machine.execTrhs v a im s
  | .tfen a src => Sys2Proof.Machine.execTfen a src s
  | .tstat d a => Sys2Proof.Machine.execTstat d a s
  | .tovp a im p => Sys2Proof.Machine.execTovp a im p s
  | .qrd d src => Sys2Proof.Machine.execQrd d src s
  | .qarm a => Sys2Proof.Machine.execQarm a s
  | .trc a c => Sys2Proof.Machine.execTrc a c s
  | .time d f => Sys2Proof.Machine.execTime d f s
  | .emtr d c => Sys2Proof.Machine.execEmtr d c s
  | .heatq d => Sys2Proof.Machine.execHeatq d s
  | .qrdCi d src => Sys2Proof.Machine.execQrdCi d src s
  | .qarmCi a => Sys2Proof.Machine.execQarmCi a s
  | .trcCi a c => Sys2Proof.Machine.execTrcCi a c s
  | .timeCi d f => Sys2Proof.Machine.execTimeCi d f s
  | .emtrCi d c => Sys2Proof.Machine.execEmtrCi d c s
  | .heatqCi d => Sys2Proof.Machine.execHeatqCi d s
  | .nop => Sys2Proof.Machine.execNop s
  | .lfree => Sys2Proof.Machine.execLfree s
  | .eret => Sys2Proof.Machine.execEret s
  | .wfe => Sys2Proof.Machine.execWfe s
  | .stilePlot => Sys2Proof.Machine.execStilePlot s
  | .stileDie => Sys2Proof.Machine.execStileDie s
  | .stileDevice => Sys2Proof.Machine.execStileDevice s
  | .stileSystem => Sys2Proof.Machine.execStileSystem s
  | .ret => Sys2Proof.Machine.execRet s
  | .accclr0 => Sys2Proof.Machine.execAccclr0 s
  | .accclr1 => Sys2Proof.Machine.execAccclr1 s
  | .accclr2 => Sys2Proof.Machine.execAccclr2 s
  | .accclr3 => Sys2Proof.Machine.execAccclr3 s
  | .accclr4 => Sys2Proof.Machine.execAccclr4 s
  | .accclr5 => Sys2Proof.Machine.execAccclr5 s
  | .accclr6 => Sys2Proof.Machine.execAccclr6 s
  | .accclr7 => Sys2Proof.Machine.execAccclr7 s
  | .prio0 => Sys2Proof.Machine.execPrio0 s
  | .prio1 => Sys2Proof.Machine.execPrio1 s
  | .prio2 => Sys2Proof.Machine.execPrio2 s
  | .prio3 => Sys2Proof.Machine.execPrio3 s
  | .prio4 => Sys2Proof.Machine.execPrio4 s
  | .prio5 => Sys2Proof.Machine.execPrio5 s
  | .prio6 => Sys2Proof.Machine.execPrio6 s
  | .prio7 => Sys2Proof.Machine.execPrio7 s
  | .yield => Sys2Proof.Machine.execYield s
  | .tokenArrival => Sys2Proof.Machine.execTokenArrival s
  | .frameFire => Sys2Proof.Machine.execFrameFire s
  | .firingCommit => Sys2Proof.Machine.execFiringCommit s
  | .frameResume => Sys2Proof.Machine.execFrameResume s
  | .entryReturn => Sys2Proof.Machine.execEntryReturn s
  | .loopCredit => Sys2Proof.Machine.execLoopCredit s
  | .barrierJoin => Sys2Proof.Machine.execBarrierJoin s
  | .sinkWrite => Sys2Proof.Machine.execSinkWrite s
  | .callRequest => Sys2Proof.Machine.execCallRequest s
  | .spawnRequest => Sys2Proof.Machine.execSpawnRequest s
  | .placementStart => Sys2Proof.Machine.execPlacementStart s
  | .placementCommit => Sys2Proof.Machine.execPlacementCommit s
  | .commitAcknowledged => Sys2Proof.Machine.execCommitAcknowledged s
  | .placementAbort => Sys2Proof.Machine.execPlacementAbort s
  | .evictionStart => Sys2Proof.Machine.execEvictionStart s
  | .evictionComplete => Sys2Proof.Machine.execEvictionComplete s
  | .savedGranuleTest => Sys2Proof.Machine.execSavedGranuleTest s
  | .areaArbiterPass => Sys2Proof.Machine.execAreaArbiterPass s
  | .fencedToken => Sys2Proof.Machine.execFencedToken s
  | .sweepArrival => Sys2Proof.Machine.execSweepArrival s
  | .strandElementIssue => Sys2Proof.Machine.execStrandElementIssue s
  | .memoryRequest => Sys2Proof.Machine.execMemoryRequest s
  | .walkReadComplete => Sys2Proof.Machine.execWalkReadComplete s
  | .accessReturn => Sys2Proof.Machine.execAccessReturn s
  | .rdcInvalidation => Sys2Proof.Machine.execRdcInvalidation s
  | .binApply => Sys2Proof.Machine.execBinApply s
  | .copyGranule => Sys2Proof.Machine.execCopyGranule s
  | .heatBucketCycle => Sys2Proof.Machine.execHeatBucketCycle s
  | .matrixEntryStart => Sys2Proof.Machine.execMatrixEntryStart s
  | .matrixEntryEnd => Sys2Proof.Machine.execMatrixEntryEnd s
  | .partialArrival => Sys2Proof.Machine.execPartialArrival s
  | .thicketProbe => Sys2Proof.Machine.execThicketProbe s
  | .thicketUpdate => Sys2Proof.Machine.execThicketUpdate s
  | .interrupt => Sys2Proof.Machine.execInterrupt s
  | .notifyWrite => Sys2Proof.Machine.execNotifyWrite s
  | .packetRead => Sys2Proof.Machine.execPacketRead s
  | .hostRingPoll => Sys2Proof.Machine.execHostRingPoll s
  | .faultRingPoll => Sys2Proof.Machine.execFaultRingPoll s
  | .flitCrcFail => Sys2Proof.Machine.execFlitCrcFail s
  | .timeMessage => Sys2Proof.Machine.execTimeMessage s
  | .columnMeasurement => Sys2Proof.Machine.execColumnMeasurement s
  | .energyDebit => Sys2Proof.Machine.execEnergyDebit s
  | .grantUpdate => Sys2Proof.Machine.execGrantUpdate s
  | .sliceTick => Sys2Proof.Machine.execSliceTick s
  | .markerInjection => Sys2Proof.Machine.execMarkerInjection s
  | .stationSave => Sys2Proof.Machine.execStationSave s
  | .hedgerowDrainComplete => Sys2Proof.Machine.execHedgerowDrainComplete s
  | .partitionSaveComplete => Sys2Proof.Machine.execPartitionSaveComplete s
  | .correctedError => Sys2Proof.Machine.execCorrectedError s
  | .sramUncorrectable => Sys2Proof.Machine.execSramUncorrectable s
  | .tagUncorrectable => Sys2Proof.Machine.execTagUncorrectable s
  | .hbmPoison => Sys2Proof.Machine.execHbmPoison s
  | .remapTableLoss => Sys2Proof.Machine.execRemapTableLoss s
  | .powerOnReset => Sys2Proof.Machine.execPowerOnReset s
  | .faladeVerify => Sys2Proof.Machine.execFaladeVerify s
  | .supplyRaise => Sys2Proof.Machine.execSupplyRaise s
  | .hbmTrain => Sys2Proof.Machine.execHbmTrain s
  | .microcodeVerify => Sys2Proof.Machine.execMicrocodeVerify s
  | .simiowTrain => Sys2Proof.Machine.execSimiowTrain s
  | .powerDieFault => Sys2Proof.Machine.execPowerDieFault s
  | .flashRecovery => Sys2Proof.Machine.execFlashRecovery s
  | .registerWrite => Sys2Proof.Machine.execRegisterWrite s
  | .scrub => Sys2Proof.Machine.execScrub s
  | .assign => Sys2Proof.Machine.execAssign s
  | .release => Sys2Proof.Machine.execRelease s
  | .fotFrameComplete => Sys2Proof.Machine.execFotFrameComplete s
  | .tlbinvAll => Sys2Proof.Machine.execTlbinvAll s
  | .tlbinvStage1 => Sys2Proof.Machine.execTlbinvStage1 s
  | .tlbinvStage2 => Sys2Proof.Machine.execTlbinvStage2 s
  | .tlbinvComplete => Sys2Proof.Machine.execTlbinvComplete s
  | .pageResponseResolved => Sys2Proof.Machine.execPageResponseResolved s
  | .pageResponseFailedHost => Sys2Proof.Machine.execPageResponseFailedHost s
  | .pageResponseFailedTenant => Sys2Proof.Machine.execPageResponseFailedTenant s
  | .qiCfgWrite => Sys2Proof.Machine.execQiCfgWrite s
  | .cecountClear => Sys2Proof.Machine.execCecountClear s
  | .uecountClear => Sys2Proof.Machine.execUecountClear s
  | .attreq => Sys2Proof.Machine.execAttreq s
  | .attestationReport => Sys2Proof.Machine.execAttestationReport s
  | .run => Sys2Proof.Machine.execRun s
  | .doorbell => Sys2Proof.Machine.execDoorbell s
  | .ctlWrite => Sys2Proof.Machine.execCtlWrite s
  | .quotaWrite => Sys2Proof.Machine.execQuotaWrite s
  | .qadd => Sys2Proof.Machine.execQadd s
  | .warnWrite => Sys2Proof.Machine.execWarnWrite s
  | .areaWrite => Sys2Proof.Machine.execAreaWrite s
  | .save => Sys2Proof.Machine.execSave s
  | .resume => Sys2Proof.Machine.execResume s
  | .killall => Sys2Proof.Machine.execKillall s
  | .reset => Sys2Proof.Machine.execReset s
  | .killinst => Sys2Proof.Machine.execKillinst s
  | .resumeinst => Sys2Proof.Machine.execResumeinst s
  | .resumeFault => Sys2Proof.Machine.execResumeFault s
  | .discardFault => Sys2Proof.Machine.execDiscardFault s
  | .knotreg => Sys2Proof.Machine.execKnotreg s
  | .hfree => Sys2Proof.Machine.execHfree s
  | .eventsClear => Sys2Proof.Machine.execEventsClear s
  | .curvfWrite => Sys2Proof.Machine.execCurvfWrite s
  | .illegal => Sys2Proof.Machine.execIllegal s
  | .fetch => Sys2Proof.Machine.execFetch s
  | .portRetrain => Sys2Proof.Machine.execPortRetrain s
  | .hostWindowAccess => Sys2Proof.Machine.execHostWindowAccess s
  | .powerOff => Sys2Proof.Machine.execPowerOff s
  | .mapOutListClear => Sys2Proof.Machine.execMapOutListClear s

end Sys2Proof.Machine
end

