-- ==== Sys2Proof/Machine/Step.lean ====
section
/-!
DEFINITION. One step of the device: the next turn, and the instruction or step that it issues.
-/

namespace Sys2Proof.Machine

/-- One step. -/
def step (s : State) : Host.Outcome State Fault Refusal :=
  let t := s.nextTurn
  match t.1 with
  | .clock => .next t.2.clockTick
  | .core c =>
      let r := t.2.coreIssue c
      match r.1 with
      | none => .next r.2
      | some i => exec i r.2
  | .station l =>
      match t.2.stationIssue l with
      | .idle => .next t.2
      | .bodyEnd => .next (t.2.atStation l).bodyEnd
      | .bad w => .refused (.undecodable w)
      | .issue i => exec i (t.2.atStation l)
  | .event i a => if isEvent i then exec i (t.2.withArg a) else .next t.2

/-- The state with an instruction of the opcode table stored where the next step fetches it: on the engine that accepts the
word, and on control core 0 when none does (LOG 2, LOG 8). -/
def State.withFetchWord (s : State) (nbits w : Nat) : State :=
  let v : Word := BitVec.ofNat 32 (w % 2 ^ nbits)
  match engineOf v with
  | some (.station k, _) => s.placeStation k v
  | some (.core, _) => s.placeCore v
  | none => s.placeCore v

end Sys2Proof.Machine
end

