-- ==== Sys2Proof/Safety.lean ====
section
/-!
DEFINITION. What counts as a safe state of this machine, and the terms in which statements speak of a step: that it completes,
and what it leaves as it was.
-/

namespace Sys2Proof.Machine

/-- The byte memories that a state holds keep their canonical form: the physical space, every core's local memory and every
station's scratchpad. -/
def State.memWf (s : State) : Prop :=
  Memory.wf s.mm.mem = true ∧ (∀ c : Fin 4, Memory.wf (s.core c).lm = true) ∧
    (∀ p ∈ s.fab.stations, Memory.wf p.2.sp = true)

/-- A step that goes on. -/
def StepsTo (s t : State) : Prop := step s = .next t

/-- The instruction or step completes: it answers a next state, and P holds of it. -/
def Yields (i : Instr) (s : State) (P : State → Prop) : Prop := ∃ t, exec i s = .next t ∧ P t

/-! ### Frames of station instructions -/

/-- Outside the fabric all is as before, every byte of the physical space and of the local memories with it. -/
def OnlyFabric (s t : State) : Prop :=
  t.clk = s.clk ∧ t.mm = s.mm ∧ t.prick = s.prick ∧ t.cores = s.cores ∧ t.host = s.host ∧ t.boot = s.boot ∧
    (∀ a, Mem.get t.mm.mem a = Mem.get s.mm.mem a) ∧ ∀ c a, Mem.get (t.core c).lm a = Mem.get (s.core c).lm a

/-- The networks are as before; stations and the microsecond's list of charged work may differ. -/
def SameNetworks (s t : State) : Prop :=
  t.fab = { s.fab with stations := t.fab.stations, charges := t.fab.charges }

/-- At the station whose instruction issues, all but the firing in progress and its context slot is as before, every byte of the
scratchpad with it, and every other station is as before. -/
def OnlyFiring (s t : State) : Prop :=
  (∀ m, m ≠ s.sched.curSt → t.st m = s.st m) ∧
    t.st s.sched.curSt = { s.st s.sched.curSt with firing := t.fir, ctxs := (t.st s.sched.curSt).ctxs } ∧
    (∀ c, c ≠ s.fir.ctx → (t.st s.sched.curSt).ctx c = (s.st s.sched.curSt).ctx c) ∧
    ∀ a, Mem.get (t.st s.sched.curSt).sp a = Mem.get (s.st s.sched.curSt).sp a

/-- The slot of the firing has lost one entry of each queue register that the source fields name, and has been charged; the rest
of it is as before (R141, R163, R425). -/
def Consumed (s t : State) (srcs : List Sel) : Prop :=
  t.cx = { s.cx with
    q0 := if .q 0 ∈ srcs then s.cx.q0.eraseIdx (s.queueAt 0) else s.cx.q0
    q1 := if .q 1 ∈ srcs then s.cx.q1.eraseIdx (s.queueAt 1) else s.cx.q1
    site := t.cx.site }

/-- The effect of a station instruction that works on its firing alone: the firing has become f, queue entries that the source
fields name are consumed, and all else is as before. -/
def Plain (s t : State) (srcs : List Sel) (f : Firing) : Prop :=
  t.fir = f ∧ Consumed s t srcs ∧ OnlyFiring s t ∧ SameNetworks s t ∧ OnlyFabric s t ∧ t.sched = s.sched

/-- The effect of a station instruction that computes one value: the temporary holds it, the firing is at its next instruction,
queue entries that the source fields name are consumed, and all else is as before. -/
def WritesTemp (s t : State) (d : Fin 8) (srcs : List Sel) (v : Double) : Prop :=
  Plain s t srcs { s.fir with t := s.fir.t.set d v, pos := s.fir.pos + 1 }

/-- The slot of the firing after an instruction that consumes queue entries, is charged, and draws n numbers when its mode is SR
(R103). -/
def Drawn (s : State) (srcs : List Sel) (rm : Rm) (n : Nat) (site : Map Nat) : Ctx :=
  { s.cx with
    q0 := if .q 0 ∈ srcs then s.cx.q0.eraseIdx (s.queueAt 0) else s.cx.q0
    q1 := if .q 1 ∈ srcs then s.cx.q1.eraseIdx (s.queueAt 1) else s.cx.q1
    rctr := if rm = .sr then s.cx.rctr + BitVec.ofNat 64 n else s.cx.rctr
    site := site }

/-- The effect of a scalar floating-point instruction: the temporary holds the value, the firing is at its next instruction, one
number is drawn when its mode is SR, and all else is as before. -/
def Computes (s t : State) (d : Fin 8) (srcs : List Sel) (rm : Rm) (v : Double) : Prop :=
  t.fir = { s.fir with t := s.fir.t.set d v, pos := s.fir.pos + 1 } ∧ t.cx = Drawn s srcs rm 1 t.cx.site ∧
    OnlyFiring s t ∧ SameNetworks s t ∧ OnlyFabric s t ∧ t.sched = s.sched

/-- A tile's shape fits a register: at most 16 rows of at most 384 bytes (R21). -/
def Tile.fits (t : Tile) : Prop := t.rows ≤ 16 ∧ t.rowBytes ≤ 384

/-- The effect of an instruction that writes one tile register: it has the shape of x, element (r, e) inside it has the code
given, the bits outside the shape and all other registers are as before, the firing is at its next instruction, n numbers are
drawn when the mode is SR, and all else is as before. -/
def WritesTile (s t : State) (d : Fin 16) (srcs : List Sel) (x : Tile) (rm : Rm) (n : Nat) (code : Nat → Nat → Nat) : Prop :=
  t.fir = { s.fir with pos := s.fir.pos + 1 } ∧
    t.cx = { Drawn s srcs rm n t.cx.site with tiles := t.cx.tiles } ∧ (∀ k, k ≠ d → t.cx.tile k = s.cx.tile k) ∧
    (t.cx.tile d).rows = x.rows ∧ (t.cx.tile d).rowBytes = x.rowBytes ∧ (t.cx.tile d).width = x.width ∧
    (∀ r < x.rows, ∀ e < x.perRow, (t.cx.tile d).code r e = code r e % 2 ^ TWidth.bits x.width) ∧
    (∀ k : Nat, (∀ r < x.rows, k < 3072 * r ∨ 3072 * r + 8 * x.rowBytes ≤ k) →
      (t.cx.tile d).bits.getLsbD k = (s.cx.tile d).bits.getLsbD k) ∧
    OnlyFiring s t ∧ SameNetworks s t ∧ OnlyFabric s t ∧ t.sched = s.sched

/-- The effect of an instruction that may send tokens: the firing is at its next instruction with the arcs claimed and its
temporaries, inputs and outgoing tag as before, queue entries are consumed, and outside the firing's station, the networks and the
instance records all is as before, every byte of memory with it. -/
def Issued (s t : State) (srcs : List Sel) (arcs : List Nat) : Prop :=
  t.fir.pos = s.fir.pos + 1 ∧ t.fir.t = s.fir.t ∧ t.fir.vals = s.fir.vals ∧ t.fir.otag = s.fir.otag ∧
    (∀ k < 16, t.fir.claimed.getLsbD k = (s.fir.claimed.getLsbD k || decide (k ∈ arcs))) ∧ Consumed s t srcs ∧
    OnlyFiring s t ∧ t.sched.curSt = s.sched.curSt ∧ t.clk = s.clk ∧ t.mm = s.mm ∧ t.cores = s.cores ∧ t.host = s.host ∧
    t.boot = s.boot ∧ ∀ a, Mem.get t.mm.mem a = Mem.get s.mm.mem a

/-- The effect of an instruction that issues one access a of its firing, a direct one or an element of a strand: it stands behind the accesses under way, belongs to the
firing and happens before what the firing does later; else the firing is f, at its next instruction. Every byte of memory and all
the rest is as before. -/
def IssuesAccess (s t : State) (srcs : List Sel) (f : Firing) (a : Access) : Prop :=
  t.mm = { s.mm with accesses := s.mm.accesses ++ [a] } ∧
    t.fir = { f with own := s.fir.own ++ [(s.sched.uid, a.op.isLoad)], before := nput s.fir.before s.sched.uid,
                     pos := s.fir.pos + 1 } ∧
    Consumed s t srcs ∧ OnlyFiring s t ∧ SameNetworks s t ∧ t.sched = { s.sched with uid := s.sched.uid + 1 } ∧
    t.clk = s.clk ∧ t.prick = s.prick ∧ t.cores = s.cores ∧ t.host = s.host ∧ t.boot = s.boot

/-- The effect of an instruction that issues one access that orders nothing: a prefetch. -/
def IssuesElement (s t : State) (srcs : List Sel) (a : Access) : Prop :=
  t.mm = { s.mm with accesses := s.mm.accesses ++ [a] } ∧ t.fir = { s.fir with pos := s.fir.pos + 1 } ∧ Consumed s t srcs ∧
    OnlyFiring s t ∧ SameNetworks s t ∧ t.sched = { s.sched with uid := s.sched.uid + 1 } ∧
    t.clk = s.clk ∧ t.prick = s.prick ∧ t.cores = s.cores ∧ t.host = s.host ∧ t.boot = s.boot

/-- The effect of an instruction that works on the scratchpad of its station: the firing has become f, the bytes from a on hold the
low n bytes of v, and every other byte of the scratchpad, every other station and all memory is as before. -/
def StoresInScratchpad (s t : State) (srcs : List Sel) (f : Firing) (a n v : Nat) : Prop :=
  t.fir = f ∧ Consumed s t srcs ∧ (∀ i < n, Mem.get (t.st s.sched.curSt).sp (a + i) = BitVec.ofNat 8 (v / 256 ^ i)) ∧
    (∀ x, x < a ∨ a + n ≤ x → Mem.get (t.st s.sched.curSt).sp x = Mem.get (s.st s.sched.curSt).sp x) ∧
    (∀ m, m ≠ s.sched.curSt → t.st m = s.st m) ∧ SameNetworks s t ∧ OnlyFabric s t ∧ t.sched = s.sched

/-- The firing has left the sprig engine and is parked for p, as it stands; nothing else of its station has changed but the place
of its frame, and no memory. -/
def Parks (s t : State) (p : Park) : Prop :=
  (t.st s.sched.curSt).firing = {} ∧
    (∃ g, (t.st s.sched.curSt).parked = (s.st s.sched.curSt).parked ++ [g] ∧
      g = { s.fir with park := p, reserved := 0, frame := g.frame } ∧ g.frame.slots = s.fir.frame.slots) ∧
    (t.st s.sched.curSt).sp = (s.st s.sched.curSt).sp ∧ t.mm = s.mm ∧ ∀ m, m ≠ s.sched.curSt → t.st m = s.st m

/-- Four places where a token of a firing may wait: the operand network, the messages to sinks, and with the firing the crossing
tokens and the arguments. -/
def SameQueues (s t : State) : Prop :=
  t.fab.tokens = s.fab.tokens ∧ t.fab.sinkMsgs = s.fab.sinkMsgs ∧ t.fir.crossing = s.fir.crossing ∧ t.fir.args = s.fir.args

/-- What one emit_token of the firing of instance i does, by the routing word r of its arc (R50, R77, R121, R276, R277, R325); w: the
firing is of a stile sprig whose release point has not been passed. A callee's result goes to the slot that its call site routes it to,
under the return tag with the caller's present slot (R119, R318). -/
def Sent (i : Inst) (w : Bool) (r : BitVec 64) (tag : BitVec 64) (p : Payload) (s t : State) : Prop :=
  (p = .null ∧ rtDropNull r = true → SameQueues s t) ∧
  (¬ (p = .null ∧ rtDropNull r = true) →
    (w = true → isCrossing r = true → ∃ c, t.fir.crossing = s.fir.crossing ++ [c] ∧ c.arc = rtArc r ∧ c.tag = tag ∧
      c.payload = p ∧ t.fab.tokens = s.fab.tokens ∧ t.fab.sinkMsgs = s.fab.sinkMsgs ∧ t.fir.args = s.fir.args) ∧
    (rtTarget r = 0 → ∃ f, t.fab.tokens = s.fab.tokens ++ [f] ∧
      f.tok = ⟨mkHeader (i.target r) (rtSprig r) (rtSlot r) p.kindTl (rtEdge r) tag, tag, p⟩ ∧
      f.src = some s.sched.curSt ∧ f.from_ = i.id ∧ t.fab.sinkMsgs = s.fab.sinkMsgs ∧ t.fir.crossing = s.fir.crossing ∧
      t.fir.args = s.fir.args) ∧
    (rtTarget r = 1 ∨ (rtTarget r = 2 ∧ w = false ∧ i.isCallee = false) → ∃ m, t.fab.sinkMsgs = s.fab.sinkMsgs ++ [m] ∧
      m.inst = i.id ∧ m.k = rtNum r ∧ m.payload = p ∧ m.src = some s.sched.curSt ∧ t.fab.tokens = s.fab.tokens ∧
      t.fir.crossing = s.fir.crossing ∧ t.fir.args = s.fir.args) ∧
    (rtTarget r = 2 → w = false → ∀ caller site rt, i.kind = .callee caller site rt →
      (∀ j, t.inst? i.id = some j → rtNum r ∈ j.sentRes) ∧ t.fab.sinkMsgs = s.fab.sinkMsgs ∧ t.fir.crossing = s.fir.crossing ∧
      t.fir.args = s.fir.args ∧
      ∀ c, s.inst? caller = some c → c.st ≠ .retired → c.st ≠ .killed →
        let q := (i.resRoutes[rtNum r]?).getD 0
        let g := setBits rt 35 3 c.slot
        (p = .null → rtDropNull q = true → t.fab.tokens = s.fab.tokens) ∧
        (¬ (p = .null ∧ rtDropNull q = true) → ∃ f, t.fab.tokens = s.fab.tokens ++ [f] ∧
          f.tok = ⟨mkHeader (c.target q) (rtSprig q) (rtSlot q) (p.crossTl kindResult) (rtEdge q) g, g, p⟩ ∧
          f.src = some s.sched.curSt ∧ f.from_ = i.id)) ∧
    (rtTarget r = 3 → w = false → ∃ a, t.fir.args = s.fir.args ++ [a] ∧ a.site = rtNum r ∧ a.arg = rtSprig r ∧
      a.flight.tok.tag = tag ∧ a.flight.tok.payload = p ∧ t.fab.tokens = s.fab.tokens ∧
      t.fab.sinkMsgs = s.fab.sinkMsgs ∧ t.fir.crossing = s.fir.crossing))

/-- Several tokens one after the other: routing word, tag and payload of each. -/
def SentAll (i : Inst) (w : Bool) : List (BitVec 64 × BitVec 64 × Payload) → State → State → Prop
  | [], s, t => SameQueues s t
  | x :: rest, s, t => ∃ m : State, Sent i w x.1 x.2.1 x.2.2 s m ∧ m.sched.curSt = s.sched.curSt ∧ SentAll i w rest m t

/-! ### Instances -/

/-- The instance holds a reservation or a held token, so that its count is not zero and it does not retire now (R292). -/
def Inst.bound (i : Inst) : Prop := i.argRes ≠ 0 ∨ i.resRes ≠ [] ∨ i.entRes ≠ [] ∨ i.held ≠ []

/-- The record of an id, if there is one, cannot retire now. -/
def State.lasts (s : State) (id : Nat) : Prop := ∀ i, s.inst? id = some i → i.bound

/-- The caller of an instance, if it is a callee, cannot retire now. -/
def State.callerLasts (s : State) (i : Inst) : Prop := ∀ caller site rt, i.kind = .callee caller site rt → s.lasts caller

/-! ### Frame traps -/

/-- The firing may trap in place: it has created no callee, its slot has a row of the Hedgerow bank for its frame, and its instance's
caller does not wait for it alone. -/
def RoomToPark (s : State) : Prop :=
  s.fir.calls = [] ∧ s.rowRoom s.sched.curSt s.fir.ctx 1 = true ∧ ∀ i, s.fInst = some i → s.callerLasts i

/-- The firing may park and wait: its slot has a row of the Hedgerow bank for its frame, and its instance's caller does not wait for it
alone. -/
def RoomToWait (s : State) : Prop :=
  s.rowRoom s.sched.curSt s.fir.ctx 1 = true ∧ ∀ i, s.fInst = some i → s.callerLasts i

/-- A frame trap (R144): the firing has left the sprig engine without commit and is parked with its inputs; what it has sent and
performed stays, and no other station changes. -/
def FrameTraps (s t : State) : Prop :=
  (t.st s.sched.curSt).firing = {} ∧ (t.st s.sched.curSt).ended = (s.st s.sched.curSt).ended ∧
    (∃ g, (t.st s.sched.curSt).parked = (s.st s.sched.curSt).parked ++ [g] ∧ g.id = s.fir.id ∧ g.park = .fault ∧
      g.trapped = true ∧ g.frame.slots = s.fir.frame.slots ∧ g.sent = s.fir.sent ∧ g.lsids = s.fir.lsids) ∧
    t.fab.tokens = s.fab.tokens ∧ ∀ m, m ≠ s.sched.curSt → t.st m = s.st m

/-- The fault record f of the firing has been given to its partition: the ring, what is held for it and what it may resume are as the
report of the record leaves them (R144, R415, R418). -/
def Reported (s t : State) (f : FaultInfo) : Prop :=
  ∃ x : State, x.clk = s.clk ∧ x.mm = s.mm ∧ x.prick = s.prick ∧ x.cores = s.cores ∧ x.host = s.host ∧ x.boot = s.boot ∧
    t.host = (x.report f false (some (.firing s.sched.curSt s.fir.id))).2.host ∧
    t.mm.mem = (x.report f false (some (.firing s.sched.curSt s.fir.id))).2.mm.mem

/-- A frame trap with its fault record: the unit, the instance and its tag, the tokens that the firing has sent and the lsids that it
has performed (R144, R415). -/
def TrapsWith (s t : State) (code detail va : Nat) : Prop :=
  FrameTraps s t ∧ Reported s t
    { code := code, source := 0, vf := some s.fVf, loc := some s.sched.curSt, die := s.sched.curSt.die,
      stage := hdrStage s.fir.header, inst := s.fir.inst, ctx := s.fir.ctx, tag := s.fir.tag, detail := detail, va := va,
      lsids := s.fir.lsids.toNat, tokens := s.fir.sent }

/-! ### Exact values (R90, R94, R95, R101, R340) -/

/-- The exact value of a finite number. -/
def Num.val (x : Num) : ℚ :=
  match x with
  | .nan => 0
  | .inf _ => 0
  | .fin n m e => (if n then -1 else 1) * m * (2 : ℚ) ^ e

/-- z is the exact sum of x and y; rd: the rounding mode is RD, under which an exact zero of opposite signs is −0 (R94). -/
def IsSum (rd : Bool) (x y z : Num) : Prop :=
  match x, y with
  | .nan, _ => z = .nan
  | .inf _, .nan => z = .nan
  | .fin _ _ _, .nan => z = .nan
  | .inf a, .inf b => z = if a = b then .inf a else .nan
  | .inf a, .fin _ _ _ => z = .inf a
  | .fin _ _ _, .inf b => z = .inf b
  | .fin a m e, .fin b k f => ∃ n l g, z = .fin n l g ∧ z.val = (Num.fin a m e).val + (Num.fin b k f).val ∧
      (z.val = 0 → n = if a = b then a else rd)

/-- z is the exact product of x and y. -/
def IsProduct (x y z : Num) : Prop :=
  match x, y with
  | .nan, _ => z = .nan
  | .inf _, .nan => z = .nan
  | .fin _ _ _, .nan => z = .nan
  | .inf a, .inf b => z = .inf (a != b)
  | .inf a, .fin b k _ => z = if k = 0 then .nan else .inf (a != b)
  | .fin a m _, .inf b => z = if m = 0 then .nan else .inf (a != b)
  | .fin a m e, .fin b k f => ∃ l g, z = .fin (a != b) l g ∧ z.val = (Num.fin a m e).val * (Num.fin b k f).val

/-- x lies below y; no NaN lies below or above (R340). -/
def NumLt (x y : Num) : Prop :=
  match x, y with
  | .nan, _ => False
  | .inf _, .nan => False
  | .fin _ _ _, .nan => False
  | .inf a, .inf b => a = true ∧ b = false
  | .inf a, .fin _ _ _ => a = true
  | .fin _ _ _, .inf b => b = false
  | .fin a m e, .fin b k f => (Num.fin a m e).val < (Num.fin b k f).val

/-- x equals y; −0 equals +0, and NaN equals nothing (R340). -/
def NumEq (x y : Num) : Prop :=
  match x, y with
  | .nan, _ => False
  | .inf _, .nan => False
  | .fin _ _ _, .nan => False
  | .inf a, .inf b => a = b
  | .inf _, .fin _ _ _ => False
  | .fin _ _ _, .inf _ => False
  | .fin a m e, .fin b k f => (Num.fin a m e).val = (Num.fin b k f).val

/-- The sign of a number that is no NaN. -/
def Num.sign (x : Num) : Bool :=
  match x with
  | .nan => false
  | .inf n => n
  | .fin n _ _ => n

/-- What a predicate says of two values (R340). -/
def PredHolds (p : Pred) (x y : Num) : Prop :=
  match p with
  | .eq => NumEq x y
  | .lt => NumLt x y
  | .le => NumLt x y ∨ NumEq x y
  | .un => x = .nan ∨ y = .nan
  | .ne => ¬ NumEq x y

/-- The integer to which a mode rounds a value, with the draw of R103 (R101). -/
def RoundsTo (rm : Rm) (draw : Nat) (q : ℚ) (n : ℤ) : Prop :=
  let lo : ℤ := if 0 ≤ q then ⌊q⌋ else ⌈q⌉
  match rm with
  | .rne => |q - n| ≤ 1 / 2 ∧ (|q - n| = 1 / 2 → 2 ∣ n)
  | .rz => n = lo
  | .ru => n = ⌈q⌉
  | .rd => n = ⌊q⌋
  | .sr => n = if 2 ^ 24 ≤ ⌊|q - lo| * 2 ^ 24⌋ + (draw % 2 ^ 24 : Nat) then (if 0 ≤ q then lo + 1 else lo - 1) else lo

/-- Of two operands that stand for the values x and y, the one that a selecting operation returns: the other one of a NaN, the
given NaN for two, −0 below +0 (R95). -/
def Picks {α : Type} (top : Bool) (nan : α) (x y : Num) (cx cy c : α) : Prop :=
  (x = .nan → y = .nan → c = nan) ∧ (x = .nan → y ≠ .nan → c = cy) ∧ (x ≠ .nan → y = .nan → c = cx) ∧
    (NumLt x y ∨ NumEq x y ∧ x.sign = true ∧ y.sign = false → c = if top then cy else cx) ∧
    (NumLt y x ∨ NumEq x y ∧ x.sign = false ∧ y.sign = true → c = if top then cx else cy) ∧
    (NumEq x y → x.sign = y.sign → c = cx ∨ c = cy)

/-! ### Frames of control-core instructions -/

/-- Outside the core whose instruction issues all is as before, every byte of memory with it. -/
def OnlyCore (s t : State) : Prop :=
  t.sched = s.sched ∧ t.clk = s.clk ∧ t.mm = s.mm ∧ t.fab = s.fab ∧ t.prick = s.prick ∧ t.host = s.host ∧ t.boot = s.boot ∧
    (∀ c, c ≠ s.sched.curCore → t.core c = s.core c) ∧ (∀ a, Mem.get t.mm.mem a = Mem.get s.mm.mem a)

/-- The effect of a control-core instruction that computes one value: the register holds it, a write of g0 is discarded, the PC
is at the next instruction, and all else is as before (R161, R164). -/
def WritesReg (s t : State) (d : Fin 32) (v : Double) : Prop :=
  t.g d = (if d = 0 then 0 else v) ∧ (∀ r, r ≠ d → t.g r = s.g r) ∧ t.cc = { s.cc with g := t.cc.g, pc := s.cc.pc + 4 } ∧
    OnlyCore s t

/-- A trap of the core whose instruction issues (R180): EPC, CAUSE, EVAL, STATUS and PC, and nothing else. -/
def Traps (s t : State) (c : Cause) (info : Nat) (val : Double) : Prop :=
  t.cc = { s.cc with
    epc := s.cc.pc
    cause := causeWord c info
    eval := val
    status := statusWord s.cc.ie s.cc.mode false true
    pc := s.cc.hvec } ∧ OnlyCore s t

end Sys2Proof.Machine
end

