-- ==== Sys2Proof/Certificates/Slice0/Obligations.lean ====
section
/-!
DEFINITION. Statements about the machine, for the provers.
-/

open Sys2Proof Sys2Proof.Machine

/-- Every form of ADD, SUB, ADDI, NEG, ABS, ADDS, SUBS and LEA on a station, at every width and for every source selector,
answers a next state in which the destination temporary holds the value of R168 or R176, the firing is at its next
instruction, one entry of each queue register that a source field names is consumed, one scalar instruction is charged, and
everything else (every other temporary, slot, station, network, register and every byte of memory) is as before. Every form
of MUL, MULH, MULHN, DIV, REM, DIVN and REMN on a station answers a next state with the value of R169 or R170 (products from
the exact product, MULH its floor over 2^W; a quotient toward zero, all ones for a zero divisor, a remainder with the sign of
the dividend, the dividend for a zero divisor, and the wrapped quotient of the most negative value by -1) and with the frame
of WritesTemp: no division faults or stops. -/
def Obligations.IntegerArithmeticOnStations : Prop :=
  (∀ (s : State) (d : Fin 8) (a b : Sel) (w : Width) (im : BitVec 16) (h : Fin 8),
    Yields (.add d a b w) s (WritesTemp s · d [a, b] (outS w (uOf w (s.sel a) + uOf w (s.sel b)))) ∧
    Yields (.sub d a b w) s (WritesTemp s · d [a, b] (outS w ((uOf w (s.sel a) : Int) - uOf w (s.sel b)))) ∧
    Yields (.addi d a im) s (WritesTemp s · d [a] (s.sel a + im.signExtend 64)) ∧
    Yields (.neg d a w) s (WritesTemp s · d [a] (outS w (-(uOf w (s.sel a) : Int)))) ∧
    Yields (.abs d a w) s (WritesTemp s · d [a] (outS w |sOf w (s.sel a)|)) ∧
    Yields (.adds d a b false w) s (WritesTemp s · d [a, b] (outS w (satS w (sOf w (s.sel a) + sOf w (s.sel b))))) ∧
    Yields (.adds d a b true w) s (WritesTemp s · d [a, b] (outN w (satN w ((uOf w (s.sel a) : Int) + uOf w (s.sel b))))) ∧
    Yields (.subs d a b false w) s (WritesTemp s · d [a, b] (outS w (satS w (sOf w (s.sel a) - sOf w (s.sel b))))) ∧
    Yields (.subs d a b true w) s (WritesTemp s · d [a, b] (outN w (satN w ((uOf w (s.sel a) : Int) - uOf w (s.sel b))))) ∧
    Yields (.lea d a b h w) s (WritesTemp s · d [a, b] (outS w (uOf w (s.sel a) + uOf w (s.sel b) * 2 ^ h.val)))) ∧
  (∀ (s : State) (d : Fin 8) (a b : Sel) (w : Width),
    Yields (.mul d a b w) s (WritesTemp s · d [a, b] (outS w (sOf w (s.sel a) * sOf w (s.sel b)))) ∧
    Yields (.mulh d a b w) s (WritesTemp s · d [a, b] (outS w ⌊(sOf w (s.sel a) * sOf w (s.sel b) : ℚ) / 2 ^ Width.bits w⌋)) ∧
    Yields (.mulhn d a b w) s (WritesTemp s · d [a, b] (outN w ((uOf w (s.sel a) * uOf w (s.sel b)) >>> Width.bits w))) ∧
    Yields (.div d a b w) s (fun t =>
      (sOf w (s.sel b) = 0 → WritesTemp s t d [a, b] (-1)) ∧
      (sOf w (s.sel b) ≠ 0 → WritesTemp s t d [a, b] (outS w ((sOf w (s.sel a)).tdiv (sOf w (s.sel b)))))) ∧
    Yields (.rem d a b w) s (fun t =>
      (sOf w (s.sel b) = 0 → WritesTemp s t d [a, b] (outS w (sOf w (s.sel a)))) ∧
      (sOf w (s.sel b) ≠ 0 → WritesTemp s t d [a, b] (outS w ((sOf w (s.sel a)).tmod (sOf w (s.sel b)))))) ∧
    Yields (.divn d a b w) s (fun t =>
      (uOf w (s.sel b) = 0 → WritesTemp s t d [a, b] (outN w (2 ^ Width.bits w - 1))) ∧
      (uOf w (s.sel b) ≠ 0 → WritesTemp s t d [a, b] (outN w (uOf w (s.sel a) / uOf w (s.sel b))))) ∧
    Yields (.remn d a b w) s (WritesTemp s · d [a, b] (outN w (uOf w (s.sel a) % uOf w (s.sel b)))))

/-- Every form of the station's bitwise and shift instructions answers a next state with the value of R171 or R172, spelled
on the natural numbers u(a) and u(b) with the shift amount u(b) mod W (the SRA results as floors, ROTL as the union of the
two shifted parts mod 2^W), and with the frame of WritesTemp. Every form of the station's counting, comparing, selecting and
moving instructions answers a next state with the value of R173, R174 or R175: CLZ and CTZ are pinned down by the powers of
two that bound or divide u(a), POPC counts the one bits, MOVK and BFI are stated bit by bit, and a comparison gives 0 or 1.
The frame is that of WritesTemp. -/
def Obligations.IntegerLogicAndSelectionOnStations : Prop :=
  (∀ (s : State) (d : Fin 8) (a b : Sel) (w : Width) (im : BitVec 16) (m : Fin 64),
    Yields (.and d a b w) s (WritesTemp s · d [a, b] (outS w (uOf w (s.sel a) &&& uOf w (s.sel b) : Nat))) ∧
    Yields (.or d a b w) s (WritesTemp s · d [a, b] (outS w (uOf w (s.sel a) ||| uOf w (s.sel b) : Nat))) ∧
    Yields (.xor d a b w) s (WritesTemp s · d [a, b] (outS w (uOf w (s.sel a) ^^^ uOf w (s.sel b) : Nat))) ∧
    Yields (.andn d a b w) s (WritesTemp s · d [a, b]
      (outS w (uOf w (s.sel a) &&& (2 ^ Width.bits w - 1 - uOf w (s.sel b)) : Nat))) ∧
    Yields (.andi d a im) s (WritesTemp s · d [a] (s.sel a &&& im.zeroExtend 64)) ∧
    Yields (.ori d a im) s (WritesTemp s · d [a] (s.sel a ||| im.zeroExtend 64)) ∧
    Yields (.xori d a im) s (WritesTemp s · d [a] (s.sel a ^^^ im.zeroExtend 64)) ∧
    Yields (.shl d a b w) s (WritesTemp s · d [a, b] (outS w (uOf w (s.sel a) <<< (uOf w (s.sel b) % Width.bits w) : Nat))) ∧
    Yields (.shr d a b w) s (WritesTemp s · d [a, b] (outN w (uOf w (s.sel a) >>> (uOf w (s.sel b) % Width.bits w)))) ∧
    Yields (.sra d a b w) s (WritesTemp s · d [a, b]
      (outS w ⌊(sOf w (s.sel a) : ℚ) / 2 ^ (uOf w (s.sel b) % Width.bits w)⌋)) ∧
    Yields (.rotl d a b w) s (WritesTemp s · d [a, b]
      (outS w (((uOf w (s.sel a) <<< (uOf w (s.sel b) % Width.bits w)) |||
        (uOf w (s.sel a) >>> (Width.bits w - uOf w (s.sel b) % Width.bits w))) % 2 ^ Width.bits w : Nat))) ∧
    Yields (.shli d a w m) s (WritesTemp s · d [a] (outS w (uOf w (s.sel a) <<< m.val : Nat))) ∧
    Yields (.shri d a w m) s (WritesTemp s · d [a] (outN w (uOf w (s.sel a) >>> m.val))) ∧
    Yields (.srai d a w m) s (WritesTemp s · d [a] (outS w ⌊(sOf w (s.sel a) : ℚ) / 2 ^ m.val⌋))) ∧
  (∀ (s : State) (d : Fin 8) (a b c : Sel) (w : Width) (im : BitVec 16) (k : Fin 4) (x : XWidth) (l : Fin 64),
    Yields (.clz d a w) s (fun t => ∃ n ≤ Width.bits w, WritesTemp s t d [a] (dbl n) ∧
      uOf w (s.sel a) < 2 ^ (Width.bits w - n) ∧ (n < Width.bits w → 2 ^ (Width.bits w - n - 1) ≤ uOf w (s.sel a))) ∧
    Yields (.ctz d a w) s (fun t => ∃ n ≤ Width.bits w, WritesTemp s t d [a] (dbl n) ∧
      2 ^ n ∣ uOf w (s.sel a) ∧ (n < Width.bits w → ¬ 2 ^ (n + 1) ∣ uOf w (s.sel a))) ∧
    Yields (.popc d a w) s (WritesTemp s · d [a]
      (dbl ((List.range (Width.bits w)).filter (fun i => (uOf w (s.sel a)).testBit i)).length)) ∧
    Yields (.min d a b w) s (WritesTemp s · d [a, b] (outS w (min (sOf w (s.sel a)) (sOf w (s.sel b))))) ∧
    Yields (.max d a b w) s (WritesTemp s · d [a, b] (outS w (max (sOf w (s.sel a)) (sOf w (s.sel b))))) ∧
    Yields (.minn d a b w) s (WritesTemp s · d [a, b] (outN w (min (uOf w (s.sel a)) (uOf w (s.sel b))))) ∧
    Yields (.maxn d a b w) s (WritesTemp s · d [a, b] (outN w (max (uOf w (s.sel a)) (uOf w (s.sel b))))) ∧
    Yields (.slt d a b w) s (WritesTemp s · d [a, b] (if sOf w (s.sel a) < sOf w (s.sel b) then 1 else 0)) ∧
    Yields (.sltn d a b w) s (WritesTemp s · d [a, b] (if uOf w (s.sel a) < uOf w (s.sel b) then 1 else 0)) ∧
    Yields (.slti d a im) s (WritesTemp s · d [a] (if (s.sel a).toInt < im.toInt then 1 else 0)) ∧
    Yields (.seq d a b w) s (WritesTemp s · d [a, b] (if uOf w (s.sel a) = uOf w (s.sel b) then 1 else 0)) ∧
    Yields (.sne d a b w) s (WritesTemp s · d [a, b] (if uOf w (s.sel a) = uOf w (s.sel b) then 0 else 1)) ∧
    Yields (.csel d a b c w) s (WritesTemp s · d [a, b, c]
      (if uOf w (s.sel a) = 0 then outS w (uOf w (s.sel c)) else outS w (uOf w (s.sel b)))) ∧
    Yields (.mov d a w) s (WritesTemp s · d [a] (outS w (uOf w (s.sel a)))) ∧
    Yields (.movi d im) s (WritesTemp s · d [] (im.signExtend 64)) ∧
    Yields (.movk d k im) s (fun t => ∃ v : Double, WritesTemp s t d [] v ∧ ∀ i < 64,
      v.getLsbD i = if 16 * k.val ≤ i ∧ i < 16 * k.val + 16 then im.getLsbD (i - 16 * k.val) else s.fir.t[d].getLsbD i) ∧
    Yields (.exts d a x w) s (WritesTemp s · d [a] (outS w ((s.sel a).truncate (XWidth.bits x)).toInt)) ∧
    Yields (.extz d a x w) s (WritesTemp s · d [a] (outN w ((s.sel a).truncate (XWidth.bits x)).toNat)) ∧
    Yields (.bfi d a b c l) s (fun t => ∃ v : Double, WritesTemp s t d [a, b, c] v ∧ ∀ i < 64,
      let p := (s.sel c).toNat % 64
      v.getLsbD i = if p ≤ i ∧ i < p + (l.val + 1) then (s.sel a).getLsbD (i - p) else (s.sel b).getLsbD i))

/-- Every form of the control core's ADD, SUB, ADDI, NEG, ABS, ADDS, SUBS, LEA, MUL, MULH, MULHN, DIV, REM, DIVN and REMN
answers a next state with the value of R168, R169, R170 or R176. The frame is that of WritesReg: a write of g0 is discarded
and g0 reads zero, every other register of the core is as before, the PC is 4 further, and every other part of the machine,
every byte of memory with it, is as before. Every form of the control core's bitwise, shifting, counting, comparing,
selecting and moving instructions answers a next state with the value of R171 to R175 (CSEL keeps gd when its predicate is
zero; BFI takes the old value from gd). The frame is that of WritesReg: a write of g0 is discarded and g0 reads zero, every
other register of the core is as before, the PC is 4 further, and every other part of the machine, every byte of memory with
it, is as before. -/
def Obligations.IntegerInstructionsOnCores : Prop :=
  (∀ (s : State) (d a b : Fin 32) (w : Width) (im : BitVec 14) (h : Fin 8),
    Yields (.addCr d a b w) s (WritesReg s · d (outS w (uOf w (s.g a) + uOf w (s.g b)))) ∧
    Yields (.subCr d a b w) s (WritesReg s · d (outS w ((uOf w (s.g a) : Int) - uOf w (s.g b)))) ∧
    Yields (.addiCi d a im) s (WritesReg s · d (s.g a + im.signExtend 64)) ∧
    Yields (.negCr d a w) s (WritesReg s · d (outS w (-(uOf w (s.g a) : Int)))) ∧
    Yields (.absCr d a w) s (WritesReg s · d (outS w |sOf w (s.g a)|)) ∧
    Yields (.addsCr d a b false w) s (WritesReg s · d (outS w (satS w (sOf w (s.g a) + sOf w (s.g b))))) ∧
    Yields (.addsCr d a b true w) s (WritesReg s · d (outN w (satN w ((uOf w (s.g a) : Int) + uOf w (s.g b))))) ∧
    Yields (.subsCr d a b false w) s (WritesReg s · d (outS w (satS w (sOf w (s.g a) - sOf w (s.g b))))) ∧
    Yields (.subsCr d a b true w) s (WritesReg s · d (outN w (satN w ((uOf w (s.g a) : Int) - uOf w (s.g b))))) ∧
    Yields (.leaCr d a b h w) s (WritesReg s · d (outS w (uOf w (s.g a) + uOf w (s.g b) * 2 ^ h.val))) ∧
    Yields (.mulCr d a b w) s (WritesReg s · d (outS w (sOf w (s.g a) * sOf w (s.g b)))) ∧
    Yields (.mulhCr d a b w) s (WritesReg s · d (outS w ⌊(sOf w (s.g a) * sOf w (s.g b) : ℚ) / 2 ^ Width.bits w⌋)) ∧
    Yields (.mulhnCr d a b w) s (WritesReg s · d (outN w ((uOf w (s.g a) * uOf w (s.g b)) >>> Width.bits w))) ∧
    Yields (.divCr d a b w) s (fun t =>
      (sOf w (s.g b) = 0 → WritesReg s t d (-1)) ∧
      (sOf w (s.g b) ≠ 0 → WritesReg s t d (outS w ((sOf w (s.g a)).tdiv (sOf w (s.g b)))))) ∧
    Yields (.remCr d a b w) s (fun t =>
      (sOf w (s.g b) = 0 → WritesReg s t d (outS w (sOf w (s.g a)))) ∧
      (sOf w (s.g b) ≠ 0 → WritesReg s t d (outS w ((sOf w (s.g a)).tmod (sOf w (s.g b)))))) ∧
    Yields (.divnCr d a b w) s (fun t =>
      (uOf w (s.g b) = 0 → WritesReg s t d (outN w (2 ^ Width.bits w - 1))) ∧
      (uOf w (s.g b) ≠ 0 → WritesReg s t d (outN w (uOf w (s.g a) / uOf w (s.g b))))) ∧
    Yields (.remnCr d a b w) s (WritesReg s · d (outN w (uOf w (s.g a) % uOf w (s.g b))))) ∧
  (∀ (s : State) (d a b : Fin 32) (w : Width) (im : BitVec 14) (m : Fin 64) (k : Fin 4) (x : XWidth) (l : Fin 64),
    Yields (.andCr d a b w) s (WritesReg s · d (outS w (uOf w (s.g a) &&& uOf w (s.g b) : Nat))) ∧
    Yields (.orCr d a b w) s (WritesReg s · d (outS w (uOf w (s.g a) ||| uOf w (s.g b) : Nat))) ∧
    Yields (.xorCr d a b w) s (WritesReg s · d (outS w (uOf w (s.g a) ^^^ uOf w (s.g b) : Nat))) ∧
    Yields (.andnCr d a b w) s (WritesReg s · d (outS w (uOf w (s.g a) &&& (2 ^ Width.bits w - 1 - uOf w (s.g b)) : Nat))) ∧
    Yields (.andiCi d a im) s (WritesReg s · d (s.g a &&& im.zeroExtend 64)) ∧
    Yields (.oriCi d a im) s (WritesReg s · d (s.g a ||| im.zeroExtend 64)) ∧
    Yields (.xoriCi d a im) s (WritesReg s · d (s.g a ^^^ im.zeroExtend 64)) ∧
    Yields (.shlCr d a b w) s (WritesReg s · d (outS w (uOf w (s.g a) <<< (uOf w (s.g b) % Width.bits w) : Nat))) ∧
    Yields (.shrCr d a b w) s (WritesReg s · d (outN w (uOf w (s.g a) >>> (uOf w (s.g b) % Width.bits w)))) ∧
    Yields (.sraCr d a b w) s (WritesReg s · d (outS w ⌊(sOf w (s.g a) : ℚ) / 2 ^ (uOf w (s.g b) % Width.bits w)⌋)) ∧
    Yields (.rotlCr d a b w) s (WritesReg s · d (outS w (((uOf w (s.g a) <<< (uOf w (s.g b) % Width.bits w)) |||
      (uOf w (s.g a) >>> (Width.bits w - uOf w (s.g b) % Width.bits w))) % 2 ^ Width.bits w : Nat))) ∧
    Yields (.shliCi d a w m) s (WritesReg s · d (outS w (uOf w (s.g a) <<< m.val : Nat))) ∧
    Yields (.shriCi d a w m) s (WritesReg s · d (outN w (uOf w (s.g a) >>> m.val))) ∧
    Yields (.sraiCi d a w m) s (WritesReg s · d (outS w ⌊(sOf w (s.g a) : ℚ) / 2 ^ m.val⌋)) ∧
    Yields (.clzCr d a w) s (fun t => ∃ n ≤ Width.bits w, WritesReg s t d (dbl n) ∧
      uOf w (s.g a) < 2 ^ (Width.bits w - n) ∧ (n < Width.bits w → 2 ^ (Width.bits w - n - 1) ≤ uOf w (s.g a))) ∧
    Yields (.ctzCr d a w) s (fun t => ∃ n ≤ Width.bits w, WritesReg s t d (dbl n) ∧
      2 ^ n ∣ uOf w (s.g a) ∧ (n < Width.bits w → ¬ 2 ^ (n + 1) ∣ uOf w (s.g a))) ∧
    Yields (.popcCr d a w) s (WritesReg s · d
      (dbl ((List.range (Width.bits w)).filter (fun i => (uOf w (s.g a)).testBit i)).length)) ∧
    Yields (.minCr d a b w) s (WritesReg s · d (outS w (min (sOf w (s.g a)) (sOf w (s.g b))))) ∧
    Yields (.maxCr d a b w) s (WritesReg s · d (outS w (max (sOf w (s.g a)) (sOf w (s.g b))))) ∧
    Yields (.minnCr d a b w) s (WritesReg s · d (outN w (min (uOf w (s.g a)) (uOf w (s.g b))))) ∧
    Yields (.maxnCr d a b w) s (WritesReg s · d (outN w (max (uOf w (s.g a)) (uOf w (s.g b))))) ∧
    Yields (.sltCr d a b w) s (WritesReg s · d (if sOf w (s.g a) < sOf w (s.g b) then 1 else 0)) ∧
    Yields (.sltnCr d a b w) s (WritesReg s · d (if uOf w (s.g a) < uOf w (s.g b) then 1 else 0)) ∧
    Yields (.sltiCi d a im) s (WritesReg s · d (if (s.g a).toInt < im.toInt then 1 else 0)) ∧
    Yields (.seqCr d a b w) s (WritesReg s · d (if uOf w (s.g a) = uOf w (s.g b) then 1 else 0)) ∧
    Yields (.sneCr d a b w) s (WritesReg s · d (if uOf w (s.g a) = uOf w (s.g b) then 0 else 1)) ∧
    Yields (.cselCr d a b w) s (WritesReg s · d
      (if uOf w (s.g a) = 0 then outS w (uOf w (s.g d)) else outS w (uOf w (s.g b)))) ∧
    Yields (.movCr d a w) s (WritesReg s · d (outS w (uOf w (s.g a)))) ∧
    Yields (.moviCi d im) s (WritesReg s · d (im.signExtend 64)) ∧
    Yields (.movkCi d k im) s (fun t => ∃ v : Double, WritesReg s t d v ∧ ∀ i < 64,
      v.getLsbD i = if 16 * k.val ≤ i ∧ i < 16 * k.val + 16 then im.getLsbD (i - 16 * k.val) else (s.g d).getLsbD i) ∧
    Yields (.extsCr d a x w) s (WritesReg s · d (outS w ((s.g a).truncate (XWidth.bits x)).toInt)) ∧
    Yields (.extzCr d a x w) s (WritesReg s · d (outN w ((s.g a).truncate (XWidth.bits x)).toNat)) ∧
    Yields (.bfiCr d a b l) s (fun t => ∃ v : Double, WritesReg s t d v ∧ ∀ i < 64,
      let p := (s.g b).toNat % 64
      v.getLsbD i = if p ≤ i ∧ i < p + (l.val + 1) then (s.g a).getLsbD (i - p) else (s.g d).getLsbD i))

/-- Each branch compares the full 64 bits of ga and gb, goes to PC + 4 times the sign-extended offset when its condition
holds and to PC + 4 otherwise (R191), and changes nothing but the PC of its core. -/
def Obligations.BranchesGoWhereTheSpecSays : Prop :=
  ∀ (s : State) (a b : Fin 32) (o : BitVec 14),
    let goes := fun (c : Prop) (t : State) => OnlyCore s t ∧
      (c → t.cc = { s.cc with pc := s.cc.pc + 4 * o.signExtend 64 }) ∧ (¬ c → t.cc = { s.cc with pc := s.cc.pc + 4 })
    Yields (.beq a b o) s (goes (s.g a = s.g b)) ∧
    Yields (.bne a b o) s (goes (s.g a ≠ s.g b)) ∧
    Yields (.blt a b o) s (goes ((s.g a).toInt < (s.g b).toInt)) ∧
    Yields (.bge a b o) s (goes ((s.g a).toInt ≥ (s.g b).toInt)) ∧
    Yields (.bltn a b o) s (goes ((s.g a).toNat < (s.g b).toNat)) ∧
    Yields (.bgen a b o) s (goes ((s.g a).toNat ≥ (s.g b).toNat))

/-- JMP goes to PC + 4 times the sign-extended 24-bit offset; JAL writes PC + 4 to g31 and goes to the same target; JR goes
to ga, and traps ALIGN at the JR with EVAL = ga when ga[1:0] is not zero (R192). Nothing else changes. -/
def Obligations.JumpsGoWhereTheSpecSays : Prop :=
  ∀ (s : State) (a : Fin 32) (o : BitVec 24),
    Yields (.jmp o) s (fun t => OnlyCore s t ∧ t.cc = { s.cc with pc := s.cc.pc + 4 * o.signExtend 64 }) ∧
    Yields (.jal o) s (fun t => OnlyCore s t ∧ t.g 31 = s.cc.pc + 4 ∧ (∀ r, r ≠ 31 → t.g r = s.g r) ∧
      t.cc = { s.cc with g := t.cc.g, pc := s.cc.pc + 4 * o.signExtend 64 }) ∧
    ((s.g a).toNat % 4 = 0 → Yields (.jr a) s (fun t => OnlyCore s t ∧ t.cc = { s.cc with pc := s.g a })) ∧
    ((s.g a).toNat % 4 ≠ 0 → Yields (.jr a) s (Traps s · .align 0x15 (s.g a)))

/-- An undecodable word, a failed fetch and an enabled pending event take a trap: EPC receives the PC, CAUSE its code (and
INFO, and the INTR bit for an interrupt only), EVAL its value, PIE and PMODE the old IE and MODE, IE becomes 0, the mode is
host mode and the PC is HVEC; nothing else changes. INFO of an interrupt is the lowest event that is pending and enabled. -/
def Obligations.TrapEntrySavesAndEntersHostMode : Prop :=
  ∀ s : State,
    Yields .illegal s (Traps s · .illegal 0 (dbl s.sched.arg.value)) ∧
    Yields .fetch s (Traps s · .fetch s.sched.arg.m s.cc.pc) ∧
    (∀ b < 5, s.cc.events.getLsbD b = true → s.cc.iemask.getLsbD b = true →
      (∀ e < b, ¬ (s.cc.events.getLsbD e = true ∧ s.cc.iemask.getLsbD e = true)) →
      Yields .interrupt s (Traps s · .intr b 0)) ∧
    ∀ (t : State) (c : Cause) (info : Nat) (v : Double), Traps s t c info v → info < 2 ^ 16 →
      t.cc.epc = s.cc.pc ∧ t.cc.pc = s.cc.hvec ∧ t.cc.eval = v ∧ t.cc.mode = true ∧ t.cc.ie = false ∧
        t.cc.pmode = s.cc.mode ∧ t.cc.pie = s.cc.ie ∧ t.cc.cause.toNat % 256 = c.code ∧
        t.cc.cause.toNat / 2 ^ 16 = info ∧ (t.cc.cause.getLsbD 8 = true ↔ c = .intr)

/-- A core in partition mode traps PRIV at ERET, at WFE, at QPOP, and at an SRR or SRW of a register marked H (CURVF may be
read). In host mode ERET sets PC to EPC, MODE to PMODE and IE to PIE in one step; WFE goes on to the next instruction when
EVENTS & IEMASK is not zero, and otherwise waits at its own address. -/
def Obligations.PrivilegedFormsTrapInPartitionMode : Prop :=
  ∀ (s : State) (d a : Fin 32),
    (s.cc.mode = false →
      Yields .eret s (Traps s · .priv 0 0) ∧ Yields .wfe s (Traps s · .priv 0 0) ∧
      Yields (.qpop d a) s (Traps s · .priv 0 0) ∧
      (∀ r ∈ [SysReg.status, .epc, .cause, .eval, .hvec, .events, .iemask],
        Yields (.srr d r) s (Traps s · .priv 0 0) ∧ Yields (.srw d r) s (Traps s · .priv 0 0)) ∧
      Yields (.srw d .curvf) s (Traps s · .priv 0 0)) ∧
    (s.cc.mode = true →
      Yields .eret s (fun t => OnlyCore s t ∧ t.cc = { s.cc with pc := s.cc.epc, status := t.cc.status } ∧
        t.cc.mode = s.cc.pmode ∧ t.cc.ie = s.cc.pie)) ∧
    (s.cc.mode = true → (∃ b < 5, s.cc.events.getLsbD b = true ∧ s.cc.iemask.getLsbD b = true) →
      Yields .wfe s (fun t => OnlyCore s t ∧ t.cc = { s.cc with pc := s.cc.pc + 4, wfe := false })) ∧
    (s.cc.mode = true → (∀ b < 5, ¬ (s.cc.events.getLsbD b = true ∧ s.cc.iemask.getLsbD b = true)) →
      Yields .wfe s (fun t => OnlyCore s t ∧ t.cc = { s.cc with wfe := true }))

/-- In host mode for every register of R183, and in partition mode for those not marked H (CURVF included), SRR puts the
register's value into gd with the frame of WritesReg: it changes no system register. -/
def Obligations.SystemRegistersReadAsTheTableSays : Prop :=
  ∀ (s : State) (d : Fin 32) (r : SysReg),
    (s.cc.mode = true ∨ r ∈ [SysReg.curvf, .coreno, .snkflag, .knottab, .knotcnt, .knotreg, .hfree, .cycle]) →
    Yields (.srr d r) s (fun t => ∃ v, WritesReg s t d v ∧
      (r = .status → v = s.cc.status) ∧ (r = .epc → v = s.cc.epc) ∧ (r = .cause → v = s.cc.cause) ∧
      (r = .eval → v = s.cc.eval) ∧ (r = .hvec → v = s.cc.hvec) ∧ (r = .curvf → v = s.cc.curvf.zeroExtend 64) ∧
      (r = .coreno → v.toNat = s.sched.curCore.val) ∧ (r = .events → v = s.cc.events.zeroExtend 64) ∧
      (r = .iemask → v = s.cc.iemask) ∧ (r = .snkflag → v = s.cc.snkflag.zeroExtend 64) ∧
      (r = .cycle → v = s.clk.cycle) ∧
      ∀ n, s.cc.curVf = some n →
        (r = .knottab → v = (s.vf n).knottab) ∧ (r = .knotcnt → v = (s.vf n).knotcnt.zeroExtend 64))

/-- In host mode SRW writes the registers marked H with reserved bits zero: STATUS its four bits, CAUSE its fields, HVEC with
bits [1:0] zero, CURVF its eight bits with the range entries of the function that it names (none when VALID is 0 or RANGEBASE
is 0), a poisoned entry of which traps MEMFAULT and a page of which may be awaited (log entry 16); EVENTS loses the bits
written as one, and IEMASK keeps all 64 (the model's choice, log entry 47). In either mode the read-only CORENO and CYCLE
keep their value, SNKFLAG takes its two bits, KNOTTAB (16-byte aligned) and KNOTCNT are those of the function that CURVF
names and no other's, HFREE releases exactly the record of the handle among those of that function (log entry 39), KNOTREG
discards exactly what the engines keep of the index, and with CURVF not valid these four change nothing. Every form goes on
to the next instruction. The steps of the opcode table that stand for a write of EVENTS, CURVF, KNOTREG or HFREE answer a
next state in which exactly that write has happened: the written events are cleared, the function is changed with its range
entries and its meter site starts anew, what the engines keep of the index is gone, the record of the handle (of CURVF's
function, log entry 39) is released. -/
def Obligations.SystemRegistersAreWritten : Prop :=
  (∀ (s : State) (d : Fin 32),
    let x := s.g d
    let core := fun (k : Core) (t : State) => OnlyCore s t ∧ t.cc = { k with pc := s.cc.pc + 4 }
    (s.cc.mode = true →
      Yields (.srw d .status) s (core { s.cc with status := BitVec.ofNat 64 (x.toNat % 16) }) ∧
      Yields (.srw d .epc) s (core { s.cc with epc := x }) ∧
      Yields (.srw d .cause) s (core { s.cc with cause := x &&& 0xFFFF01FF }) ∧
      Yields (.srw d .eval) s (core { s.cc with eval := x }) ∧
      Yields (.srw d .hvec) s (core { s.cc with hvec := BitVec.ofNat 64 (x.toNat / 4 * 4) }) ∧
      Yields (.srw d .events) s (core { s.cc with events := s.cc.events &&& ~~~(x.truncate 5) }) ∧
      Yields (.srw d .iemask) s (core { s.cc with iemask := x }) ∧
      (x.toNat / 128 % 2 = 0 →
        Yields (.srw d .curvf) s (core { s.cc with curvf := x.truncate 8, ranges := [], site := [] })) ∧
      (x.toNat / 128 % 2 = 1 →
        (∀ l u, s.rangeTable (coreDie s.sched.curCore) (x.toNat % 128) = .ok l u → Yields (.srw d .curvf) s (fun t =>
          OnlyCore u t ∧ t.cc = { u.cc with curvf := x.truncate 8, ranges := l, site := [], pc := u.cc.pc + 4 })) ∧
        (∀ u, s.rangeTable (coreDie s.sched.curCore) (x.toNat % 128) = .wait u → exec (.srw d .curvf) s = .next u) ∧
        (∀ c a u, s.rangeTable (coreDie s.sched.curCore) (x.toNat % 128) = .fail c a u →
          Yields (.srw d .curvf) s (Traps u · .memfault 0x60 (s.vf (x.toNat % 128)).rangebase)) ∧
        ((s.vf (x.toNat % 128)).rangebase = 0 →
          Yields (.srw d .curvf) s (core { s.cc with curvf := x.truncate 8, ranges := [], site := [] })))) ∧
    Yields (.srw d .coreno) s (core s.cc) ∧
    Yields (.srw d .cycle) s (core s.cc) ∧
    Yields (.srw d .snkflag) s (core { s.cc with snkflag := x.truncate 2 }) ∧
    (s.cc.curVf = none → ∀ r ∈ [SysReg.knottab, .knotcnt, .knotreg, .hfree], Yields (.srw d r) s (core s.cc)) ∧
    ∀ v, s.cc.curVf = some v →
      Yields (.srw d .knottab) s (fun t => (t.vf v).knottab = BitVec.ofNat 64 (x.toNat / 16 * 16) ∧
        (∀ w, w ≠ v → t.vf w = s.vf w) ∧ t.cc = { s.cc with pc := s.cc.pc + 4 }) ∧
      (x.toNat ≤ 65536 → Yields (.srw d .knotcnt) s (fun t => (t.vf v).knotcnt.toNat = x.toNat ∧
        (∀ w, w ≠ v → t.vf w = s.vf w) ∧ t.cc = { s.cc with pc := s.cc.pc + 4 })) ∧
      Yields (.srw d .hfree) s (fun t =>
        (∀ r, r ∈ t.prick.roots ↔ r ∈ s.prick.roots ∧ ¬ (r.handle = x.toNat ∧ r.vf = v)) ∧
        t.cc = { s.cc with pc := s.cc.pc + 4 } ∧ t.mm = s.mm ∧ t.host = s.host ∧ t.fab = s.fab) ∧
      Yields (.srw d .knotreg) s (fun t =>
        (∀ e : Fin 2, (t.eng e).knots = (s.eng e).knots.filter (fun k => !(decide (k.vf = v ∧ k.idx = x.toNat))) ∧
          (t.eng e).bad = (s.eng e).bad.filter (fun k => !(decide (k.vf = v ∧ k.idx = x.toNat)))) ∧
        t.cc = { s.cc with pc := s.cc.pc + 4 } ∧ t.mm = s.mm ∧ t.host = s.host ∧ t.fab = s.fab)) ∧
  (∀ s : State,
    let x := s.sched.arg.value
    Yields .eventsClear s (fun t => OnlyCore s t ∧
      t.cc = { s.cc with events := s.cc.events &&& ~~~(BitVec.ofNat 5 x) }) ∧
    (x / 128 % 2 = 0 →
      Yields .curvfWrite s (fun t => OnlyCore s t ∧
        t.cc = { s.cc with curvf := BitVec.ofNat 8 x, ranges := [], site := [] })) ∧
    (x / 128 % 2 = 1 → ∀ l u, s.rangeTable (coreDie s.sched.curCore) (x % 128) = .ok l u →
      Yields .curvfWrite s (fun t => OnlyCore u t ∧
        t.cc = { u.cc with curvf := BitVec.ofNat 8 x, ranges := l, site := [] })) ∧
    ∀ v, s.cc.curVf = some v → x < 2 ^ 64 →
      Yields .knotreg s (fun t =>
        (∀ e : Fin 2, (t.eng e).knots = (s.eng e).knots.filter (fun k => !(decide (k.vf = v ∧ k.idx = x))) ∧
          (t.eng e).bad = (s.eng e).bad.filter (fun k => !(decide (k.vf = v ∧ k.idx = x)))) ∧
        t.cores = s.cores ∧ t.mm = s.mm ∧ t.host = s.host ∧ t.fab = s.fab) ∧
      Yields .hfree s (fun t =>
        (∀ r, r ∈ t.prick.roots ↔ r ∈ s.prick.roots ∧ ¬ (r.handle = x ∧ r.vf = v)) ∧
        t.cores = s.cores ∧ t.mm = s.mm ∧ t.host = s.host ∧ t.fab = s.fab))

/-- LDG of 1, 2, 4 or 8 bytes traps ALIGN with EVAL = A when A is not naturally aligned; in host mode it puts the
zero-extended bytes of the core's local memory, or, beyond it and outside the register window, those of memory when neither
the store buffer nor the L1 holds them; in general it puts what the core's read of the address gives, and it traps or waits
as that read does. It waits while a store that stands before an STGF or a GFENCE is still buffered (R189). Memory and the
other registers are as before. -/
def Obligations.CoreLoadsReadTheBytesOfTheirAddress : Prop :=
  ∀ (s : State) (d a : Fin 32) (o : BitVec 12) (z : Size),
    let n := sizeBytes z
    let va := (s.g a + o.signExtend 64).toNat
    (va % n ≠ 0 → Yields (.ldg d a o z) s (Traps s · .align 0x15 (BitVec.ofNat 64 va))) ∧
    (va % n = 0 → s.cc.barred = true → exec (.ldg d a o z) s = .next s) ∧
    (va % n = 0 → s.cc.barred = false → s.cc.mode = true → va < 0x10000 →
      Yields (.ldg d a o z) s (WritesReg s · d (BitVec.ofNat 64 (Mem.read s.cc.lm va n)))) ∧
    (va % n = 0 → s.cc.mode = true → 0x10000 ≤ va → ¬ (windowBase ≤ va ∧ va < windowBase + 0x100000) →
      s.physOk va = true → s.portWaits va = false → s.cc.sb = [] → (∀ l ∈ s.cc.l1, l.pa ≠ va / 128) →
      homeDie va = coreDie s.sched.curCore → s.poisoned va n = false →
      Yields (.ldg d a o z) s (fun t => t.g d = (if d = 0 then 0 else BitVec.ofNat 64 (Mem.read s.mm.mem va n)) ∧
        (∀ r, r ≠ d → t.g r = s.g r) ∧ t.cc = { s.cc with g := t.cc.g, l1 := t.cc.l1, pc := s.cc.pc + 4 } ∧
        (∀ c, c ≠ s.sched.curCore → t.core c = s.core c) ∧ ∀ b, Mem.get t.mm.mem b = Mem.get s.mm.mem b)) ∧
    (∀ v u, s.coreRead va n = .ok v u → Yields (.ldg d a o z) s (WritesReg u · d (BitVec.ofNat 64 v))) ∧
    (∀ u, s.coreRead va n = .out u → exec (.ldg d a o z) s = .next u)

/-- STG of 1, 2, 4 or 8 bytes traps ALIGN when misaligned and PRIV at the intake slots; in host mode below 0xC000 it writes
exactly the bytes A to A + n - 1 of the core's local memory; an address that leads to memory puts the store into the buffer
of 16 entries, changes no byte of memory at once, and waits while the buffer is full; an address in the register window
writes that register; a failed translation takes its trap. -/
def Obligations.CoreStoresWriteTheBytesOfTheirAddress : Prop :=
  ∀ (s : State) (d a : Fin 32) (o : BitVec 12) (z : Size),
    let n := sizeBytes z
    let va := (s.g a + o.signExtend 64).toNat
    let x := (s.g d).toNat % 256 ^ n
    (va % n ≠ 0 → Yields (.stg d a o z) s (Traps s · .align 0x15 (BitVec.ofNat 64 va))) ∧
    (va % n = 0 → s.cc.mode = true → 0xC000 ≤ va → va ≤ 0xFFFF → Yields (.stg d a o z) s (Traps s · .priv 0 0)) ∧
    (va % n = 0 → s.cc.mode = true → va < 0xC000 →
      Yields (.stg d a o z) s (fun t => OnlyCore s t ∧
        t.cc = { s.cc with lm := t.cc.lm, fetchOld := t.cc.fetchOld, pc := s.cc.pc + 4 } ∧
        (∀ b, b < va ∨ va + n ≤ b → Mem.get t.cc.lm b = Mem.get s.cc.lm b) ∧
        (Memory.wf s.cc.lm = true → Memory.wf t.cc.lm = true ∧ Mem.read t.cc.lm va n = x))) ∧
    (∀ pa vf fe u, va % n = 0 → s.atSlots va = false → s.coreRef va 2 = (.mem pa vf fe, u) →
      (u.cc.sb.length < 16 → Yields (.stg d a o z) s (fun t => OnlyCore u t ∧
        t.cc = { u.cc with
          sb := u.cc.sb ++ [{ va := va, n := n, value := x, pa := pa, vf := vf, pc := u.cc.pc }]
          l1 := t.cc.l1
          fetchOld := t.cc.fetchOld
          pc := s.cc.pc + 4 } ∧
        ∀ b, Mem.get t.mm.mem b = Mem.get s.mm.mem b)) ∧
      (16 ≤ u.cc.sb.length → exec (.stg d a o z) s = .next u)) ∧
    (∀ off u, va % n = 0 → s.atSlots va = false → s.coreRef va 2 = (.window off, u) →
      Yields (.stg d a o z) s (fun t => t = (u.windowStore off n x).cnext)) ∧
    (∀ c i v u, va % n = 0 → s.atSlots va = false → s.coreRef va 2 = (.trap c i v, u) →
      Yields (.stg d a o z) s (Traps u · c i v))

/-- In host mode, on memory of the core's own die and with no store buffered before a fence, a load of the size and address
of the store before it puts the stored bytes zero-extended, whatever else the store buffer and the L1 hold: the core's
accesses to one address take effect in program order. -/
def Obligations.CoreStoreThenLoadReturnsTheValue : Prop :=
  ∀ (s t : State) (d e a : Fin 32) (o : BitVec 12) (z : Size),
    let n := sizeBytes z
    let va := (s.g a + o.signExtend 64).toNat
    s.cc.mode = true → va % n = 0 → 0x10000 ≤ va → ¬ (windowBase ≤ va ∧ va < windowBase + 0x100000) → s.physOk va = true →
    s.portWaits va = false → s.cc.barred = false → s.cc.sb.length < 16 → homeDie va = coreDie s.sched.curCore → s.poisoned va n = false →
    exec (.stg d a o z) s = .next t → e ≠ 0 →
    Yields (.ldg e a o z) t (fun u => u.g e = BitVec.ofNat 64 ((s.g d).toNat % 256 ^ n))

/-- LDGF and STGF trap ALIGN when A is not a multiple of 8, and FEPAGE on pages not marked F/E, and on local memory, the
window and physical addresses (the model's choice, log entry 47). On an F/E page LDGF of a full granule puts its 8 bytes,
empties the granule in the .c form only and acquires (the L1 is empty afterwards: log entry 12), and LDGF of an empty granule
waits, as it does while a store that stands before an STGF or a GFENCE is buffered (R189); STGF enters the store buffer as a
release behind the core's earlier accesses, before which no later load is performed, or waits while it is full. Neither
changes a byte of memory at once. -/
def Obligations.SynchronisingAccessesOfCores : Prop :=
  ∀ (s : State) (d a : Fin 32) (o : BitVec 12) (c : Bool),
    let va := (s.g a + o.signExtend 64).toNat
    (va % 8 ≠ 0 → Yields (.ldgf d a o c) s (Traps s · .align 0x15 (BitVec.ofNat 64 va)) ∧
      Yields (.stgf d a o) s (Traps s · .align 0x15 (BitVec.ofNat 64 va))) ∧
    (va % 8 = 0 → s.cc.barred = true → exec (.ldgf d a o c) s = .next s) ∧
    (va % 8 = 0 → s.cc.mode = true → va < 0x10000 →
      (s.cc.barred = false → Yields (.ldgf d a o c) s (Traps s · .fepage 0 (BitVec.ofNat 64 va))) ∧
      Yields (.stgf d a o) s (Traps s · .fepage 0 (BitVec.ofNat 64 va))) ∧
    (∀ pa vf off u, va % 8 = 0 → s.cc.barred = false → s.coreRef va 1 = (.mem pa vf false, u) ∨ s.coreRef va 1 = (.window off, u) →
      Yields (.ldgf d a o c) s (Traps u · .fepage 0 (BitVec.ofNat 64 va))) ∧
    (∀ pa vf off u, va % 8 = 0 → s.coreRef va 2 = (.mem pa vf false, u) ∨ s.coreRef va 2 = (.window off, u) →
      Yields (.stgf d a o) s (Traps u · .fepage 0 (BitVec.ofNat 64 va))) ∧
    (∀ e i v u, va % 8 = 0 → s.cc.barred = false → s.coreRef va 1 = (.trap e i v, u) → Yields (.ldgf d a o c) s (Traps u · e i v)) ∧
    (∀ e i v u, va % 8 = 0 → s.coreRef va 2 = (.trap e i v, u) → Yields (.stgf d a o) s (Traps u · e i v)) ∧
    (∀ pa vf u, va % 8 = 0 → s.cc.barred = false → s.coreRef va 1 = (.mem pa vf true, u) → u.cc.buffered (pa / 16 * 16) 16 = false →
      u.poisoned pa 8 = false →
      (pa / 16 ∈ u.mm.fe → Yields (.ldgf d a o c) s (fun t =>
        t.g d = (if d = 0 then 0 else BitVec.ofNat 64 (Mem.read s.mm.mem pa 8)) ∧ (∀ r, r ≠ d → t.g r = s.g r) ∧
        t.cc.pc = s.cc.pc + 4 ∧ t.cc.l1 = [] ∧ (∀ g, g ∈ t.mm.fe ↔ g ∈ u.mm.fe ∧ ¬ (c = true ∧ g = pa / 16)) ∧
        ∀ b, Mem.get t.mm.mem b = Mem.get s.mm.mem b)) ∧
      (pa / 16 ∉ u.mm.fe → exec (.ldgf d a o c) s = .next u)) ∧
    (∀ pa vf u, va % 8 = 0 → s.coreRef va 2 = (.mem pa vf true, u) →
      (u.cc.sb.length < 16 → Yields (.stgf d a o) s (fun t => OnlyCore u t ∧ t.cc.pc = s.cc.pc + 4 ∧
        t.cc.sb = u.cc.sb.map (fun e => { e with barred := true }) ++
          [{ va := va, n := 8, value := (s.g d).toNat, pa := pa, vf := vf, sync := true, before := s.cc.before, pc := s.cc.pc }] ∧
        (∀ r, t.g r = s.g r) ∧ ∀ b, Mem.get t.mm.mem b = Mem.get s.mm.mem b)) ∧
      (16 ≤ u.cc.sb.length → exec (.stgf d a o) s = .next u))

/-- GFENCE goes on when the core's earlier accesses that its kind orders are performed at its scope (a rel or full fence of a
wider scope than FIRING never with a store still buffered, any fence when nothing is outstanding), makes buffered instruction
words visible to fetches, keeps later loads behind the stores before it (R189), and empties the L1 for acq and full at DIE or
wider; otherwise it waits. GAMO traps ALIGN or PRIV as the spec says; in local memory and at the home of a memory address it
puts the old value, sign-extended except for MINN, MAXN and FADD, and writes exactly its n bytes with the combination of that
value and gb; it waits while a store before a fence is buffered, and a .rel waits until what it covers is performed. -/
def Obligations.FencesAndAtomicsOfCores : Prop :=
  ∀ (s : State) (d a b : Fin 32) (k : FenceKind) (sc : Scope) (w : Width) (q : GOrder) (op : GamoOp),
    let va := (s.g a).toNat
    let n := widthBytes w
    (s.gfenceMet s.sched.curCore k sc = true → Yields (.gfence k sc) s (fun t => OnlyCore s t ∧
      t.cc = { s.cc with
        sb := s.cc.sb.map (fun e => { e with barred := true }), fetchOld := [], l1 := if k ≠ .rel ∧ sc ≠ .firing then [] else s.cc.l1, pc := s.cc.pc + 4 })) ∧
    (s.gfenceMet s.sched.curCore k sc = false → exec (.gfence k sc) s = .next s) ∧
    (sc ≠ .firing → k ≠ .acq → s.cc.sb ≠ [] → s.gfenceMet s.sched.curCore k sc = false) ∧
    (s.cc.sb = [] → s.cc.before = [] → s.mm.accesses = [] → s.gfenceMet s.sched.curCore k sc = true) ∧
    (va % n ≠ 0 → Yields (.gamo d a b w q op) s (Traps s · .align 0x15 (BitVec.ofNat 64 va))) ∧
    (va % n = 0 → s.cc.mode = true → 0xC000 ≤ va → va ≤ 0xFFFF → Yields (.gamo d a b w q op) s (Traps s · .priv 0 0)) ∧
    (va % n = 0 → s.atSlots va = false → s.cc.barred = true → exec (.gamo d a b w q op) s = .next s) ∧
    (va % n = 0 → s.cc.barred = false → s.cc.mode = true → va < 0xC000 → (q = .rel → s.coreDone s.sched.curCore .system = true) →
      let old := Mem.read s.cc.lm va n
      let new := gamoNew op n old ((s.g b).toNat % 256 ^ n)
      Yields (.gamo d a b w q op) s (fun t => OnlyCore s t ∧
        t.g d = (if d = 0 then 0 else if op ∈ [GamoOp.minn, .maxn, .fadd] then BitVec.ofNat 64 old
          else (BitVec.ofNat (8 * n) old).signExtend 64) ∧
        (∀ r, r ≠ d → t.g r = s.g r) ∧ t.cc.pc = s.cc.pc + 4 ∧
        (∀ p, p < va ∨ va + n ≤ p → Mem.get t.cc.lm p = Mem.get s.cc.lm p) ∧
        (Memory.wf s.cc.lm = true → Mem.read t.cc.lm va n = new % 256 ^ n))) ∧
    (va % n = 0 → s.atSlots va = false → q = .rel → s.coreDone s.sched.curCore .system = false →
      exec (.gamo d a b w q op) s = .next s) ∧
    (∀ old u, va % n = 0 → s.atSlots va = false → s.cc.barred = false → (q = .rel → s.coreDone s.sched.curCore .system = true) →
      s.gamoAt va n ((s.g b).toNat % 256 ^ n) q op = .ok old u → Yields (.gamo d a b w q op) s (fun t => WritesReg u t d
        (if op ∈ [GamoOp.minn, .maxn, .fadd] then BitVec.ofNat 64 old else (BitVec.ofNat (8 * n) old).signExtend 64))) ∧
    (∀ pa vf fe u, va % n = 0 → s.atSlots va = false → s.cc.barred = false → (q = .rel → s.coreDone s.sched.curCore .system = true) →
      s.coreRef va 2 = (.mem pa vf fe, u) → u.cc.buffered pa n = false → u.poisoned pa n = false →
      let old := Mem.read s.mm.mem pa n
      Yields (.gamo d a b w q op) s (fun t =>
        t.g d = (if d = 0 then 0 else if op ∈ [GamoOp.minn, .maxn, .fadd] then BitVec.ofNat 64 old
          else (BitVec.ofNat (8 * n) old).signExtend 64) ∧
        (∀ r, r ≠ d → t.g r = s.g r) ∧ t.cc.pc = s.cc.pc + 4 ∧ t.cc.lm = s.cc.lm ∧ t.mm.fe = u.mm.fe ∧
        (∀ p, p < pa ∨ pa + n ≤ p → Mem.get t.mm.mem p = Mem.get s.mm.mem p) ∧
        (Memory.wf s.mm.mem = true →
          Mem.read t.mm.mem pa n = gamoNew op n old ((s.g b).toNat % 256 ^ n) % 256 ^ n)))

/-- AADD wraps modulo 2^(8n), AMIN and AMAX compare signed and AMINN and AMAXN natural values of n bytes, the logic is
bitwise, AXCHG writes the operand, AFADD the FP32 encoding of the exact sum rounded once, ACAS writes only where the old
value equals the low n bytes of its expected operand, and the combinations of GAMO are the same. -/
def Obligations.AtomicCombinationsAreThoseOfTheSpec : Prop :=
  ∀ (n old v : Nat), n ∈ [4, 8] → old < 256 ^ n → v < 256 ^ n →
    let sg := fun (x : Nat) => (BitVec.ofNat (8 * n) x).toInt
    amoNew .add n old v = some ((old + v) % 2 ^ (8 * n)) ∧
    (∃ x, amoNew .min n old v = some x ∧ (x = old ∨ x = v) ∧ sg x = min (sg old) (sg v)) ∧
    (∃ x, amoNew .max n old v = some x ∧ (x = old ∨ x = v) ∧ sg x = max (sg old) (sg v)) ∧
    amoNew .minn n old v = some (min old v) ∧ amoNew .maxn n old v = some (max old v) ∧
    amoNew .and n old v = some (old &&& v) ∧ amoNew .or n old v = some (old ||| v) ∧ amoNew .xor n old v = some (old ^^^ v) ∧
    amoNew .xchg n old v = some v ∧ amoNew .fadd n old v = some (gamoNew .fadd n old v) ∧
    (n = 4 → ∃ z, IsSum false (f32Spec.decode old) (f32Spec.decode v) z ∧ amoNew .fadd n old v = some (toF32 z)) ∧
    (∀ e : Double, amoNew (.cas e) n old v = if old = e.toNat % 2 ^ (8 * n) then some v else none) ∧
    gamoNew .add n old v = (old + v) % 2 ^ (8 * n) ∧ sg (gamoNew .min n old v) = min (sg old) (sg v) ∧
    sg (gamoNew .max n old v) = max (sg old) (sg v) ∧ gamoNew .minn n old v = min old v ∧ gamoNew .maxn n old v = max old v ∧
    gamoNew .and n old v = old &&& v ∧ gamoNew .or n old v = old ||| v ∧ gamoNew .xor n old v = old ^^^ v ∧
    gamoNew .xchg n old v = v ∧ gamoNew .fadd n old v = fp32Add old v

/-- LNCH checks CURVF, ENABLE, the parameter block, the entry and the number of records in the order of R196 and puts bit 63
with the code; otherwise it creates a root record of lineage 1 on the die that the handle names and a QUEUED root instance
with the class and thread of the block, queues it at every die on which it may be placed, and puts the handle. At the first
use of the index the entry is read and the image is read and validated; an image found bad or not yet readable does not keep
the launch from being queued. It traps or waits as its read of the block does, and waits for the entry's page. -/
def Obligations.LaunchesAreQueuedOrRefused : Prop :=
  ∀ (s : State) (d a b : Fin 32),
    let puts := fun (u : State) (code : Nat) (t : State) => WritesReg u t d (BitVec.ofNat 64 (2 ^ 63 + code))
    (s.cc.curVf = none → Yields (.lnch d a b) s (puts s 0xE2)) ∧
    ∀ v, s.cc.curVf = some v →
      ((s.vf v).enable = false → Yields (.lnch d a b) s (puts s 0xE3)) ∧
      ((s.vf v).enable = true → ∀ u, s.coreRead (s.g b).toNat 8 = .out u → exec (.lnch d a b) s = .next u) ∧
      ((s.vf v).enable = true → ∀ p u, s.coreRead (s.g b).toNat 8 = .ok p u →
        let bad := fld p 35 13 ≠ 0 ∨ fld p 0 32 ≠ 0 ∨ fld p 48 2 = 3
        let idx := (s.g a).toNat
        let home := parHome p (coreDie s.sched.curCore)
        let launched := fun (x : State) =>
          (1024 ≤ x.rootsOf v → Yields (.lnch d a b) s (puts x 0xE0)) ∧
          (x.rootsOf v < 1024 → ∀ id q, x.rootId (x.vf v).launchSeq.toNat = (some id, q) →
            let h := (x.vf v).launchSeq.toNat * 2 ^ 32 + home.val * 2 ^ 18 + id
            Yields (.lnch d a b) s (fun t =>
              t.g d = (if d = 0 then 0 else BitVec.ofNat 64 h) ∧ (∀ r, r ≠ d → t.g r = x.g r) ∧ t.cc.pc = x.cc.pc + 4 ∧
              (∃ r, t.prick.roots = x.prick.roots ++ [r] ∧ r.handle = h ∧ r.vf = v ∧ r.die = home ∧ r.inst = id ∧
                r.core = s.sched.curCore.val ∧ r.lineage = 1 ∧ r.retired = false ∧ r.status = 0) ∧
              (∃ i, t.prick.insts = x.prick.insts ++ [i] ∧ i.id = id ∧ i.vf = v ∧ i.st = .queued ∧ i.root = h ∧
                i.kidx = idx ∧ i.cls = fld p 50 2 ∧ i.thread = fld p 52 12) ∧
              ∀ e ∈ parDies p, id ∈ (t.eng e).queue))
        (bad → Yields (.lnch d a b) s (puts u 0xE1)) ∧
        (¬ bad → (u.vf v).knotcnt.toNat ≤ idx → Yields (.lnch d a b) s (puts u 0x30)) ∧
        (¬ bad → idx < (u.vf v).knotcnt.toNat →
          (∀ k, u.copy? home v idx = some k → launched (u.putCopy home k)) ∧
          (∀ k, u.copy? home v idx = none → u.badKnot? home v idx = some k →
            (k.code = 0x30 → Yields (.lnch d a b) s (puts u 0x30)) ∧ (k.code ≠ 0x30 → launched u)) ∧
          (u.copy? home v idx = none → u.badKnot? home v idx = none →
            (∀ w, u.knotEntry home v idx = .wait w → exec (.lnch d a b) s = .next w) ∧
            (∀ e w, u.knotEntry home v idx = .ok (e, false) w →
              Yields (.lnch d a b) s (puts (w.keepBad home v idx 0x30 0) 0x30)) ∧
            (∀ c i w, u.knotEntry home v idx = .fail c i w → launched w) ∧
            ∀ e w, u.knotEntry home v idx = .ok (e, true) w →
              (∀ m x, w.fetchImage home v e = .ok m x → launched (x.putCopy home ⟨v, idx, m, 0, true⟩)) ∧
              (∀ x, w.fetchImage home v e = .wait x → launched x) ∧
              ∀ c i x, w.fetchImage home v e = .fail c i x → c ≠ 0x30 → launched (x.keepBad home v idx c i))))

/-- INJ waits until the core's accesses are performed at DEVICE scope. For a handle that names no record of CURVF, an
instance that has ended and an entry beyond NENTRY of a placed instance it sends nothing and reports INSTANCE_STALE (0x32) to
the partition of CURVF, as a record of SOURCE 4 with the core, the context slot (0 where there is none) and the instance id
of the handle; a placed instance gets one word token with the value of gb on its entry, as a release of what happens before
it; an instance that is not placed gets it held in its root record, of which the 65th waits; one of a partition being saved
gets it in its save image. The core's registers are as before. -/
def Obligations.InjectionsAreSentHeldOrReported : Prop :=
  ∀ (s : State) (a b : Fin 32) (e : Fin 16),
    let stale := fun (slot : Nat) (t : State) => t.cc.pc = s.cc.pc + 4 ∧ (∀ r, t.g r = s.g r) ∧
      t.fab.tokens = s.fab.tokens ∧ t.prick = s.prick ∧
      ∀ v, s.cc.curVf = some v → t = (s.partitionFault
        { code := 0x32, source := 4, vf := some v, die := coreDie s.sched.curCore, core := s.sched.curCore.val, ctx := slot,
          inst := (s.g a).toNat % 2 ^ 18 }).cnext
    (s.coreDone s.sched.curCore .device = false → exec (.inj a b e) s = .next s) ∧
    (s.coreDone s.sched.curCore .device = true →
      (s.rootFor (s.g a) = none → Yields (.inj a b e) s (stale 0)) ∧
      ∀ r, s.rootFor (s.g a) = some r →
        (s.rootInst r = none → Yields (.inj a b e) s (stale 0)) ∧
        ∀ i, s.rootInst r = some i →
          let covers := s.coreCovers s.sched.curCore s.cc.before false
          (s.injWay r i = .hold → 64 ≤ r.held.length → exec (.inj a b e) s = .next s) ∧
          (s.injWay r i = .hold → r.held.length < 64 → Yields (.inj a b e) s (fun t => t.cc.pc = s.cc.pc + 4 ∧
            (∀ q, t.g q = s.g q) ∧ t.fab.tokens = s.fab.tokens ∧
            ∃ f, (t.root? r.handle).map (·.held) = some (r.held ++ [(e.val, f)]) ∧ f.tok.payload = .word (s.g b) ∧
              f.before = some covers)) ∧
          (s.injWay r i = .send → e.val < i.nentry → Yields (.inj a b e) s (fun t => t.cc.pc = s.cc.pc + 4 ∧
            (∀ q, t.g q = s.g q) ∧ ∃ f, t.fab.tokens = s.fab.tokens ++ [f] ∧ f.tok.payload = .word (s.g b) ∧
              f.tok = i.entryTok e.val (.word (s.g b)) (s.launchTag i) (0, false) ∧ f.before = some covers)) ∧
          (s.injWay r i = .image → e.val < i.nentry → Yields (.inj a b e) s (fun t => t.cc.pc = s.cc.pc + 4 ∧
            t.fab.tokens = s.fab.tokens ∧ ∃ f m, ((t.inst? i.id).bind (·.save)) = some m ∧
              m.toks = ((i.save.getD {}).toks) ++ [f] ∧ f.tok.payload = .word (s.g b))) ∧
          (s.injWay r i ≠ .hold → i.nentry ≤ e.val → Yields (.inj a b e) s (stale i.slot)))

/-- SNKR puts the value of the sink register at the root record and sets WRITTEN and NULL of SNKFLAG from it, or puts 0 and
clears the flags for a handle of no record (another function's record reads as none: log entry 39); KNWAIT puts 0x32 at once
for such a handle, waits while the record has not retired or a store of its instances is not performed at DEVICE scope, and
otherwise puts the status and acquires (its L1 is empty afterwards: log entry 12). -/
def Obligations.SinksAndRetirementAreRead : Prop :=
  ∀ (s : State) (d a : Fin 32) (k : Fin 8),
    (∀ r, s.rootFor (s.g a) = some r →
      Yields (.snkr d a k) s (fun t => OnlyCore s t ∧ t.g d = (if d = 0 then 0 else r.sinks[k].value) ∧
        (∀ q, q ≠ d → t.g q = s.g q) ∧
        t.cc = { s.cc with g := t.cc.g, snkflag := t.cc.snkflag, pc := s.cc.pc + 4 } ∧
        t.cc.snkflag.getLsbD 1 = r.sinks[k].written ∧ t.cc.snkflag.getLsbD 0 = r.sinks[k].null) ∧
      (r.retired = false → exec (.knwait d a) s = .next s) ∧
      (r.retired = true → (∀ u ∈ r.before, s.performed u .device (coreDie s.sched.curCore) = true) →
        Yields (.knwait d a) s (fun t => OnlyCore s t ∧ t.g d = (if d = 0 then 0 else BitVec.ofNat 64 r.status) ∧
          (∀ q, q ≠ d → t.g q = s.g q) ∧ t.cc.pc = s.cc.pc + 4 ∧ t.cc.l1 = [] ∧ ∀ u ∈ r.before, u ∈ t.cc.before)) ∧
      ((∃ u ∈ r.before, s.performed u .device (coreDie s.sched.curCore) = false) → exec (.knwait d a) s = .next s)) ∧
    (s.rootFor (s.g a) = none →
      Yields (.snkr d a k) s (fun t => OnlyCore s t ∧ t.g d = 0 ∧ (∀ q, q ≠ d → t.g q = s.g q) ∧
        t.cc = { s.cc with g := t.cc.g, snkflag := 0, pc := s.cc.pc + 4 }) ∧
      Yields (.knwait d a) s (WritesReg s · d 0x32))

/-- In host mode QPOP always completes: it takes the oldest accepted packet of the core, or the oldest of the named queue
interface when that is the core's, puts the address of its intake slot or 0, marks the slot popped and never finds that
packet again. QDONE traps QSTATE for an address that names no popped packet and PRIV for another function's, waits for the
core's accesses at SYSTEM scope and for the page of its record, and frees the slot; unless the function that the packet was
accepted for has been reset since, it has then written the 16-byte completion record of R212 with the packet number, the
status, the queue interface and the phase, or counted a record that could not be written, and the interrupt follows the
record. IRQ waits likewise, completes, and writes the data of its remap entry to the entry's address; it drops and counts a
handle beyond 16 bits, a message without a valid entry that names its sender, or with CURVF not valid in partition mode. A
message whose remap row lies behind a port that is down, or whose sending die's port is down, is held until it is up (the
model's choice, log entry 42; R469). -/
def Obligations.PacketsAreTakenAndCompleted : Prop :=
  ∀ (s : State) (d a b : Fin 32),
    (s.cc.mode = true →
      let takes := fun (n : Nat) (t : State) => OnlyCore s t ∧
        t.g d = (if d = 0 then 0 else BitVec.ofNat 64 (0xC000 + 64 * n)) ∧ (∀ r, r ≠ d → t.g r = s.g r) ∧
        t.cc.pc = s.cc.pc + 4 ∧ t.cc.lm = s.cc.lm ∧ (∀ p, p ∈ t.cc.pktq ↔ p ∈ s.cc.pktq ∧ p.2 ≠ n) ∧
        ∀ k e, Map.find s.cc.slots k = some e →
          Map.find t.cc.slots k = some (if k = n then { e with popped := true } else e)
      let named := fun (p : Nat × Nat) => (s.g a).getLsbD 8 = true ∨ p.1 = (s.g a).toNat % 256
      (∃ t, exec (.qpop d a) s = .next t) ∧
      ((s.g a).getLsbD 8 = false → (s.qi ((s.g a).toNat % 256)).core ≠ s.sched.curCore →
        Yields (.qpop d a) s (WritesReg s · d 0)) ∧
      ((∀ p ∈ s.cc.pktq, ¬ named p) → Yields (.qpop d a) s (WritesReg s · d 0)) ∧
      ((s.g a).getLsbD 8 = true ∨ (s.qi ((s.g a).toNat % 256)).core = s.sched.curCore →
        ∀ older q n younger, s.cc.pktq = older ++ (q, n) :: younger → (∀ p ∈ older, ¬ named p) → named (q, n) →
          Yields (.qpop d a) s (takes n))) ∧
    (s.cc.popped (s.g a) = none → Yields (.qdone a b) s (Traps s · .qstate 0 (s.g a))) ∧
    (∀ n e, s.cc.popped (s.g a) = some (n, e) →
      let x := s.qi e.qi
      let mine := s.cc.mode = true ∨ some x.owner = s.cc.curVf
      let freed := fun (t : State) => t.cc.slots = Map.drop s.cc.slots n ∧ t.cc.pc = s.cc.pc + 4 ∧ ∀ r, t.g r = s.g r
      let record := s.unitAccess (coreDie x.core) x.owner (x.cplbase.toNat + 16 * (e.number % x.ring)) true
        (some x.pasid) (.completion e.qi)
      (¬ mine → Yields (.qdone a b) s (Traps s · .priv 0 0)) ∧
      (mine → s.coreDone s.sched.curCore .system = false → exec (.qdone a b) s = .next s) ∧
      (mine → s.coreDone s.sched.curCore .system = true →
        (e.gen ≠ (s.vf e.vf).gen → Yields (.qdone a b) s (fun t => freed t ∧ t.mm = s.mm)) ∧
        (e.gen = (s.vf e.vf).gen →
          ((∀ u, record ≠ .wait u) → Yields (.qdone a b) s freed) ∧
          (∀ u, record = .wait u → exec (.qdone a b) s = .next u) ∧
          (∀ c i u, record = .fail c i u → x.irqen = false →
            Yields (.qdone a b) s (fun t => freed t ∧ t.mm = u.mm ∧ (t.qi e.qi).cplLost = (u.qi e.qi).cplLost + 1)) ∧
          ∀ pa u, record = .ok pa u → u.physOk pa = true →
            (x.irqen = false → Yields (.qdone a b) s (fun t => freed t ∧
              (∀ p, p < pa ∨ pa + 16 ≤ p → Mem.get t.mm.mem p = Mem.get s.mm.mem p) ∧
              (Memory.wf s.mm.mem = true → Mem.read t.mm.mem pa 16 =
                (e.number % 2 ^ 64 * 2 ^ 64 + (s.g b).toNat % 2 ^ 15 * 2 ^ 48 + e.qi * 2 ^ 40 + e.number / x.ring % 2) % 256 ^ 16))) ∧
            (x.irqen = true → Yields (.qdone a b) s (fun t => freed t ∧
              t = ((((u.engineWrite x.owner pa 16 (cplRecord e.qi e.number ((s.g b).toNat % 2 ^ 15) x.ring)).slotFreed n).sendIrq
                (coreDie x.core) x.irq.toNat (some x.owner)).cnext)))))) ∧
    (s.coreDone s.sched.curCore .system = false → exec (.irq a) s = .next s) ∧
    (s.coreDone s.sched.curCore .system = true →
      let sender := if s.cc.mode = true then none else s.cc.curVf
      let row := 2 ^ 51 + s.host.irqremap.toNat / 2 ^ 20 % 2 ^ 31 * 2 ^ 20 + 16 * (s.g a).toNat
      let w := Mem.read s.mm.mem row 16
      let mine := fld w 0 1 = 1 ∧ fld w 64 2 = 0 ∧
        match sender with
        | some v => fld w 23 1 = 0 ∧ fld w 16 7 = v
        | none => fld w 23 1 = 1
      let die := coreDie s.sched.curCore
      let named := (s.g a).toNat < 2 ^ 16 ∧ (s.cc.mode = true ∨ s.cc.curVf ≠ none)
      Yields (.irq a) s (fun t => t.cc.pc = s.cc.pc + 4 ∧ ∀ r, t.g r = s.g r) ∧
      (¬ named ∨ s.host.irqremap.getLsbD 63 = false ∨ (s.portWaits row = false ∧ ¬ mine) →
        Yields (.irq a) s (fun t => t.host.irqdrop = s.host.irqdrop + 1 ∧ t.cc.pc = s.cc.pc + 4 ∧ t.mm = s.mm)) ∧
      (named → s.host.irqremap.getLsbD 63 = true → s.portWaits row = true ∨ (mine ∧ s.portDown die = true) →
        Yields (.irq a) s (fun t => t.host.irqHeld = s.host.irqHeld ++ [⟨(s.g a).toNat, sender, die⟩] ∧ t.mm = s.mm)) ∧
      (named → s.host.irqremap.getLsbD 63 = true → s.portWaits row = false → mine → fld w 64 64 < 2 ^ 51 →
        s.portDown die = false → s.physOk (2 ^ 51 + fld w 64 64) = true →
        Yields (.irq a) s (fun t => t.host.irqdrop = s.host.irqdrop ∧ t.cc.pc = s.cc.pc + 4 ∧
          (∀ p, p < 2 ^ 51 + fld w 64 64 ∨ 2 ^ 51 + fld w 64 64 + 4 ≤ p → Mem.get t.mm.mem p = Mem.get s.mm.mem p) ∧
          (Memory.wf s.mm.mem = true → Mem.read t.mm.mem (2 ^ 51 + fld w 64 64) 4 = fld w 32 32))))

/-- For the function that CURVF names, QRD and EMTR put the values of the last broadcast (SITE the core's own meter), QARM
writes WARN and sets WARNEN, and TRC writes its sampler record, with tag 0 (the model's choice, log entry 47); with CURVF not
valid they put 0 and do nothing. TIME puts the whole nanoseconds of the die's counter and latches the fraction, TIME.frac
puts the latched fraction with the locked flag, and HEATQ puts, for a column of the core's die that holds the fewest tokens,
its tokens, the stations whose request waits, its refill as RATE and its number, with reserved bits zero (which of several
such columns is the model's free choice: log entry 7). Each charges one scalar instruction and changes nothing else. -/
def Obligations.CoreTelemetryReadsItsCounters : Prop :=
  ∀ (s : State) (d a : Fin 32) (w : Bool) (m : Meter) (c : BitVec 14),
    let die := coreDie s.sched.curCore
    let u := s.coreScalar
    (u.fab = { s.fab with charges := u.fab.charges } ∧ u.cc = { s.cc with site := u.cc.site } ∧ u.mm = s.mm ∧ u.prick = s.prick ∧
      u.host = s.host ∧ u.clk = s.clk ∧ u.sched = s.sched ∧ ∀ r, u.g r = s.g r) ∧
    (s.cc.curVf = none → Yields (.qrdCi d w) s (WritesReg u · d 0) ∧ Yields (.emtrCi d m) s (WritesReg u · d 0) ∧
      Yields (.qarmCi a) s (fun t => OnlyCore u t ∧ t.cc = { u.cc with pc := s.cc.pc + 4 }) ∧
      Yields (.trcCi a c) s (fun t => OnlyCore u t ∧ t.cc = { u.cc with pc := s.cc.pc + 4 })) ∧
    (∀ v, s.cc.curVf = some v →
      ((s.vf v).bcastMade = true → ∀ k : Fin 5, (s.vf v).heard k.val = (s.vf v).bcast[k]) ∧
      ((s.vf v).bcastMade = false → (s.vf v).heard 0 = (s.vf v).quota ∧ (s.vf v).heard 1 = (s.vf v).warn ∧
        (s.vf v).heard 2 = (s.vf v).charged ∧ (s.vf v).heard 3 = (s.vf v).resid ∧ (s.vf v).heard 4 = (s.vf v).shared) ∧
      Yields (.qrdCi d w) s (WritesReg u · d (BitVec.ofInt 64 ((s.vf v).heard (if w then 1 else 0)))) ∧
      Yields (.emtrCi d .charged) s (WritesReg u · d (BitVec.ofInt 64 ((s.vf v).heard 2))) ∧
      Yields (.emtrCi d .site) s (WritesReg u · d (BitVec.ofNat 64 (siteEnergy s.cc.site die.val))) ∧
      Yields (.emtrCi d .resid) s (WritesReg u · d (BitVec.ofInt 64 ((s.vf v).heard 3))) ∧
      Yields (.emtrCi d .shared) s (WritesReg u · d (BitVec.ofInt 64 ((s.vf v).heard 4))) ∧
      Yields (.qarmCi a) s (fun t => (t.vf v).warn = (s.g a).toInt ∧ (t.vf v).warnen = true ∧
        (t.vf v).quota = (s.vf v).quota ∧ (∀ x, x ≠ v → t.vf x = s.vf x) ∧ t.cc = { u.cc with pc := s.cc.pc + 4 } ∧
        t.mm = s.mm ∧ t.fab = u.fab ∧ t.prick = s.prick) ∧
      Yields (.trcCi a c) s (fun t => t.cc.pc = s.cc.pc + 4 ∧ (∀ r, t.g r = s.g r) ∧ t.prick = s.prick ∧
        t.fab.stations = s.fab.stations ∧
        t = (u.sample v die (0x4000 + c.toNat) (.core s.sched.curCore.val) (s.g a) 0).cnext)) ∧
    Yields (.timeCi d false) s (fun t => OnlyCore u t ∧ t.g d = (if d = 0 then 0 else s.clk.time[die].ns) ∧
      (∀ r, r ≠ d → t.g r = s.g r) ∧ t.cc.latch = some s.clk.time[die].frac ∧ t.cc.pc = s.cc.pc + 4) ∧
    Yields (.timeCi d true) s (fun t => OnlyCore u t ∧ (∀ r, r ≠ d → t.g r = s.g r) ∧ t.cc.pc = s.cc.pc + 4 ∧
      t.cc.latch = some (s.cc.latch.getD s.clk.time[die].frac) ∧
      (d ≠ 0 → (t.g d).toNat % 2 ^ 63 = (s.cc.latch.getD s.clk.time[die].frac).toNat ∧ ((t.g d).getLsbD 63 = s.locked die))) ∧
    Yields (.heatqCi d) s (fun t => t.cc.pc = s.cc.pc + 4 ∧ (∀ r, r ≠ d → t.g r = s.g r) ∧ t.fab = u.fab ∧ t.mm = s.mm ∧
      (d ≠ 0 → ∃ k, 16 * die.val ≤ k ∧ k < 16 * die.val + 16 ∧
        (let v := (t.g d).toNat
        fld v 0 13 = (s.col k).tokens % 2 ^ 13 ∧ fld v 13 3 = 0 ∧ fld v 32 16 = (s.col k).grant % 2 ^ 16 ∧ fld v 48 5 = k ∧
          fld v 53 11 = 0 ∧
          fld v 16 16 = ((List.range 160).filter (fun j => (s.heatAsk (columnStation k j)).isSome)).length) ∧
        ∀ j, 16 * die.val ≤ j → j < 16 * die.val + 16 → (s.col k).tokens ≤ (s.col j).tokens))

/-- On arcs that the firing has not claimed, each emit claims its arc and sends one token under the outgoing tag by the arc's
routing word: to a slot of the instance, to a sink, to the argument of a call site, as a callee's result to the slot of its
caller under the return tag (nowhere for a null when that slot's route carries DROPNULL), held with the firing on a crossing
arc of a stile sprig before its release point, or nowhere for a null on a DROPNULL arc; EMIT2 sends the value on both arcs,
STEER the value on one and a null on the other, EMITT the rows and shape of the tile register, DROP nothing. The token of an
EMITR to a slot is a release at its scope, or the wider one of a FENCE before it: it waits for, and carries, all that happens
before it (R269). Temporaries, memory and every other station are as before. -/
def Obligations.EmitsSendOnTheirArcs : Prop :=
  ∀ (s : State) (a p : Sel) (k r q : Fin 16) (sc : Scope) (i : Inst) (x y : BitVec 64),
    s.fInst = some i → s.fir.isClaimed r.val = false → s.cx.route? s.fir.sprig r.val = some x →
    let w := hdrStile s.fir.header && !s.fir.stilePassed
    let tag := s.fir.otag
    let v := Payload.word (s.sel a)
    Yields (.emit a r) s (fun t => Issued s t [a] [r.val] ∧ SentAll i w [(x, tag, v)] s t) ∧
    Yields (.emitr a r sc) s (fun t => Issued s t [a] [r.val] ∧ SentAll i w [(x, tag, v)] s t) ∧
    Yields (.emitt k r) s (fun t => Issued s t [] [r.val] ∧ SentAll i w [(x, tag, .tile (s.cx.tile k).carried)] s t) ∧
    Yields (.emitn r) s (fun t => Issued s t [] [r.val] ∧ SentAll i w [(x, tag, .null)] s t) ∧
    Yields (.drop r) s (fun t => Issued s t [] [r.val] ∧ SameQueues s t ∧ t.prick = s.prick) ∧
    (q ≠ r → s.fir.isClaimed q.val = false → s.cx.route? s.fir.sprig q.val = some y →
      Yields (.emit2 a r q) s (fun t => Issued s t [a] [r.val, q.val] ∧ SentAll i w [(x, tag, v), (y, tag, v)] s t) ∧
      (s.sel p ≠ 0 → Yields (.steer a r q p) s (fun t => Issued s t [a, p] [r.val, q.val] ∧
        SentAll i w [(x, tag, v), (y, tag, .null)] s t)) ∧
      (s.sel p = 0 → Yields (.steer a r q p) s (fun t => Issued s t [a, p] [r.val, q.val] ∧
        SentAll i w [(y, tag, v), (x, tag, .null)] s t))) ∧
    (rtTarget x = 0 → Yields (.emitr a r sc) s (fun t => ∃ f l, t.fab.tokens = s.fab.tokens ++ [f] ∧
      f.holds = [⟨match s.fir.tokRel with | some b => Scope.max sc b | none => sc, s.sched.curSt.die, s.fir.before⟩] ∧
      f.before = some l ∧ ∀ u, u ∈ l ↔ u ∈ s.fir.before))

/-- An instruction that claims an arc already claimed in the firing (EMIT_COUNT), a second EXIT or EXITS (SPRIG_NO_EXIT) and
TRAP take the firing off the sprig engine without commit: it is parked with its inputs, the tokens sent and the lsids
performed stay as they are, and no token leaves. The partition gets a fault record of code 0x06, 0x05 or 0x21, of TRAP with
the immediate as DETAIL, with the station, STAGE, instance, slot and tag, the tokens sent and the lsids performed. Stated
where the firing has created no callee, its slot has a Hedgerow row for its frame and its instance's caller holds a
reservation. -/
def Obligations.SecondSendsAndTrapsEndTheFiring : Prop :=
  ∀ (s : State) (a p : Sel) (k r q : Fin 16) (sc : Scope) (g : BitVec 8) (n : Bool) (c : BitVec 16),
    RoomToPark s →
    Yields (.trap c) s (TrapsWith s · 0x21 c.toNat 0) ∧
    (s.fir.isClaimed r.val = true →
      Yields (.emit a r) s (TrapsWith s · 0x06 0 0) ∧ Yields (.emit2 a r q) s (TrapsWith s · 0x06 0 0) ∧ Yields (.emitt k r) s (TrapsWith s · 0x06 0 0) ∧
      Yields (.emitn r) s (TrapsWith s · 0x06 0 0) ∧ Yields (.emitr a r sc) s (TrapsWith s · 0x06 0 0) ∧ Yields (.drop r) s (TrapsWith s · 0x06 0 0) ∧
      Yields (.steer a r q p) s (TrapsWith s · 0x06 0 0) ∧ Yields (.steer a q r p) s (TrapsWith s · 0x06 0 0) ∧
      Yields (.thin a r p g) s (TrapsWith s · 0x06 0 0) ∧ Yields (.thend r) s (TrapsWith s · 0x06 0 0)) ∧
    (s.fir.exitDone = true → Yields (.exit a k n) s (TrapsWith s · 0x05 0 0) ∧ Yields (.exits a k c) s (TrapsWith s · 0x05 0 0))

/-- The first EXIT of a firing sends the value on its exit arc, with .n a null on each other exit of the sprig; EXITS sends
the value alone and adds a spawn request with the value and the outgoing tag that waits for the body's end; SINKW sends one
message with the value to the sink register of the instance. Memory, temporaries and the outgoing tag are as before. -/
def Obligations.ExitsAndSinkWritesLeave : Prop :=
  ∀ (s : State) (a : Sel) (k : Fin 16) (n : Bool) (c : BitVec 16) (j : Fin 8) (i : Inst) (e : Nat → BitVec 64),
    s.fInst = some i → (∀ m, m = k.val ∨ m < hdrExits s.fir.header → s.cx.route? s.fir.sprig (16 + m) = some (e m)) →
    let w := hdrStile s.fir.header && !s.fir.stilePassed
    let v := Payload.word (s.sel a)
    (s.fir.exitDone = false →
      Yields (.exit a k n) s (fun t => Issued s t [a] [] ∧ t.fir.exitDone = true ∧
        SentAll i w ((e k.val, s.fir.otag, v) ::
          if n then ((List.range (hdrExits s.fir.header)).filter (· ≠ k.val)).map (fun m => (e m, s.fir.otag, .null)) else []) s t) ∧
      Yields (.exits a k c) s (fun t => Issued s t [a] [] ∧ t.fir.exitDone = true ∧
        SentAll i w [(e k.val, s.fir.otag, v)] s t ∧ t.fir.spawns = s.fir.spawns ++ [⟨c.toNat, s.sel a, s.fir.otag⟩])) ∧
    Yields (.sinkw a j) s (fun t => Issued s t [a] [] ∧ t.fab.tokens = s.fab.tokens ∧ t.prick = s.prick ∧
      ∃ m, t.fab.sinkMsgs = s.fab.sinkMsgs ++ [m] ∧ m.inst = i.id ∧ m.k = j.val ∧ m.payload = v ∧
        m.src = some s.sched.curSt ∧ m.holds = [])

/-- TGET writes the null mask, the whole outgoing tag or one of its fields zero-extended; TSET sets ITER to the operand
modulo 2^20 or THREAD to it modulo 2^12, and TADD adds it so; CTX, INST and BLOCK never change, and neither does anything
else. -/
def Obligations.TheOutgoingTagIsReadAndAmended : Prop :=
  ∀ (s : State) (d : Fin 8) (a : Sel),
    let o := s.fir.otag
    let x := (s.sel a).toNat
    let amends := fun (t : State) (iter thread : Nat) => ∃ g : BitVec 64, Plain s t [a] { s.fir with otag := g, pos := s.fir.pos + 1 } ∧
      tagIter g = iter ∧ tagThread g = thread ∧ tagCtx g = tagCtx o ∧ tagInst g = tagInst o ∧ tagBlock g = tagBlock o
    Yields (.tget d .iter) s (WritesTemp s · d [] ((o.extractLsb' 0 20).zeroExtend 64)) ∧
    Yields (.tget d .thread) s (WritesTemp s · d [] ((o.extractLsb' 23 12).zeroExtend 64)) ∧
    Yields (.tget d .ctx) s (WritesTemp s · d [] ((o.extractLsb' 35 3).zeroExtend 64)) ∧
    Yields (.tget d .inst) s (WritesTemp s · d [] ((o.extractLsb' 38 18).zeroExtend 64)) ∧
    Yields (.tget d .block) s (WritesTemp s · d [] ((o.extractLsb' 56 8).zeroExtend 64)) ∧
    Yields (.tget d .tag) s (WritesTemp s · d [] o) ∧
    Yields (.tget d .nulls) s (WritesTemp s · d [] (s.fir.nullMask.zeroExtend 64)) ∧
    Yields (.tset a .iter) s (fun t => amends t (x % 2 ^ 20) (tagThread o)) ∧
    Yields (.tset a .thread) s (fun t => amends t (tagIter o) (x % 2 ^ 12)) ∧
    Yields (.tadd a .iter) s (fun t => amends t ((tagIter o + x) % 2 ^ 20) (tagThread o)) ∧
    Yields (.tadd a .thread) s (fun t => amends t (tagIter o) ((tagThread o + x) % 2 ^ 12))

/-- LGATE lowers the loop allowance of its slot by one, counts the admission, sets ITER of the outgoing tag to LOOPBASE plus
the number admitted before, modulo 2^20, and writes that number to its temporary; LFREE adds one credit that leaves at commit
and sends nothing now; NOP only moves the firing on. -/
def Obligations.LoopGatesCountTheirAllowance : Prop :=
  ∀ (s : State) (d : Fin 8), s.fir.ctx < 8 →
    let n := (s.cx.loopBase + s.cx.admitted) % 2 ^ 20
    Yields (.lgate d) s (fun t => ∃ g : BitVec 64,
      t.fir = { s.fir with t := s.fir.t.set d (BitVec.ofNat 64 n), otag := g, pos := s.fir.pos + 1 } ∧
      tagIter g = n ∧ tagThread g = tagThread s.fir.otag ∧ tagCtx g = tagCtx s.fir.otag ∧ tagInst g = tagInst s.fir.otag ∧
      tagBlock g = tagBlock s.fir.otag ∧
      t.cx = { s.cx with allow := s.cx.allow - 1, admitted := s.cx.admitted + 1, site := t.cx.site } ∧
      OnlyFiring s t ∧ SameNetworks s t ∧ OnlyFabric s t ∧ t.sched = s.sched) ∧
    Yields .lfree s (Plain s · [] { s.fir with credits := s.fir.credits + 1, pos := s.fir.pos + 1 }) ∧
    Yields .nop s (Plain s · [] { s.fir with pos := s.fir.pos + 1 })

/-- For the counter of the arc's target and the outgoing THREAD: THIN with a zero predicate sends nothing; a survivor leaves
with ITER = c and the counter advances by one modulo 2^20, starting at 0 with the group size of the first THIN; THEND sends
nulls with ITER c, c + 1, … up to the next multiple of g and leaves c there, and sends nothing without a counter. Stated for
counters that lie on the die, or that find room there, and short of 2^20 members. -/
def Obligations.ThinningPassesDenseGroups : Prop :=
  ∀ (s : State) (a p : Sel) (r : Fin 16) (g : BitVec 8) (i : Inst) (x : BitVec 64),
    s.fInst = some i → s.fir.ctx < 8 → s.fir.isClaimed r.val = false → s.cx.route? s.fir.sprig r.val = some x →
    let w := hdrStile s.fir.header && !s.fir.stilePassed
    let mine := fun (c : ThinCounter) => decide (c.target = rtKey x ∧ c.thread = tagThread s.fir.otag)
    (s.sel p = 0 → Yields (.thin a r p g) s (fun t => Issued s t [a, p] [r.val] ∧ SameQueues s t)) ∧
    (s.sel p ≠ 0 → ∀ c, s.cx.thin.find? mine = some c → c.place = 0 → Yields (.thin a r p g) s (fun t =>
      SentAll i w [(x, withIter s.fir.otag c.c, .word (s.sel a))] s t ∧ t.fir.pos = s.fir.pos + 1 ∧ t.mm = s.mm ∧
      ∃ e, t.cx.thin.find? mine = some e ∧ e.c = (c.c + 1) % 2 ^ 20 ∧ e.g = c.g)) ∧
    (s.sel p ≠ 0 → s.cx.thin.find? mine = none → (s.st s.sched.curSt).thinOnDie.length < 64 → Yields (.thin a r p g) s (fun t =>
      SentAll i w [(x, withIter s.fir.otag 0, .word (s.sel a))] s t ∧ t.fir.pos = s.fir.pos + 1 ∧ t.mm = s.mm ∧
      ∃ e, t.cx.thin.find? mine = some e ∧ e.c = 1 ∧ e.g = g.toNat)) ∧
    (s.cx.thin.find? mine = none → Yields (.thend r) s (fun t => Issued s t [] [r.val] ∧ SameQueues s t)) ∧
    (∀ c, s.cx.thin.find? mine = some c → c.place = 0 → 0 < c.g → c.c + (c.g - c.c % c.g) % c.g ≤ 2 ^ 20 →
      let n := (c.g - c.c % c.g) % c.g
      Yields (.thend r) s (fun t =>
        SentAll i w ((List.range n).map (fun k => (x, withIter s.fir.otag ((c.c + k) % 2 ^ 20), .null))) s t ∧
        t.fir.pos = s.fir.pos + 1 ∧ t.mm = s.mm ∧
        ∃ e, t.cx.thin.find? mine = some e ∧ e.c = (c.c + n) % 2 ^ 20 ∧ e.g = c.g))

/-- For the partition of the firing's instance, QRD and EMTR write the values of the last broadcast (SITE the energy that the
context slot's own meter site has counted before the instruction), QARM writes WARN and sets WARNEN, and TRC writes its
sampler record, or nothing without a ring. TIME writes the whole nanoseconds of the die's counter and latches the fraction,
TIME.frac writes the latched fraction and the locked flag. PRIO leaves its level with the firing for the commit, YIELD makes
the slot skip the next selection, and HEATQ writes the tokens of the station's supply column, the stations whose request
waits, its refill as RATE and its number, with reserved bits zero. All else is as before. -/
def Obligations.StationSystemInstructionsAct : Prop :=
  ∀ (s : State) (d : Fin 8) (a : Sel) (w : Bool) (c : BitVec 14) (i : Inst), s.fInst = some i →
    let v := i.vf
    let die := s.sched.curSt.die
    let prio := fun (p : Nat) (t : State) => Plain s t [] { s.fir with prio := some p, pos := s.fir.pos + 1 }
    ((s.vf v).bcastMade = true → ∀ k : Fin 5, (s.vf v).heard k.val = (s.vf v).bcast[k]) ∧
    Yields (.qrd d w) s (WritesTemp s · d [] (BitVec.ofInt 64 ((s.vf v).heard (if w then 1 else 0)))) ∧
    Yields (.emtr d .charged) s (WritesTemp s · d [] (BitVec.ofInt 64 ((s.vf v).heard 2))) ∧
    Yields (.emtr d .site) s (WritesTemp s · d [] (BitVec.ofNat 64 (siteEnergy s.cx.site die.val))) ∧
    Yields (.emtr d .resid) s (WritesTemp s · d [] (BitVec.ofInt 64 ((s.vf v).heard 3))) ∧
    Yields (.emtr d .shared) s (WritesTemp s · d [] (BitVec.ofInt 64 ((s.vf v).heard 4))) ∧
    Yields (.qarm a) s (fun t => (t.vf v).warn = (s.sel a).toInt ∧ (t.vf v).warnen = true ∧ (t.vf v).quota = (s.vf v).quota ∧
      (∀ x, x ≠ v → t.vf x = s.vf x) ∧ t.fir = { s.fir with pos := s.fir.pos + 1 } ∧ Consumed s t [a] ∧ OnlyFiring s t ∧
      SameNetworks s t ∧ t.mm = s.mm ∧ t.prick = s.prick ∧ t.cores = s.cores ∧ t.sched = s.sched) ∧
    ((s.vf v).sampLog = 0 → Yields (.trc a c) s (Plain s · [a] { s.fir with pos := s.fir.pos + 1 })) ∧
    Yields (.trc a c) s (fun t => t.fir = { s.fir with pos := s.fir.pos + 1 } ∧ Consumed s t [a] ∧ OnlyFiring s t ∧
      t.prick = s.prick ∧ t.cores = s.cores ∧ t.fab.tokens = s.fab.tokens ∧
      t = ((s.eat [a]).sample v die (0x4000 + c.toNat) (.unit s.sched.curSt (hdrStage s.fir.header)) (s.sel a) s.fir.otag).adv) ∧
    Yields (.time d false) s (Plain s · []
      { s.fir with t := s.fir.t.set d s.clk.time[die].ns, latch := some s.clk.time[die].frac, pos := s.fir.pos + 1 }) ∧
    Yields (.time d true) s (fun t => ∃ x, Plain s t []
      { s.fir with t := s.fir.t.set d x, latch := some (s.fir.latch.getD s.clk.time[die].frac), pos := s.fir.pos + 1 } ∧
      x.toNat % 2 ^ 63 = (s.fir.latch.getD s.clk.time[die].frac).toNat ∧ x.getLsbD 63 = s.locked die) ∧
    Yields .prio0 s (prio 0) ∧ Yields .prio1 s (prio 1) ∧ Yields .prio2 s (prio 2) ∧ Yields .prio3 s (prio 3) ∧
    Yields .prio4 s (prio 4) ∧ Yields .prio5 s (prio 5) ∧ Yields .prio6 s (prio 6) ∧ Yields .prio7 s (prio 7) ∧
    (s.fir.ctx < 8 → Yields .yield s (fun t => t.fir = { s.fir with pos := s.fir.pos + 1 } ∧
      t.cx = { s.cx with skipNext := true, site := t.cx.site } ∧ OnlyFiring s t ∧ SameNetworks s t ∧ OnlyFabric s t ∧
      t.sched = s.sched)) ∧
    Yields (.heatq d) s (fun t => ∃ x : Double, WritesTemp s t d [] x ∧
      let k := colOf s.sched.curSt
      let v := x.toNat
      fld v 0 13 = (s.col k).tokens % 2 ^ 13 ∧ fld v 13 3 = 0 ∧ fld v 32 16 = (s.col k).grant % 2 ^ 16 ∧ fld v 48 5 = k ∧
        fld v 53 11 = 0 ∧ fld v 16 16 = ((List.range 160).filter (fun j => (s.heatAsk (columnStation k j)).isSome)).length)

/-- For every format and rounding mode, FADD, FSUB and FMUL take the exact sum, difference or product of the operands' values
and FFMA the exact product plus addend (NaN and infinities as IEEE 754 has them, an exact zero of opposite signs +0, under RD
-0), rounded once; FMIN and FMAX put one operand's own code; FCMP puts whether its predicate holds. One number is drawn under
SR and none else; VSEED sets the seed and clears the counter. Besides, only the temporary, the position and the charge
change. For every source and destination format and mode FCVT answers a next state: a floating destination gets the source's
exact value rounded once; an integer destination gets the integer to which the mode rounds it, kept inside the destination's
range (0 for NaN, a bound for an infinity), sign-extended for signed and zero-extended for natural formats. One number is
drawn under SR, even between integers. -/
def Obligations.ScalarFloatsComputeAndConvert : Prop :=
  (∀ (s : State) (d : Fin 8) (a b c : Sel) (f : FpFmt) (r : Rm) (p : Pred), s.fir.ctx < 8 →
    let x := fpRead f (s.sel a)
    let y := fpRead f (s.sel b)
    let cx := (s.sel a).toNat % 2 ^ fpBits f
    let cy := (s.sel b).toNat % 2 ^ fpBits f
    let rd := decide (r = .rd)
    let out := fun z => dbl ((fpSpec f).arith r (s.cx.draw 0) z)
    Yields (.fadd d a b f r) s (fun t => ∃ z, IsSum rd x y z ∧ Computes s t d [a, b] r (out z)) ∧
    Yields (.fsub d a b f r) s (fun t => ∃ z, IsSum rd x y.neg z ∧ Computes s t d [a, b] r (out z)) ∧
    Yields (.fmul d a b f r) s (fun t => ∃ z, IsProduct x y z ∧ Computes s t d [a, b] r (out z)) ∧
    Yields (.ffma d a b c f r) s (fun t => ∃ m z, IsProduct x y m ∧ IsSum rd m (fpRead f (s.sel c)) z ∧
      Computes s t d [a, b, c] r (out z)) ∧
    Yields (.fmin d a b f) s (fun t => ∃ k, Picks false (fpSpec f).nan x y cx cy k ∧ Computes s t d [a, b] .rne (dbl k)) ∧
    Yields (.fmax d a b f) s (fun t => ∃ k, Picks true (fpSpec f).nan x y cx cy k ∧ Computes s t d [a, b] .rne (dbl k)) ∧
    Yields (.fcmp d a b p f) s (fun t => (PredHolds p x y → WritesTemp s t d [a, b] 1) ∧
      (¬ PredHolds p x y → WritesTemp s t d [a, b] 0)) ∧
    Yields (.vseed a) s (fun t => t.fir = { s.fir with pos := s.fir.pos + 1 } ∧
      t.cx = { Drawn s [a] .rne 0 t.cx.site with seed := s.sel a, rctr := 0 } ∧ OnlyFiring s t ∧ SameNetworks s t ∧
      OnlyFabric s t ∧ t.sched = s.sched)) ∧
  (∀ (s : State) (d : Fin 8) (a : Sel) (f : CvtFmt) (r : Rm), s.fir.ctx < 8 →
    let x := cvtRead f (s.sel a)
    let draw := s.cx.draw 0
    let toInt := fun (g : CvtFmt) (lo hi : ℤ) => Yields (.fcvt d a f g r) s (fun t => ∃ n : ℤ,
      (x = .nan → n = 0) ∧ (x = .inf false → n = hi) ∧ (x = .inf true → n = lo) ∧
      (x ≠ .nan → x ≠ .inf false → x ≠ .inf true → ∃ k, RoundsTo r draw x.val k ∧ n = max lo (min hi k)) ∧
      Computes s t d [a] r (BitVec.ofInt 64 n))
    (f = .i32 → x.val = ((s.sel a).truncate 32).toInt) ∧ (f = .i64 → x.val = (s.sel a).toInt) ∧
    (f = .n32 → x.val = ((s.sel a).truncate 32).toNat) ∧ (f = .n64 → x.val = (s.sel a).toNat) ∧
    Yields (.fcvt d a f .f32 r) s (Computes s · d [a] r (dbl (f32Spec.arith r draw x))) ∧
    Yields (.fcvt d a f .f16 r) s (Computes s · d [a] r (dbl (f16Spec.arith r draw x))) ∧
    Yields (.fcvt d a f .bf16 r) s (Computes s · d [a] r (dbl (bf16Spec.arith r draw x))) ∧
    toInt .i32 (-2 ^ 31) (2 ^ 31 - 1) ∧ toInt .i64 (-2 ^ 63) (2 ^ 63 - 1) ∧ toInt .n32 0 (2 ^ 32 - 1) ∧ toInt .n64 0 (2 ^ 64 - 1))

/-- For every floating element format, with grid the values of its magnitudes continued above the largest: a magnitude lies
between the values of two neighbouring codes and gets the lower one when it equals it; else RZ takes the lower, RU and RD by
the sign, RNE the nearer and on a tie the even code, SR the upper when the 24-bit fraction and the draw reach 2^24. A value
that a format represents keeps its code. -/
def Obligations.FloatCodesRoundBetweenNeighbours : Prop :=
  ∀ (f : FpSpec), (f ∈ [f32Spec, f16Spec, bf16Spec, e5m2Spec, e2m1Spec] ∨ ∃ p nat fin, 1 ≤ p ∧ p ≤ 7 ∧ f = b8Spec p nat fin) →
    let grid := fun (c : Nat) => if c < 2 ^ f.mb then (c : ℚ) * 2 ^ (f.emin - f.mb)
      else ((c % 2 ^ f.mb + 2 ^ f.mb : Nat) : ℚ) * 2 ^ ((c / 2 ^ f.mb : Nat) - 1 + f.emin - f.mb)
    (∀ (r : Rm) (draw : Nat) (neg : Bool) (m : Nat) (e : ℤ), 0 < m →
      let x : ℚ := m * 2 ^ e
      let lo := f.magCode .rz 0 neg m e
      let c := f.magCode r draw neg m e
      grid lo ≤ x ∧ x < grid (lo + 1) ∧ (x = grid lo → c = lo) ∧
      (x ≠ grid lo →
        (r = .rz → c = lo) ∧ (r = .ru → c = if neg then lo else lo + 1) ∧ (r = .rd → c = if neg then lo + 1 else lo) ∧
        (r = .rne → (x - grid lo < grid (lo + 1) - x → c = lo) ∧ (grid (lo + 1) - x < x - grid lo → c = lo + 1) ∧
          (x - grid lo = grid (lo + 1) - x → c = if lo % 2 = 0 then lo else lo + 1)) ∧
        (r = .sr → c = if 2 ^ 24 ≤ ⌊(x - grid lo) / (grid (lo + 1) - grid lo) * 2 ^ 24⌋ + (draw % 2 ^ 24 : Nat) then lo + 1 else lo))) ∧
    (∀ (r : Rm) (draw : Nat) (v : Nat), v ≤ f.maxCode → ∀ neg, (f.decode (f.signed neg v)) ≠ .nan →
      f.arith r draw (f.decode (f.signed neg v)) = f.signed neg v)

/-- The value that VRCP and VRSQ round is even in its last bit when it is exact, and odd when the exact value lies strictly
between its neighbours, with 80 bits or more for the reciprocal and 79 for the reciprocal square root, so that one rounding
of it is the rounding of the exact value. The special cases are those of R335, and 2^x of an integer and log2 of a power of
two are exact; how the model rounds 2^x and log2 of other values is its own choice (log entry 19) and stated nowhere here. -/
def Obligations.ReciprocalsAreBracketedAndSpecialValuesTabulated : Prop :=
  ∀ (n : Bool) (m : Nat) (e : ℤ), 0 < m →
    let x := (Machine.Num.fin false m e).val
    (∃ k g, Machine.Num.recip (.fin n m e) = .fin n k g ∧ 2 ^ 80 ≤ k ∧ (k % 2 = 0 → (Machine.Num.fin false k g).val * x = 1) ∧
      (k % 2 = 1 → (Machine.Num.fin false (k - 1) g).val * x < 1 ∧ 1 < (Machine.Num.fin false (k + 1) g).val * x)) ∧
    (∃ k g, Machine.Num.rsqrt (.fin false m e) = .fin false k g ∧ 2 ^ 79 ≤ k ∧ (k % 2 = 0 → (Machine.Num.fin false k g).val ^ 2 * x = 1) ∧
      (k % 2 = 1 → (Machine.Num.fin false (k - 1) g).val ^ 2 * x < 1 ∧ 1 < (Machine.Num.fin false (k + 1) g).val ^ 2 * x)) ∧
    Machine.Num.recip (.inf n) = .fin n 0 0 ∧ Machine.Num.recip (.fin n 0 e) = .inf n ∧ Machine.Num.rsqrt (.inf true) = .nan ∧
    Machine.Num.rsqrt (.fin true m e) = .nan ∧ Machine.Num.rsqrt (.fin n 0 e) = .inf n ∧ Machine.Num.rsqrt (.inf false) = .fin false 0 0 ∧
    Machine.Num.exp2 (.inf true) = .fin false 0 0 ∧ Machine.Num.exp2 (.inf false) = .inf false ∧ (Machine.Num.exp2 (.fin n 0 e)).val = 1 ∧
    Machine.Num.log2 (.inf true) = .nan ∧ Machine.Num.log2 (.inf false) = .inf false ∧ Machine.Num.log2 (.fin n 0 e) = .inf true ∧
    Machine.Num.log2 (.fin true m e) = .nan ∧ Machine.Num.log2 (.fin false 1 0) = .fin false 0 0 ∧
    (∀ k : ℤ, |k| ≤ 1000 → (Machine.Num.exp2 (Machine.Num.ofInt k)).val = 2 ^ k ∧ (Machine.Num.log2 (.fin false 1 k)).val = k) ∧
    Machine.Num.recip .nan = .nan ∧ Machine.Num.rsqrt .nan = .nan ∧ Machine.Num.exp2 .nan = .nan ∧ Machine.Num.log2 .nan = .nan

/-- Where the tiles have equal rows and elements per row, VADD, VSUB, VMUL, VFMA, VMIN and VMAX write the tile register with
the shape of Ta (VFMA of Td), each element the exact result of the elements' values encoded once in the element format of
that shape; VABS, VNEG, VRCP, VRSQ, VEXP2 and VLOG2 likewise of one tile; VSCL multiplies a window by its block's E5M2 scale,
which it finds as it has written it where the scales' register is Td (LOG 26). Under SR each element draws one number in
order. Bits outside the shape (log entry 22, which calls this unsafe), other registers and all else are as before. -/
def Obligations.VectorArithmeticIsElementwise : Prop :=
  ∀ (s : State) (d a b k : Fin 16) (r : Rm), s.fir.ctx < 8 →
    let x := s.cx.tile a
    let y := s.cx.tile b
    let z := s.cx.tile d
    let rd := decide (r = .rd)
    let v := fun (t : Tile) i e => t.dec s.cx.format i e
    let writes := fun (w : Tile) (m : Rm) (f : Nat → Nat → Machine.Num) (t : State) =>
      WritesTile s t d [] w m (w.rows * w.perRow)
        (fun i e => (elemFmt s.cx.format w.width).encodeVec m (s.cx.draw (i * w.perRow + e)) (f i e))
    (x.fits → x.rows = y.rows → x.perRow = y.perRow →
      Yields (.vadd d a b r) s (fun t => ∃ f, (∀ i e, IsSum rd (v x i e) (v y i e) (f i e)) ∧ writes x r f t) ∧
      Yields (.vsub d a b r) s (fun t => ∃ f, (∀ i e, IsSum rd (v x i e) (v y i e).neg (f i e)) ∧ writes x r f t) ∧
      Yields (.vmul d a b r) s (fun t => ∃ f, (∀ i e, IsProduct (v x i e) (v y i e) (f i e)) ∧ writes x r f t) ∧
      Yields (.vmin d a b) s (fun t => ∃ f, (∀ i e, Picks false .nan (v x i e) (v y i e) (v x i e) (v y i e) (f i e)) ∧
        writes x .rne f t) ∧
      Yields (.vmax d a b) s (fun t => ∃ f, (∀ i e, Picks true .nan (v x i e) (v y i e) (v x i e) (v y i e) (f i e)) ∧
        writes x .rne f t) ∧
      (z.fits → z.rows = x.rows → z.perRow = x.perRow → Yields (.vfma d a b r) s (fun t => ∃ m f : Nat → Nat → Machine.Num,
        (∀ i e, IsProduct (v x i e) (v y i e) (m i e) ∧ IsSum rd (m i e) (v z i e) (f i e)) ∧ writes z r f t))) ∧
    (x.fits →
      Yields (.vabs d a) s (writes x .rne (fun i e => (v x i e).abs)) ∧
      Yields (.vneg d a) s (writes x .rne (fun i e => (v x i e).neg)) ∧
      Yields (.vrcp d a r) s (writes x r (fun i e => (v x i e).recip)) ∧
      Yields (.vrsq d a r) s (writes x r (fun i e => (v x i e).rsqrt)) ∧
      Yields (.vexp2 d a r) s (writes x r (fun i e => (v x i e).exp2)) ∧
      Yields (.vlog2 d a r) s (writes x r (fun i e => (v x i e).log2))) ∧
    (x.fits → z.fits → x.rows ≤ y.rows → y.width = .w8 → (k.val + 1) * z.perRow ≤ x.perRow →
      (k.val + 1) * z.perRow / 8 ≤ y.perRow → Yields (.vscl d a b k r) s (fun t => ∃ (f : Nat → Nat → Machine.Num) (g : Nat → Nat → Nat),
        (∀ i e, i < x.rows → e < z.perRow →
          let q := (k.val * z.perRow + e) / 8
          IsProduct (v x i (k.val * z.perRow + e)) (e5m2Spec.decode (if d = b ∧ q < e then g i q else y.code i q)) (f i e) ∧
          g i e = (elemFmt s.cx.format z.width).encodeVec r (s.cx.draw (i * z.perRow + e)) (f i e)) ∧
        WritesTile s t d [] { z with rows := x.rows } r (x.rows * z.perRow) g))

/-- VCMP writes all ones where its predicate holds of the two values and zero where not; VSHF the element of Ta that the
index names, or 0 beyond the row; VSEL, bit for bit, the element of Ta where the mask's element is not zero and of Tb
elsewhere; VBCAST the source's low bits everywhere in the shape of Td; VEXT puts one element zero-extended into a temporary.
All else is as before, the bits of a tile register outside the shape with it (log entry 22). -/
def Obligations.VectorsCompareSelectAndMove : Prop :=
  ∀ (s : State) (d a b m : Fin 16) (e8 : Fin 8) (q : Sel) (p : Pred) (c : BitVec 12), s.fir.ctx < 8 →
    let x := s.cx.tile a
    let y := s.cx.tile b
    let z := s.cx.tile d
    let v := fun (t : Tile) i e => t.dec s.cx.format i e
    (x.fits → x.rows = y.rows → x.perRow = y.perRow →
      Yields (.vcmp d a b p) s (fun t => ∃ f : Nat → Nat → Nat,
        (∀ i e, (PredHolds p (v x i e) (v y i e) → f i e = 2 ^ TWidth.bits x.width - 1) ∧
          (¬ PredHolds p (v x i e) (v y i e) → f i e = 0)) ∧ WritesTile s t d [] x .rne 0 f) ∧
      Yields (.vshf d a b) s (fun t => WritesTile s t d [] x .rne 0
        (fun i e => if y.code i e < x.perRow then x.code i (y.code i e) else 0)) ∧
      (x.rowBytes = y.rowBytes → x.width = y.width → (s.cx.tile m).rows = x.rows → (s.cx.tile m).perRow = x.perRow →
        Yields (.vsel d a b m) s (fun t => WritesTile s t d [] x .rne 0
          (fun i e => if (s.cx.tile m).code i e ≠ 0 then x.code i e else y.code i e)))) ∧
    (z.fits → Yields (.vbcast d q) s (fun t => WritesTile s t d [q] z .rne 0 (fun _ _ => (s.sel q).toNat))) ∧
    (b.val < x.rows → c.toNat < x.perRow → Yields (.vext e8 a b c) s (WritesTemp s · e8 [] (dbl (x.code b.val c.toNat))))

/-- A row's elements go to lane e mod 32 in increasing order, each lane starting at -0 and rounding after every addition
(VDOT: after every product-plus-addend), and lanes l and l + h are added for h = 16, 8, 4, 2, 1; the FP32 result stands
zero-extended in the temporary. VREDX puts the largest element of the row by the order of R95 (NaN only of a row of NaN), as
FP32 or as a sign-extended integer. An INT32 element enters a lane as the exact value (log entry 52). -/
def Obligations.VectorReductionsFollowTheLanes : Prop :=
  ∀ (s : State) (d : Fin 8) (a b k : Fin 16),
    let x := s.cx.tile a
    let y := s.cx.tile b
    let v := fun (t : Tile) (i e : Nat) => t.dec s.cx.format i e
    let sums := fun (n : Nat) (add : Nat → Nat → Nat) (out : Nat) => ∃ A T : Nat → Nat → Nat,
      (∀ l < 32, A l 0 = 0x80000000 ∧ ∀ j, 32 * j + l < n → A l (j + 1) = add (A l j) (32 * j + l)) ∧
      (∀ l < 32, T 5 l = A l ((n + 31 - l) / 32)) ∧
      (∀ h < 5, ∀ l < 2 ^ h, T h l = fp32Add (T (h + 1) l) (T (h + 1) (l + 2 ^ h))) ∧ out = T 0 0
    (b.val < x.rows →
      Yields (.vreds d a b) s (fun t => ∃ o, WritesTemp s t d [] (dbl o) ∧
        sums x.perRow (fun w e => toF32 (Machine.Num.add false (f32Spec.decode w) (v x b.val e))) o) ∧
      Yields (.vredx d a b) s (fun t => ∃ z : Machine.Num,
        ((∀ e < x.perRow, v x b.val e = .nan) → z = .nan) ∧
        ((∃ e < x.perRow, v x b.val e ≠ .nan) → (∃ e < x.perRow, z = v x b.val e) ∧ z ≠ .nan ∧
          ∀ e < x.perRow, ¬ NumLt z (v x b.val e) ∧ (NumEq z (v x b.val e) → z.sign = true → (v x b.val e).sign = true)) ∧
        (∀ f w, elemFmt s.cx.format x.width = .fp f w → WritesTemp s t d [] (dbl (toF32 z))) ∧
        (∀ w, elemFmt s.cx.format x.width = .int w → ∃ i : ℤ, z.val = i ∧ WritesTemp s t d [] (BitVec.ofInt 64 i)))) ∧
    (k.val < x.rows → k.val < y.rows → x.perRow = y.perRow → Yields (.vdot d a b k) s (fun t => ∃ o, WritesTemp s t d [] (dbl o) ∧
      sums x.perRow (fun w e => toF32 (Machine.Num.add false (Machine.Num.mul (v x k.val e) (v y k.val e)) (f32Spec.decode w))) o))

/-- VCVT writes rows of the source's elements in the destination format, padded with zero codes to whole 32 bytes, each
element by the saturating table of R107 with one draw under SR. With a routing word for its arc it claims the arc and sends
one token: a null when no element was counted, else the count and the largest exponent of the finite elements that are not
zero; without one it sends nothing. Bits outside the shape stay as before (log entry 22). -/
def Obligations.ConversionsCountWhatSaturates : Prop :=
  ∀ (s : State) (d a b : Fin 16) (f : BitVec 6) (r : Rm) (i : Inst), s.fInst = some i → s.fir.ctx < 8 →
    let x := s.cx.tile a
    let n := x.perRow
    let w := (fmtOf f).width
    let rb := 32 * ((n * w + 255) / 256)
    let v := fun (g e : Nat) => x.dec s.cx.format g e
    let out := fun (g e : Nat) => (fmtOf f).saturate r (s.cx.draw (g * n + e)) (v g e)
    let code := fun (g e : Nat) => if e < n then (out g e).1 else 0
    let shape : Tile := { rows := x.rows, rowBytes := rb, width := TWidth.ofBits w }
    let count := (x.places.filter (fun p => (out p.1 p.2).2)).length
    let top := fun (m : ℤ) =>
      ((∀ p ∈ x.places, (v p.1 p.2).val = 0) → m = -32768) ∧
      ((∃ p ∈ x.places, (v p.1 p.2).val ≠ 0) → (∃ p ∈ x.places, (v p.1 p.2).val ≠ 0 ∧ Int.log 2 |(v p.1 p.2).val| = m) ∧
        ∀ p ∈ x.places, (v p.1 p.2).val ≠ 0 → Int.log 2 |(v p.1 p.2).val| ≤ m)
    x.rows ≤ 16 → rb ≤ 384 →
    (s.cx.route? s.fir.sprig b.val = none → Yields (.vcvt d a b f r) s (fun t => WritesTile s t d [] shape r (x.rows * n) code)) ∧
    (∀ y, s.cx.route? s.fir.sprig b.val = some y → s.fir.isClaimed b.val = false → Yields (.vcvt d a b f r) s (fun t =>
      t.fir.pos = s.fir.pos + 1 ∧ t.fir.t = s.fir.t ∧ t.fir.isClaimed b.val = true ∧ t.mm = s.mm ∧
      (t.cx.tile d).rows = x.rows ∧ (t.cx.tile d).rowBytes = rb ∧ (t.cx.tile d).width = TWidth.ofBits w ∧
      (∀ g < x.rows, ∀ e < shape.perRow, (t.cx.tile d).code g e = code g e % 2 ^ w) ∧ (∀ k, k ≠ d → t.cx.tile k = s.cx.tile k) ∧
      ∃ m : ℤ, top m ∧ SentAll i (hdrStile s.fir.header && !s.fir.stilePassed) [(y, s.fir.otag,
        if count = 0 then .null else .word (BitVec.ofNat 64 ((BitVec.ofInt 16 m).toNat * 2 ^ 32 + count % 2 ^ 32)))] s t))

/-- TCFG sets a shape that the station's format accepts and keeps the bits (log entry 22), TZERO clears the bits, TMOV copies
bits and shape, TXP transposes 16 x 16 blocks, WPRE loads the weight register once no product of its context is queued, and
PLSTAT reads the counters. With operands of the native widths and fewer than 8 entries queued, the products and accumulator
operations enter the queue behind the others and the firing goes on, ACCRD claiming its arc and taking its draws in the order
of issue; with 8 entries every one of them waits. Operands of other widths or shapes, a width that TCFG may not set, a tile
that TXP cannot transpose (FORMAT_MISMATCH) and a claimed arc end the firing by a frame trap (stated where it can park). An
entry keeps the firing's own tag beside the outgoing one, for a record of the residue check (R356). Accumulators and memory
do not change at issue. -/
def Obligations.MatrixInstructionsShapeTilesAndQueueWork : Prop :=
  ∀ (s : State) (d a b k : Fin 16) (c : Fin 8) (g : Fin 12) (w : TWidth) (q : Sel) (r : Rm) (f : BitVec 6), s.fir.ctx < 8 →
    let l := s.sched.curSt
    let x := s.cx.tile a
    let y := s.cx.tile b
    let nw := nativeWidth s.cx.format
    let tile := fun (u : Tile) (t : State) => t.fir = { s.fir with pos := s.fir.pos + 1 } ∧
      t.cx = { s.cx with tiles := s.cx.tiles.set d u, site := t.cx.site } ∧ OnlyFiring s t ∧ SameNetworks s t ∧ OnlyFabric s t ∧
      t.sched = s.sched
    let enters := fun (srcs : List Sel) (m : Rm) (fir : Firing) (op : MatOp) (acc : Nat) (rel : TokRel) (cross tail : Bool) (t : State) =>
      t.fir = fir ∧ t.cx = Drawn s srcs m 256 t.cx.site ∧
      (∀ m, m ≠ l → t.st m = s.st m) ∧ SameNetworks s t ∧ OnlyFabric s t ∧
      t.st l = { s.st l with firing := t.fir, ctxs := (t.st l).ctxs, matq := (s.st l).matq ++ [{
        op := op, acc := acc, ctx := s.fir.ctx, inst := s.fir.inst, tag := s.fir.otag, ftag := s.fir.tag, fid := s.fir.id, sprig := s.fir.sprig,
        seed := s.cx.seed, rctr := s.cx.rctr, rel := rel, crossing := cross, tail := tail }] }
    let queued := fun (fir : Firing) (op : MatOp) (acc : Nat) => enters [] .rne fir op acc ⟨[], none⟩ false false
    let rt := (s.cx.route? s.fir.sprig k.val).getD 0
    let okMma := (matFmt s.cx.format = .fp ∨ matFmt s.cx.format = .int) ∧ x.width = nw ∧ y.width = nw
    let okMmas := matFmt s.cx.format = .mx ∧ x.width = nw ∧ y.width = nw ∧ (s.cx.tile k).width = .w8 ∧ 192 ≤ (s.cx.tile k).rowBytes
    let okFeed := x.width = nw ∧ s.cx.wr.width = nw
    let okLoad := x.rows = 16 ∧ x.rowBytes = 64 ∧ x.width = .w32
    let next := { s.fir with pos := s.fir.pos + 1 }
    (w = .w32 ∨ w = nw ∨ s.cx.format = 5 ∧ w = .w8 → Yields (.tcfg d a w g) s
      (tile { s.cx.tile d with rows := a.val + 1, rowBytes := 32 * (g.val + 1), width := w })) ∧
    Yields (.tzero d) s (tile { s.cx.tile d with bits := 0 }) ∧
    Yields (.tmov d a) s (tile x) ∧
    (x.rows = 16 → x.perRow % 16 = 0 → x.rowBytes ≤ 384 → Yields (.txp d a) s
      (WritesTile s · d [] x .rne 0 (fun i e => x.code (e % 16) (e / 16 * 16 + i)))) ∧
    ((∀ e ∈ (s.st l).matq, e.ctx = s.fir.ctx → e.op.isProduct = false) → Yields (.wpre a) s (fun t => t.fir = next ∧
      t.cx = { s.cx with wr := x, site := t.cx.site } ∧ OnlyFiring s t ∧ SameNetworks s t ∧ OnlyFabric s t)) ∧
    ((∃ e ∈ (s.st l).matq, e.ctx = s.fir.ctx ∧ e.op.isProduct = true) → exec (.wpre a) s = .next s) ∧
    (s.cx.hstall < 2 ^ 16 → s.cx.rretry < 2 ^ 8 → (s.st l).matq.length ≤ 8 → Yields (.plstat c) s (fun t => ∃ v : Double,
      WritesTemp s t c [] v ∧ v.getLsbD 0 = s.cx.pleach ∧ (v.toNat >>> 32) = s.cx.hstall ∧ (v.toNat >>> 24) % 2 ^ 8 = s.cx.rretry ∧
      (v.toNat >>> 12) % 2 ^ 12 = min 15 ((s.st l).pleach.filter (fun p => decide (p.ctx = s.fir.ctx) && p.arrived)).length ∧
      (v.toNat >>> 8) % 2 ^ 4 = ((s.st l).matq.filter (fun e => decide (e.ctx = s.fir.ctx))).length)) ∧
    ((s.st l).matq.length < 8 →
      (okMma → Yields (.mma a b c) s (queued next (.mma a.val b.val) c.val)) ∧
      (okMmas → Yields (.mmas k a b c) s (queued next (.mmas a.val b.val k.val) c.val)) ∧
      (okFeed → Yields (.afeed a) s (enters [] .rne next (.afeed a.val) 8 ⟨[], none⟩ false (s.chainNext s.fir.inst l).isNone)) ∧
      (okLoad → Yields (.accld a c) s (queued next (.accld a.val) c.val)) ∧
      (RoomToPark s →
        (¬ okMma → Yields (.mma a b c) s (FrameTraps s)) ∧ (¬ okMmas → Yields (.mmas k a b c) s (FrameTraps s)) ∧
        (¬ okFeed → Yields (.afeed a) s (FrameTraps s)) ∧ (¬ okLoad → Yields (.accld a c) s (FrameTraps s)) ∧
        (s.fir.isClaimed k.val = true → Yields (.accrd k q c r f) s (FrameTraps s))) ∧
      (s.fir.isClaimed k.val = false → Yields (.accrd k q c r f) s (fun t => ∃ m, m.isClaimed k.val = true ∧
        m = { next with claimed := m.claimed, used := s.fir.used + 1, reserved := s.fir.reserved - 1 } ∧
        enters [q] r m (.accrd k.val (if q = .z then none else some (s.sel q)) r f) c.val
          (s.fir.release l.die rt none) (isCrossing rt) false t)) ∧
      Yields .accclr0 s (queued next .accclr 0) ∧ Yields .accclr1 s (queued next .accclr 1) ∧
      Yields .accclr2 s (queued next .accclr 2) ∧ Yields .accclr3 s (queued next .accclr 3) ∧
      Yields .accclr4 s (queued next .accclr 4) ∧ Yields .accclr5 s (queued next .accclr 5) ∧
      Yields .accclr6 s (queued next .accclr 6) ∧ Yields .accclr7 s (queued next .accclr 7)) ∧
    (8 ≤ (s.st l).matq.length → ∀ i ∈ [Instr.mma a b c, .mmas k a b c, .afeed a, .accld a c, .accrd k q c r f, .accclr0, .accclr1,
      .accclr2, .accclr3, .accclr4, .accclr5, .accclr6, .accclr7], exec i s = .next s) ∧
    (RoomToPark s →
      (¬ (w = .w32 ∨ w = nw ∨ s.cx.format = 5 ∧ w = .w8) → Yields (.tcfg d a w g) s (FrameTraps s)) ∧
      (¬ (x.rows = 16 ∧ x.perRow % 16 = 0) → Yields (.txp d a) s (FrameTraps s)))

/-- An entry that stands first for what it waits for, and is granted its heat tokens if it is a product, starts and reads its
tiles (an ACCRD forms its tile, each element with the draw that its issue gave it) once the accumulators that it names are
resident; one that runs again keeps what it has read, and any other does not start. A started one ends: a product adds to its
accumulator group by group (integer sums clamped to 32 bits after each group, in floating point each group's exact sum
rounded once and added), ACCCLR clears it, ACCLD loads it, ACCRD sends its tile; an AFEED sends its sum to the next station
of its chain, and at the tail adds it to A0; a product whose residue check fails the first time goes back, and partials
arrive in order. The heat bucket, whose fraction is the model's (log entry 17), refills up to 4,096, starts the product that
it covers in that cycle, and marks one that it does not cover as stalled. -/
def Obligations.MatrixUnitStartsAndEndsItsEntries : Prop :=
  ∀ (s : State) (e : MatEntry),
    let l := s.sched.arg.loc
    let n := s.sched.arg.n
    let col := n % 32
    let c := (s.st l).ctx e.ctx
    let acc := fun (t : State) => vget ((t.st l).ctx e.ctx).accs e.acc 0
    let ready := fun (m : Loc) => s.entryReady m e = true ∧
      ∀ k p, (s.st m).partialFor e = some k → (s.st m).pleach[k]? = some p → p.recs = []
    let refilled := min 4096 (((s.col col).tokens * 32 + (s.col col).frac + (s.col col).grant) / 32)
    ((s.st l).matq[n]? = some e →
      (s.matHead l n e = true → s.matRuns e = true → (e.op.isProduct = true → e.granted = true) → ready l →
        Yields .matrixEntryStart s (fun t => ∃ f, (t.st l).matq[n]? = some f ∧ f.started = true ∧ f.op = e.op ∧ f.acc = e.acc ∧
          t.mm = s.mm ∧ (e.kept = true → f.opA = e.opA ∧ f.opB = e.opB ∧ f.opS = e.opS) ∧
          (∀ a b, e.kept = false → e.op = .mma a b → f.opA = vget c.tiles a {} ∧ f.opB = vget c.tiles b {}) ∧
          (∀ a b k, e.kept = false → e.op = .mmas a b k →
            f.opA = vget c.tiles a {} ∧ f.opB = vget c.tiles b {} ∧ f.opS = vget c.tiles k {}) ∧
          (∀ a, e.kept = false → e.op = .afeed a → f.opA = vget c.tiles a {} ∧ f.opB = c.wr) ∧
          (∀ arc x rm fmt, e.kept = false → e.op = .accrd arc x rm fmt → f.opA.rows = 16 ∧ ∀ i < 16, ∀ j < 16, f.opA.code i j =
            ((fmtOf fmt).saturate rm (({ c with seed := e.seed, rctr := e.rctr } : Ctx).draw (16 * i + j))
              (accValue c.format x (accElem (acc s) i j))).1 % 2 ^ (fmtOf fmt).width))) ∧
      (s.matHead l n e = true → s.matRuns e = true → (e.op.isProduct = true → e.granted = true) → s.entryReady l e = false →
        (s.bringWhat l e.regs).entryReady l e = false → exec .matrixEntryStart s = .next (s.bringWhat l e.regs)) ∧
      (s.matHead l n e = false ∨ s.matRuns e = false ∨ e.op.isProduct = true ∧ e.granted = false →
        exec .matrixEntryStart s = .next s) ∧
      (e.started = true → e.ctx < 8 → e.acc < 8 →
        (s.sched.arg.ok = true → (∃ a b, e.op = .mma a b) ∨ (∃ a b k, e.op = .mmas a b k) → Yields .matrixEntryEnd s (fun t =>
          (t.st l).matq = (s.st l).matq.eraseIdx n ∧ acc t = matProduct c.format e.opA e.opB e.opS (acc s) ∧ t.mm = s.mm)) ∧
        (e.op = .acctail → Yields .matrixEntryEnd s (fun t => (t.st l).matq = (s.st l).matq.eraseIdx n ∧
          acc t = accAdd c.format (acc s) (e.part.getD 0) ∧ t.mm = s.mm)) ∧
        (∀ arc x rm fmt r, e.op = .accrd arc x rm fmt → c.route? e.sprig arc = some r → Yields .matrixEntryEnd s (fun t =>
          (t.st l).matq = (s.st l).matq.eraseIdx n ∧ acc t = acc s ∧
          t = (s.dropMat l n).lateSend l e.fid e.inst r e.tag (.tile e.opA) e.rel ∧
          ∀ i, s.inst? e.inst = some i → i.st.ended = false → rtTarget r = 0 → ∃ f, t.fab.tokens = s.fab.tokens ++ [f] ∧
            f.tok = ⟨mkHeader (i.target r) (rtSprig r) (rtSlot r) (1, true) (rtEdge r) e.tag, e.tag, .tile e.opA⟩ ∧
            f.src = some l ∧ f.holds = e.rel.holds ∧ f.before = e.rel.before)) ∧
        (e.op = .accclr → Yields .matrixEntryEnd s (fun t => (t.st l).matq = (s.st l).matq.eraseIdx n ∧ acc t = 0)) ∧
        (∀ a, e.op = .accld a → Yields .matrixEntryEnd s (fun t => (t.st l).matq = (s.st l).matq.eraseIdx n ∧
          ∀ i < 16, ∀ j < 16, accElem (acc t) i j = e.opA.code i j % 2 ^ 32)) ∧
        (s.sched.arg.ok = false → e.op.isProduct = true → e.failed = 0 → Yields .matrixEntryEnd s (fun t => acc t = acc s ∧
          (t.st l).matq[n]? = some { e with started := false, granted := false, asked := none, stalled := false, failed := 1 }))) ∧
      (e.started = true → s.sched.arg.ok = true → ∀ a, e.op = .afeed a →
        let sum := matProduct c.format e.opA e.opB e.opS (e.part.getD 0)
        (s.chainNext e.inst l = none → Yields .matrixEntryEnd s (fun t => t.mm = s.mm ∧
          (t.st l).matq[n]? = some { e with op := .acctail, acc := 0, started := false, part := some sum })) ∧
        (∀ m, s.chainNext e.inst l = some m → ((s.st m).ctx e.ctx).valid = true → ((s.st m).ctx e.ctx).inst = e.inst →
          ((s.st m).ctx e.ctx).draining = false → Yields .matrixEntryEnd s (fun t => t.mm = s.mm ∧
            (t.st l).matq = (s.st l).matq.eraseIdx n ∧ ∃ p, (t.st m).pleach = (s.st m).pleach ++ [p] ∧
              p.ctx = e.ctx ∧ p.tag = e.tag ∧ p.sum = sum ∧ p.arrived = false)))) ∧
    (∀ p, (s.st l).pleach[n]? = some p → (((s.st l).pleach.take n).all (·.arrived)) = true → Yields .partialArrival s (fun t =>
      (t.st l).pleach = (s.st l).pleach.set n { p with arrived := true } ∧ (t.st l).matq = (s.st l).matq ∧ t.mm = s.mm)) ∧
    ((((s.st l).pleach.take n).all (·.arrived)) = false → Yields .partialArrival s (fun t =>
      (t.st l).pleach = (s.st l).pleach ∧ t.mm = s.mm)) ∧
    ((∀ k < 160, s.heatAsk (columnStation col k) = none) → Yields .heatBucketCycle s (fun t => (t.col col).tokens = refilled ∧
      (∀ k, k ≠ col → t.col k = s.col k) ∧ t.fab.stations = s.fab.stations ∧ t.mm = s.mm)) ∧
    (∀ j < 160, ∀ m, (∀ k < 160, k ≠ j → s.heatAsk (columnStation col k) = none) →
      s.heatAsk (columnStation col j) = some (m, e) → e.stalled = false → ready (columnStation col j) →
      let h := columnStation col j
      let need := matHeat ((s.st h).ctx e.ctx).format
      (need ≤ refilled → Yields .heatBucketCycle s (fun t => (t.col col).tokens = refilled - need ∧
        ∃ f, (t.st h).matq[m]? = some f ∧ f.started = true ∧ f.granted = true ∧ f.stalled = false ∧ f.op = e.op ∧ f.acc = e.acc)) ∧
      (refilled < need → Yields .heatBucketCycle s (fun t => (t.col col).tokens = refilled ∧
        (t.st h).matq[m]? = some { e with stalled := true, asked := some s.now, counted := true }))) ∧
    (∀ (f : BitVec 6) (a b k : Tile) (x : BitVec 8192), ∀ i < 16, ∀ j < 16, matFmt f = .int → ∃ X : Nat → ℤ,
      X 0 = intOf (accElem x i j) 32 ∧ accElem (matProduct f a b k x) i j = (BitVec.ofInt 32 (X 12)).toNat ∧
      ∀ g < 12, X (g + 1) = max (-2 ^ 31) (min (2 ^ 31 - 1) (X g +
        ((List.range 32).map (fun v => intOf (a.codeIn i (32 * g + v)) 8 * intOf (b.codeIn j (32 * g + v)) 8)).sum))) ∧
    (∀ (f : BitVec 6) (a b k : Tile) (x : BitVec 8192), ∀ i < 16, ∀ j < 16, matFmt f = .fp → ∃ X : Nat → Nat,
      let groups := if nativeWidth f = .w16 then 6 else 12
      X 0 = accElem x i j ∧ accElem (matProduct f a b k x) i j = X groups % 2 ^ 32 ∧
      ∀ g < groups, ∃ z : Machine.Num, X (g + 1) = fp32Add (X g) (toF32 z) ∧
        ((∀ v < 32, (∃ p q u, a.valIn f i (32 * g + v) = .fin p q u) ∧ ∃ p q u, b.valIn f j (32 * g + v) = .fin p q u) →
          z.val = ((List.range 32).map (fun v => (a.valIn f i (32 * g + v)).val * (b.valIn f j (32 * g + v)).val)).sum ∧
          (z.val = 0 → z.sign = false)))

/-- With a lease, in range and aligned, LDSP puts the extended bytes, STSP writes the low bytes and marks its lsid, LDF puts
the bytes of a full granule and with .c empties it, or parks at an empty one, STF (once what happens before it is performed)
writes, fills the granule and sends its waiting firings on, FEQ tests and FEC empties granules. Misaligned or invalid
addresses trap in every form (stated where the firing can park), and FEC of no bytes does nothing. Every other byte, station
and memory is as before. -/
def Obligations.ScratchpadAccessesReadAndWriteTheirBytes : Prop :=
  ∀ (s : State) (d : Fin 8) (v a b : Sel) (i : Fin 32) (z : Size) (c x : Bool), s.fir.ctx < 8 →
    let l := s.sched.curSt
    let n := sizeBytes z
    let e := (s.sel a + s.sel b).toNat
    let full := (s.st l).spFull
    let next := { s.fir with pos := s.fir.pos + 1 }
    let marks := { next with lsids := s.fir.lsids ||| BitVec.ofNat 32 (2 ^ i.val) }
    let got := extend x n (Mem.read (s.st l).sp e n)
    (RoomToPark s → e % n ≠ 0 → Yields (.ldsp d a b i x z) s (FrameTraps s) ∧ Yields (.ldf d a b i c x z) s (FrameTraps s) ∧
      Yields (.stsp v a b i z) s (FrameTraps s) ∧ Yields (.stf v a b i z) s (FrameTraps s)) ∧
    (RoomToPark s → s.cx.leased = false ∨ 2 ^ 18 < e + n → Yields (.ldsp d a b i x z) s (FrameTraps s) ∧
      Yields (.stsp v a b i z) s (FrameTraps s) ∧ Yields (.ldf d a b i c x z) s (FrameTraps s) ∧
      Yields (.stf v a b i z) s (FrameTraps s)) ∧
    (s.cx.leased = true → e + n ≤ 2 ^ 18 → e % n = 0 →
      Yields (.ldsp d a b i x z) s (WritesTemp s · d [a, b] got) ∧
      (s.fir.lsids.getLsbD i.val = false → Yields (.stsp v a b i z) s (fun t =>
        StoresInScratchpad s t [v, a, b] marks e n (s.sel v).toNat ∧ (t.st l).spFull = full)) ∧
      (e / 16 ∈ full → Yields (.ldf d a b i c x z) s (fun t => t.fir.t = s.fir.t.set d got ∧ t.fir.pos = s.fir.pos + 1 ∧
        Consumed s t [a, b] ∧ (t.st l).spFull = (if c then ndrop full (e / 16) else full) ∧ (t.st l).sp = (s.st l).sp ∧
        OnlyFabric s t ∧ SameNetworks s t ∧ ∀ m, m ≠ l → t.st m = s.st m)) ∧
      (e / 16 ∉ full → RoomToWait s → Yields (.ldf d a b i c x z) s (Parks s · (.granule (e / 16)))) ∧
      (s.fir.lsids.getLsbD i.val = false → s.releaseMet .plot = true → Yields (.stf v a b i z) s (fun t =>
        StoresInScratchpad s t [v, a, b] marks e n (s.sel v).toNat ∧ (t.st l).spFull = nput full (e / 16) ∧
        ∀ f ∈ (t.st l).parked, f.park ≠ .granule (e / 16))) ∧
      (s.fir.lsids.getLsbD i.val = false → s.releaseMet .plot = false → exec (.stf v a b i z) s = .next s)) ∧
    (let r := (s.sel a).toNat
     let k := (s.sel b).toNat
     (RoomToPark s →
       (r % 16 ≠ 0 ∨ k % 16 ≠ 0 → Yields (.fec a b i c) s (FrameTraps s)) ∧
       (r % 16 ≠ 0 → Yields (.feq d a i c) s (FrameTraps s)) ∧
       (k ≠ 0 → s.cx.leased = false ∨ 2 ^ 18 < r + k → Yields (.fec a b i false) s (FrameTraps s)) ∧
       (s.cx.leased = false ∨ 2 ^ 18 < r + 16 → Yields (.feq d a i false) s (FrameTraps s))) ∧
     (r % 16 = 0 → k = 0 → Yields (.fec a b i c) s (Plain s · [a, b] next)) ∧
     (s.cx.leased = true → r % 16 = 0 →
      (r + 16 ≤ 2 ^ 18 → (r / 16 ∈ full → Yields (.feq d a i false) s (WritesTemp s · d [a] 1)) ∧
        (r / 16 ∉ full → Yields (.feq d a i false) s (WritesTemp s · d [a] 0))) ∧
      (k % 16 = 0 → r + k ≤ 2 ^ 18 → Yields (.fec a b i false) s (fun t => t.fir = next ∧ Consumed s t [a, b] ∧
        (∀ g, g ∈ (t.st l).spFull ↔ g ∈ full ∧ (g < r / 16 ∨ (r + k) / 16 ≤ g)) ∧ (t.st l).sp = (s.st l).sp ∧ OnlyFabric s t ∧
        ∀ m, m ≠ l → t.st m = s.st m))))

/-- Aligned, each form puts one access of the firing behind those under way, with its address, length, data, lsid and
destination, ordered before what the firing does later; a load leaves its temporary waiting, LDMF stalls the firing, and STMF
waits for what happens before it. TLD.sp and TST.sp move the rows between the tile register and the neighbouring scratchpads
at once. A store under an lsid already performed and a misaligned access trap. No byte of memory changes at issue. -/
def Obligations.MemoryAccessesAreIssued : Prop :=
  ∀ (s : State) (d : Fin 8) (k : Fin 16) (v a b : Sel) (i : Fin 32) (z : Size) (c x y : Bool), s.fir.ctx < 8 →
    let n := sizeBytes z
    let e := (s.sel a + s.sel b).toNat
    let die := s.sched.curSt.die
    let A := (s.sel a).toNat
    let B := (s.sel b).toNat
    let w := (s.sel v).toNat
    let q := s.cx.tile k
    let pends := { s.fir with pendT := s.fir.pendT.filter (fun p => decide (p.1 ≠ d.val)) ++ [(d.val, s.sched.uid)] }
    let free := s.fir.lsids.getLsbD i.val = false
    let mine := s.newAcc .firing
    (RoomToPark s → e % n ≠ 0 → Yields (.ldm d a b i x z) s (FrameTraps s) ∧ Yields (.stm v a b i z) s (FrameTraps s) ∧
      Yields (.ldmf d a b i c x z) s (FrameTraps s) ∧ Yields (.stmf v a b i z) s (FrameTraps s)) ∧
    (RoomToPark s → s.fir.lsids.getLsbD i.val = true → Yields (.stm v a b i z) s (FrameTraps s) ∧
      Yields (.stsp v a b i z) s (FrameTraps s) ∧ Yields (.stmf v a b i z) s (FrameTraps s) ∧
      Yields (.stf v a b i z) s (FrameTraps s) ∧ Yields (.tst k a b i c) s (FrameTraps s) ∧
      Yields (.copy v a b i y x) s (FrameTraps s)) ∧
    (e % n = 0 →
      Yields (.ldm d a b i x z) s (IssuesAccess s · [a, b] pends { mine (.load x) e n i.val with td := some d.val }) ∧
      Yields (.ldmf d a b i c x z) s (IssuesAccess s · [a, b] { pends with stall := some s.sched.uid }
        { mine (.loadF c x) e n i.val with td := some d.val, acq := some .device }) ∧
      (free → Yields (.stm v a b i z) s (IssuesAccess s · [v, a, b] s.fir (mine (.store (w % 256 ^ n)) e n i.val))) ∧
      (free → Yields (.stmf v a b i z) s (IssuesAccess s · [v, a, b] s.fir { mine (.storeF (w % 256 ^ n)) e n i.val with
        holds := [⟨.device, die, s.fir.before⟩], rel := some ⟨.device, die, s.fir.inst, nput s.fir.before s.sched.uid⟩ }))) ∧
    (A % 16 = 0 → Yields (.feq d a i true) s (IssuesAccess s · [a] pends { mine .feq A 16 i.val with td := some d.val }) ∧
      (B % 16 = 0 → B ≠ 0 → Yields (.fec a b i true) s (IssuesAccess s · [a, b] s.fir (mine .fec A B i.val)))) ∧
    ((∀ r < q.rows, s.rowAddr a b r % 32 = 0) →
      Yields (.tld k a b i false) s (IssuesAccess s · [a, b] s.fir (mine (.tload k q.rows q.rowBytes B) A (q.rows * q.rowBytes) i.val)) ∧
      (free → Yields (.tst k a b i false) s (IssuesAccess s · [a, b] s.fir
        (mine (.tstore q.rows q.rowBytes B q.packed) A (q.rows * q.rowBytes) i.val))) ∧
      (q.fits → (∀ r < q.rows, (s.rowPlace (s.rowAddr a b r) q.rowBytes).isSome = true) →
        Yields (.tld k a b i true) s (fun t => t.fir = { s.fir with pos := s.fir.pos + 1 } ∧ t.cx = { Drawn s [a, b] .rne 0 t.cx.site with tiles := t.cx.tiles } ∧
          (∀ j, j ≠ k → t.cx.tile j = s.cx.tile j) ∧ (t.cx.tile k).rows = q.rows ∧ (t.cx.tile k).rowBytes = q.rowBytes ∧
          (∀ r < q.rows, ∀ p, s.rowPlace (s.rowAddr a b r) q.rowBytes = some p →
            (t.cx.tile k).row r = Mem.read (s.st p.1).sp p.2 q.rowBytes) ∧ OnlyFiring s t ∧ OnlyFabric s t) ∧
        (free → Yields (.tst k a b i true) s (fun t => t.fir.pos = s.fir.pos + 1 ∧ t.fir.t = s.fir.t ∧ OnlyFabric s t ∧
          (∀ m u, (∀ r < q.rows, ∀ p, s.rowPlace (s.rowAddr a b r) q.rowBytes = some p → p.1 ≠ m ∨ u < p.2 ∨ p.2 + q.rowBytes ≤ u) →
            Mem.get (t.st m).sp u = Mem.get (s.st m).sp u) ∧
          (∀ r < q.rows, ∀ p, s.rowPlace (s.rowAddr a b r) q.rowBytes = some p →
            (∀ r', r < r' → r' < q.rows → ∀ p', s.rowPlace (s.rowAddr a b r') q.rowBytes = some p' →
              p'.1 ≠ p.1 ∨ p.2 + q.rowBytes ≤ p'.2 ∨ p'.2 + q.rowBytes ≤ p.2) →
            Mem.read (t.st p.1).sp p.2 q.rowBytes = q.row r))))) ∧
    (B ≠ 0 → Yields (.pref a b) s (IssuesElement s · [a, b] (s.newAcc .engine .prefetch A (min B 65536) 0))) ∧
    (B = 0 → Yields (.pref a b) s (Plain s · [a, b] { s.fir with pos := s.fir.pos + 1 })) ∧
    (free → w % 16 = 0 → A % 16 = 0 → B % 16 = 0 → w % 2 ^ 32 ≠ 0 → (x = true → s.cx.leased = true ∧ A + w % 2 ^ 32 ≤ 2 ^ 18) →
      (y = true → s.cx.leased = true ∧ B + w % 2 ^ 32 ≤ 2 ^ 18) → Yields (.copy v a b i y x) s (fun t =>
        t.mm.accesses = s.mm.accesses ∧ t.mm.mem = s.mm.mem ∧ Consumed s t [v, a, b] ∧ OnlyFiring s t ∧
        t.fir.before = nput s.fir.before s.sched.uid ∧ t.fir.pos = s.fir.pos + 1 ∧ t.fir.t = s.fir.t ∧
        ∃ p, t.mm.copies = s.mm.copies ++ [p] ∧ p.uid = s.sched.uid ∧ p.src = A ∧ p.dst = B ∧ p.srcSp = x ∧ p.dstSp = y ∧
          p.granules = w % 2 ^ 32 / 16 ∧ p.lsid = i.val ∧ p.loc = s.sched.curSt ∧ p.fid = s.fir.id ∧ p.moved = [] ∧ p.next = 0))

/-- SDEF and SLEN change the definition, of an ARMED record the pending one, SGO arms the record under a new name (or
finishes it with a count of 0), of an ARMED record the pending definition, claiming a load's arc, and all three wait while
the record is HALTED or has a pending SGO; SGO also waits for the firing's scratchpad copies (LOG 51, a DEDUCED reading of
R52). LDS reads a delivered element (one of the run before, where SDEF has redefined the record since: log entry 61) or
parks; STS, GATH, SCAT and SCADD issue the element's access with its address, tag and what an SBAR named, and it happens
before what the firing does later (R269, R279); an STS of an element supplied before replaces its value while it is not
performed, and SCADD waits while the scatter arena is full (log entry 24); SCFLUSH is an access of the firing, CPSTAT puts
the bytes left, SBAR makes later elements of the named strands wait for their earlier ones. -/
def Obligations.StrandInstructionsWorkOnTheirRecord : Prop :=
  ∀ (s : State) (v8 : Fin 8) (d : Fin 8) (v a b : Sel) (i : Fin 32) (y : StrandDest) (tg st : Bool) (z : ESize) (ty : ScType)
    (sc : Scope) (m n : BitVec 4), s.fir.ctx < 8 →
    let l := s.sched.curSt
    let k := s.myStrand v8.val
    let ri := 8 * s.fir.ctx + v8.val
    let e := (s.sel a).toNat
    let x := (s.sel v).toNat % 256 ^ elemBytes k.d.size
    let held := decide (k.st = .halted) || (decide (k.st = .armed) && k.pendGo)
    let copying := s.mm.copies.any (fun c => decide (c.loc = l ∧ c.fid = s.fir.id) && (c.srcSp || c.dstSp))
    let makes := fun (srcs : List Sel) (r : Strand) (t : State) => t.fir = { s.fir with pos := s.fir.pos + 1 } ∧
      Consumed s t srcs ∧ (t.st l).strand ri = r ∧ (∀ j, j ≠ ri → (t.st l).strand j = (s.st l).strand j) ∧
      (t.st l).sp = (s.st l).sp ∧ (∀ o, o ≠ l → t.st o = s.st o) ∧ SameNetworks s t ∧ t.mm = s.mm ∧ t.prick = s.prick
    let sets := { k.target with tagged := tg, store := st, size := z, dest := y, base := s.sel a, stride := s.sel b }
    let goes := fun (g : StrandDef) (r : BitVec 64) => { g with
      offset := s.sel a, otag := s.fir.otag, route := r, fid := s.fir.id, id := s.sched.uid, stage := hdrStage s.fir.header,
      rel := s.fir.lateRelease l.die r }
    let elem := fun (op : AccOp) (w lsid : Nat) => { s.newAcc .strand op (k.d.base + BitVec.ofNat 64 e * k.d.stride).toNat w lsid with
      tag := s.fir.otag, holds := k.bar.filter (fun h => !s.holdMet h) }
    let unused := s.fir.lsids.getLsbD i.val = false
    (held = true → exec (.sdef v8 a b y tg st z) s = .next s ∧ exec (.slen v8 a) s = .next s ∧ exec (.sgo v8 a) s = .next s) ∧
    (copying = true → exec (.sgo v8 a) s = .next s) ∧
    (held = false →
      (k.st ≠ .armed → Yields (.sdef v8 a b y tg st z) s (makes [a, b] { k with d := sets, st := .idle, defd := true })) ∧
      (k.st = .armed → Yields (.sdef v8 a b y tg st z) s (makes [a, b] { k with pend := some sets, pendDef := true })) ∧
      (k.st ≠ .armed → k.defd = true → Yields (.slen v8 a) s (makes [a] { k with d := { k.d with count := e % 2 ^ 32 } })) ∧
      (k.st = .armed → Yields (.slen v8 a) s (makes [a] { k with pend := some { k.target with count := e % 2 ^ 32 } })) ∧
      (copying = false → k.defd = true → k.st ≠ .armed → ((∃ q, k.d.dest = .q q) ∨ k.d.dest = .sp ∧ s.cx.leased = true) →
        Yields (.sgo v8 a) s (makes [a] { k with
          d := goes k.d 0
          st := if k.d.count = 0 then .finished else .armed
          pend := none, pendGo := false, pendDef := false, next := 0, done := 0, perf := [] })) ∧
      (∀ q, copying = false → k.defd = true → k.st ≠ .armed → k.d.dest = .arc q → k.d.store = false → s.fir.isClaimed q.val = false →
        Yields (.sgo v8 a) s (fun t => t.fir.isClaimed q.val = true ∧ t.fir.pos = s.fir.pos + 1 ∧ t.mm = s.mm ∧
          ((t.st l).strand ri).d = goes k.d ((s.cx.route? s.fir.sprig q.val).getD 0) ∧
          ((t.st l).strand ri).st = if k.d.count = 0 then .finished else .armed)) ∧
      (copying = false → k.defd = true → k.st = .armed →
        ((∃ q, k.target.dest = .q q) ∨ k.target.dest = .sp ∧ s.cx.leased = true →
          Yields (.sgo v8 a) s (makes [a] { k with pend := some (goes k.target 0), pendGo := true })) ∧
        ∀ q, k.target.dest = .arc q → k.target.store = false → s.fir.isClaimed q.val = false →
          Yields (.sgo v8 a) s (fun t => t.fir.isClaimed q.val = true ∧ t.fir.pos = s.fir.pos + 1 ∧ t.mm = s.mm ∧
            (t.st l).strand ri =
              { k with pend := some (goes k.target ((s.cx.route? s.fir.sprig q.val).getD 0)), pendGo := true }))) ∧
    (k.d.tagged = false → k.d.store = false → k.d.dest = .sp → e < k.d.count →
      (e < k.done → Yields (.lds d a v8 i) s
        (WritesTemp s · d [a] (dbl ((s.st l).spReadMod (k.d.spAddr e) (min (elemBytes k.d.size) 8))))) ∧
      (k.done ≤ e → RoomToWait s → Yields (.lds d a v8 i) s (Parks s · (.element v8.val e)))) ∧
    (RoomToPark s → k.d.count ≤ e → Yields (.lds d a v8 i) s (FrameTraps s) ∧ Yields (.sts v a v8 i) s (FrameTraps s)) ∧
    (unused → k.st = .armed → k.d.store = true → k.d.tagged = false → k.d.dest ≠ .sp → e < k.d.count → k.done ≤ e →
      s.supplied ri e k.d.id = none → Yields (.sts v a v8 i) s
        (IssuesAccess s · [v, a] s.fir (elem (.elemStore ri e k.d x) (elemBytes k.d.size) i.val))) ∧
    (k.st = .armed → k.d.store = true → k.d.tagged = false → k.d.dest ≠ .sp → e < k.d.count →
      ∀ g, s.supplied ri e k.d.id = some g →
        (RoomToPark s → (s.fir.id, i.val) ∈ (g.fid, g.lsid) :: g.extra → Yields (.sts v a v8 i) s (FrameTraps s)) ∧
        (unused → (s.fir.id, i.val) ∉ (g.fid, g.lsid) :: g.extra → g.isServed = false → Yields (.sts v a v8 i) s (fun t =>
          t.fir = { s.fir with own := s.fir.own ++ [(g.uid, false)], before := nput s.fir.before g.uid, pos := s.fir.pos + 1 } ∧
          Consumed s t [v, a] ∧ OnlyFiring s t ∧ SameNetworks s t ∧
          t.mm = { s.mm with accesses := s.mm.accesses.map (fun u => if u.uid = g.uid then
            { u with op := .elemStore ri e k.d x, extra := u.extra ++ [(s.fir.id, i.val)] } else u) })) ∧
        (unused → (s.fir.id, i.val) ∉ (g.fid, g.lsid) :: g.extra → g.isServed = true → Yields (.sts v a v8 i) s (fun t =>
          t.fir.pos = s.fir.pos + 1 ∧ t.fir.lsids = s.fir.lsids ||| BitVec.ofNat 32 (2 ^ i.val) ∧ OnlyFiring s t ∧ t.mm = s.mm))) ∧
    (k.st = .armed → k.d.tagged = true →
      (k.d.store = false → Yields (.gath a v8) s (IssuesAccess s · [a] s.fir (elem (.elemLoad ri e k.d) (elemBytes k.d.size) 0))) ∧
      (k.d.store = true → unused → Yields (.scat v a v8 i) s
        (IssuesAccess s · [v, a] s.fir (elem (.elemStore ri e k.d x) (elemBytes k.d.size) i.val))) ∧
      (k.d.store = true → unused → elemBytes k.d.size = scBytes ty →
        (s.scatStopped s.fVf = true → exec (.scadd v a v8 i ty) s = .next s) ∧
        (s.scatStopped s.fVf = false → Yields (.scadd v a v8 i ty) s
          (IssuesAccess s · [v, a] s.fir (elem (.scadd ri e ty k.d (s.sel v)) (scBytes ty) i.val))))) ∧
    Yields (.scflush v8 sc) s (IssuesAccess s · [] s.fir (s.newAcc .firing (.scflush ri (decide (sc ≠ .firing))) 0 0 0)) ∧
    Yields (.cpstat d i) s (fun t => ∃ left, WritesTemp s t d [] (dbl left) ∧
      (∀ c ∈ s.mm.copies, (∀ o ∈ s.mm.copies, o.loc = l → o.fid = s.fir.id → o.lsid = i.val → o = c) → c.loc = l → c.fid = s.fir.id →
        c.lsid = i.val → left = 16 * c.granules - 16 * c.moved.length) ∧
      ((∀ c ∈ s.mm.copies, ¬ (c.loc = l ∧ c.fid = s.fir.id ∧ c.lsid = i.val)) → left = 0)) ∧
    Yields (.sbar m n sc) s (fun t => t.fir = { s.fir with pos := s.fir.pos + 1 } ∧ t.mm = s.mm ∧ ∃ h : Hold, h.scope = sc ∧
      h.die = l.die ∧ ∀ j < 8,
        ((m.toNat * 16 + n.toNat).testBit j = false → (t.st l).strand (8 * s.fir.ctx + j) = (s.st l).strand (8 * s.fir.ctx + j)) ∧
        ((m.toNat * 16 + n.toNat).testBit j = true → h ∈ ((t.st l).strand (8 * s.fir.ctx + j)).bar ∧
          ∀ u ∈ s.mm.accesses, u.loc = l → (u.op.elem.map (·.1) = some (8 * s.fir.ctx + j)) → u.uid ∈ h.uids))

/-- A fence whose accesses (loads, atomics and joins for acq, everything earlier for rel and full; at FIRING scope only the
firing's own direct accesses) are performed at its scope is passed, and after rel or full of a wider scope later tokens carry
a release; else the firing is set aside as it stands. A STILE waits for everything earlier at its scope, then passes the
release point, sends the crossing tokens, and gives its release to those that strands still owe, beside what a FENCE before
asks of them. BARJ waits likewise, sends its join with index and count (0 counts as 1) and parks; notified, it puts its rank.
-/
def Obligations.FencesStilesAndBarriersOrder : Prop :=
  ∀ (s : State) (d : Fin 8) (a : Sel) (k : FenceKind) (sc : Scope) (i : Inst), s.fInst = some i →
    let l := s.sched.curSt
    let earlier := if k = .acq then (s.fir.own.filter (·.2)).map (·.1) else s.fir.before
    let own := fun (u : Nat) => s.mm.accesses.any (fun a => decide (a.uid = u ∧ a.fid = s.fir.id ∧ a.agent = .firing))
    let h : Hold := ⟨sc, l.die, if sc = .firing then earlier.filter own else earlier⟩
    let next := { s.fir with pos := s.fir.pos + 1 }
    let wider := match s.fir.tokRel with | some t => Scope.max t sc | none => sc
    let stile := fun (ins : Instr) (x : Scope) =>
      (s.releaseMet x = false → exec ins s = .next s) ∧
      (s.releaseMet x = true → s.fir.crossing = [] →
        Yields ins s (fun t => t.fir = { next with stilePassed := true, stileBefore := s.fir.before, stileHold := [] } ∧
          Consumed s t [] ∧ (∀ m, m ≠ l → t.st m = s.st m) ∧ (t.st l).sp = (s.st l).sp ∧ (t.st l).frames = (s.st l).frames ∧
          SameNetworks s t ∧ t.mm.mem = s.mm.mem ∧ t.mm.fe = s.mm.fe ∧ t.prick = s.prick ∧ t.cores = s.cores ∧ t.host = s.host ∧
          ∀ j, ((t.st l).strand j).d = (let g := ((s.st l).strand j).d
            if g.fid = s.fir.id ∧ isCrossing g.route = true then { g with rel := ⟨g.rel.holds, some (nunion s.fir.before (g.rel.before.getD []))⟩ } else g))) ∧
      (s.releaseMet x = true → ∀ c r, s.fir.crossing = [c] → s.cx.route? s.fir.sprig c.arc = some r → rtTarget r = 2 →
        ¬ (c.payload = .null ∧ rtDropNull r = true) → i.isCallee = false → Yields ins s (fun t => t.fir.pos = s.fir.pos + 1 ∧ t.fir.crossing = [] ∧ t.fir.stilePassed = true ∧
          t.mm.mem = s.mm.mem ∧ ∃ m, t.fab.sinkMsgs = s.fab.sinkMsgs ++ [m] ∧ m.inst = i.id ∧ m.k = rtNum r ∧ m.payload = c.payload))
    (s.holdMet h = true → (k = .acq ∨ sc = .firing → Yields (.fence k sc) s (Plain s · [] next)) ∧
      (k ≠ .acq → sc ≠ .firing → Yields (.fence k sc) s (Plain s · [] { next with relHold := some h, tokRel := some wider }))) ∧
    (s.holdMet h = false → s.callerLasts i → Yields (.fence k sc) s (fun t => (∀ m, m ≠ l → t.st m = s.st m) ∧
      t.st l = { s.st l with firing := {}, parked := (s.st l).parked ++ [{ s.fir with park := .fence, fence := some h }] } ∧
      t.mm = s.mm ∧ t.fab.tokens = s.fab.tokens ∧ t.prick = s.prick)) ∧
    stile .stilePlot .plot ∧ stile .stileDie .die ∧ stile .stileDevice .device ∧ stile .stileSystem .system ∧
    (∀ rank, s.fir.park = .notified rank → Yields (.barj d a sc) s
      (Plain s · [] { next with park := .none, t := s.fir.t.set d (BitVec.ofNat 64 rank) })) ∧
    ((∀ rank, s.fir.park ≠ .notified rank) →
      (s.releaseMet sc = false → exec (.barj d a sc) s = .next s) ∧
      (s.releaseMet sc = true → RoomToWait s → Yields (.barj d a sc) s (fun t => Parks s t .barrier ∧
        ∃ j, t.fab.joins = s.fab.joins ++ [j] ∧ j.inst = s.fir.inst ∧ j.b = (s.sel a).toNat % 8 ∧
          j.n = max 1 ((s.sel a).toNat / 256 % 256) ∧ j.j.st = l ∧ j.j.fid = s.fir.id)))

/-- On memory, aligned, each atomic issues its access with its operand and its order (acq at a scope, rel behind everything
earlier), and the firing issues nothing until it returns. With bit 63 set, on the own scratchpad, it is one step: the
temporary gets the old bytes extended (zeros for AMINN, AMAXN and AFADD), the location the combination of R284 (ACAS only
when the old value is the temporary's), and a releasing one waits for what happens before it. Every other byte is as before.
-/
def Obligations.AtomicsOnStationsCombine : Prop :=
  ∀ (s : State) (d : Fin 8) (a b : Sel) (i : Fin 32) (w : Width), s.fir.ctx < 8 → s.fir.lsids.getLsbD i.val = false →
    let l := s.sched.curSt
    let A := (s.sel a).toNat
    let p := A % 2 ^ 18
    let f := { s.fir with
      pendT := s.fir.pendT.filter (fun q => decide (q.1 ≠ d.val)) ++ [(d.val, s.sched.uid)], stall := some s.sched.uid }
    let atomic := fun (ins : AtomOrder → Instr) (n : Nat) (sx : Bool) (op : AmoOp) (new : Nat → Nat → Option Nat) =>
      let acc := { s.newAcc .firing (.amo op (s.sel b) sx) A n i.val with td := some d.val }
      let old := Mem.read (s.st l).sp p n
      let inSp := fun (o : AtomOrder) => Yields (ins o) s (fun t => t.fir.t = s.fir.t.set d (extend sx n old) ∧
        t.fir.pos = s.fir.pos + 1 ∧ t.fir.lsids = s.fir.lsids ||| BitVec.ofNat 32 (2 ^ i.val) ∧ Consumed s t [a, b] ∧ OnlyFabric s t ∧
        (∀ m, m ≠ l → t.st m = s.st m) ∧ (∀ x, x < p ∨ p + n ≤ x → Mem.get (t.st l).sp x = Mem.get (s.st l).sp x) ∧
        (new old ((s.sel b).toNat % 256 ^ n) = none → (t.st l).sp = (s.st l).sp) ∧
        ∀ v, new old ((s.sel b).toNat % 256 ^ n) = some v → Mem.read (t.st l).sp p n = v % 256 ^ n)
      ((s.sel a).getLsbD 63 = false → A % n = 0 →
        Yields (ins .relaxed) s (IssuesAccess s · [a, b] f acc) ∧
        (∀ sc, Yields (ins (.acq sc)) s (IssuesAccess s · [a, b] f { acc with acq := some sc })) ∧
        ∀ sc, Yields (ins (.rel sc)) s (IssuesAccess s · [a, b] f { acc with
          holds := [⟨sc, l.die, s.fir.before⟩], rel := some ⟨sc, l.die, s.fir.inst, nput s.fir.before s.sched.uid⟩ })) ∧
      (2 ^ 63 ≤ A → A < 2 ^ 63 + 2 ^ 18 → s.cx.leased = true → A % n = 0 →
        inSp .relaxed ∧ (∀ sc, inSp (.acq sc)) ∧ (∀ sc, s.releaseMet sc = true → inSp (.rel sc)) ∧
        ∀ sc, s.releaseMet sc = false → exec (ins (.rel sc)) s = .next s)
    let n := Width.bits w / 8
    let sg := fun (x : Nat) => (BitVec.ofNat (8 * n) x).toInt
    atomic (.aadd d a b i · w) n true .add (fun o x => some ((o + x) % 256 ^ n)) ∧
    atomic (.amin d a b i · w) n true .min (fun o x => some (if sg x < sg o then x else o)) ∧
    atomic (.amax d a b i · w) n true .max (fun o x => some (if sg o < sg x then x else o)) ∧
    atomic (.aminn d a b i · w) n false .minn (fun o x => some (min o x)) ∧
    atomic (.amaxn d a b i · w) n false .maxn (fun o x => some (max o x)) ∧
    atomic (.aand d a b i · w) n true .and (fun o x => some (o &&& x)) ∧
    atomic (.aor d a b i · w) n true .or (fun o x => some (o ||| x)) ∧
    atomic (.axor d a b i · w) n true .xor (fun o x => some (o ^^^ x)) ∧
    atomic (.axchg d a b i · w) n true .xchg (fun _ x => some x) ∧
    atomic (.acas d a b i · w) n true (.cas s.fir.t[d]) (fun o x => if o = s.fir.t[d].toNat % 256 ^ n then some x else none) ∧
    atomic (.afadd d a b i ·) 4 false .fadd (fun o x => some (fp32Add o x))

/-- CALL and CALLF create a QUEUED record of the function's own knot under an id that no record holds, remember it with the
firing and send nothing before the body's end; RET only marks the firing. INSTID gives the instance's id, slot, die, fold and
rectangle. AREAQ gives the number of free quads of the die, those that the partition holds there, and the first adjacent free
rectangle (HOW 1), else the nearest free one (2), else a rectangle that serves for folding (3), else none (0), and places
nothing; what the stations of the asked knot hold is the model's choice (log entry 23). KNOTQ gives the shape of a validated
image, or NO_KNOT beyond KNOTCNT, without a fault record. -/
def Obligations.CallClassReadsAndQueues : Prop :=
  ∀ (s : State) (d : Fin 8) (n : Fin 16) (ix : BitVec 16) (h w : BitVec 8) (i : Inst), s.fInst = some i →
    let calls := fun (fold : Bool) (q : Site) (t : State) => ∃ c : Inst, t.prick.insts = s.prick.insts ++ [c] ∧
      c.id ∉ s.prick.insts.map (·.id) ∧ c.id < 2 ^ 18 ∧ c.st = .queued ∧ c.kidx = ix.toNat ∧
      c.kind = .callee i.id n.val s.fir.otag ∧ c.foldOnly = fold ∧ c.vf = i.vf ∧ c.resRoutes = q.routes ∧
      t.fir = { s.fir with calls := s.fir.calls ++ [(n.val, c.id)], pos := s.fir.pos + 1 } ∧
      t.fab.tokens = s.fab.tokens ∧ t.mm = s.mm ∧ t.cores = s.cores ∧ OnlyFiring s t
    (∀ m q, i.img = some m → m.sites[n.val]? = some q → s.usedIds.length < 2 ^ 18 →
      Yields (.call n ix) s (calls false q) ∧ Yields (.callf n ix) s (calls true q)) ∧
    Yields .ret s (Plain s · [] { s.fir with retDone := true, pos := s.fir.pos + 1 }) ∧
    (0 < w.toNat → w.toNat ≤ 16 → 0 < h.toNat → h.toNat ≤ 20 → s.quadsOf i.vf (some i.die) < 2 ^ 10 →
      Yields (.areaq d h w) s (fun t => ∃ v : Double, WritesTemp s t d [] v ∧
        let W := w.toNat
        let H := h.toNat
        let a := v.toNat
        let how := fld a 0 2
        let x := fld a 9 4
        let y := fld a 13 5
        let free := fun (q : Nat × Nat) => s.freeRect i.vf i.die.val q.1 q.2 W H
        let near := fun (q : Nat × Nat) => quadDist i.rect ⟨q.1, q.2, W, H⟩
        let folds := fun (q : Nat × Nat) => (s.foldSlot i.vf (askedKnot W H) i.die.val q.1 q.2).isSome
        fld a 40 10 = ((quadsIn 0 0 16 20).filter (fun q => s.quadFree i.die.val q.1 q.2)).length ∧
        fld a 30 10 = s.quadsOf i.vf (some i.die) ∧ fld a 50 14 = 0 ∧ fld a 18 12 = 0 ∧ fld a 2 7 = 0 ∧
        (∀ q, (adjacents i.rect W H).find? free = some q → how = 1 ∧ (x, y) = q) ∧
        ((∀ q ∈ adjacents i.rect W H, free q = false) → ∀ q ∈ allRects W H, free q = true →
          how = 2 ∧ (x, y) ∈ allRects W H ∧ free (x, y) = true ∧ near (x, y) ≤ near q ∧
            (near (x, y) = near q → y < q.2 ∨ y = q.2 ∧ x ≤ q.1)) ∧
        ((∀ q ∈ adjacents i.rect W H ++ allRects W H, free q = false) →
          how = 3 ∧ (x, y) ∈ allRects W H ∧ folds (x, y) = true ∨
          how = 0 ∧ x = 0 ∧ y = 0 ∧ ∀ q ∈ allRects W H, s.someHeld i.die.val q.1 q.2 W H = true → folds q = false))) ∧
    (i.id < 2 ^ 18 → i.qx < 16 → i.qy < 32 → 0 < i.w → i.w ≤ 16 → 0 < i.h → i.h ≤ 32 → Yields (.instid d) s (fun t =>
      ∃ v : Double, WritesTemp s t d [] v ∧ v.toNat % 2 ^ 18 = i.id ∧ v.toNat / 2 ^ 18 % 8 = i.slot % 8 ∧
        v.toNat / 2 ^ 28 % 2 = i.die.val ∧ v.getLsbD 29 = i.folded ∧ v.toNat / 2 ^ 30 % 16 = i.qx ∧ v.toNat / 2 ^ 34 % 32 = i.qy ∧
        v.toNat / 2 ^ 39 % 32 + 1 = i.h ∧ v.toNat / 2 ^ 44 + 1 = i.w)) ∧
    ((s.vf i.vf).knotcnt.toNat ≤ ix.toNat → Yields (.knotq d ix) s (WritesTemp s · d [] (BitVec.ofNat 64 (codeNoKnot * 2 ^ 32)))) ∧
    (ix.toNat < (s.vf i.vf).knotcnt.toNat → ∀ k, s.copy? i.die i.vf ix.toNat = some k → Yields (.knotq d ix) s (fun t =>
      ∃ v : Double, t.fir = { s.fir with t := s.fir.t.set d v, pos := s.fir.pos + 1 } ∧ v.getLsbD 31 = true ∧
        (k.img.entries.length < 32 → k.img.results.length < 8 → 0 < k.img.w → k.img.w ≤ 16 → 0 < k.img.h → k.img.h ≤ 32 →
          v.getLsbD 30 = k.img.pleach ∧ v.getLsbD 29 = k.img.signed ∧ v.getLsbD 28 = k.img.hasRet ∧
          v.toNat / 2 ^ 19 % 32 = k.img.entries.length ∧ v.toNat / 2 ^ 16 % 8 = k.img.results.length ∧
          v.toNat / 2 ^ 8 % 32 + 1 = k.img.h ∧ v.toNat / 2 ^ 4 % 16 + 1 = k.img.w) ∧
        t.mm = s.mm ∧ t.prick.insts = s.prick.insts ∧ OnlyFiring s t))

/-- HFW writes the low bits of one register of one family of the partition, HFR reads it. With an aligned descriptor and
vector and a free place at the engine (the issuing port's for HASH and TPRB, the descriptor's home for the others, which is
the issuing port's where no L2 slice homes it: log entry 65), each instruction puts its request behind those waiting, claims
its arc or leaves its temporary waiting, and goes on; TSTAT waits while the queue holds 64, and the others of its kind while
a Simiow port that its descriptor's translation reads through is down (R469); TFEN waits while an update of the slot on its
descriptor has not been applied. A misaligned descriptor traps. -/
def Obligations.RetrievalInstructionsQueueTheirRequests : Prop :=
  ∀ (s : State) (d : Fin 8) (n f : Fin 16) (v a b : Sel) (k : Fin 32) (h : HReg) (p : OvPolicy) (sc : Scope) (i : Inst),
    s.fInst = some i →
    let fams := (s.vf i.vf).families
    let width := fun (x : HReg) => match x with | .kind => 1 | .dim => 14 | .fmt => 6 | .bits => 5 | .tables => 5 | .seed => 64
    let desc := (s.sel a).toNat
    let vec := (s.sel b).toNat
    let row := (s.sel v).toNat
    let next := { s.fir with pos := s.fir.pos + 1 }
    let room := fun (e : Nat) => (s.mm.thq.filter (fun t => decide (t.eng = e))).length < 64
    let req := fun (op : ThOp) (e : Nat) => ({
      uid := s.sched.uid, op := op, loc := s.sched.curSt, ctx := s.fir.ctx, inst := s.fir.inst, vf := i.vf, fid := s.fir.id, desc := desc, eng := e, tag := s.fir.otag,
      stage := hdrStage s.fir.header } : ThReq)
    let port := s.issuePort s.sched.curSt
    let arc := (s.cx.route? s.fir.sprig n.val).getD 0
    let enters := fun (srcs : List Sel) (g : Firing) (r : ThReq) (t : State) => t.mm = { s.mm with thq := s.mm.thq ++ [r] } ∧
      t.fir = g ∧ Consumed s t srcs ∧ OnlyFiring s t ∧ SameNetworks s t ∧ t.prick = s.prick ∧ t.cores = s.cores ∧ t.host = s.host
    let vecOk := vec < 2 ^ 63 ∧ vec % fams[f].elemBytes = 0
    let unused := s.fir.lsids.getLsbD k.val = false
    let home := s.descPort desc
    Yields (.hfw a h f) s (fun t => ((t.vf i.vf).families[f].get h).toNat = (s.sel a).toNat % 2 ^ width h ∧
      (∀ x, x ≠ h → (t.vf i.vf).families[f].get x = fams[f].get x) ∧ (∀ g, g ≠ f → (t.vf i.vf).families[g] = fams[g]) ∧
      (∀ w, w ≠ i.vf → t.vf w = s.vf w) ∧ t.fir = next ∧ Consumed s t [a] ∧ OnlyFiring s t ∧ t.mm = s.mm) ∧
    Yields (.hfr d h f) s (WritesTemp s · d [] (fams[f].get h)) ∧
    (RoomToPark s → desc % 64 ≠ 0 → Yields (.tfen a sc) s (FrameTraps s) ∧ Yields (.tstat d a) s (FrameTraps s) ∧
      Yields (.hash n a b f) s (FrameTraps s)) ∧
    (desc < 2 ^ 63 → desc % 64 = 0 → room home → s.descWaits desc = true →
      (exec (.tstat d a) s = .next s) ∧ (unused → exec (.trhs v a k) s = .next s ∧ exec (.tovp a k p) s = .next s)) ∧
    (desc < 2 ^ 63 → desc % 64 = 0 →
      (vecOk → room port → s.fir.isClaimed n.val = false → ∀ op ins,
        (op = .hash ∧ ins = .hash n a b f ∨ op = .tprb ∧ ins = .tprb n a b f) → Yields ins s (fun t => ∃ g, g.isClaimed n.val = true ∧
          g = { next with claimed := g.claimed } ∧ enters [a, b] g { req op port with
            vec := vec, fam := f.val, route := arc, rel := s.fir.lateRelease s.sched.curSt.die arc } t)) ∧
      (vecOk → room home → s.descWaits desc = false → unused →
        Yields (.tins v a b k f) s (enters [v, a, b] next
          { req .tins home with vec := vec, fam := f.val, row := row % 2 ^ 32, lsid := k.val }) ∧
        Yields (.tdel v a b k f) s (enters [v, a, b] next
          { req .tdel home with vec := vec, fam := f.val, row := row % 2 ^ 32, lsid := k.val })) ∧
      (room home → s.descWaits desc = false → unused →
        Yields (.trhs v a k) s (enters [v, a] next { req .trhs home with row := row % 2 ^ 25, count := row % 2 ^ 25, lsid := k.val }) ∧
        Yields (.tovp a k p) s (enters [a] next { req .tovp home with
          row := (match p with | .refuse => 0 | .evictOldest => 1 | .chain => 2), lsid := k.val })) ∧
      (room home → s.descWaits desc = false → Yields (.tstat d a) s (enters [a]
        { next with pendT := s.fir.pendT.filter (fun q => decide (q.1 ≠ d.val)) ++ [(d.val, s.sched.uid)] }
        { req .tstat home with td := some d.val })) ∧
      (¬ room home → exec (.tstat d a) s = .next s) ∧
      (s.ownUpdate s.sched.curSt s.fir.ctx s.fir.inst desc s.sched.uid = false → Yields (.tfen a sc) s (Plain s · [a] next)) ∧
      (s.ownUpdate s.sched.curSt s.fir.ctx s.fir.inst desc s.sched.uid = true → exec (.tfen a sc) s = .next s))

/-- A probe with no line left leaves the engine and sends its end token under its own tag: bit 63, the duplicate flag and the
count of row tokens. An applied update waits for the probes of the old area, then leaves the engine and its lsid is
performed; one whose turn has not come does nothing; TOVP reads its descriptor, which it has to be able to write, checks it,
writes the policy field and is then applied. Requests that are faulted or wait for a page stay as they are. -/
def Obligations.ThicketEnginesFinishTheirRequests : Prop :=
  ∀ (s : State) (r : ThReq), s.th? s.sched.arg.n = some r →
    let gone := fun (u t : State) => t.mm.thq = u.mm.thq.filter (fun x => decide (x.uid ≠ r.uid)) ∧ t.mm.mem = u.mm.mem
    let marked := fun (t : State) => ∀ f ∈ (t.st r.loc).ended, f.id = r.fid → r.lsid < 32 → f.lsids.getLsbD r.lsid = true
    (r.op.isUpdate = true ∨ r.faulted = true ∨ r.paged.isSome = true → exec .thicketProbe s = .next s) ∧
    (r.op.isUpdate = false ∨ r.faulted = true ∨ r.paged.isSome = true → exec .thicketUpdate s = .next s) ∧
    (r.faulted = false → r.paged = none →
      (r.op = .tprb → r.started = true → r.todo = [] → Yields .thicketProbe s (fun t => gone s t ∧
        ∀ i, s.inst? r.inst = some i → i.st.ended = false → rtTarget r.route = 0 → (isCrossing r.route && (s.st r.loc).stileAhead r.fid) = false →
          ∃ f, t.fab.tokens = s.fab.tokens ++ [f] ∧ f.tok.tag = r.tag ∧ f.holds = r.rel.holds ∧
          f.tok.payload = .word (BitVec.ofNat 64 (2 ^ 63 + r.dup.toNat * 2 ^ 62 + r.sent % 2 ^ 32)))) ∧
      (r.op.isUpdate = true → r.applied = true → s.probesEnded r = false → exec .thicketUpdate s = .next s) ∧
      (r.op.isUpdate = true → r.applied = true → s.probesEnded r = true → Yields .thicketUpdate s (fun t => gone s t ∧ marked t)) ∧
      (r.op.isUpdate = true → r.applied = false → s.thTurn r = false → exec .thicketUpdate s = .next s) ∧
      (r.op = .tovp → r.applied = false → s.thTurn r = true → r.started = false → s.updateMay r = true → s.thBehind r = false →
        let q := { r with turn := true, started := true, fams := (s.vf r.vf).families.toList }
        ∀ x a o b c, ((s.thCharge r).setTh { r with turn := true }).thRead q r.desc 64 = .ok x a → a.thOwn q r.desc = .ok () o →
          o.thCheck q x false false false = .ok () b →
          b.thWrite q r.desc 64 (setFld x 335 2 r.row) = .ok () c → Yields .thicketUpdate s (fun t => gone c t ∧ marked t)))

/-- A token whose turn has not come stays; a token at a raised fence is diverted; of the tokens that pass the checks of R123
a marker is noted with its slot and a word fills its slot of the frame of its key, other slots unchanged, the frame complete
exactly when every slot is present. FRAME_FIRE takes the selected ready frame off the matching store and starts its firing at
the first instruction with the frame's values and tag; FRAME_RESUME goes on with the selected parked firing where it stood;
both wait while a register of the sprig cannot become resident (which registers park is the model's choice, log entry 56),
and the entry that has freed brings an overflowed one back, where there is one. ENTRY_RETURN lands the entry of the key of
one that is on its way back. A token, a frame's tile payload and an entry that lie in the spill arena are read from there
first, and wait while the host has yet to map a page of them (R404, log entry 57). When nothing fits the out-buffer the
oldest argument token that waits there takes a row of the Hedgerow bank (the model's reading, log entry 54). -/
def Obligations.TokensMeetTheirFrames : Prop :=
  ∀ (s : State),
    let l := s.sched.arg.loc
    let passes := fun (k : Token) =>
      let x := (s.st k.loc).ctx (tagCtx k.tag)
      k.parOk = true ∧ x.valid = true ∧ x.inst = tagInst k.tag ∧ x.blockBase ≤ tagBlock k.tag ∧ tagBlock k.tag ≤ x.blockLast ∧
        k.sprig < x.nsprig ∧ k.slot < hdrSlots ((s.st k.loc).header (tagCtx k.tag) k.sprig)
    (∀ f : Flight, s.fab.tokens.find? (fun g => decide (g.uid = s.sched.arg.n)) = some f →
      let m := f.tok.loc
      let c := tagCtx f.tok.tag
      let x := (s.st m).ctx c
      let h := (s.st m).header c f.tok.sprig
      let left := s.fab.tokens.filter (fun g => decide (g.uid ≠ f.uid))
      (s.mayArrive f = false → exec .tokenArrival s = .next s) ∧
      (s.mayArrive f = true → f.recs = [] → f.tok.kind = kindMarker → passes f.tok → Yields .tokenArrival s (fun t =>
        t.fab.tokens = left ∧ ((t.st m).ctx c).markers = nput x.markers f.tok.edge ∧ (t.st m).frames = (s.st m).frames)) ∧
      (∀ w, s.mayArrive f = true → s.tokRead f = .wait w → exec .tokenArrival s = .next w) ∧
      (s.mayArrive f = true → f.recs = [] → f.tok.kind ≠ kindMarker → f.tok.kind ≠ kindSpill → s.fencedAt m (tagInst f.tok.tag) = true →
        Yields .tokenArrival s (fun t =>
          t.fab.tokens = left ∧ t.fab.fenced = s.fab.fenced ++ [f] ∧ t.fab.stations = s.fab.stations)) ∧
      (s.mayArrive f = true → f.recs = [] → s.fencedAt m (tagInst f.tok.tag) = false → passes f.tok → x.draining = false → hdrMode h = 0 →
        ∀ v n e, f.tok.payload = .word v → f.tok.kind = kindWord → f.tok.tl = slotTile h f.tok.slot →
          (s.st m).lookup c (tagInst f.tok.tag) f.tok.sprig f.tok.slot f.tok.tag = some n →
          (s.st m).frames[n]? = some e → e.place = .onDie → e.completed = none → Yields .tokenArrival s (fun t => t.fab.tokens = left ∧
            t.mm = s.mm ∧ ∃ g, (t.st m).frames = (s.st m).frames.set n g ∧ g.tag = e.tag ∧ g.sprig = e.sprig ∧
              vget g.slots f.tok.slot {} = slotOf (.word v) f.tok.edge (f.before.getD []) true [] ∧
              (∀ k, k ≠ f.tok.slot → vget g.slots k {} = vget e.slots k {}) ∧
              (g.completed.isSome = true ↔ ∀ k < hdrSlots h, k = f.tok.slot ∨ (vget e.slots k {}).present = true)))) ∧
    ((∀ f ∈ s.fab.tokens, f.uid ≠ s.sched.arg.n) → exec .tokenArrival s = .next s) ∧
    ((s.st l).firing.active = true ∨ s.cands l = [] → exec .frameFire s = .next s ∧ exec .frameResume s = .next s) ∧
    ((s.st l).firing.active = false → s.nextFire l = none → s.cands l ≠ [] → exec .frameFire s = .next (s.stowArg l)) ∧
    (∀ c, (s.st l).firing.active = false → s.nextFire l = some c →
      (c.parked = true → exec .frameFire s = .next s) ∧
      (∀ f, c.parked = false → (s.st l).frames[c.pos]? = some f →
        (s.tilesFree l f = false ∨ s.makeResident l f.ctx f.sprig = none → exec .frameFire s = .next s) ∧
        (∀ u w, s.tilesFree l f = true → s.makeResident l f.ctx f.sprig = some u → u.tilesRead l f = .wait w →
          exec .frameFire s = .next w) ∧
        (c.ctx < 8 → f.ctx = c.ctx → s.tilesFree l f = true → (s.makeResident l f.ctx f.sprig).isSome = true →
        (∀ k : Fin 4, (vget f.slots k.val {}).tile.isSome = true → (vget f.slots k.val {}).tileBank = true) →
        let h := (s.st l).header f.ctx f.sprig
        frameNullMode h f = false → ∃ u : State, exec .frameFire s = .next (u.freedEntry l f.ctx) ∧
          ((s.st l).entries.all Frame.onDie = true → exec .frameFire s = .next u) ∧
          (u.st l).frames = (s.st l).frames.eraseIdx c.pos ∧
          (u.st l).firing.active = true ∧ (u.st l).firing.tag = f.tag ∧ (u.st l).firing.otag = f.tag ∧ (u.st l).firing.pos = 0 ∧
          (u.st l).firing.header = h ∧ (u.st l).firing.inst = f.inst ∧ (u.st l).firing.reserved = c.need ∧
          (u.st l).firing.claimed = 0 ∧ (u.st l).firing.lsids = 0 ∧ (u.st l).rrCtx = c.ctx ∧ u.mm = s.mm ∧
          (hdrMode h = 0 → ∀ k : Fin 4, k.val < hdrSlots h → slotTile h k.val = false → (vget f.slots k.val {}).null = false →
            (u.st l).firing.vals[k] = (vget f.slots k.val {}).value) ∧ ∀ m, m ≠ l → u.st m = s.st m)) ∧
      (∀ g, c.parked = true → (s.st l).parked[c.pos]? = some g → g.discard = false → g.trapped = false →
        (s.makeResident l g.ctx g.sprig = none → exec .frameResume s = .next s) ∧
        ((s.makeResident l g.ctx g.sprig).isSome = true → ∃ u : State,
          exec .frameResume s = .next (if g.park = .fence then u else u.freedEntry l g.ctx) ∧
          ((s.st l).entries.all Frame.onDie = true → exec .frameResume s = .next u) ∧
          (u.st l).parked = (s.st l).parked.eraseIdx c.pos ∧ (u.st l).firing.pos = g.pos ∧ (u.st l).firing.t = g.t ∧
          ((∀ r, g.park ≠ .notified r) → (u.st l).firing.park = .none) ∧ (u.st l).firing.id = g.id ∧
          (u.st l).firing.vals = g.vals ∧ (u.st l).firing.reserved = (if g.park = .fence then g.reserved else c.need) ∧
          u.mm = s.mm ∧ ∀ m, m ≠ l → u.st m = s.st m))) ∧
    (
      let es := (s.st l).landing (s.sched.arg.n % 8)
      (es = [] → exec .entryReturn s = .next s) ∧
      (∀ q j g, es[s.sched.arg.m % es.length]? = some q →
        let k := q.2.returnTok l
        k.kind = kindSpill ∧ (k.loc = l → passes k →
          es.find? (fun p => p.2.sameKey (tagCtx k.tag) (tagInst k.tag) k.sprig k.tag) = some (j, g) →
          (s.st l).frames[j]? = some g →
          (g.place = .chosen true true → Yields .entryReturn s (fun t =>
            (t.st l).frames = (s.st l).frames.set j { g with place := .onDie, recs := [] } ∧ t.mm = s.mm)) ∧
          (g.place = .chosen false true →
            let got := s.arenaRead l g.ctx g.inst (hdrStage ((s.st l).header g.ctx g.sprig)) g.tag g.recs
            (∀ w, got = .wait w → exec .entryReturn s = .next w) ∧
            ∀ w, got = .ok w → Yields .entryReturn s (fun t =>
              (t.st l).frames = (w.st l).frames.set j { g with place := .onDie, recs := [] } ∧ t.mm = w.mm)))))

/-- A firing that may not commit stays; else its loop credits leave and its RET and PRIO take effect. A credit raises the
allowance of the gate station up to ALLOW, or is kept with the save image; a join raises the count of its barrier word, and
the last one notifies every joiner with its rank and clears the word; a message to a sink sets the register of the root
record, or of a callee's own; a call request makes its callee one to be tried, or waits while a 1,025th pending call finds no
page of the save arena or the host has yet to map it (the model's choice, log entry 57); a spawn request queues each valid
successor, here a single one whose image is cached, with its first token. The case of an instance that could retire at once,
or whose caller could, is not part of this statement. -/
def Obligations.CommitsAndMessagesReachTheirInstance : Prop :=
  ∀ (s : State),
    let l := s.sched.arg.loc
    let n := s.sched.arg.n
    (∀ f, (s.st l).ended.find? (fun g => decide (g.id = n)) = some f →
      (s.mayCommit l f = false → exec .firingCommit s = .next s) ∧
      (∀ i, s.mayCommit l f = true → s.inst? f.inst = some i → i.bound → s.callerLasts i → Yields .firingCommit s (fun t =>
        (t.st l).ended = (s.st l).ended.filter (fun g => decide (g.id ≠ f.id)) ∧
        t.fab.credits = s.fab.credits ++ List.replicate f.credits ⟨f.inst⟩ ∧
        (∃ j, t.inst? f.inst = some j ∧ j.retDone = (i.retDone || f.retDone) ∧
          j.st = (if f.retDone = true ∧ i.st = .live then .returning else i.st) ∧
          j.prio = match f.prio with | some p => min p (s.vf i.vf).priomax | none => i.prio) ∧ t.mm = s.mm))) ∧
    (∀ q, s.fab.credits[n]? = some q →
      (∀ i, s.inst? q.inst = some i → i.st.ended = false →
        let x := (s.st i.gate).ctx i.slot
        let here := x.valid = true ∧ x.inst = q.inst ∧ x.draining = false
        (here → Yields .loopCredit s (fun t => t.fab.credits = s.fab.credits.eraseIdx n ∧ t.mm = s.mm ∧ t.prick = s.prick ∧
          (t.st i.gate).ctx i.slot = { x with allow := min (x.allow + 1) x.allowInit } ∧ ∀ m, m ≠ i.gate → t.st m = s.st m)) ∧
        (¬here → Yields .loopCredit s (fun t => t.fab.credits = s.fab.credits.eraseIdx n ∧ t.fab.stations = s.fab.stations ∧
          ∃ m, (t.inst? q.inst).bind (·.save) = some m ∧ m.msgs = (i.save.getD {}).msgs ++ [.credit]))) ∧
      (s.inst? q.inst = none → exec .loopCredit s = .next { s with fab := { s.fab with credits := s.fab.credits.eraseIdx n } })) ∧
    (∀ q i, s.fab.joins[n]? = some q → s.inst? q.inst = some i → i.st.ended = false → q.b < 8 →
      let first := (s.fab.joins.take n).all (fun p => !decide (p.inst = q.inst ∧ p.j.st = q.j.st))
      let x := (s.st i.gate).ctx i.slot
      let w := vget x.bars q.b {}
      let goal := if w.count = 0 then q.n else w.n
      let js := w.joiners ++ [{ q.j with rank := w.count }]
      (first = false → exec .barrierJoin s = .next s) ∧
      (first = true → x.valid = true → x.inst = q.inst → x.draining = false →
        (w.count + 1 ≠ goal → Yields .barrierJoin s (fun t => t.fab.joins = s.fab.joins.eraseIdx n ∧ t.mm = s.mm ∧ t.prick = s.prick ∧
          vget ((t.st i.gate).ctx i.slot).bars q.b {} = { w with count := w.count + 1, n := goal, joiners := js } ∧
          ∀ m, m ≠ i.gate → t.st m = s.st m)) ∧
        (w.count + 1 = goal → Yields .barrierJoin s (fun t => t.fab.joins = s.fab.joins.eraseIdx n ∧ t.mm = s.mm ∧
          vget ((t.st i.gate).ctx i.slot).bars q.b {} = { count := 0, n := goal, gen := w.gen + 1, joiners := [] } ∧
          (∀ j ∈ js, ∀ m, ∀ g ∈ (s.st m).parked, g.id = j.fid → g.park = .barrier → ∃ h ∈ (t.st m).parked, ∃ k ∈ js,
            h.id = g.id ∧ k.fid = g.id ∧ h.park = .notified k.rank ∧ h.pos = g.pos ∧ h.t = g.t) ∧
          ∀ m, ∀ g ∈ (s.st m).parked, (g.park ≠ .barrier ∨ ∀ j ∈ js, g.id ≠ j.fid) → g ∈ (t.st m).parked)))) ∧
    (∀ m, s.fab.sinkMsgs[n]? = some m →
      let older := (s.fab.sinkMsgs.take n).any (fun p => decide (p.inst = m.inst ∧ p.k = m.k ∧ p.src = m.src ∧ p.edge = m.edge))
      (older = true ∨ m.holds.all s.holdMet = false → exec .sinkWrite s = .next s) ∧
      (∀ r, older = false → m.holds.all s.holdMet = true → s.lasts m.inst → m.root.bind s.root? = some r → m.k < 8 →
        Yields .sinkWrite s (fun t => t.fab.sinkMsgs = s.fab.sinkMsgs.eraseIdx n ∧ t.mm = s.mm ∧ t.fab.stations = s.fab.stations ∧
          ∃ q, m.root.bind t.root? = some q ∧ q.sinks = vset r.sinks m.k (sinkOf m.payload) ∧ q.status = r.status ∧
            q.lineage = r.lineage)) ∧
      (∀ i, older = false → m.holds.all s.holdMet = true → m.root = none → s.inst? m.inst = some i → i.bound → m.k < 8 →
        Yields .sinkWrite s (fun t => t.fab.sinkMsgs = s.fab.sinkMsgs.eraseIdx n ∧ t.mm = s.mm ∧ t.fab.stations = s.fab.stations ∧
          t.prick.roots = s.prick.roots ∧ ∃ j, t.inst? m.inst = some j ∧ j.sinks = vset i.sinks m.k (sinkOf m.payload)))) ∧
    (∀ q, s.fab.requests[n]? = some q →
      (q.spawn.isSome = true ∨ s.firstFrom n q.loc false = false → exec .callRequest s = .next s) ∧
      ((s.eng q.die).calls.length < 1024 → s.callRoom q.die q.inst = .ok [] s) ∧
      (∀ u, q.spawn = none → s.firstFrom n q.loc false = true → s.callRoom q.die q.inst = .wait u → exec .callRequest s = .next u) ∧
      (∀ c a u, q.spawn = none → s.firstFrom n q.loc false = true → s.callRoom q.die q.inst = .fail c a u →
        Yields .callRequest s (fun t => (t.eng q.die).calls = (u.eng q.die).calls ∧
          ∃ e, t.fab.requests[n]? = some e ∧ e.inst = q.inst ∧ e.loc = q.loc ∧ e.die = q.die ∧ e.spawn = none)) ∧
      (∀ p u, q.spawn = none → s.firstFrom n q.loc false = true → s.callRoom q.die q.inst = .ok p u → Yields .callRequest s (fun t =>
        t.fab.requests = u.fab.requests.eraseIdx n ∧ (t.eng q.die).calls = (u.eng q.die).calls ++ [q.inst] ∧
        (t.eng q.die).toTry = (u.eng q.die).toTry ++ [q.inst] ∧ t.prick.insts = u.prick.insts ∧
        t.fab.stations = u.fab.stations ∧ t.mm = u.mm)) ∧
      (∀ r i x k id, q.spawn = some r → s.inst? q.inst = some i →
        (s.firstFrom n q.loc true = false ∨ q.holds.all s.holdMet = false → exec .spawnRequest s = .next s) ∧
        (s.firstFrom n q.loc true = true → q.holds.all s.holdMet = true → q.made = 0 → s.usedIds.length + 4 ≤ 2 ^ 18 → i.bound →
          ((i.img.bind (fun m => m.spawns[r.entry]?)).getD []).filter sucValid = [x] →
          sucKidx x < (s.vf i.vf).knotcnt.toNat → s.copy? i.die i.vf (sucKidx x) = some k → (s.putCopy i.die k).newId.1 = some id →
          (∀ e ∈ sucDies x i.die, (s.queuedOf e i.vf).length < 4096) → Yields .spawnRequest s (fun t =>
            t.fab.requests = s.fab.requests.eraseIdx n ∧ (∀ e ∈ sucDies x i.die, id ∈ (t.eng e).queue) ∧
            ∃ c, t.inst? id = some c ∧ c.st = .queued ∧ c.kind = .spawned ∧ c.vf = i.vf ∧ c.kidx = sucKidx x ∧ c.root = i.root ∧ c.prio = i.prio ∧
              c.entRes = [sucEntry x] ∧ c.first = some (sucEntry x, r.value,
                mkTag (s.vf i.vf).blockBase id 0 (sucThreadIter x r.otag).1 (sucThreadIter x r.otag).2)))))

/-- PLACEMENT_START takes up one request: it waits for its image, notes why it must abort (callFits is log entry 31), gives
it back to its queue without a place, or loads the shadow slots and the instruction words of the plan, in the lowest run of
instruction store that is free (the model's choice, log entry 32), live slots unchanged. PLACEMENT_COMMIT waits for withdrawn
quads, a drain and the range table, and makes the shadows the slots and the instance LIVE (or RETURNING); COMMIT_ACKNOWLEDGED
sends the held arguments, the held INJ tokens and the first token; PLACEMENT_ABORT drops the shadows and queues the request
again or refuses it with its code: a root record takes the code, and the result slots of a callee's call site take nulls
under the return tag, but for those with DROPNULL; the arbiter admits the best entry that fits and counts a bypass (one count
for both dies is the model's choice, log entry 63). Poison in what is read goes to poisonRead. -/
def Obligations.EnginesPlaceInstances : Prop :=
  ∀ (s : State),
    let d := s.sched.arg.loc.die
    let e := s.eng d
    (e.placing.isSome = true ∨ s.nextToPlace d = none → exec .placementStart s = .next s) ∧
    (∀ i, e.placing = none → s.nextToPlace d = some i →
      (∀ t, s.imageFor d i = .wait t → exec .placementStart s = .next t) ∧
      (∀ a t, s.imageFor d i = .fail codeUncorrectable a t → exec .placementStart s = .next (t.poisonRead d i a)) ∧
      (∀ c a t, s.imageFor d i = .fail c a t → c ≠ codeUncorrectable → Yields .placementStart s (fun u => ∃ q, (u.eng d).placing = some q ∧ q.inst = i.id ∧
        q.abort = some c ∧ q.abortArg = a ∧ u.fab.stations = t.fab.stations)) ∧
      (∀ m t, s.imageFor d i = .ok m t → i.st ≠ .saved → t.callFits i m = false ∨ t.scopeBad i m = true →
        Yields .placementStart s (fun u => ∃ q, (u.eng d).placing = some q ∧ q.inst = i.id ∧
          q.abort = some (if t.callFits i m = true then codeScope else codeNoKnot) ∧ u.fab.stations = t.fab.stations)) ∧
      (∀ m t, s.imageFor d i = .ok m t → (i.st = .saved ∨ t.callFits i m = true ∧ t.scopeBad i m = false) →
        (t.planFor i m d = none → Yields .placementStart s (fun u => (u.eng d).placing = (t.eng d).placing ∧
          u.fab.stations = t.fab.stations ∧ i.id ∉ (u.eng d).toTry ∧ i.id ∉ (u.eng d).admitted ∧
          ((t.eng d).admitted.contains i.id = true → i.id ∈ (u.eng d).queue))) ∧
        (∀ p, t.planFor i m d = some p → Yields .placementStart s (fun u =>
          (∃ q, (u.eng d).placing = some q ∧ q.inst = i.id ∧ q.qx = p.qx ∧ q.qy = p.qy ∧ q.slot = p.slot ∧ q.folded = p.folded ∧
            q.phase = .loaded ∧ q.abort = none) ∧
          (∀ l, (u.st l).ctxs = (t.st l).ctxs ∧ (u.st l).frames = (t.st l).frames) ∧
          (((m.stationsAt d.val p.qx p.qy).map (·.1)).Nodup → ∀ x ∈ m.stationsAt d.val p.qx p.qy,
            (Map.find (u.st x.1).shadow p.slot).isSome = true ∧ ∀ k w, x.2.words[k]? = some w →
              Map.find (u.st x.1).istore (((t.st x.1).freeWords x.2.nwords).getD 0 + k) = some w))))) ∧
    (e.placing = none → exec .placementCommit s = .next s ∧ exec .commitAcknowledged s = .next s ∧ exec .placementAbort s = .next s) ∧
    (∀ p i, e.placing = some p → s.inst? p.inst = some i →
      (p.phase = .committed ∨ p.abort.isSome = true ∨ s.onWithdrawn d = true → exec .placementCommit s = .next s) ∧
      (∀ m, i.img = some m → p.phase = .loaded → p.abort = none → p.how ≠ 0 → s.onWithdrawn d = false →
        (s.drainBlocks { i with die := d } m p = true → exec .placementCommit s = .next s) ∧
        (s.drainBlocks { i with die := d } m p = false →
          (∀ t, s.rangeTable d i.vf = .wait t → exec .placementCommit s = .next t) ∧
          (∀ c a t, s.rangeTable d i.vf = .fail c a t → exec .placementCommit s = .next (t.poisonRead d i a)))) ∧
      (∀ m rs t, i.img = some m → p.phase = .loaded → p.abort = none → p.how ≠ 0 → s.onWithdrawn d = false → s.drainBlocks { i with die := d } m p = false →
        s.rangeTable d i.vf = .ok rs t → i.save = none → i.st.ended = false → Yields .placementCommit s (fun u =>
          (u.eng d).placing = some { p with phase := .committed } ∧
          (∃ j, u.inst? i.id = some j ∧ j.st = (if i.retDone then .returning else .live) ∧ j.qx = p.qx ∧ j.qy = p.qy ∧
            j.slot = p.slot ∧ j.folded = p.folded ∧ j.die = d) ∧
          ∀ x ∈ m.stationsAt d.val p.qx p.qy, ∀ c, p.slot < 8 → Map.find (s.st x.1).shadow p.slot = some c →
            (u.st x.1).ctx p.slot = { c with temps := ((s.st x.1).ctx p.slot).temps } ∧
            ∀ k < 8, (u.st x.1).strand (8 * p.slot + k) = {})) ∧
      (p.phase = .loaded → exec .commitAcknowledged s = .next s) ∧
      (∀ inj m, p.phase = .committed → i.img = some m → (i.argRes ≠ 0 ∨ i.resRes ≠ [] ∨ i.entRes ≠ []) → (∀ q ∈ i.held, q.1 < 16) →
        (match i.kind with
          | .root => ∃ r, s.root? i.root = some r ∧ inj = r.held
          | .callee _ _ _ => inj = []
          | .spawned => inj = []) → (∀ q ∈ inj, q.1 < m.entries.length) → Yields .commitAcknowledged s (fun u =>
            (u.eng d).placing = none ∧ u.inst? i.id = some { i with held := [], first := none } ∧ u.mm = s.mm ∧
            u.fab.stations = s.fab.stations ∧ ∃ fs, u.fab.tokens = s.fab.tokens ++ fs ∧ fs.map (·.tok) =
              i.held.map (fun q => i.entryTok q.1 q.2.tok.payload q.2.tok.tag (q.2.tok.payload.crossTl kindArg)) ++
              inj.map (fun q => i.entryTok q.1 q.2.tok.payload q.2.tok.tag q.2.tok.payload.kindTl) ++
              i.first.toList.map (fun q => i.entryTok q.1 (.word q.2.1) q.2.2 (kindWord, false)))) ∧
      (p.abort = none ∨ p.phase = .committed → exec .placementAbort s = .next s) ∧
      (∀ c, p.phase = .loaded → p.abort = some c → i.kind = .root → p.relink = false →
        (c = 0 ∨ c = codeUncorrectable ∨ c = codeResidue → Yields .placementAbort s (fun u => (u.eng d).placing = none ∧ u.inst? i.id = some { i with st := .queued } ∧
          (u.eng d).admitted = i.id :: e.admitted ∧ ∀ l, ∀ q ∈ (u.st l).shadow, q.2.inst ≠ i.id)) ∧
        (c ≠ 0 → c ≠ codeUncorrectable → c ≠ codeResidue → ∀ r, s.root? i.root = some r → Yields .placementAbort s (fun u => (u.eng d).placing = none ∧
          u.inst? i.id = none ∧ (∀ l, ∀ q ∈ (u.st l).shadow, q.2.inst ≠ i.id) ∧ ∃ k, u.root? i.root = some k ∧
            k.status = (if r.killed = true then r.status else c) ∧ k.killed = true ∧ k.lineage = r.lineage - 1 ∧ k.held = [] ∧
            (k.lineage = 0 → k.retired = true)))) ∧
      (∀ c caller site rt b, p.phase = .loaded → p.abort = some c → i.kind = .callee caller site rt → p.relink = false → c ≠ 0 →
        c ≠ codeUncorrectable → c ≠ codeResidue → caller ≠ i.id → s.inst? caller = some b → b.st.ended = false → i.sentRes = [] →
        let route := fun k => (i.resRoutes[k]?).getD 0
        let tag := setBits rt 35 3 b.slot
        (b.argRes ≠ 0 ∨ b.entRes ≠ [] ∨ b.held ≠ [] ∨ b.resRes ≠ [] ∧ ∀ k < i.nresSite, rtDropNull (route k) = false) →
        Yields .placementAbort s (fun u => (u.eng d).placing = none ∧ u.inst? i.id = none ∧
          (∀ l, ∀ q ∈ (u.st l).shadow, q.2.inst ≠ i.id) ∧
          (∃ k, u.inst? caller = some k ∧ k.st = b.st ∧ ∀ q ∈ k.callees, q.2 ≠ i.id) ∧
          ∃ fs, u.fab.tokens = s.fab.tokens ++ fs ∧ fs.map (·.tok) =
            ((List.range i.nresSite).filter (fun k => !rtDropNull (route k))).map (fun k =>
              ⟨mkHeader (b.target (route k)) (rtSprig (route k)) (rtSlot (route k)) (Payload.null.crossTl kindResult)
                (rtEdge (route k)) tag, tag, .null⟩)))) ∧
    ((e.admitted.filterMap s.inst?).any s.serves = true → exec .areaArbiterPass s = .next s) ∧
    ((e.admitted.filterMap s.inst?).any s.serves = false → s.blocker d = none →
      (s.entries d = [] → exec .areaArbiterPass s = .next s) ∧
      (∀ i rest t, s.entries d = i :: rest → s.fitsNow d i = (true, t) → Yields .areaArbiterPass s (fun u =>
        (u.eng d).admitted = e.admitted ++ [i.id] ∧ (∀ b : Fin 2, i.id ∉ (u.eng b).queue) ∧ u.prick.insts = s.prick.insts ∧
        u.fab.stations = s.fab.stations)) ∧
      (∀ j i rest t v, s.entries d = j :: i :: rest → s.fitsNow d j = (false, t) → t.fitsNow d i = (true, v) → j.id ≠ i.id →
        s.inst? j.id = some j → Yields .areaArbiterPass s (fun u => (u.eng d).admitted = e.admitted ++ [i.id] ∧
          ∃ k, u.inst? j.id = some k ∧ k.bypassed = j.bypassed + 1 ∧ k.st = j.st ∧ (8 ≤ j.bypassed + 1 → k.blocking.isSome = true))))

/-- EVICTION_START makes the first candidate whose image fits EVICTING behind a fence of its rectangle, its pages of the save
arena reserved, and skips one that does not fit; EVICTION_COMPLETE saves it once nothing of it goes on and frees its slots,
scratchpad bytes and other slots unchanged; it waits for the host to map a page, and an image that turns out not to fit
leaves its candidate running (the model's choices, log entries 13 and 57); SAVED_GRANULE_TEST sets the next test and queues a
relink when a granule is full; a diverted token joins the save image, or is held, in the order of its arc; a sweep arrives
behind the tokens before it, and a fence whose sweeps have all arrived is lowered. -/
def Obligations.EnginesEvictAndFence : Prop :=
  ∀ (s : State),
    let d := s.sched.arg.loc.die
    let n := s.sched.arg.n
    ((s.eng d).evicting ≠ [] ∨ (s.eng d).placing.isSome = true → exec .evictionStart s = .next s) ∧
    (∀ t, (s.eng d).evicting = [] → (s.eng d).placing = none → s.evictFor d = (none, t) → exec .evictionStart s = .next t) ∧
    (∀ f c rest t, (s.eng d).evicting = [] → (s.eng d).placing = none → s.evictFor d = (some f, t) → t.evictees d f.vf = c :: rest →
      let size := (t.saveDraw c).1
      let room := (t.saveDraw c).2.saveRoom d c.vf (pagesOf (savedBytes (t.saveStas c) size))
      (∀ r, room = .wait r → exec .evictionStart s = .next r) ∧
      (∀ e a r, room = .fail e a r → rest = [] → Yields .evictionStart s (fun u =>
        c.id ∈ (u.eng d).skipped ∧ (u.eng d).evicting = (r.eng d).evicting ∧ u.fab = r.fab ∧ u.prick.insts = r.prick.insts ∧
        u.prick.fences = r.prick.fences)) ∧
      (∀ l r, room = .ok l r → r.inst? c.id = some c → c.st.runs = true → (r.vf c.vf).st = .running → c.die = d →
        Yields .evictionStart s (fun u =>
          u.inst? c.id = some { c with st := .evicting, saveSize := some size, save := some { c.save.getD {} with pages := l } } ∧
          (u.eng d).evicting = (r.eng d).evicting ++ [c.id] ∧ u.fab.stations = r.fab.stations ∧ u.mm = r.mm ∧
          ∃ k, u.prick.fences = r.prick.fences ++ [(k, { die := d, qx := c.qx, qy := c.qy, w := c.w, h := c.h, inst := c.id })]))) ∧
    (s.inst? n = none → exec .evictionComplete s = .next s ∧ exec .savedGranuleTest s = .next s) ∧
    (∀ i, s.inst? n = some i →
      (i.st ≠ .evicting ∨ i.mark = true ∨ s.canSave i = false → exec .evictionComplete s = .next s) ∧
      (i.st = .evicting → i.mark = false → s.canSave i = true →
        let size := (s.saveDraw i).1
        let bytes := savedBytes (s.saveStas i) size
        let into := (s.saveDraw i).2.evictPages i bytes
        (∀ t, into = .wait t → t.inst? n = some i → Yields .evictionComplete s (fun u =>
          u.inst? n = some { i with saveSize := some size } ∧ u.fab = t.fab ∧ u.mm = t.mm)) ∧
        (∀ c a t, into = .fail c a t → t.inst? n = some i → (i.save.getD {}).toks = [] → (i.save.getD {}).msgs = [] → i.bound →
          Yields .evictionComplete s (fun u =>
            u.inst? n = some { i with st := if i.retDone then .returning else .live, save := none, saveSize := none } ∧
            (u.eng i.die).evicting = ndrop (t.eng i.die).evicting n ∧ n ∈ (u.eng i.die).skipped ∧ u.fab.stations = t.fab.stations)) ∧
        (∀ l t, into = .ok l t → t.inst? n = some i → Yields .evictionComplete s (fun u =>
          (∃ j, u.inst? n = some j ∧ j.st = .saved ∧ j.save = some (s.makeSave i bytes l) ∧
            j.mark = decide ((t.vf i.vf).st ≠ .running)) ∧
          (u.eng i.die).evicting = ndrop (t.eng i.die).evicting n ∧
          (∀ x ∈ i.stations, ((t.st x.1).ctx i.slot).valid = true → ((t.st x.1).ctx i.slot).inst = n →
            ((u.st x.1).ctx i.slot).valid = false ∧ (∀ f ∈ (u.st x.1).frames, f.inst ≠ n) ∧ (u.st x.1).sp = (t.st x.1).sp) ∧
          ∀ c, c ≠ i.slot → ∀ l, (u.st l).ctx c = (t.st l).ctx c))) ∧
      (i.st ≠ .saved ∨ s.now < i.tested → exec .savedGranuleTest s = .next s) ∧
      (i.st = .saved → i.tested ≤ s.now → Yields .savedGranuleTest s (fun u => u.mm.mem = s.mm.mem ∧ u.mm.fe = s.mm.fe ∧
        u.fab.stations = s.fab.stations ∧ ∃ j, u.inst? n = some j ∧ j.tested = s.now + 65536 ∧ j.st = .saved ∧
          (s.savedFull n = false → j.wantLink = i.wantLink) ∧
          (s.savedFull n = true → i.mark = false → i.fetchPark = false → i.wantLink = false →
            j.wantLink = true ∧ n ∈ (u.eng i.die).queue)))) ∧
    (∀ f, s.fab.fenced.find? (fun g => decide (g.uid = n)) = some f →
      let id := tagInst f.tok.tag
      let older := (s.fab.fenced.takeWhile (fun g => decide (g.uid ≠ f.uid))).any (fun g => g.sameArc f)
      let left := s.fab.fenced.filter (fun g => decide (g.uid ≠ f.uid))
      (older = true → exec .fencedToken s = .next s) ∧
      (∀ i, older = false → s.inst? id = some i →
        (i.st = .evicting ∨ i.st = .relinking ∨ i.st = .saved → Yields .fencedToken s (fun u => u.fab.fenced = left ∧
          u.fab.stations = s.fab.stations ∧ ∃ j m, u.inst? id = some j ∧ j.st = i.st ∧ j.save = some m ∧
            m.toks = (i.save.getD {}).toks ++ [f] ∧
            (i.st = .saved → i.mark = false → i.fetchPark = false → j.wantLink = true))) ∧
        (i.st = .queued ∨ i.st = .placing → Yields .fencedToken s (fun u => u.fab.fenced = left ∧
          u.fab.stations = s.fab.stations ∧ u.inst? id = some { i with held := i.held ++ [(16, f)] })) ∧
        (i.st.ended = true → Yields .fencedToken s (fun u => u.fab.fenced = left ∧ u.fab.stations = s.fab.stations ∧
          u.prick = s.prick)))) ∧
    (∀ w, s.fab.sweeps.find? (fun x => decide (x.id = n)) = some w →
      let waits := (s.fab.tokens ++ s.fab.fenced).any (fun f => w.behind.contains f.uid)
      (waits = true → exec .sweepArrival s = .next s) ∧
      (waits = false → Yields .sweepArrival s (fun u => u.fab.sweeps = s.fab.sweeps.filter (fun x => decide (x.id ≠ w.id)) ∧
        u.fab.tokens = s.fab.tokens ∧ u.fab.stations = s.fab.stations ∧
        (∀ q ∈ u.prick.fences, ¬ (q.2.swept = true ∧ q.2.sweeps = [])) ∧
        ∀ q ∈ s.prick.fences, (q.1 ≠ w.fence → ¬ (q.2.swept = true ∧ q.2.sweeps = []) → q ∈ u.prick.fences) ∧
          (q.1 = w.fence → ndrop q.2.sweeps w.id ≠ [] → (q.1, { q.2 with sweeps := ndrop q.2.sweeps w.id }) ∈ u.prick.fences))))

/-- A strand's engine issues its next element with the address and size of the spec, an ordered store's data read from the
scratchpad; a request waits for its turn, walks, faults, or is served: a load binds the bytes, a store writes exactly its
bytes, a synchronising pair takes or sets its granule; a return writes the waiting temporary, or performs the lsid; RDC
copies go; a due bin of one update is added to its location; a COPY issues its granules in their order, reads and writes
them. Cores' stores leave their buffer the same way, and one whose frame has left OWNED traps (that the trap is imprecise is
the model's reading, log entry 58). -/
def Obligations.AccessesAreTranslatedServedAndReturned : Prop :=
  ∀ (s : State),
    let l := s.sched.arg.loc
    let n := s.sched.arg.n
    let k := (s.st l).strand n
    let writes := fun (t : State) (pa len v : Nat) => (∀ i < len, Mem.get t.mm.mem (pa + i) = BitVec.ofNat 8 (v / 256 ^ i)) ∧
      ∀ x, x < pa ∨ pa + len ≤ x → Mem.get t.mm.mem x = Mem.get s.mm.mem x
    let sameMem := fun (t : State) => t.mm.mem = s.mm.mem ∧ t.mm.fe = s.mm.fe
    (s.mayIssue l n = false → exec .strandElementIssue s = .next s) ∧
    (s.mayIssue l n = true → Yields .strandElementIssue s (fun t => ∃ a, t.mm = { s.mm with accesses := s.mm.accesses ++ [a] } ∧
      a.uid = s.sched.uid ∧ a.agent = .strand ∧ a.loc = l ∧ a.st = .issued ∧ a.va = (k.d.base + dbl k.next * k.d.stride).toNat ∧
      a.n = elemBytes k.d.size ∧ a.op = (if k.d.store then
        .elemStore n k.next k.d ((s.st l).spReadMod (k.d.spAddr k.next) (elemBytes k.d.size)) else .elemLoad n k.next k.d) ∧
      (t.st l).strand n = { k with next := k.next + 1 } ∧ (∀ j, j ≠ n → (t.st l).strand j = (s.st l).strand j) ∧
      (t.st l).sp = (s.st l).sp ∧ ∀ m, m ≠ l → t.st m = s.st m)) ∧
    (s.acc? n = none → s.sched.arg.m = 0 → exec .memoryRequest s = .next s) ∧
    (s.acc? n = none → exec .walkReadComplete s = .next s ∧ exec .accessReturn s = .next s ∧ exec .rdcInvalidation s = .next s) ∧
    (∀ a, s.acc? n = some a →
      let serves := fun (t : State) (pa perm : Nat) (e : Instr) => a.prog = 0 → 0 < a.n →
        a.va % 2 ^ 64 % 65536 + a.n ≤ 65536 → pa % 65536 + a.n ≤ 65536 → t.fotPass a.vf pa (decide (a.op.need = 2)) = true → t.portWaits pa = false →
        (∀ x, a.op = .load x → homeDie pa = a.loc.die → t.poisoned pa a.n = false → Yields e s (fun v => sameMem v ∧
          ∃ b, v.acc? n = some b ∧ b.st = .served ∧ b.value = a.value + Mem.read s.mm.mem pa a.n ∧ b.pa = pa)) ∧
        (∀ x, a.op = .store x → Yields e s (fun v => writes v pa a.n x ∧ v.mm.fe = s.mm.fe ∧
          ∃ b, v.acc? n = some b ∧ b.st = .served ∧ b.wrote = a.wrote ++ [(pa, a.n)] ∧ b.pa = pa)) ∧
        (∀ x, a.op = .storeF x → bit (BitVec.ofNat 4 perm) 3 = true → Yields e s (fun v => writes v pa a.n x ∧
          pa / 16 ∈ v.mm.fe ∧ ∃ b, v.acc? n = some b ∧ b.st = .served)) ∧
        (∀ x c, a.op = .loadF c x → bit (BitVec.ofNat 4 perm) 3 = true → t.feFull pa = true → t.poisoned pa a.n = false →
          Yields e s (fun v => v.mm.mem = s.mm.mem ∧ (v.feFull pa = !c) ∧
            ∃ b, v.acc? n = some b ∧ b.st = .served ∧ b.value = Mem.read s.mm.mem pa a.n))
      (s.sched.arg.m = 0 →
        (a.st ≠ .issued → a.st ≠ .syncWait → exec .memoryRequest s = .next s) ∧
        (a.op.portless = true → s.flushNow a = false → exec .memoryRequest s = .next s) ∧
        (a.op.portless = false → s.canServe a = false → exec .memoryRequest s = .next s) ∧
        (a.st = .issued → a.op.portless = false → s.canServe a = true → a.elemBad = false →
          (∀ w, s.beginWalk (s.treq a) = .more w → (s.missRoom a = false → exec .memoryRequest s = .next s) ∧
            (s.missRoom a = true → Yields .memoryRequest s (fun t => t.acc? n = some { a with st := .walking w } ∧
              sameMem t ∧ t.fab = s.fab))) ∧
          (∀ pa perm, s.beginWalk (s.treq a) = .done pa perm → serves s pa perm .memoryRequest) ∧
          (∀ c x, s.beginWalk (s.treq a) = .fault c x → a.op.elem = none → a.op ≠ .prefetch → s.elemOwn a = true → (s.st a.loc).firing.active = false →
            (∀ g ∈ (s.st a.loc).parked, g.id ≠ a.fid) → Yields .memoryRequest s (fun t => ∃ b, t.acc? n = some b ∧ b.st = .faulted)))) ∧
      (∀ w, a.st = .walking w →
        let goes := s.accLive a = true ∧ s.portWaits w.reads = false ∧ s.walkerFor a w = true
        (¬goes → exec .walkReadComplete s = .next s) ∧
        (goes → ∀ t,
          (∀ x, s.walkStep (s.treq a) w = (.more x, t) → Yields .walkReadComplete s (fun v =>
            v.acc? n = some { a with st := .walking x } ∧ sameMem v ∧ v.fab.stations = s.fab.stations)) ∧
          (∀ pa perm, s.walkStep (s.treq a) w = (.done pa perm, t) →
            (t.canServe { a with st := .issued } = false → Yields .walkReadComplete s (fun v =>
              v.acc? n = some { a with st := .issued } ∧ sameMem v)) ∧
            (t.canServe { a with st := .issued } = true → serves t pa perm .walkReadComplete)))) ∧
      ((∀ w, a.st ≠ .walking w) → exec .walkReadComplete s = .next s) ∧
      (a.st ≠ .served ∨ s.elemWaits a = true ∨ s.accLive a = false ∨ s.handsLater a = true → exec .accessReturn s = .next s) ∧
      (a.st = .served → s.accLive a = true → s.handsLater a = false → a.rdcLeft = false →
        let f := (s.st a.loc).firing
        (∀ x d, a.op = .load x → a.td = some d → d < 8 → f.active = true → f.id = a.fid → (d, a.uid) ∈ f.pendT →
          Yields .accessReturn s (fun t => sameMem t ∧ t.mm.accesses = s.mm.accesses.filter (fun b => decide (b.uid ≠ n)) ∧
            (t.st a.loc).firing.t = vset f.t d (extend x a.n a.value) ∧ (t.st a.loc).firing.pos = f.pos ∧
            (∀ p ∈ (t.st a.loc).firing.pendT, p.2 ≠ n) ∧ (t.st a.loc).sp = (s.st a.loc).sp ∧ ∀ m, m ≠ a.loc → t.st m = s.st m)) ∧
        (∀ x, a.op = .store x → a.extra = [] → f.active = true → f.id = a.fid → Yields .accessReturn s (fun t => sameMem t ∧
          t.mm.accesses = s.mm.accesses.filter (fun b => decide (b.uid ≠ n)) ∧
          (t.st a.loc).firing = { f with lsids := f.lsids ||| BitVec.ofNat 32 (2 ^ a.lsid) } ∧ ∀ m, m ≠ a.loc → t.st m = s.st m))) ∧
      (a.rdcLeft = false ∨ a.isServed = false → exec .rdcInvalidation s = .next s) ∧
      (a.rdcLeft = true → a.isServed = true → Yields .rdcInvalidation s (fun t => sameMem t ∧ t.fab = s.fab ∧
        (∀ p ∈ a.wrote, ∀ q ∈ pieces p.1 p.2, t.mm.rdcHas (q.1 / 128) = false) ∧
        (a.st ≠ .returned → t.acc? n = some { a with rdcLeft := false }) ∧ (a.st = .returned → t.acc? n = none)))) ∧
    (∀ c : Fin 4, s.sched.arg.m = c.val + 1 →
      (s.canDrain c n = false → exec .memoryRequest s = .next s) ∧
      (∀ e, s.canDrain c n = true → (s.core c).sb[n]? = some e → s.fotPass e.vf e.pa true = false → Yields .memoryRequest s (fun t =>
        t.mm = s.mm ∧ t.fab = s.fab ∧ (∀ b, b ≠ c → t.core b = s.core b) ∧ (t.core c).sb = (s.core c).sb.eraseIdx n ∧
        (t.core c).g = (s.core c).g ∧ (t.core c).epc = e.pc ∧ (t.core c).cause = causeWord .memfault codeFot ∧
        (t.core c).eval = dbl e.va ∧ (t.core c).pc = (s.core c).hvec)) ∧
      (∀ e, s.canDrain c n = true → (s.core c).sb[n]? = some e → s.fotPass e.vf e.pa true = true → e.sync = false →
        Yields .memoryRequest s (fun t => writes t e.pa e.n e.value ∧ t.mm.fe = s.mm.fe ∧ (t.core c).sb = (s.core c).sb.eraseIdx n ∧
          (t.core c).g = (s.core c).g ∧ (t.core c).pc = (s.core c).pc ∧ t.fab.stations = s.fab.stations))) ∧
    (∀ b, s.mm.bins[n]? = some b →
      let due := 256 ≤ b.ups.length ∨ s.flushWants b = true ∨ (s.vf b.vf).st = .saving ∨ s.tlbBusy b.vf = true
      (¬due ∨ b.ups.any (fun u => s.portWaits u.pa) = true → exec .binApply s = .next s) ∧
      (∀ u, due → s.portWaits u.pa = false → b.ups = [u] → u.n = scBytes u.t → s.fotPass b.vf u.pa true = true → s.poisoned u.pa u.n = false → s.physOk u.pa = true →
        Yields .binApply s (fun t => t.mm.bins = s.mm.bins.eraseIdx n ∧ t.fab.stations = s.fab.stations ∧
          writes t u.pa u.n (match u.t with
            | .i64 => Mem.read s.mm.mem u.pa u.n + u.value.toNat
            | .i32 => Mem.read s.mm.mem u.pa u.n + u.value.toNat % 2 ^ 32
            | .f32 => fp32Add (Mem.read s.mm.mem u.pa u.n) (u.value.toNat % 2 ^ 32))))) ∧
    (∀ c, s.mm.copies.find? (fun x => decide (x.uid = n)) = some c →
      let i := s.sched.arg.m
      let held := c.granules ≤ i ∨ c.faulted = true ∨ c.paged.isSome = true ∨ c.holds.all s.holdMet = false ∨
        s.slotLive c.inst c.loc c.ctx = false
      (held → exec .copyGranule s = .next s) ∧
      let issues := c.next < c.granules ∧ i = c.turn c.next
      let reads := fun (x : Nat) => Yields .copyGranule s (fun t => t.fab.stations = s.fab.stations ∧ sameMem t ∧
        t.mm.copies.find? (fun x => decide (x.uid = n)) = some { c with got := Map.put c.got i x, next := c.next + 1 })
      (¬held → ¬issues → c.mayWrite i = false → exec .copyGranule s = .next s) ∧
      (¬held → issues → c.srcSp = true → (c.dstSp = true ∨ ∃ pa fe t, s.copyAt c (c.dstAt i) 2 = .ok pa fe t) →
        reads (Mem.read (s.st c.loc).sp (c.srcAt i) 16)) ∧
      (¬held → issues → c.srcSp = false → c.dstSp = true → ∀ pa fe t, s.copyAt c (c.srcAt i) 1 = .ok pa fe t →
        (∃ fe' u, t.copyAt c (c.srcAt i) 1 = .ok pa fe' u ∧ u.poisoned pa 16 = false) → homeDie pa = c.loc.die →
        reads (Mem.read s.mm.mem pa 16)) ∧
      (∀ x, ¬held → ¬issues → Map.find c.got i = some x → c.mayWrite i = true → c.dstSp = true →
        ((s.st c.loc).ctx c.ctx).spValid (c.dstAt i) 16 = true → c.moved.length + 1 < c.granules → Yields .copyGranule s (fun t =>
          sameMem t ∧ t.mm.copies.find? (fun y => decide (y.uid = n)) =
            some { c with got := Map.drop c.got i, moved := nput c.moved i } ∧ c.dstAt i / 16 ∈ (t.st c.loc).spFull ∧
          (∀ j < 16, Mem.get (t.st c.loc).sp (c.dstAt i + j) = BitVec.ofNat 8 (x / 256 ^ j)) ∧
          (∀ y, y < c.dstAt i ∨ c.dstAt i + 16 ≤ y → Mem.get (t.st c.loc).sp y = Mem.get (s.st c.loc).sp y) ∧
          ∀ m, m ≠ c.loc → t.st m = s.st m)))

/-- A write of FOTCMD while BUSY is ignored; SCRUB takes a FREE frame to SCRUBBING at once. Frame by frame SCRUB leaves
zeros, empty granules, no cached copy and ZEROED, ASSIGN leaves OWNED, RELEASE leaves FREE without writing dirty lines back,
and a frame in another state, or a reserved owner, stops the command with ERR. TLBINV queues an invalidation, behind one
under way too (the model's choice, log entry 40), which removes the named translations once no buffered store of a core and
no bin holds one. A page response that names no outstanding request of the generation is counted and discarded; else what
waits goes on, or takes the failure: an access that waits stays parked as faulted, and its record goes to the partition with
STAGE1, or to the host with STAGE2 and the intermediate address; a waiting core's instruction takes it when it runs again. -/
def Obligations.FramesAndTranslationsFollowTheHost : Prop :=
  ∀ (s : State),
    let w := dbl s.sched.arg.value
    let n := bits w 0 36
    let o := bits w 54 8
    let k := bits w 36 18 + 1
    let host := fun (h : HostSide) => exec .scrub s = .next { s with host := h }
    (s.boot.windowOpen = false → exec .scrub s = .next s ∧ exec .assign s = .next s ∧ exec .release s = .next s ∧
      exec .tlbinvAll s = .next s ∧ exec .tlbinvStage1 s = .next s ∧ exec .tlbinvStage2 s = .next s ∧
      exec .pageResponseResolved s = .next s ∧ exec .pageResponseFailedHost s = .next s ∧
      exec .pageResponseFailedTenant s = .next s) ∧
    (s.boot.windowOpen = true → s.host.fot.isSome = true →
      exec .scrub s = .next s ∧ exec .assign s = .next s ∧ exec .release s = .next s) ∧
    (s.boot.windowOpen = true → s.host.fot = none →
      (o = 0 → s.frameOk n = true → (s.fotEntry n).1 = 0 → Yields .scrub s (fun t => t.fotEntry n = (1, 0) ∧
        (∀ m, m ≠ n → t.fotEntry m = s.fotEntry m) ∧ t.mm.mem = s.mm.mem ∧
        t.host = { s.host with fot := some ⟨1, o, n, k⟩, fotErr := none })) ∧
      (o ≠ 0 ∨ s.frameOk n = false ∨ (s.fotEntry n).1 ≠ 0 → host { s.host with fot := some ⟨1, o, n, k⟩, fotErr := none }) ∧
      exec .assign s = .next { s with host := { s.host with fot := some ⟨2, o, n, k⟩, fotErr := none } } ∧
      exec .release s = .next { s with host := { s.host with fot := some ⟨3, o, n, k⟩, fotErr := none } }) ∧
    (s.host.fot = none → exec .fotFrameComplete s = .next s) ∧
    (∀ c, s.host.fot = some c →
      let f := c.frame
      let e := (s.fotEntry f).1
      let ok := s.frameOk f = true ∧ (c.op = 1 ∧ c.owner = 0 ∧ e = 1 ∨ c.op = 2 ∧ (c.owner < 0x80 ∨ c.owner = 0xFF) ∧ e = 2 ∨
        c.op = 3 ∧ c.owner = 0 ∧ e = 3)
      let elsewhere := fun (t : State) => (∀ a, a / 65536 ≠ f → Mem.get t.mm.mem a = Mem.get s.mm.mem a) ∧
        t.host.fot = (if c.left ≤ 1 then none else some { c with frame := f + 1, left := c.left - 1 }) ∧
        t.host.fotErr = s.host.fotErr ∧ ∀ m, m ≠ f → m ≠ f + 1 → t.fotEntry m = s.fotEntry m
      let uncached := fun (t : State) => (∀ l ∈ t.mm.l2, l.addr / 512 ≠ f) ∧ ∀ l ∈ t.mm.rdc, l.addr / 512 ≠ f
      (¬ok → exec .fotFrameComplete s = .next { s with host := { s.host with fot := none, fotErr := some f } }) ∧
      (ok → c.op = 1 → Yields .fotFrameComplete s (fun t => t.fotEntry f = (2, 0) ∧ elsewhere t ∧ uncached t ∧
        (∀ a, a / 65536 = f → Mem.get t.mm.mem a = 0) ∧ (∀ g ∈ t.mm.fe, g / 4096 ≠ f) ∧ ∀ l ∈ t.mm.poison, l / 512 ≠ f)) ∧
      (ok → c.op = 2 → Yields .fotFrameComplete s (fun t => t.fotEntry f = (3, c.owner) ∧ elsewhere t ∧ t.mm.mem = s.mm.mem)) ∧
      (ok → c.op = 3 → Yields .fotFrameComplete s (fun t => t.fotEntry f = (0, 0) ∧ elsewhere t ∧ uncached t ∧
        ((∀ l ∈ s.mm.l2, l.dirty = true → l.addr / 512 ≠ f) → t.mm.mem = s.mm.mem)))) ∧
    (s.boot.windowOpen = true →
      exec .tlbinvAll s = .next { s with host := { s.host with tlb := s.host.tlb ++ [⟨0, bits w 55 7, bits w 0 44⟩] } } ∧
      exec .tlbinvStage1 s = .next { s with host := { s.host with tlb := s.host.tlb ++ [⟨1, bits w 55 7, bits w 0 44⟩] } } ∧
      exec .tlbinvStage2 s = .next { s with host := { s.host with tlb := s.host.tlb ++ [⟨2, bits w 55 7, bits w 0 44⟩] } }) ∧
    (s.host.tlb = [] → exec .tlbinvComplete s = .next s) ∧
    (∀ c rest, s.host.tlb = c :: rest → s.holdsPa c.vf = true → exec .tlbinvComplete s = .next s) ∧
    (∀ c rest, s.host.tlb = c :: rest → s.holdsPa c.vf = false → Yields .tlbinvComplete s (fun t => t.host = { s.host with tlb := rest } ∧
      (∀ e, e ∈ t.mm.tlb1 ↔ e ∈ s.mm.tlb1 ∧ ¬(e.vf = c.vf ∧ (c.kind = 0 ∨ c.kind = 1 ∧ e.va / 2 ^ e.run = c.addr * 65536 / 2 ^ e.run ∨
        c.kind ≠ 0 ∧ c.kind ≠ 1 ∧ e.ia / 65536 = c.addr % 2 ^ 40))) ∧
      (∀ e, e ∈ t.mm.tlb2 ↔ e ∈ s.mm.tlb2 ∧ ¬(e.vf = c.vf ∧ (c.kind = 0 ∨ c.kind = 2 ∧ e.ia = c.addr % 2 ^ 40))) ∧
      (∀ a ∈ t.mm.accesses, a.vf = c.vf → ∀ x, a.st ≠ .walking x) ∧ t.mm.mem = s.mm.mem ∧ t.mm.ranges = s.mm.ranges ∧
      t.fab = s.fab)) ∧
    (s.boot.windowOpen = true →
      let p := s.mm.pageReqs.find? (fun q => decide (q.port = bits w 31 1 ∧ q.vf = bits w 24 7 ∧ q.req = bits w 48 16) && q.failed.isNone)
      let dropped := { s with host := { s.host with gendrop := s.host.gendrop + 1 } }
      (p = none ∨ bits w 32 16 ≠ (s.vf (bits w 24 7)).gen → exec .pageResponseResolved s = .next dropped ∧
        exec .pageResponseFailedHost s = .next dropped ∧ exec .pageResponseFailedTenant s = .next dropped) ∧
      (∀ q, p = some q → bits w 32 16 = (s.vf (bits w 24 7)).gen →
        (∀ u a, q.for_ = .access u → s.acc? u = some a → a.st = .paged q.req → a.vf = q.vf →
          Yields .pageResponseResolved s (fun t => t.acc? u = some a.again ∧ a.again.st = .issued ∧
            a.again.prog = 0 ∧ a.again.va = a.va ∧ q ∉ t.mm.pageReqs ∧
            t.mm.mem = s.mm.mem)) ∧
        (∀ i (c : Fin 4), q.for_ = .core i → (s.core c).paged = some q.req →
          Yields .pageResponseResolved s (fun t => (t.core c).paged = none ∧ (t.core c).pageFail = none ∧ (t.core c).pc = (s.core c).pc) ∧
          Yields .pageResponseFailedHost s (fun t => (t.core c).paged = none ∧ (t.core c).pageFail = some false) ∧
          Yields .pageResponseFailedTenant s (fun t => (t.core c).paged = none ∧ (t.core c).pageFail = some true)) ∧
        (∀ u a, q.for_ = .access u → s.acc? u = some a → a.st = .paged q.req → a.vf = q.vf → a.op.elem = none → a.op ≠ .prefetch →
          s.elemOwn a = true → (s.st a.loc).firing.active = false → (∀ g ∈ (s.st a.loc).parked, g.id = a.fid → g.park ≠ .fence) →
          (∀ b ∈ s.mm.accesses, b.st = .paged q.req → b.vf = q.vf → b = a) → (s.mm.accesses.filter (fun b => decide (b.uid = u))).length = 1 →
          (∀ c ∈ s.mm.copies, c.paged ≠ some q.req) → (∀ r ∈ s.mm.thq, r.paged ≠ some q.req) →
          (∀ i ∈ s.prick.insts, i.unmapped = []) →
          let x := { s with mm := { s.mm with pageReqs := s.mm.pageReqs.filter (fun p => decide (p.req ≠ q.req ∨ p.port ≠ q.port)) } }
          let fails := fun (r t : State) => t.host = r.host ∧ t.mm.mem = r.mm.mem ∧ q ∉ t.mm.pageReqs ∧
            (t.st a.loc).parked = (s.st a.loc).parked ∧ ∃ b, t.acc? u = some b ∧ b.st = .faulted ∧ b.va = a.va
          Yields .pageResponseFailedTenant s (fails (x.report (x.portInfo a codeStage1 a.piece.1 0) false (some (.access u))).2) ∧
          Yields .pageResponseFailedHost s (fails (x.reportHost
            (x.portInfo a (if q.inWalk then codeInWalk else codeStage2) a.piece.1 q.ia))))))

/-- A corrected error only counts; an uncorrectable one in a context kills its instance, in a shadow write aborts the
placement and withdraws the quad; a lost tag drops a clean line or loses a dirty one, which then reads as memory last held
it; poison marks its HBM line; a lost remap table retires its bank; a failed flit is replayed, and after eight failed replays
the port retrains, coming back at its width. -/
def Obligations.ErrorsAreCountedAndContained : Prop :=
  ∀ (s : State),
    let l := s.sched.arg.loc
    let n := s.sched.arg.n
    let m := s.sched.arg.m
    let a := s.sched.arg.addr
    let x := (s.st l).ctx (n % 8)
    let k := quadKey l.die.val (quadX l) (quadY l)
    let p := s.port (n % 2)
    (s.boot.powered = false → exec .correctedError s = .next s ∧ exec .sramUncorrectable s = .next s ∧ exec .hbmPoison s = .next s ∧
      exec .remapTableLoss s = .next s ∧ exec .flitCrcFail s = .next s) ∧
    (s.boot.powered = true →
      exec .correctedError s = .next { s with host := { s.host with cecount := s.host.cecount + 1 } } ∧
      (m % 3 = 0 → x.valid = false → exec .sramUncorrectable s = .next { s with host := { s.host with uecount := s.host.uecount + 1 } }) ∧
      (∀ i, m % 3 = 0 → x.valid = true → s.inst? x.inst = some i → (s.prick.insts.filter (fun j => decide (j.id = i.id))).length = 1 →
        Yields .sramUncorrectable s (fun t =>
        t.host.uecount = s.host.uecount + 1 ∧ ∀ j, t.inst? i.id = some j → j.st.ended = true)) ∧
      (m % 3 = 1 → (∀ c < 8, ((s.st l).ctx c).valid = false) →
        exec .sramUncorrectable s = .next { s with host := { s.host with uecount := s.host.uecount + 1 } }) ∧
      (∀ i q, m % 3 = 2 → s.loading? l.die = some i → (s.eng l.die).placing = some q → i.stations.any (fun y => decide (y.1 = l)) = true →
        i.covers l.die.val (quadX l) (quadY l) = true →
        Yields .sramUncorrectable s (fun t => t.host.uecount = s.host.uecount + 1 ∧ (t.quad k).mappedOut = true ∧ k ∈ t.boot.mapOut ∧
          (t.eng l.die).placing = some (if q.abort.isNone then { q with abort := some codeUncorrectable } else q))) ∧
      (m % 3 = 2 → s.loading? l.die = none →
        exec .sramUncorrectable s = .next { s with host := { s.host with uecount := s.host.uecount + 1 } }) ∧
      (a < 2 ^ 51 → s.physOk a = true → exec .hbmPoison s = .next { s with
        host := { s.host with uecount := s.host.uecount + 1 }, mm := { s.mm with poison := nput s.mm.poison (a / 128) } }) ∧
      (2 ^ 51 ≤ a ∨ s.physOk a = false → exec .hbmPoison s = .next s) ∧
      (s.sched.arg.ok = true → exec .remapTableLoss s = .next { s with host := { s.host with uecount := s.host.uecount + 1 } }) ∧
      (s.sched.arg.ok = false → Yields .remapTableLoss s (fun t => t.host.uecount = s.host.uecount + 1 ∧ (t.quad k).retired = true ∧
        ∀ j, j ≠ k → t.quad j = s.quad j)) ∧
      (p.training = true → exec .flitCrcFail s = .next s) ∧
      (p.training = false → Yields .flitCrcFail s (fun t => t.host.cecount = s.host.cecount + 1 ∧ t.mm = s.mm ∧ t.fab = s.fab ∧
        t.port (n % 2) = (if s.sched.arg.ok = true then { p with replays := 0 }
          else if p.replays + 1 = 8 then { p with replays := 0, training := true } else { p with replays := p.replays + 1 })))) ∧
    (p.training = false → exec .portRetrain s = .next s) ∧
    (p.training = true → Yields .portRetrain s (fun t => t.port (n % 2) = { p with training := false, width := m % 4 } ∧
      t.port (1 - n % 2) = s.port (1 - n % 2) ∧ (s.host.irqHeld = [] → t.mm = s.mm ∧ t.fab = s.fab))) ∧
    (m % 2 = 1 → n < s.mm.rdc.length → exec .tagUncorrectable s = .next { s with
      host := { s.host with uecount := s.host.uecount + 1 }, mm := { s.mm with rdc := s.mm.rdc.eraseIdx n } }) ∧
    (m % 2 = 1 → s.mm.rdc.length ≤ n → exec .tagUncorrectable s = .next s) ∧
    (m % 2 = 0 → s.mm.l2.length ≤ n → exec .tagUncorrectable s = .next s) ∧
    (∀ e, m % 2 = 0 → s.mm.l2[n]? = some e →
      let gone := fun (t : State) => t.host.uecount = s.host.uecount + 1 ∧ (∀ y ∈ t.mm.l2, y.addr ≠ e.addr ∨ y.vf ≠ e.vf) ∧
        ∀ y, y < 128 * e.addr ∨ 128 * e.addr + 128 ≤ y → Mem.get t.mm.mem y = Mem.get s.mm.mem y
      (e.dirty = false → Yields .tagUncorrectable s (fun t => gone t ∧ t.mm.mem = s.mm.mem ∧ t.fab = s.fab ∧ t.prick = s.prick)) ∧
      (e.dirty = true → e.vf = hostId → s.host.hostfq = 0 → Yields .tagUncorrectable s (fun t => gone t ∧ t.prick = s.prick ∧
        ∀ i < 128, Mem.get t.mm.mem (128 * e.addr + i) = BitVec.ofNat 8 (e.old.toNat / 256 ^ i))))

/-- A reset or power-off leaves flash with its map-out list, the ports that the test disabled and host memory, and all else
(clock, FOT, caches, full/empty bits, poison, translations, engines, cores, registers) as right after reset; that HBM then
reads zero is the model's choice (log entry 4), and so is that the flash image survives a power-off and that a power-die
fault sets ERR 3 after bring-up too (log entry 44). Each phase runs once the one before it is complete and nothing has
stopped the chain, and otherwise changes nothing: an image that is refused leaves ERR 1 and the recovery mailbox, a refused
microcode ERR 2 and a window with BOOTSTAT only, a power-die fault ERR 3. A clear of the map-out list takes effect at the
next reset. SHAKE256 is that of FIPS 202 (log entry 14). -/
def Obligations.BringUpGoesPhaseByPhase : Prop :=
  ∀ (s : State),
    let b := s.boot
    let next := fun (n : Nat) => b.powered = true ∧ b.err = 0 ∧ b.recovery = false ∧ b.phase + 1 = n
    let restarts := fun (i : Instr) (on : Bool) => Yields i s (fun t => t.boot.powered = on ∧ t.boot.phase = 0 ∧ t.boot.err = 0 ∧
      t.boot.windowOpen = false ∧ t.boot.recovery = false ∧ t.boot.flash = b.flash ∧
      t.boot.mapOut = (if b.mapClear = true then [] else b.mapOut) ∧ t.boot.mapClear = false ∧ t.boot.portsOff = b.portsOff ∧
      t.clk = State.reset.clk ∧ t.mm = { State.reset.mm with mem := t.mm.mem } ∧
      t.cores = State.reset.cores ∧ t.host = State.reset.host ∧ t.fab = State.reset.fab ∧ t.prick = State.reset.prick ∧
      (∀ a, 2 ^ 51 ≤ a → Mem.get t.mm.mem a = Mem.get s.mm.mem a) ∧ ∀ a, a < 2 ^ 51 → Mem.get t.mm.mem a = 0)
    let v1 := Config.ed448Ok (shake256 b.flash) b.flash
    let v4 := Config.ed448Ok (shake256 Config.microcode) Config.microcode
    let b3 : Boot := { b with phase := 3, hbmUp := BitVec.ofNat 8 s.sched.arg.m }
    let b5 : Boot := { b with phase := 5, windowOpen := true }
    restarts .powerOnReset true ∧ restarts .powerOff false ∧
    (¬next 1 → exec .faladeVerify s = .next s) ∧ (¬next 2 → exec .supplyRaise s = .next s) ∧ (¬next 3 → exec .hbmTrain s = .next s) ∧
    (¬next 4 → exec .microcodeVerify s = .next s) ∧ (¬next 5 → exec .simiowTrain s = .next s) ∧
    (next 1 → exec .faladeVerify s =
      .next { s with boot := if v1 = true then { b with phase := 1 } else { b with err := 1, recovery := true } }) ∧
    (next 2 → Yields .supplyRaise s (fun t => t.boot = { b with phase := 2 } ∧ t.mm = s.mm ∧
      ∀ c < 32, (t.col c).req = 320 ∧ (t.col c).grant = 320 ∧ (t.col c).tokens = (s.col c).tokens)) ∧
    (next 3 → Yields .hbmTrain s (fun t => t.boot = b3 ∧
      (∀ f, t.fotEntry f = (0, 0)) ∧ (∀ k, (t.quad k).retired = false ∧ (t.quad k).mappedOut = (s.quad k).mappedOut) ∧
      t.mm.mem = s.mm.mem)) ∧
    (next 4 → Yields .microcodeVerify s (fun t => t.boot = (if v4 = true then { b with phase := 4 } else { b with err := 2, statOnly := true }) ∧
      (∀ k ∈ b.mapOut, (t.quad k).mappedOut = true) ∧ ∀ k, k ∉ b.mapOut → t.quad k = s.quad k)) ∧
    (next 5 → Yields .simiowTrain s (fun t => t.boot = b5 ∧
      t.port 0 = { s.port 0 with width := s.sched.arg.m % 4 } ∧ t.port 1 = { s.port 1 with width := s.sched.arg.n % 4 } ∧
      (s.host.irqHeld = [] → t.mm = s.mm ∧ t.fab = s.fab))) ∧
    exec .powerDieFault s = .next (if b.powered then { s with boot := { b with err := 3 } } else s) ∧
    exec .flashRecovery s = .next (if b.powered && b.recovery then
      { s with boot := { b with flash := bytesOf s.sched.arg.value s.sched.arg.size } } else s) ∧
    exec .mapOutListClear s = .next (if b.powered then { s with boot := { b with mapClear := true } } else s)

/-- A valid notify write sets the submitted count, any other is counted as dropped; a packet goes into a free slot of its
core with its event, or its interface stops for want of one; a disabled interface reads none (the model's choice, log entry
43). A poll notes its microsecond; a time message steps or slews both counters (the model's choice, log entry 45); the
residual of a column and the charges that its measurement takes make up what was measured; a debit subtracts each function's
charges so taken and residual owed from QUOTA; the GRANT of a column moves within its bounds only, and rises only while the
last 64 readings of all columns leave room (log entry 17). -/
def Obligations.HubAndIntakeCountAndDeliver : Prop :=
  ∀ (s : State),
    let a := s.sched.arg
    let q := a.addr / 64
    let p := a.n % 256
    let x := s.qi p
    let us := s.now / 1600
    let v := a.vf % 128
    let n := a.n % 32
    let c := s.col n
    let valid := a.size = 4 ∧ a.addr % 64 = 0 ∧ a.vf = (s.qi q).owner ∧ (s.qi q).enable = true
    let fresh := (a.value % 2 ^ 32 + 2 ^ 32 - (s.qi q).consumed.toNat) % 2 ^ 32
    (s.boot.windowOpen = false ∨ 256 ≤ q → exec .notifyWrite s = .next s) ∧
    (s.boot.windowOpen = true → q < 256 →
      (valid → fresh = 0 → exec .notifyWrite s = .next s) ∧
      (valid → 0 < fresh → fresh ≤ (s.qi q).ring → Yields .notifyWrite s (fun t => t.mm = s.mm ∧ t.fab = s.fab ∧ (∀ j, j ≠ q → t.qi j = s.qi j) ∧
        t.qi q = { s.qi q with submitted := BitVec.ofNat 32 a.value })) ∧
      (¬valid ∨ (s.qi q).ring < fresh → Yields .notifyWrite s (fun t => t.mm = s.mm ∧ t.fab = s.fab ∧ (∀ j, j ≠ q → t.qi j = s.qi j) ∧
        t.qi q = { s.qi q with dropped := (s.qi q).dropped + 1 }))) ∧
    (x.enable = false ∨ x.submitted = x.consumed ∨ x.stopped.isSome = true → exec .packetRead s = .next s) ∧
    (x.enable = true → x.submitted ≠ x.consumed → x.stopped = none →
      (x.granted = false → s.slotsOpen x.core = 0 → Yields .packetRead s (fun t => (t.qi p).stopped.isSome = true ∧ t.mm = s.mm ∧
        t.cores = s.cores)) ∧
      (∀ pa t k, (x.granted = true ∨ s.slotsOpen x.core ≠ 0) →
        s.unitAccess (coreDie x.core) x.owner (x.subbase.toNat + 64 * (x.read % x.ring)) false (some x.pasid) (.packet p) = .ok pa t →
        t.poisoned pa 64 = false → pa % 64 = 0 → homeDie pa = coreDie x.core → x.pvalid = true →
        fld (Mem.read s.mm.mem pa 64) 0 20 = x.pasid → (s.core x.core).freeSlot = some k → Yields .packetRead s (fun u =>
          (∀ i < 64, Mem.get (u.core x.core).lm (0xC000 + 64 * k + i) = Mem.get s.mm.mem (pa + i)) ∧
          (∀ y, y < 0xC000 + 64 * k ∨ 0xC000 + 64 * k + 64 ≤ y → Mem.get (u.core x.core).lm y = Mem.get (s.core x.core).lm y) ∧
          (u.core x.core).pktq = (s.core x.core).pktq ++ [(p, k)] ∧ Map.find (u.core x.core).slots k =
            some { qi := p, vf := x.owner, number := x.read, gen := (s.vf x.owner).gen, popped := false } ∧ bit (u.core x.core).events 0 = true ∧
          (u.qi p).consumed = x.consumed + 1 ∧ (u.core x.core).g = (s.core x.core).g))) ∧
    (us ≤ s.host.polled → exec .hostRingPoll s = .next s) ∧
    (s.host.polled < us → Yields .hostRingPoll s (fun t => t.host.polled = us ∧ t.fab.stations = s.fab.stations ∧ t.prick = s.prick ∧
      (s.host.fqHeld = [] → s.host.pgHeld = [] → t.mm = s.mm))) ∧
    (us ≤ (s.vf v).polled → exec .faultRingPoll s = .next s) ∧
    ((s.vf v).polled < us → Yields .faultRingPoll s (fun t => (t.vf v).polled = us ∧ t.fab.stations = s.fab.stations ∧
      t.prick = s.prick ∧ ((s.vf v).heldFaults = [] → t.mm = s.mm))) ∧
    (s.boot.powered = false → exec .timeMessage s = .next s ∧ exec .columnMeasurement s = .next s ∧ exec .energyDebit s = .next s ∧
      exec .grantUpdate s = .next s) ∧
    (s.boot.powered = true →
      Yields .timeMessage s (fun t => t.clk.cycle = s.clk.cycle ∧ t.mm = s.mm ∧ t.fab = s.fab ∧ ∀ d : Fin 2,
        let old := s.clk.time[d]
        let new := t.clk.time[d]
        let off : Int := ((a.value % 2 ^ 64 * 65536 + a.size % 2 ^ 16 : Nat) : Int) - (old.ns.toNat * 65536 + old.frac.toNat : Nat)
        (65536000 < off → new.ns = BitVec.ofNat 64 a.value ∧ new.frac = BitVec.ofNat 16 a.size ∧ new.slew = 0) ∧
        (off ≤ 65536000 → new.ns = old.ns ∧ new.frac = old.frac ∧ new.slew = off ∧
          new.slewBy = if -65536000 ≤ off then s.now + 1600000 else 0)) ∧
      (s.usOver = false → exec .columnMeasurement s = .next s ∧ exec .energyDebit s = .next s) ∧
      (c.measured = true → exec .columnMeasurement s = .next s) ∧
      (s.usOver = true → c.measured = false → Yields .columnMeasurement s (fun t => (t.col n).measured = true ∧
        (t.col n).readings = (a.value :: c.readings).take 64 ∧ (∀ y ∈ t.fab.charges, y.col ≠ n) ∧
        (∀ l, t.st l = { s.st l with ctxs := (t.st l).ctxs }) ∧ t.mm = s.mm ∧ (∀ j, j ≠ n → t.col j = s.col j) ∧
        t.host.overhead = s.host.overhead + idbl ((a.value : Int) -
          energyOf (t.fab.due.filter (fun y => decide (y.col = n))) (fun _ => true) -
          ((t.col n).resid.map (·.2)).foldl (· + ·) 0))) ∧
      ((∃ y ∈ s.fab.cols.toList, y.measured = false) → exec .energyDebit s = .next s) ∧
      (s.usOver = true → (∀ y ∈ s.fab.cols.toList, y.measured = true) → Yields .energyDebit s (fun t =>
        t.host.debits = s.host.debits + 1 ∧ t.fab.stations = s.fab.stations ∧ t.fab.due = [] ∧
        (∀ j < 32, (t.col j).residOld = (s.col j).resid ∧ (t.col j).resid = [] ∧ (t.col j).measured = false) ∧
        ∀ w, (w ∈ s.debtors → (t.vf w).quota = (idbl ((s.vf w).quota - energyOf s.fab.due (fun y => decide (y.vf = w)) - s.residOwed w)).toInt ∧
            (t.vf w).charged = (s.vf w).charged + energyOf s.fab.due (fun y => decide (y.vf = w)) + s.residOwed w ∧
            (t.vf w).resid = (s.vf w).resid + s.residOwed w) ∧
          (w ∉ s.debtors → (t.vf w).quota = (s.vf w).quota ∧ (t.vf w).charged = (s.vf w).charged))) ∧
      (us ≤ c.granted → exec .grantUpdate s = .next s) ∧
      (c.granted < us →
        let g := a.value
        let hot := a.m % 2 = 1
        let ok := g < 320 ∧ hot ∧ 160 ≤ g ∨ 320 ≤ g ∧ a.ok = true ∧ s.budgetRoom = true ∧ g ≤ max c.req 320 ∨
          320 ≤ g ∧ (a.ok && s.budgetRoom) = false ∧ (g ≤ c.grant ∧ (320 < c.grant → g < c.grant ∧ c.grant ≤ g + 64) ∨ g = 320 ∧ c.grant < 320)
        (¬ok → exec .grantUpdate s = .next s) ∧
        (ok → Yields .grantUpdate s (fun t => t.col n = { c with grant := g, granted := us } ∧ (∀ j, j ≠ n → t.col j = s.col j) ∧
          t.mm = s.mm ∧ t.fab.stations = s.fab.stations))))

/-- A microsecond boundary counts for a function that is RUNNING, has a SLICE and holds a quad, and the slice count starts a
save when it reaches SLICE; 64 cycles after a save starts the markers enter; a station saves its slot once the markers and
its work allow, and sends a marker on each arc to a slot; drained slots are freed behind a fence, and with the last one the
instance is SAVED and marked; then the partition is, once its images pass in the save arena (that it waits until they do is
the model's choice, log entry 57). SAVE, RESUME, KILLALL, RESET, KILLINST, RESUMEINST, RESUME_FAULT and DISCARD_FAULT act on
what they name, or set CMDERR and do nothing else; SAVE while SAVING and RESUME while RUNNING are accepted with CMDERR clear
(the model's choice, log entry 39). Kills are stated here for instances without callees. -/
def Obligations.SavesAndCommandsOfAPartition : Prop :=
  ∀ (s : State),
    let l := s.sched.arg.loc
    let c := s.sched.arg.n % 8
    let v := s.sched.arg.vf % 128
    let f := s.vf v
    let x := (s.st l).ctx c
    let w := dbl s.sched.arg.value
    let id := bits w 32 18
    let seq := bits w 0 32
    let err := fun (b : Bool) (t : State) => (t.vf v).cmderr = b
    let refused := { s with host := { s.host with vfs := Map.put s.host.vfs v { f with cmderr := true } } }
    let alone := fun (i : Inst) => (s.prick.insts.filter (fun j => decide (j.id = i.id))).length = 1 ∧ s.calleesOf i.id = []
    let settled := ∀ r ∈ s.prick.roots, r.vf = v → r.held = []
    let count := f.slice + f.due
    (let u := s.clockTick
     (u.vf v).due = if s.boot.powered = true ∧ u.now % 1600 = 0 ∧ (u.vf v).st = .running ∧ (u.vf v).sliceLen ≠ 0 ∧
       u.quadsOf v none ≠ 0 then f.due + 1 else f.due) ∧
    (f.due = 0 → exec .sliceTick s = .next s) ∧
    (f.due ≠ 0 → Yields .sliceTick s (fun t => (t.vf v).due = 0 ∧ (settled → t.mm = s.mm ∧ t.fab = s.fab) ∧
      ((f.st ≠ .running ∨ f.sliceLen = 0) → (t.vf v).slice = f.slice ∧ (t.vf v).st = f.st ∧ t.prick = s.prick) ∧
      (f.st = .running → f.sliceLen ≠ 0 → (t.vf v).slice = count ∧
        (f.sliceLen ≤ count → (t.vf v).st = .saving ∧ (t.vf v).saveCause = 1 ∧ (t.vf v).saveAt = some s.now) ∧
        (count < f.sliceLen → (t.vf v).st = .running)))) ∧
    (f.st ≠ .saving ∨ f.saveAt = none ∨ (∃ u, f.saveAt = some u ∧ s.now < u + 64) → exec .markerInjection s = .next s) ∧
    (∀ u, f.st = .saving → f.saveAt = some u → u + 64 ≤ s.now → Yields .markerInjection s (fun t => t.vf v = { f with saveAt := none } ∧
      t.fab.stations = s.fab.stations ∧ t.mm = s.mm ∧ t.prick = s.prick ∧ ∃ ms, t.fab.tokens = s.fab.tokens ++ ms ∧
        (∀ m ∈ ms, m.tok.kind = kindMarker) ∧
        ∀ i m, s.prick.insts.filter (fun j => decide (j.vf = v) && j.st.runs) = [i] → i.img = some m → s.strandRoutes i = [] →
          ms.map (fun g => g.tok.edge) = (m.entries.filter (fun r => decide (r ≠ 0))).map rtEdge)) ∧
    (∀ i p, s.inst? x.inst = some i → i.stations.find? (fun y => decide (y.1 = l)) = some p →
      (i.slot ≠ c ∨ s.maySave i l p.2 = false → exec .stationSave s = .next s) ∧
      (i.slot = c → s.maySave i l p.2 = true → Yields .stationSave s (fun t => (t.st l).ctx c = { x with draining := true } ∧
        (∀ m, m ≠ l → t.st m = s.st m) ∧ t.mm = s.mm ∧
        (∃ j m, t.inst? i.id = some j ∧ j.save = some m ∧ m.stations = (i.save.getD {}).stations ++ [s.saveSta i l]) ∧
        ∃ ms, t.fab.tokens = s.fab.tokens ++ ms ∧ (∀ m ∈ ms, m.tok.kind = kindMarker) ∧
          ms.map (fun g => g.tok.edge) = (p.2.routes.flatten.filter (fun r => decide (rtTarget r = 0))).map rtEdge))) ∧
    (∀ i, s.inst? x.inst = some i →
      (x.valid = false ∨ x.draining = false ∨ i.slot ≠ c → exec .hedgerowDrainComplete s = .next s) ∧
      (x.valid = true → x.draining = true → i.slot = c →
        (∃ p ∈ i.stations, s.holdsSlot i p.1 = true ∧ ((s.st p.1).ctx c).draining = false) → exec .hedgerowDrainComplete s = .next s) ∧
      (x.valid = true → x.draining = true → i.slot = c → i.st.runs = true →
        (∀ p ∈ i.stations, s.holdsSlot i p.1 = true → ((s.st p.1).ctx c).draining = true) → Yields .hedgerowDrainComplete s (fun t =>
          ((t.st l).ctx c).valid = false ∧ (t.st l).sp = (s.st l).sp ∧ (∀ m, m ≠ l → t.st m = s.st m) ∧ t.mm = s.mm ∧
          (∃ p ∈ t.prick.fences, p.2.inst = i.id ∧ p.2.qx = i.qx ∧ p.2.qy = i.qy ∧ p.2.die = i.die) ∧
          ∃ j, t.inst? i.id = some j ∧ j.mark = true ∧
            j.st = if i.stations.all (fun p => decide (p.1 = l) || !s.holdsSlot i p.1) = true then .saved else .evicting))) ∧
    (s.injected v = false ∨ s.allSaved v = false → exec .partitionSaveComplete s = .next s) ∧
    (let pass : Got Unit := if s.savedOf v = [] then .ok () s else if s.saveFits v 0 = true then s.imagesPass (s.savedOf v)
       else .fail codeArena 0 s
     s.injected v = true → s.allSaved v = true →
      (∀ u, pass = .wait u → exec .partitionSaveComplete s = .next u) ∧
      (∀ e a u i rest, pass = .fail e a u → s.savedOf v = i :: rest → Yields .partitionSaveComplete s (fun t =>
        i.id ∈ (t.eng i.die).skipped ∧ (t.vf v).st = (u.vf v).st ∧ t.fab = u.fab ∧ t.prick.insts = u.prick.insts)) ∧
      (∀ u, pass = .ok () u → f.saveCause ≠ 1 → f.resumeAsked = false →
        Yields .partitionSaveComplete s (fun t => (t.vf v).st = .saved ∧ t.fab.stations = s.fab.stations ∧
          ∀ i, s.inst? i.id = some i → i.vf = v → i.st = .saved → ∃ j, t.inst? i.id = some j ∧ j.mark = true ∧ j.st = .saved))) ∧
    (s.boot.windowOpen = false → exec .save s = .next s ∧ exec .resume s = .next s ∧ exec .killall s = .next s ∧ exec .reset s = .next s ∧
      exec .killinst s = .next s ∧ exec .resumeinst s = .next s ∧ exec .resumeFault s = .next s ∧ exec .discardFault s = .next s) ∧
    (s.boot.windowOpen = true →
      (f.st = .running → Yields .save s (fun t => err false t ∧ (t.vf v).st = .saving ∧ (t.vf v).saveCause = 0 ∧
        (t.vf v).saveAt = some s.now ∧ (settled → t.fab = s.fab ∧ t.mm = s.mm))) ∧
      (f.st = .saving → Yields .save s (fun t => t.vf v = { f with cmderr := false } ∧ t.prick = s.prick)) ∧
      (f.st = .saved → exec .save s = .next refused) ∧
      (f.st = .running → Yields .resume s (fun t => t.vf v = { f with cmderr := false } ∧ t.prick = s.prick)) ∧
      (f.st = .saving → Yields .resume s (fun t => t.vf v = { f with cmderr := false, resumeAsked := true } ∧ t.prick = s.prick)) ∧
      (f.st = .saved → Yields .resume s (fun t => err false t ∧ (t.vf v).st = .running ∧ (t.vf v).slice = 0 ∧
        ∀ i, s.inst? i.id = some i → i.vf = v → i.st = .saved → i.fetchPark = false → ∃ j, t.inst? i.id = some j ∧ j.mark = false ∧
          j.wantLink = true)) ∧
      Yields .killall s (err false) ∧
      ((∀ i ∈ s.prick.insts, i.vf = v → alone i) → Yields .killall s (fun t =>
        ∀ i ∈ s.prick.insts, i.vf = v → ∀ j, t.inst? i.id = some j → j.st.ended = true)) ∧
      Yields .reset s (fun t => err false t ∧ (t.vf v).gen = (f.gen + 1) % 65536 ∧ (∀ r ∈ t.prick.roots, r.vf ≠ v) ∧
        (t.vf v).families = Vector.replicate 16 {} ∧ (t.vf v).pendFaults = [] ∧ (∀ p ∈ t.mm.pageReqs, p.vf ≠ v) ∧
        (∀ a ∈ t.mm.accesses, a.vf = v → a.isPaged = false) ∧ (∀ k ∈ t.mm.copies, k.vf = v → k.paged = none) ∧
        ∀ r ∈ t.mm.thq, r.vf = v → r.paged = none) ∧
      (s.liveOf v id = none → exec .killinst s = .next refused ∧ exec .resumeinst s = .next refused) ∧
      (∀ i, s.liveOf v id = some i → alone i → Yields .killinst s (fun t => err false t ∧
        ∀ j, t.inst? id = some j → j.st.ended = true)) ∧
      (∀ i, s.liveOf v id = some i → i.spillPark = true → Yields .resumeinst s (fun t => err false t ∧
        t.inst? id = some { i with spillPark := false, overrun := decide (f.spilllim ≤ i.pages.length) } ∧ t.fab = s.fab ∧ t.mm = s.mm)) ∧
      (f.pending seq = none → exec .resumeFault s = .next refused ∧ exec .discardFault s = .next refused) ∧
      (∀ k u a, f.pending seq = some (k, .access u) → s.acc? u = some a → a.st = .faulted → Yields .resumeFault s (fun t =>
        err false t ∧ t.acc? u = some { a with st := .issued, prog := 0, value := 0, faultSeq := none } ∧
        (t.vf v).pendFaults = f.pendFaults.filter (fun p => decide (p.1 ≠ k)) ∧ t.mm.mem = s.mm.mem)) ∧
      (∀ k m fid g, f.pending seq = some (k, .firing m fid) → (s.st m).firing.active = false → g ∈ (s.st m).parked → g.id = fid →
        g.park = .fault → Yields .discardFault s (fun t => err false t ∧ { g with discard := true, park := .cleared } ∈ (t.st m).parked ∧
          (t.vf v).pendFaults = f.pendFaults.filter (fun p => decide (p.1 ≠ k)) ∧ t.mm.mem = s.mm.mem)))

/-- Before the window is open a write of the host changes nothing. Counters are cleared by a write; a double of a VF block
takes its value as its register holds it (that FAULTQ drops its low bits, and a cleared FAULTQ the records held for it, is
the model's choice, log entry 25), STATUS ignores a write, and a local memory takes exactly the bytes written. RUN releases a
held core at PC 0 in host mode unless bring-up has stopped (the model's choice, log entry 44), DOORBELL sets its event; CTL
is refused on bad shares or a clash of windows; QUOTA, QADD and WARN are broadcast; CFG of an enabled queue interface changes
only its live fields; the host window reads and writes its bytes. An attestation report stands behind its nonce: the nonce,
the SHAKE256 digests of the Falade image and of the Pricking microcode, DEVCAPS, and the signature over those 200 bytes. An
address without memory (log entry 25), or behind a port that is down (log entry 42), is not accessed; both are the model's
choices. -/
def Obligations.HostWritesReachTheirRegister : Prop :=
  ∀ (s : State),
    let a := s.sched.arg
    let w := dbl a.value
    let v := a.vf % 128
    let f := s.vf v
    let c := Fin.ofNat 4 a.n
    let q := a.n % 256
    let x := s.qi q
    let keeps := fun (t : State) => t.fab = s.fab ∧ t.mm = s.mm ∧ t.prick = s.prick
    let all := [Instr.registerWrite, .cecountClear, .uecountClear, .attreq, .run, .doorbell, .ctlWrite, .quotaWrite, .qadd, .warnWrite,
      .areaWrite, .qiCfgWrite, .hostWindowAccess]
    (s.boot.windowOpen = false → ∀ i ∈ all, exec i s = .next s) ∧
    (s.boot.windowOpen = true →
      exec .cecountClear s = .next { s with host := { s.host with cecount := 0 } } ∧
      exec .uecountClear s = .next { s with host := { s.host with uecount := 0 } } ∧
      (a.size % 4 = 3 → ∀ n < 128,
        (a.addr % 2 ^ 20 = 0x10000 + 256 * n + 0x28 → Yields .registerWrite s (fun t => keeps t ∧ t.vf n = { s.vf n with stage1root := w })) ∧
        (a.addr % 2 ^ 20 = 0x10000 + 256 * n + 0x38 → Yields .registerWrite s (fun t => keeps t ∧
          (setBits w 0 6 0 ≠ 0 → t.vf n = { s.vf n with faultq := setBits w 0 6 0 }) ∧
          (setBits w 0 6 0 = 0 → (t.vf n).faultq = 0 ∧ (t.vf n).heldFaults = []))) ∧
        (a.addr % 2 ^ 20 = 0x10000 + 256 * n + 0xA0 → exec .registerWrite s = .next s)) ∧
      (let n := 2 ^ (a.size % 4)
       let off := a.addr % 2 ^ 20 / n * n
       let k := Fin.ofNat 4 ((off - 0x40000) / 0x10000)
       0x40000 ≤ off → off < 0x80000 → Yields .registerWrite s (fun t => keeps t ∧ t.host = s.host ∧
        (∀ i < n, Mem.get (t.core k).lm (off % 0x10000 + i) = BitVec.ofNat 8 (a.value / 256 ^ i)) ∧
        (∀ y, y < off % 0x10000 ∨ off % 0x10000 + n ≤ y → Mem.get (t.core k).lm y = Mem.get (s.core k).lm y) ∧
        ∀ j, j ≠ k → t.core j = s.core j)) ∧
      (s.host.attNonce.isSome = true → exec .attreq s = .next s) ∧
      (let p := (setBits (dbl a.addr) 0 1 0).toNat
       s.host.attNonce = none → s.physOk p = true → s.physOk (p + 377) = true → s.portWaits p = false → Yields .attreq s (fun t =>
        t.host.attreq = setBits (dbl a.addr) 0 1 0 ∧ t.host.attNonce = some (bytesOf (Mem.read s.mm.mem p 64) 64) ∧
        t.mm.mem = s.mm.mem)) ∧
      let stopped := s.boot.err ≠ 0 ∧ s.boot.phase < 6
      ((s.core c).run = true ∨ stopped → exec .run s = .next s) ∧
      ((s.core c).run = false → ¬stopped → Yields .run s (fun t => (t.core c).run = true ∧ (t.core c).pc = 0 ∧ (t.core c).mode = true ∧
        (t.core c).ie = false ∧ (t.core c).g = (s.core c).g ∧ (∀ d, d ≠ c → t.core d = s.core d) ∧ keeps t)) ∧
      Yields .doorbell s (fun t => t.core c = { s.core c with events := (s.core c).events ||| 16 } ∧ (∀ d, d ≠ c → t.core d = s.core d) ∧
        keeps t) ∧
      (let g := { f with ctl := f.ctlAfter w }
       let clash := s.host.vfs.any (fun p => decide (p.1 ≠ v) && p.2.enable && g.meets p.2)
       (g.enable = true → g.sharesOk = false ∨ clash = true → exec .ctlWrite s = .next s) ∧
       (g.enable = false ∨ f.enable = true ∧ g.sharesOk = true ∧ clash = false → Yields .ctlWrite s (fun t => keeps t ∧
         t.vf v = if g.sampq = 0 ∨ g.sampLog = 0 then { g with sampHeld := [] } else g)) ∧
       (g.enable = true → f.enable = false → g.sharesOk = true → clash = false → Yields .ctlWrite s (fun t => keeps t ∧
         (t.vf v).ctl = g.ctl ∧ (t.vf v).slice = 0 ∧ (t.vf v).due = 0 ∧ (t.vf v).bcastMade = true))) ∧
      Yields .quotaWrite s (fun t => (t.vf v).quota = w.toInt ∧ (t.vf v).bcast[0] = w.toInt ∧ (t.vf v).bcastMade = true ∧
        (f.autores = true → f.quota ≤ 0 → 0 < w.toInt → f.st = .saved → (t.vf v).st = .running) ∧
        (f.autores = false → keeps t ∧ (t.vf v).st = f.st)) ∧
      Yields .qadd s (fun t => (t.vf v).quota = (idbl (f.quota + w.toInt)).toInt ∧ (t.vf v).bcastMade = true ∧
        (f.autores = false → keeps t ∧ (t.vf v).st = f.st)) ∧
      Yields .warnWrite s (fun t => keeps t ∧ (t.vf v).warn = w.toInt ∧ (t.vf v).bcast[1] = w.toInt ∧ (t.vf v).quota = f.quota) ∧
      Yields .areaWrite s (fun t => keeps t ∧
        t.vf v = { f with area := w &&& 0xFFFF03FF000003FF, slice := 0, due := 0 }) ∧
      (x.enable = false → Yields .qiCfgWrite s (fun t => keeps t ∧ (t.qi q).cfg = zext64 w 37 ∧ (t.qi q).subbase = x.subbase)) ∧
      (x.enable = true → Yields .qiCfgWrite s (fun t => keeps t ∧ (t.qi q).enable = bit w 0 ∧ (t.qi q).pvalid = bit w 36 ∧
        (t.qi q).pasid = bits w 16 20 ∧ (t.qi q).irqen = bit w 10 ∧ (t.qi q).core = x.core ∧ (t.qi q).owner = x.owner ∧
        (t.qi q).ring = x.ring)) ∧
      (let can := a.size ≠ 0 ∧ a.size ≤ 128 ∧ s.physOk a.addr = true ∧ s.physOk (a.addr + a.size - 1) = true ∧ s.portWaits a.addr = false
       (¬can → exec .hostWindowAccess s = .next s) ∧
       (can → a.ok = true → Yields .hostWindowAccess s (fun t => (∀ i < a.size, Mem.get t.mm.mem (a.addr + i) = BitVec.ofNat 8 (a.value / 256 ^ i)) ∧
         (∀ y, y < a.addr ∨ a.addr + a.size ≤ y → Mem.get t.mm.mem y = Mem.get s.mm.mem y) ∧ t.mm.fot = s.mm.fot ∧ t.prick = s.prick)) ∧
       (can → a.ok = false → Yields .hostWindowAccess s (fun t => t.mm.mem = s.mm.mem ∧ t.mm.fe = s.mm.fe ∧ t.prick = s.prick)))) ∧
    (s.host.attNonce = none → exec .attestationReport s = .next s) ∧
    (∀ nonce, s.host.attNonce = some nonce → nonce.length = 64 → s.physOk (s.host.attreq.toNat + 64) = true →
      s.portWaits s.host.attreq.toNat = false → s.portWaits (s.host.attreq.toNat + 377) = false →
      Yields .attestationReport s (fun t => t.host.attNonce = none ∧ t.host.attreq = s.host.attreq ||| 1 ∧
        (let digest := fun (l : List Byte) => bytesOf (ofBytes (shake256 l)) 64
         let body := nonce ++ digest s.boot.flash ++ digest Config.microcode ++ bytesOf s.devcaps.toNat 8
         (∀ i < 200, some (Mem.get t.mm.mem (s.host.attreq.toNat + 64 + i)) = body[i]?) ∧
         ∀ i < 114, Mem.get t.mm.mem (s.host.attreq.toNat + 264 + i) = BitVec.ofNat 8 (Config.sign body / 256 ^ i)) ∧
        (∀ y, y < s.host.attreq.toNat + 64 ∨ s.host.attreq.toNat + 378 ≤ y → Mem.get t.mm.mem y = Mem.get s.mm.mem y)))

/-- The next turn is the head of the agenda (the model's choice, log entry 1). What an engine decodes is well-formed for it.
A control core issues the instruction that its fetched word decodes to (in host mode the word of its local memory at PC,
behind its own stores the word before them: log entry 50), or takes an interrupt, an ILLEGAL or a FETCH trap, or waits; a
station issues the word at its firing's position once nothing that it reads or writes is on its way, and ends the body behind
the last word. That a station word that is no instruction stops the machine is the model's own choice (LOG 8). -/
def Obligations.AStepRunsTheDecodedInstruction : Prop :=
  ∀ (s t : State),
    (∀ x rest, s.sched.agenda = x :: rest → s.nextTurn = (x, { s with sched := { s.sched with agenda := rest } })) ∧
    (∀ e w i, decode e w = .ok i → i.wf e = true) ∧
    (s.nextTurn = (.clock, t) → step s = .next t.clockTick) ∧
    (∀ i a, s.nextTurn = (.event i a, t) → isEvent i = true → step s = exec i { t with sched := { t.sched with arg := a } }) ∧
    (∀ c, s.nextTurn = (.core c, t) →
      let u := { t with sched := { t.sched with curCore := c } }
      let k := t.core c
      (k.run = false → step s = .next t) ∧
      (k.run = true → k.interrupted = true → step s = exec .interrupt (u.withArg { n := c.val })) ∧
      (k.run = true → k.interrupted = false →
        (∀ w v i, u.fetchWord = (.word w, v) → decode .core w = .ok i → step s = exec i v) ∧
        (∀ w v e, u.fetchWord = (.word w, v) → decode .core w = .error e →
          step s = exec .illegal (v.withArg { n := c.val, value := w.toNat })) ∧
        (∀ n v, u.fetchWord = (.bad n, v) → step s = exec .fetch (v.withArg { n := c.val, m := n })) ∧
        (∀ v, u.fetchWord = (.wait, v) → step s = .next v) ∧
        (k.mode = true → k.pc.toNat % 4 = 0 → k.pc.toNat < 0xC000 → (∀ j < 4, Map.find k.fetchOld (k.pc.toNat + j) = none) →
          u.fetchWord = (.word (BitVec.ofNat 32 (Mem.read k.lm k.pc.toNat 4)), u)))) ∧
    (∀ l, s.nextTurn = (.station l, t) →
      let f := (t.st l).firing
      let w := (Map.find (t.st l).istore (f.base + f.pos)).getD 0
      (f.active = false → step s = .next t) ∧
      (f.active = true → hdrLen f.header ≤ f.pos → step s = .next ({ t with sched := { t.sched with curSt := l } }).bodyEnd) ∧
      (f.active = true → f.pos < hdrLen f.header →
        (∀ i, decode (.station (kindOf l)) w = .ok i → t.mustWait l i = false →
          step s = exec i { t with sched := { t.sched with curSt := l } }) ∧
        (∀ i, decode (.station (kindOf l)) w = .ok i → t.mustWait l i = true → step s = .next t) ∧
        (∀ e, decode (.station (kindOf l)) w = .error e → step s = .refused (.undecodable w))))

/-- ADD.d t0, i0, i1; ADDI g5, g6, -3; STEER t4, t3, a1, a0; BNE g1, g0, -3; LDG.8 g5, 8(g2); SDEF.t.8.a5 s1, t0, t1;
AADD.w.rel.device t0, t1, t2 with lsid 3; CALL 0, 5; VEXP2.sr T5, T4; FCVT.i32.f32.rz t1, t0; ACCRD.sr a3, A1, bf16, t5; TINS
t2, t0, t1, 3 with lsid 4; QRD g5, REMAIN: the words that the spec writes out for them decode to them, and no engine takes
opcodes 0x00 and 0xFF. -/
def Obligations.TheWordsOfTheSpecDecode : Prop :=
  decode (.station .compute) 0x20089000#32 = .ok (.add 0 (.i 0) (.i 1) .w64) ∧
  decode .core 0x2229BFFD#32 = .ok (.addiCi 5 6 0x3FFD#14) ∧
  decode (.station .bobbin) 0x0E410300#32 = .ok (.steer (.t 4) 1 0 (.t 3)) ∧
  decode .core 0x51083FFD#32 = .ok (.bne 1 0 0x3FFD#14) ∧
  decode .core 0x59288023#32 = .ok (.ldg 5 2 8#12 .b8) ∧
  decode (.station .bobbin) 0x701012BB#32 = .ok (.sdef 1 (.t 0) (.t 1) (.arc 5) true false .e8) ∧
  decode (.station .bobbin) 0x9301219D#32 = .ok (.aadd 0 (.t 1) (.t 2) 3 (.rel .device) .w32) ∧
  decode (.station .compute) 0xA0000005#32 = .ok (.call 0 5#16) ∧
  decode (.station .compute) 0xBA540004#32 = .ok (.vexp2 5 4 .sr) ∧
  decode (.station .compute) 0xCA100061#32 = .ok (.fcvt 1 (.t 0) .f32 .i32 .rz) ∧
  decode (.station .compute) 0xD6350302#32 = .ok (.accrd 3 (.t 5) 1 .sr 2#6) ∧
  decode (.station .bobbin) 0xE3201203#32 = .ok (.tins (.t 2) (.t 0) (.t 1) 4 3) ∧
  decode .core 0xF0280000#32 = .ok (.qrdCi 5 false) ∧
  (∀ e, (decode e 0x00000000#32).toOption = none ∧ (decode e 0xFF000000#32).toOption = none)

/-- Cores are held with STATUS 0x5 and their system registers 0; time and cycle are 0; every frame is free, every bucket
full, every function disabled, every queue interface clear, every strand finished with count 0; nothing is placed or under
way, and bring-up is at phase 0. Memories have their canonical form. That general registers and unwritten bytes read 0 and
that no granule is full and no line poisoned are the model's own choices (LOG 3, LOG 4, LOG 5). -/
def Obligations.ResetLeavesTheDeviceEmpty : Prop :=
  let s := State.reset
  s.clk.cycle = 0 ∧ (∀ d : Fin 2, s.clk.time[d].ns = 0 ∧ s.clk.time[d].frac = 0) ∧
  (∀ c : Fin 4, (s.core c).run = false ∧ (s.core c).status = 5 ∧ (s.core c).epc = 0 ∧ (s.core c).cause = 0 ∧ (s.core c).eval = 0 ∧
    (s.core c).hvec = 0 ∧ (s.core c).curvf = 0 ∧ (s.core c).events = 0 ∧ (s.core c).iemask = 0 ∧ (s.core c).snkflag = 0 ∧
    (s.core c).slots = [] ∧ (s.core c).pktq = [] ∧ ∀ r : Fin 32, (s.core c).g[r] = 0) ∧
  (∀ n, s.fotEntry n = (0, 0)) ∧ s.host.fot = none ∧ s.host.tlb = [] ∧
  (∀ k < 32, (s.col k).tokens = 4096 ∧ (s.col k).req = 320 ∧ (s.col k).grant = 320) ∧
  (∀ v, (s.vf v).ctl = 0 ∧ (s.vf v).st = .running ∧ (s.vf v).cmderr = false ∧ (s.vf v).knottab = 0 ∧ (s.vf v).knotcnt = 0 ∧
    (s.vf v).rangebase = 0 ∧ (s.vf v).faultq = 0) ∧
  (∀ q, (s.qi q).cfg = 0) ∧
  (∀ l k, ((s.st l).strand k).st = .finished ∧ ((s.st l).strand k).d.count = 0) ∧
  (∀ l, (s.st l).firing.active = false ∧ (s.st l).frames = []) ∧ s.fab.tokens = [] ∧ s.prick.insts = [] ∧ s.prick.roots = [] ∧
  s.boot.phase = 0 ∧ s.boot.err = 0 ∧ s.boot.windowOpen = false ∧ s.memWf ∧
  (∀ a, Mem.get s.mm.mem a = 0) ∧ s.mm.fe = [] ∧ s.mm.poison = []

/-- For every engine: the word of every instruction that is well-formed for it decodes to that instruction, with every
operand at every value; and a word that decodes is the word of its instruction, so every instruction has one word and every
bit of a word counts (R61). -/
def Obligations.DecodeAndEncodeAgree : Prop :=
  ∀ (e : Engine),
    (∀ (i : Instr), i.wf e = true → decode e (encode i) = .ok i) ∧
    (∀ (w : Word) (i : Instr), decode e w = .ok i → i.wf e = true ∧ encode i = w)

/-- If the physical space, the local memories of the control cores and the scratchpads of the stations have their canonical
form (addresses strictly rising, no listed byte that equals what an unlisted one reads as), then they have it after every
step, whoever's turn it is. -/
def Obligations.EveryStepKeepsMemoriesCanonical : Prop :=
  ∀ (s t : State), s.memWf → step s = .next t → t.memWf
end

