-- ==== Sys2Proof/Laws/Maps.lean ====
section
/-!
SUPPORT. Laws of the data that the state is made of: maps, number sets, vectors, byte memories and their canonical form.
-/

namespace Sys2Proof.Machine

/-! ### Maps -/

@[simp] theorem Map.find_nil {α : Type} (k : Nat) : Map.find ([] : Map α) k = none := rfl

@[simp] theorem Map.find_put_same {α : Type} (m : Map α) (k : Nat) (v : α) : Map.find (Map.put m k v) k = some v := by
  induction m with
  | nil => simp [Map.put, Map.find]
  | cons p m ih =>
    obtain ⟨j, u⟩ := p
    simp only [Map.put]
    split
    · simp [Map.find]
    · split
      · simp [Map.find]
      · simp [Map.find, *]

theorem Map.find_put_other {α : Type} (m : Map α) {k j : Nat} (v : α) (h : j ≠ k) :
    Map.find (Map.put m k v) j = Map.find m j := by
  induction m with
  | nil => simp [Map.put, Map.find, Ne.symm h]
  | cons p m ih =>
    obtain ⟨i, u⟩ := p
    simp only [Map.put]
    split
    · simp [Map.find, Ne.symm h]
    · split
      · rename_i h1
        subst h1
        simp [Map.find, Ne.symm h]
      · simp only [Map.find, ih]

/-! ### Sets of numbers -/

theorem mem_nput {l : List Nat} {k j : Nat} : j ∈ nput l k ↔ j = k ∨ j ∈ l := by
  induction l with
  | nil => simp [nput]
  | cons a l ih =>
    simp only [nput]
    split
    · simp
    · split
      · rename_i h
        subst h
        simp
      · simp only [List.mem_cons, ih]
        tauto

theorem mem_ndrop {l : List Nat} {k j : Nat} : j ∈ ndrop l k ↔ j ∈ l ∧ j ≠ k := by
  simp [ndrop]

/-! ### Vectors -/

@[simp] theorem vget_vset_same {α : Type} {n : Nat} (v : Vector α n) {i : Nat} (x d : α) (h : i < n) :
    vget (vset v i x) i d = x := by
  simp [vget, vset, h]

theorem vget_vset_other {α : Type} {n : Nat} (v : Vector α n) {i j : Nat} (x d : α) (h : j ≠ i) :
    vget (vset v i x) j d = vget v j d := by
  simp [vget, vset, Ne.symm h]

theorem vget_of_lt {α : Type} {n : Nat} (v : Vector α n) {i : Nat} (d : α) (h : i < n) : vget v i d = v[i] := by
  simp [vget, h]

/-! ### Byte memories -/

@[simp] theorem Mem.get_nil (a : Nat) : Mem.get [] a = 0 := rfl

theorem Mem.get_drop (m : List Host.Cell) (a b : Nat) :
    Mem.get (m.filter (fun p => decide (p.1 ≠ a))) b = if b = a then 0 else Mem.get m b := by
  induction m with
  | nil => simp
  | cons p m ih =>
    obtain ⟨j, c⟩ := p
    rw [List.filter_cons]
    by_cases h : j = a
    · subst h
      rw [if_neg (by simp), ih]
      by_cases hb : b = j
      · rw [if_pos hb, if_pos hb]
      · rw [if_neg hb, if_neg hb]
        simp [Mem.get, Ne.symm hb]
    · rw [if_pos (by simpa using h)]
      by_cases hj : j = b
      · subst hj
        simp [Mem.get, h]
      · simp only [Mem.get, hj, if_false, ih]

theorem Mem.get_list (m : List Host.Cell) (a b : Nat) (x : Byte) :
    Mem.get (Mem.list m a x) b = if b = a then x else Mem.get m b := by
  induction m with
  | nil =>
    by_cases h : b = a
    · simp [Mem.list, Mem.get, h]
    · simp [Mem.list, Mem.get, h, Ne.symm h]
  | cons p m ih =>
    obtain ⟨j, c⟩ := p
    simp only [Mem.list]
    by_cases h : b = a
    · subst h
      split
      · simp [Mem.get]
      · split
        · simp [Mem.get]
        · rename_i hj
          simp [Mem.get, hj, ih]
    · split
      · simp [Mem.get, Ne.symm h]
      · split
        · rename_i hj
          subst hj
          simp [Mem.get, Ne.symm h]
        · simp only [Mem.get, ih, h, if_false]

/-- A write of a byte is seen at its address, and nowhere else. -/
theorem Mem.get_put (m : List Host.Cell) (a b : Nat) (x : Byte) :
    Mem.get (Mem.put m a x) b = if b = a then x else Mem.get m b := by
  unfold Mem.put
  split
  · rename_i h
    rw [Mem.get_drop, h]
  · exact Mem.get_list m a b x

theorem Mem.get_put_other (m : List Host.Cell) {a b : Nat} (x : Byte) (h : b ≠ a) :
    Mem.get (Mem.put m a x) b = Mem.get m b := by
  simp [Mem.get_put, h]

@[simp] theorem Mem.get_put_same (m : List Host.Cell) (a : Nat) (x : Byte) : Mem.get (Mem.put m a x) a = x := by
  simp [Mem.get_put]

theorem Mem.wfFrom_mono {m : List Host.Cell} {lo hi : Nat} (h : lo ≤ hi) (w : Mem.wfFrom hi m = true) :
    Mem.wfFrom lo m = true := by
  cases m with
  | nil => rfl
  | cons p m =>
    obtain ⟨j, c⟩ := p
    simp only [Mem.wfFrom, Bool.and_eq_true, decide_eq_true_eq] at w ⊢
    exact ⟨⟨le_trans h w.1.1, w.1.2⟩, w.2⟩

/-- Dropping cells keeps the canonical form. -/
theorem Mem.filter_wfFrom {m : List Host.Cell} {lo : Nat} (p : Host.Cell → Bool) (w : Mem.wfFrom lo m = true) :
    Mem.wfFrom lo (m.filter p) = true := by
  induction m generalizing lo with
  | nil => rfl
  | cons q m ih =>
    obtain ⟨j, c⟩ := q
    simp only [Mem.wfFrom, Bool.and_eq_true, decide_eq_true_eq] at w
    rw [List.filter_cons]
    split
    · simp only [Mem.wfFrom, Bool.and_eq_true, decide_eq_true_eq]
      exact ⟨w.1, ih w.2⟩
    · exact Mem.wfFrom_mono (by omega) (ih w.2)

theorem Mem.filter_wf {m : List Host.Cell} (p : Host.Cell → Bool) (w : Memory.wf m = true) : Memory.wf (m.filter p) = true :=
  Mem.filter_wfFrom p w

/-- Listing a byte that is not 0 keeps the canonical form. -/
theorem Mem.list_wfFrom {m : List Host.Cell} {lo a : Nat} {x : Byte} (hx : x ≠ 0) (w : Mem.wfFrom lo m = true) (h : lo ≤ a) :
    Mem.wfFrom lo (Mem.list m a x) = true := by
  induction m generalizing lo with
  | nil =>
    simp only [Mem.list, Mem.wfFrom, Bool.and_true, Bool.and_eq_true, decide_eq_true_eq]
    exact ⟨h, hx⟩
  | cons p m ih =>
    obtain ⟨j, c⟩ := p
    simp only [Mem.wfFrom, Bool.and_eq_true, decide_eq_true_eq] at w
    simp only [Mem.list]
    split
    · simp only [Mem.wfFrom, Bool.and_eq_true, decide_eq_true_eq]
      exact ⟨⟨h, hx⟩, ⟨by omega, w.1.2⟩, w.2⟩
    · split
      · rename_i h2
        simp only [Mem.wfFrom, Bool.and_eq_true, decide_eq_true_eq]
        exact ⟨⟨h, hx⟩, h2 ▸ w.2⟩
      · simp only [Mem.wfFrom, Bool.and_eq_true, decide_eq_true_eq]
        exact ⟨w.1, ih w.2 (by omega)⟩

/-- A write of a byte keeps the canonical form. -/
theorem Mem.put_wf {m : List Host.Cell} (a : Nat) (x : Byte) (w : Memory.wf m = true) : Memory.wf (Mem.put m a x) = true := by
  unfold Mem.put
  split
  · exact Mem.filter_wf _ w
  · rename_i hx
    exact Mem.list_wfFrom hx w (Nat.zero_le a)

/-- A write of bytes keeps the canonical form. -/
theorem Mem.write_wf {m : List Host.Cell} (a n v : Nat) (w : Memory.wf m = true) : Memory.wf (Mem.write m a n v) = true := by
  induction n generalizing m a v with
  | zero => exact w
  | succ n ih => exact ih (a + 1) (v / 256) (Mem.put_wf a _ w)

theorem Mem.putBytes_wf {m : List Host.Cell} (a : Nat) (l : List Byte) (w : Memory.wf m = true) :
    Memory.wf (Mem.putBytes m a l) = true := by
  induction l generalizing m a with
  | nil => exact w
  | cons b l ih => exact ih (a + 1) (Mem.put_wf a b w)

/-- A write leaves every byte outside its range. -/
theorem Mem.get_write_outside (m : List Host.Cell) {a b : Nat} (n v : Nat) (h : b < a ∨ a + n ≤ b) :
    Mem.get (Mem.write m a n v) b = Mem.get m b := by
  induction n generalizing m a v with
  | zero => rfl
  | succ n ih =>
    simp only [Mem.write]
    rw [ih _ _ (by omega), Mem.get_put_other _ _ (by omega)]

/-- A write puts its bytes, least significant first. -/
theorem Mem.get_write_inside (m : List Host.Cell) {a : Nat} (n v i : Nat) (h : i < n) :
    Mem.get (Mem.write m a n v) (a + i) = BitVec.ofNat 8 (v / 256 ^ i) := by
  induction n generalizing m a v i with
  | zero => omega
  | succ n ih =>
    simp only [Mem.write]
    cases i with
    | zero =>
      rw [Mem.get_write_outside _ _ _ (by omega)]
      simp
    | succ i =>
      have := ih (Mem.put m a (BitVec.ofNat 8 v)) (a := a + 1) (v / 256) i (by omega)
      rw [show a + (i + 1) = a + 1 + i by omega, this, Nat.div_div_eq_div_mul, pow_succ, Nat.mul_comm]

/-- A read of a range that a write does not meet. -/
theorem Mem.read_write_outside (m : List Host.Cell) {a b : Nat} (n k v : Nat) (h : b + k ≤ a ∨ a + n ≤ b) :
    Mem.read (Mem.write m a n v) b k = Mem.read m b k := by
  induction k generalizing b with
  | zero => rfl
  | succ k ih =>
    simp only [Mem.read]
    rw [ih (by omega), Mem.get_write_outside _ _ _ (by omega)]

/-- A read after a write to the same place gives the value written. -/
theorem Mem.read_write_same (m : List Host.Cell) (a n v : Nat) :
    Mem.read (Mem.write m a n v) a n = v % 256 ^ n := by
  induction n generalizing m a v with
  | zero => simp [Mem.read, Nat.mod_one]
  | succ n ih =>
    simp only [Mem.read, Mem.write]
    rw [ih (Mem.put m a (BitVec.ofNat 8 v)) (a + 1) (v / 256), Mem.get_write_outside _ _ _ (by omega), Mem.get_put_same]
    rw [BitVec.toNat_ofNat, show (2 : Nat) ^ 8 = 256 by norm_num, Nat.pow_succ', Nat.mod_mul]

end Sys2Proof.Machine
end

