-- ==== Sys2Proof/Laws/State.lean ====
section
/-!
SUPPORT. What each update of the state writes and what it leaves.
-/

namespace Sys2Proof.Machine

/-! ### Fields that an update does not touch -/

@[simp] theorem setSt_sched (s : State) (l : Loc) (v : Station) : (s.setSt l v).sched = s.sched := rfl
@[simp] theorem setSt_clk (s : State) (l : Loc) (v : Station) : (s.setSt l v).clk = s.clk := rfl
@[simp] theorem setSt_mm (s : State) (l : Loc) (v : Station) : (s.setSt l v).mm = s.mm := rfl
@[simp] theorem setSt_prick (s : State) (l : Loc) (v : Station) : (s.setSt l v).prick = s.prick := rfl
@[simp] theorem setSt_cores (s : State) (l : Loc) (v : Station) : (s.setSt l v).cores = s.cores := rfl
@[simp] theorem setSt_host (s : State) (l : Loc) (v : Station) : (s.setSt l v).host = s.host := rfl
@[simp] theorem setSt_boot (s : State) (l : Loc) (v : Station) : (s.setSt l v).boot = s.boot := rfl

@[simp] theorem modSt_sched (s : State) (l : Loc) (f : Station → Station) : (s.modSt l f).sched = s.sched := rfl
@[simp] theorem modSt_clk (s : State) (l : Loc) (f : Station → Station) : (s.modSt l f).clk = s.clk := rfl
@[simp] theorem modSt_mm (s : State) (l : Loc) (f : Station → Station) : (s.modSt l f).mm = s.mm := rfl
@[simp] theorem modSt_prick (s : State) (l : Loc) (f : Station → Station) : (s.modSt l f).prick = s.prick := rfl
@[simp] theorem modSt_cores (s : State) (l : Loc) (f : Station → Station) : (s.modSt l f).cores = s.cores := rfl
@[simp] theorem modSt_host (s : State) (l : Loc) (f : Station → Station) : (s.modSt l f).host = s.host := rfl
@[simp] theorem modSt_boot (s : State) (l : Loc) (f : Station → Station) : (s.modSt l f).boot = s.boot := rfl

@[simp] theorem modFir_sched (s : State) (f : Firing → Firing) : (s.modFir f).sched = s.sched := rfl
@[simp] theorem modFir_clk (s : State) (f : Firing → Firing) : (s.modFir f).clk = s.clk := rfl
@[simp] theorem modFir_mm (s : State) (f : Firing → Firing) : (s.modFir f).mm = s.mm := rfl
@[simp] theorem modFir_prick (s : State) (f : Firing → Firing) : (s.modFir f).prick = s.prick := rfl
@[simp] theorem modFir_cores (s : State) (f : Firing → Firing) : (s.modFir f).cores = s.cores := rfl
@[simp] theorem modFir_host (s : State) (f : Firing → Firing) : (s.modFir f).host = s.host := rfl
@[simp] theorem modFir_boot (s : State) (f : Firing → Firing) : (s.modFir f).boot = s.boot := rfl

@[simp] theorem modCx_sched (s : State) (f : Ctx → Ctx) : (s.modCx f).sched = s.sched := rfl
@[simp] theorem modCx_clk (s : State) (f : Ctx → Ctx) : (s.modCx f).clk = s.clk := rfl
@[simp] theorem modCx_mm (s : State) (f : Ctx → Ctx) : (s.modCx f).mm = s.mm := rfl
@[simp] theorem modCx_prick (s : State) (f : Ctx → Ctx) : (s.modCx f).prick = s.prick := rfl
@[simp] theorem modCx_cores (s : State) (f : Ctx → Ctx) : (s.modCx f).cores = s.cores := rfl
@[simp] theorem modCx_host (s : State) (f : Ctx → Ctx) : (s.modCx f).host = s.host := rfl
@[simp] theorem modCx_boot (s : State) (f : Ctx → Ctx) : (s.modCx f).boot = s.boot := rfl

@[simp] theorem modInst_sched (s : State) (k : Nat) (f : Inst → Inst) : (s.modInst k f).sched = s.sched := rfl
@[simp] theorem modInst_clk (s : State) (k : Nat) (f : Inst → Inst) : (s.modInst k f).clk = s.clk := rfl
@[simp] theorem modInst_mm (s : State) (k : Nat) (f : Inst → Inst) : (s.modInst k f).mm = s.mm := rfl
@[simp] theorem modInst_fab (s : State) (k : Nat) (f : Inst → Inst) : (s.modInst k f).fab = s.fab := rfl
@[simp] theorem modInst_cores (s : State) (k : Nat) (f : Inst → Inst) : (s.modInst k f).cores = s.cores := rfl
@[simp] theorem modInst_host (s : State) (k : Nat) (f : Inst → Inst) : (s.modInst k f).host = s.host := rfl
@[simp] theorem modInst_boot (s : State) (k : Nat) (f : Inst → Inst) : (s.modInst k f).boot = s.boot := rfl

@[simp] theorem modRoot_sched (s : State) (k : Nat) (f : Root → Root) : (s.modRoot k f).sched = s.sched := rfl
@[simp] theorem modRoot_clk (s : State) (k : Nat) (f : Root → Root) : (s.modRoot k f).clk = s.clk := rfl
@[simp] theorem modRoot_mm (s : State) (k : Nat) (f : Root → Root) : (s.modRoot k f).mm = s.mm := rfl
@[simp] theorem modRoot_fab (s : State) (k : Nat) (f : Root → Root) : (s.modRoot k f).fab = s.fab := rfl
@[simp] theorem modRoot_cores (s : State) (k : Nat) (f : Root → Root) : (s.modRoot k f).cores = s.cores := rfl
@[simp] theorem modRoot_host (s : State) (k : Nat) (f : Root → Root) : (s.modRoot k f).host = s.host := rfl
@[simp] theorem modRoot_boot (s : State) (k : Nat) (f : Root → Root) : (s.modRoot k f).boot = s.boot := rfl

@[simp] theorem modEng_sched (s : State) (d : Fin 2) (f : DieEng → DieEng) : (s.modEng d f).sched = s.sched := rfl
@[simp] theorem modEng_clk (s : State) (d : Fin 2) (f : DieEng → DieEng) : (s.modEng d f).clk = s.clk := rfl
@[simp] theorem modEng_mm (s : State) (d : Fin 2) (f : DieEng → DieEng) : (s.modEng d f).mm = s.mm := rfl
@[simp] theorem modEng_fab (s : State) (d : Fin 2) (f : DieEng → DieEng) : (s.modEng d f).fab = s.fab := rfl
@[simp] theorem modEng_cores (s : State) (d : Fin 2) (f : DieEng → DieEng) : (s.modEng d f).cores = s.cores := rfl
@[simp] theorem modEng_host (s : State) (d : Fin 2) (f : DieEng → DieEng) : (s.modEng d f).host = s.host := rfl
@[simp] theorem modEng_boot (s : State) (d : Fin 2) (f : DieEng → DieEng) : (s.modEng d f).boot = s.boot := rfl

@[simp] theorem modVf_sched (s : State) (k : Nat) (f : Vf → Vf) : (s.modVf k f).sched = s.sched := rfl
@[simp] theorem modVf_clk (s : State) (k : Nat) (f : Vf → Vf) : (s.modVf k f).clk = s.clk := rfl
@[simp] theorem modVf_mm (s : State) (k : Nat) (f : Vf → Vf) : (s.modVf k f).mm = s.mm := rfl
@[simp] theorem modVf_fab (s : State) (k : Nat) (f : Vf → Vf) : (s.modVf k f).fab = s.fab := rfl
@[simp] theorem modVf_prick (s : State) (k : Nat) (f : Vf → Vf) : (s.modVf k f).prick = s.prick := rfl
@[simp] theorem modVf_cores (s : State) (k : Nat) (f : Vf → Vf) : (s.modVf k f).cores = s.cores := rfl
@[simp] theorem modVf_boot (s : State) (k : Nat) (f : Vf → Vf) : (s.modVf k f).boot = s.boot := rfl

@[simp] theorem modQi_sched (s : State) (k : Nat) (f : Qi → Qi) : (s.modQi k f).sched = s.sched := rfl
@[simp] theorem modQi_clk (s : State) (k : Nat) (f : Qi → Qi) : (s.modQi k f).clk = s.clk := rfl
@[simp] theorem modQi_mm (s : State) (k : Nat) (f : Qi → Qi) : (s.modQi k f).mm = s.mm := rfl
@[simp] theorem modQi_fab (s : State) (k : Nat) (f : Qi → Qi) : (s.modQi k f).fab = s.fab := rfl
@[simp] theorem modQi_prick (s : State) (k : Nat) (f : Qi → Qi) : (s.modQi k f).prick = s.prick := rfl
@[simp] theorem modQi_cores (s : State) (k : Nat) (f : Qi → Qi) : (s.modQi k f).cores = s.cores := rfl
@[simp] theorem modQi_boot (s : State) (k : Nat) (f : Qi → Qi) : (s.modQi k f).boot = s.boot := rfl

@[simp] theorem modCore_sched (s : State) (c : Fin 4) (f : Core → Core) : (s.modCore c f).sched = s.sched := rfl
@[simp] theorem modCore_clk (s : State) (c : Fin 4) (f : Core → Core) : (s.modCore c f).clk = s.clk := rfl
@[simp] theorem modCore_mm (s : State) (c : Fin 4) (f : Core → Core) : (s.modCore c f).mm = s.mm := rfl
@[simp] theorem modCore_fab (s : State) (c : Fin 4) (f : Core → Core) : (s.modCore c f).fab = s.fab := rfl
@[simp] theorem modCore_prick (s : State) (c : Fin 4) (f : Core → Core) : (s.modCore c f).prick = s.prick := rfl
@[simp] theorem modCore_host (s : State) (c : Fin 4) (f : Core → Core) : (s.modCore c f).host = s.host := rfl
@[simp] theorem modCore_boot (s : State) (c : Fin 4) (f : Core → Core) : (s.modCore c f).boot = s.boot := rfl

@[simp] theorem modCc_sched (s : State) (f : Core → Core) : (s.modCc f).sched = s.sched := rfl
@[simp] theorem modCc_clk (s : State) (f : Core → Core) : (s.modCc f).clk = s.clk := rfl
@[simp] theorem modCc_mm (s : State) (f : Core → Core) : (s.modCc f).mm = s.mm := rfl
@[simp] theorem modCc_fab (s : State) (f : Core → Core) : (s.modCc f).fab = s.fab := rfl
@[simp] theorem modCc_prick (s : State) (f : Core → Core) : (s.modCc f).prick = s.prick := rfl
@[simp] theorem modCc_host (s : State) (f : Core → Core) : (s.modCc f).host = s.host := rfl
@[simp] theorem modCc_boot (s : State) (f : Core → Core) : (s.modCc f).boot = s.boot := rfl

@[simp] theorem modQuad_sched (s : State) (k : Nat) (f : Quad → Quad) : (s.modQuad k f).sched = s.sched := rfl
@[simp] theorem modQuad_clk (s : State) (k : Nat) (f : Quad → Quad) : (s.modQuad k f).clk = s.clk := rfl
@[simp] theorem modQuad_mm (s : State) (k : Nat) (f : Quad → Quad) : (s.modQuad k f).mm = s.mm := rfl
@[simp] theorem modQuad_prick (s : State) (k : Nat) (f : Quad → Quad) : (s.modQuad k f).prick = s.prick := rfl
@[simp] theorem modQuad_cores (s : State) (k : Nat) (f : Quad → Quad) : (s.modQuad k f).cores = s.cores := rfl
@[simp] theorem modQuad_host (s : State) (k : Nat) (f : Quad → Quad) : (s.modQuad k f).host = s.host := rfl
@[simp] theorem modQuad_boot (s : State) (k : Nat) (f : Quad → Quad) : (s.modQuad k f).boot = s.boot := rfl

@[simp] theorem modCol_sched (s : State) (k : Nat) (f : Column → Column) : (s.modCol k f).sched = s.sched := rfl
@[simp] theorem modCol_clk (s : State) (k : Nat) (f : Column → Column) : (s.modCol k f).clk = s.clk := rfl
@[simp] theorem modCol_mm (s : State) (k : Nat) (f : Column → Column) : (s.modCol k f).mm = s.mm := rfl
@[simp] theorem modCol_prick (s : State) (k : Nat) (f : Column → Column) : (s.modCol k f).prick = s.prick := rfl
@[simp] theorem modCol_cores (s : State) (k : Nat) (f : Column → Column) : (s.modCol k f).cores = s.cores := rfl
@[simp] theorem modCol_host (s : State) (k : Nat) (f : Column → Column) : (s.modCol k f).host = s.host := rfl
@[simp] theorem modCol_boot (s : State) (k : Nat) (f : Column → Column) : (s.modCol k f).boot = s.boot := rfl

@[simp] theorem modMm_sched (s : State) (f : MemSide → MemSide) : (s.modMm f).sched = s.sched := rfl
@[simp] theorem modMm_clk (s : State) (f : MemSide → MemSide) : (s.modMm f).clk = s.clk := rfl
@[simp] theorem modMm_fab (s : State) (f : MemSide → MemSide) : (s.modMm f).fab = s.fab := rfl
@[simp] theorem modMm_prick (s : State) (f : MemSide → MemSide) : (s.modMm f).prick = s.prick := rfl
@[simp] theorem modMm_cores (s : State) (f : MemSide → MemSide) : (s.modMm f).cores = s.cores := rfl
@[simp] theorem modMm_host (s : State) (f : MemSide → MemSide) : (s.modMm f).host = s.host := rfl
@[simp] theorem modMm_boot (s : State) (f : MemSide → MemSide) : (s.modMm f).boot = s.boot := rfl

@[simp] theorem modFab_sched (s : State) (f : Fabric → Fabric) : (s.modFab f).sched = s.sched := rfl
@[simp] theorem modFab_clk (s : State) (f : Fabric → Fabric) : (s.modFab f).clk = s.clk := rfl
@[simp] theorem modFab_mm (s : State) (f : Fabric → Fabric) : (s.modFab f).mm = s.mm := rfl
@[simp] theorem modFab_prick (s : State) (f : Fabric → Fabric) : (s.modFab f).prick = s.prick := rfl
@[simp] theorem modFab_cores (s : State) (f : Fabric → Fabric) : (s.modFab f).cores = s.cores := rfl
@[simp] theorem modFab_host (s : State) (f : Fabric → Fabric) : (s.modFab f).host = s.host := rfl
@[simp] theorem modFab_boot (s : State) (f : Fabric → Fabric) : (s.modFab f).boot = s.boot := rfl

@[simp] theorem modHost_sched (s : State) (f : HostSide → HostSide) : (s.modHost f).sched = s.sched := rfl
@[simp] theorem modHost_clk (s : State) (f : HostSide → HostSide) : (s.modHost f).clk = s.clk := rfl
@[simp] theorem modHost_mm (s : State) (f : HostSide → HostSide) : (s.modHost f).mm = s.mm := rfl
@[simp] theorem modHost_fab (s : State) (f : HostSide → HostSide) : (s.modHost f).fab = s.fab := rfl
@[simp] theorem modHost_prick (s : State) (f : HostSide → HostSide) : (s.modHost f).prick = s.prick := rfl
@[simp] theorem modHost_cores (s : State) (f : HostSide → HostSide) : (s.modHost f).cores = s.cores := rfl
@[simp] theorem modHost_boot (s : State) (f : HostSide → HostSide) : (s.modHost f).boot = s.boot := rfl

@[simp] theorem mapOut_sched (s : State) (k : Nat) : (s.mapOut k).sched = s.sched := rfl
@[simp] theorem mapOut_clk (s : State) (k : Nat) : (s.mapOut k).clk = s.clk := rfl
@[simp] theorem mapOut_mm (s : State) (k : Nat) : (s.mapOut k).mm = s.mm := rfl
@[simp] theorem mapOut_prick (s : State) (k : Nat) : (s.mapOut k).prick = s.prick := rfl
@[simp] theorem mapOut_cores (s : State) (k : Nat) : (s.mapOut k).cores = s.cores := rfl
@[simp] theorem mapOut_host (s : State) (k : Nat) : (s.mapOut k).host = s.host := rfl

@[simp] theorem coreTrap_sched (s : State) (c : Cause) (i : Nat) (v : Double) : (s.coreTrap c i v).sched = s.sched := rfl
@[simp] theorem coreTrap_clk (s : State) (c : Cause) (i : Nat) (v : Double) : (s.coreTrap c i v).clk = s.clk := rfl
@[simp] theorem coreTrap_mm (s : State) (c : Cause) (i : Nat) (v : Double) : (s.coreTrap c i v).mm = s.mm := rfl
@[simp] theorem coreTrap_fab (s : State) (c : Cause) (i : Nat) (v : Double) : (s.coreTrap c i v).fab = s.fab := rfl
@[simp] theorem coreTrap_prick (s : State) (c : Cause) (i : Nat) (v : Double) : (s.coreTrap c i v).prick = s.prick := rfl
@[simp] theorem coreTrap_host (s : State) (c : Cause) (i : Nat) (v : Double) : (s.coreTrap c i v).host = s.host := rfl
@[simp] theorem coreTrap_boot (s : State) (c : Cause) (i : Nat) (v : Double) : (s.coreTrap c i v).boot = s.boot := rfl

@[simp] theorem cnext_sched (s : State) : (s.cnext).sched = s.sched := rfl
@[simp] theorem cnext_clk (s : State) : (s.cnext).clk = s.clk := rfl
@[simp] theorem cnext_mm (s : State) : (s.cnext).mm = s.mm := rfl
@[simp] theorem cnext_fab (s : State) : (s.cnext).fab = s.fab := rfl
@[simp] theorem cnext_prick (s : State) : (s.cnext).prick = s.prick := rfl
@[simp] theorem cnext_host (s : State) : (s.cnext).host = s.host := rfl
@[simp] theorem cnext_boot (s : State) : (s.cnext).boot = s.boot := rfl

@[simp] theorem put_sched (s : State) (d : Fin 32) (v : Double) : (s.put d v).sched = s.sched := rfl
@[simp] theorem put_clk (s : State) (d : Fin 32) (v : Double) : (s.put d v).clk = s.clk := rfl
@[simp] theorem put_mm (s : State) (d : Fin 32) (v : Double) : (s.put d v).mm = s.mm := rfl
@[simp] theorem put_fab (s : State) (d : Fin 32) (v : Double) : (s.put d v).fab = s.fab := rfl
@[simp] theorem put_prick (s : State) (d : Fin 32) (v : Double) : (s.put d v).prick = s.prick := rfl
@[simp] theorem put_host (s : State) (d : Fin 32) (v : Double) : (s.put d v).host = s.host := rfl
@[simp] theorem put_boot (s : State) (d : Fin 32) (v : Double) : (s.put d v).boot = s.boot := rfl

@[simp] theorem wr_sched (s : State) (d : Fin 8) (v : Double) : (s.wr d v).sched = s.sched := rfl
@[simp] theorem wr_clk (s : State) (d : Fin 8) (v : Double) : (s.wr d v).clk = s.clk := rfl
@[simp] theorem wr_mm (s : State) (d : Fin 8) (v : Double) : (s.wr d v).mm = s.mm := rfl
@[simp] theorem wr_prick (s : State) (d : Fin 8) (v : Double) : (s.wr d v).prick = s.prick := rfl
@[simp] theorem wr_cores (s : State) (d : Fin 8) (v : Double) : (s.wr d v).cores = s.cores := rfl
@[simp] theorem wr_host (s : State) (d : Fin 8) (v : Double) : (s.wr d v).host = s.host := rfl
@[simp] theorem wr_boot (s : State) (d : Fin 8) (v : Double) : (s.wr d v).boot = s.boot := rfl

@[simp] theorem charge_sched (s : State) (vf col : Nat) (w : Work) (n : Nat) : (s.charge vf col w n).sched = s.sched := by unfold State.charge; split <;> rfl
@[simp] theorem charge_clk (s : State) (vf col : Nat) (w : Work) (n : Nat) : (s.charge vf col w n).clk = s.clk := by unfold State.charge; split <;> rfl
@[simp] theorem charge_mm (s : State) (vf col : Nat) (w : Work) (n : Nat) : (s.charge vf col w n).mm = s.mm := by unfold State.charge; split <;> rfl
@[simp] theorem charge_prick (s : State) (vf col : Nat) (w : Work) (n : Nat) : (s.charge vf col w n).prick = s.prick := by unfold State.charge; split <;> rfl
@[simp] theorem charge_cores (s : State) (vf col : Nat) (w : Work) (n : Nat) : (s.charge vf col w n).cores = s.cores := by unfold State.charge; split <;> rfl
@[simp] theorem charge_host (s : State) (vf col : Nat) (w : Work) (n : Nat) : (s.charge vf col w n).host = s.host := by unfold State.charge; split <;> rfl
@[simp] theorem charge_boot (s : State) (vf col : Nat) (w : Work) (n : Nat) : (s.charge vf col w n).boot = s.boot := by unfold State.charge; split <;> rfl

@[simp] theorem chargeCtx_sched (s : State) (l : Loc) (c : Nat) (w : Work) (n : Nat) : (s.chargeCtx l c w n).sched = s.sched := by simp [State.chargeCtx]
@[simp] theorem chargeCtx_clk (s : State) (l : Loc) (c : Nat) (w : Work) (n : Nat) : (s.chargeCtx l c w n).clk = s.clk := by simp [State.chargeCtx]
@[simp] theorem chargeCtx_mm (s : State) (l : Loc) (c : Nat) (w : Work) (n : Nat) : (s.chargeCtx l c w n).mm = s.mm := by simp [State.chargeCtx]
@[simp] theorem chargeCtx_prick (s : State) (l : Loc) (c : Nat) (w : Work) (n : Nat) : (s.chargeCtx l c w n).prick = s.prick := by simp [State.chargeCtx]
@[simp] theorem chargeCtx_cores (s : State) (l : Loc) (c : Nat) (w : Work) (n : Nat) : (s.chargeCtx l c w n).cores = s.cores := by simp [State.chargeCtx]
@[simp] theorem chargeCtx_host (s : State) (l : Loc) (c : Nat) (w : Work) (n : Nat) : (s.chargeCtx l c w n).host = s.host := by simp [State.chargeCtx]
@[simp] theorem chargeCtx_boot (s : State) (l : Loc) (c : Nat) (w : Work) (n : Nat) : (s.chargeCtx l c w n).boot = s.boot := by simp [State.chargeCtx]

@[simp] theorem eat_sched (s : State) (l : List Sel) : (s.eat l).sched = s.sched := by unfold State.eat; split <;> rfl
@[simp] theorem eat_clk (s : State) (l : List Sel) : (s.eat l).clk = s.clk := by unfold State.eat; split <;> rfl
@[simp] theorem eat_mm (s : State) (l : List Sel) : (s.eat l).mm = s.mm := by unfold State.eat; split <;> rfl
@[simp] theorem eat_prick (s : State) (l : List Sel) : (s.eat l).prick = s.prick := by unfold State.eat; split <;> rfl
@[simp] theorem eat_cores (s : State) (l : List Sel) : (s.eat l).cores = s.cores := by unfold State.eat; split <;> rfl
@[simp] theorem eat_host (s : State) (l : List Sel) : (s.eat l).host = s.host := by unfold State.eat; split <;> rfl
@[simp] theorem eat_boot (s : State) (l : List Sel) : (s.eat l).boot = s.boot := by unfold State.eat; split <;> rfl

@[simp] theorem adv_sched (s : State) : (s.adv).sched = s.sched := by simp [State.adv]
@[simp] theorem adv_clk (s : State) : (s.adv).clk = s.clk := by simp [State.adv]
@[simp] theorem adv_mm (s : State) : (s.adv).mm = s.mm := by simp [State.adv]
@[simp] theorem adv_prick (s : State) : (s.adv).prick = s.prick := by simp [State.adv]
@[simp] theorem adv_cores (s : State) : (s.adv).cores = s.cores := by simp [State.adv]
@[simp] theorem adv_host (s : State) : (s.adv).host = s.host := by simp [State.adv]
@[simp] theorem adv_boot (s : State) : (s.adv).boot = s.boot := by simp [State.adv]

@[simp] theorem result_sched (s : State) (d : Fin 8) (l : List Sel) (v : Double) : (s.result d l v).sched = s.sched := by simp [State.result]
@[simp] theorem result_clk (s : State) (d : Fin 8) (l : List Sel) (v : Double) : (s.result d l v).clk = s.clk := by simp [State.result]
@[simp] theorem result_mm (s : State) (d : Fin 8) (l : List Sel) (v : Double) : (s.result d l v).mm = s.mm := by simp [State.result]
@[simp] theorem result_prick (s : State) (d : Fin 8) (l : List Sel) (v : Double) : (s.result d l v).prick = s.prick := by simp [State.result]
@[simp] theorem result_cores (s : State) (d : Fin 8) (l : List Sel) (v : Double) : (s.result d l v).cores = s.cores := by simp [State.result]
@[simp] theorem result_host (s : State) (d : Fin 8) (l : List Sel) (v : Double) : (s.result d l v).host = s.host := by simp [State.result]
@[simp] theorem result_boot (s : State) (d : Fin 8) (l : List Sel) (v : Double) : (s.result d l v).boot = s.boot := by simp [State.result]

@[simp] theorem newUid_clk (s : State) : (s.newUid).2.clk = s.clk := rfl
@[simp] theorem newUid_mm (s : State) : (s.newUid).2.mm = s.mm := rfl
@[simp] theorem newUid_fab (s : State) : (s.newUid).2.fab = s.fab := rfl
@[simp] theorem newUid_prick (s : State) : (s.newUid).2.prick = s.prick := rfl
@[simp] theorem newUid_cores (s : State) : (s.newUid).2.cores = s.cores := rfl
@[simp] theorem newUid_host (s : State) : (s.newUid).2.host = s.host := rfl
@[simp] theorem newUid_boot (s : State) : (s.newUid).2.boot = s.boot := rfl

@[simp] theorem pick_clk (s : State) (n : Nat): (s.pick n).2.clk = s.clk := rfl
@[simp] theorem pick_mm (s : State) (n : Nat): (s.pick n).2.mm = s.mm := rfl
@[simp] theorem pick_fab (s : State) (n : Nat): (s.pick n).2.fab = s.fab := rfl
@[simp] theorem pick_prick (s : State) (n : Nat): (s.pick n).2.prick = s.prick := rfl
@[simp] theorem pick_cores (s : State) (n : Nat): (s.pick n).2.cores = s.cores := rfl
@[simp] theorem pick_host (s : State) (n : Nat): (s.pick n).2.host = s.host := rfl
@[simp] theorem pick_boot (s : State) (n : Nat): (s.pick n).2.boot = s.boot := rfl

/-! ### Fields that an update writes -/

@[simp] theorem setSt_fab_stations (s : State) (l : Loc) (v : Station) : (s.setSt l v).fab.stations = Map.put s.fab.stations (locKey l) v := rfl
@[simp] theorem setSt_fab_quads (s : State) (l : Loc) (v : Station) : (s.setSt l v).fab.quads = s.fab.quads := rfl
@[simp] theorem setSt_fab_cols (s : State) (l : Loc) (v : Station) : (s.setSt l v).fab.cols = s.fab.cols := rfl
@[simp] theorem setSt_fab_tokens (s : State) (l : Loc) (v : Station) : (s.setSt l v).fab.tokens = s.fab.tokens := rfl
@[simp] theorem setSt_fab_charges (s : State) (l : Loc) (v : Station) : (s.setSt l v).fab.charges = s.fab.charges := rfl
@[simp] theorem modMm_mm (s : State) (f : MemSide → MemSide) : (s.modMm f).mm = f s.mm := rfl
@[simp] theorem modFab_fab (s : State) (f : Fabric → Fabric) : (s.modFab f).fab = f s.fab := rfl
@[simp] theorem modHost_host (s : State) (f : HostSide → HostSide) : (s.modHost f).host = f s.host := rfl

/-! ### Stations -/

theorem locKey_inj {a b : Loc} (h : locKey a = locKey b) : a = b := by
  obtain ⟨⟨d, hd⟩, ⟨x, hx⟩, ⟨y, hy⟩⟩ := a
  obtain ⟨⟨e, he⟩, ⟨u, hu⟩, ⟨v, hv⟩⟩ := b
  simp only [locKey] at h
  simp only [Loc.mk.injEq, Fin.mk.injEq]
  omega

theorem st_of_fab {s t : State} (h : s.fab.stations = t.fab.stations) (l : Loc) : s.st l = t.st l := by
  simp only [State.st, h]

@[simp] theorem st_setSt_same (s : State) (l : Loc) (v : Station) : (s.setSt l v).st l = v := by
  simp [State.st, State.setSt]

theorem st_setSt_other (s : State) {l m : Loc} (v : Station) (h : m ≠ l) : (s.setSt l v).st m = s.st m := by
  simp only [State.st, State.setSt]
  rw [Map.find_put_other _ _ (fun e => h (locKey_inj e))]

@[simp] theorem st_modSt_same (s : State) (l : Loc) (f : Station → Station) : (s.modSt l f).st l = f (s.st l) := by
  simp [State.modSt]

theorem st_modSt_other (s : State) {l m : Loc} (f : Station → Station) (h : m ≠ l) : (s.modSt l f).st m = s.st m := by
  simp [State.modSt, st_setSt_other s _ h]

@[simp] theorem fir_modFir (s : State) (f : Firing → Firing) : (s.modFir f).fir = f s.fir := by
  simp [State.fir, State.modFir]

theorem st_modFir_other (s : State) {m : Loc} (f : Firing → Firing) (h : m ≠ s.sched.curSt) :
    (s.modFir f).st m = s.st m := st_modSt_other s _ h

@[simp] theorem st_modFir_same (s : State) (f : Firing → Firing) :
    (s.modFir f).st s.sched.curSt = { s.st s.sched.curSt with firing := f s.fir } := by
  simp [State.modFir, State.fir]

@[simp] theorem fir_modCx (s : State) (f : Ctx → Ctx) : (s.modCx f).fir = s.fir := by
  simp [State.fir, State.modCx, Station.modCtx]

@[simp] theorem st_charge (s : State) (vf col : Nat) (w : Work) (n : Nat) (l : Loc) :
    (s.charge vf col w n).st l = s.st l := by
  unfold State.charge
  split <;> rfl

@[simp] theorem fir_chargeCtx (s : State) (l : Loc) (c : Nat) (w : Work) (n : Nat) : (s.chargeCtx l c w n).fir = s.fir := by
  by_cases h : s.sched.curSt = l
  · subst h
    simp [State.fir, State.chargeCtx, Station.modCtx]
  · simp [State.fir, State.chargeCtx, st_modSt_other _ _ h]

@[simp] theorem fir_eat (s : State) (l : List Sel) : (s.eat l).fir = s.fir := by
  unfold State.eat
  split
  · simp
  · rfl

@[simp] theorem fir_wr (s : State) (d : Fin 8) (v : Double) : (s.wr d v).fir = { s.fir with t := s.fir.t.set d v } := by
  simp [State.wr]

@[simp] theorem fir_adv (s : State) : s.adv.fir = { s.fir with pos := s.fir.pos + 1 } := by
  simp [State.adv]

@[simp] theorem fir_result (s : State) (d : Fin 8) (l : List Sel) (v : Double) :
    (s.result d l v).fir = { s.fir with t := s.fir.t.set d v, pos := s.fir.pos + 1 } := by
  simp [State.result]

/-! ### Control cores -/

@[simp] theorem core_modCore_same (s : State) (c : Fin 4) (f : Core → Core) : (s.modCore c f).core c = f (s.core c) := by
  simp [State.core, State.modCore]

theorem core_modCore_other (s : State) {c e : Fin 4} (f : Core → Core) (h : e ≠ c) : (s.modCore c f).core e = s.core e := by
  have hv : c.val ≠ e.val := fun k => h (Fin.ext k.symm)
  simp [State.core, State.modCore, hv]

@[simp] theorem cc_modCc (s : State) (f : Core → Core) : (s.modCc f).cc = f s.cc := by
  simp [State.cc, State.modCc]

theorem core_modCc_other (s : State) {e : Fin 4} (f : Core → Core) (h : e ≠ s.sched.curCore) :
    (s.modCc f).core e = s.core e := core_modCore_other s f h

@[simp] theorem reg_zero (k : Core) : k.reg 0 = 0 := by simp [Core.reg]

@[simp] theorem reg_setReg_same (k : Core) (r : Fin 32) (v : Double) (h : r ≠ 0) : (k.setReg r v).reg r = v := by
  simp [Core.reg, Core.setReg, h]

theorem reg_setReg_other (k : Core) {r q : Fin 32} (v : Double) (h : q ≠ r) : (k.setReg r v).reg q = k.reg q := by
  have hv : r.val ≠ q.val := fun e => h (Fin.ext e.symm)
  unfold Core.reg Core.setReg
  by_cases hr : r = 0
  · simp [hr]
  · by_cases hq : q = 0
    · simp [hq]
    · simp [hr, hq, hv]

@[simp] theorem setReg_zero (k : Core) (v : Double) : k.setReg 0 v = k := by simp [Core.setReg]

@[simp] theorem cc_cnext (s : State) : s.cnext.cc = { s.cc with pc := s.cc.pc + 4 } := by simp [State.cnext]

@[simp] theorem cc_put (s : State) (d : Fin 32) (v : Double) :
    (s.put d v).cc = { s.cc.setReg d v with pc := s.cc.pc + 4 } := by
  unfold State.put Core.setReg
  by_cases h : d = 0 <;> simp [h, State.cnext]

@[simp] theorem cc_coreTrap (s : State) (c : Cause) (i : Nat) (v : Double) : (s.coreTrap c i v).cc = s.cc.trap c i v := by
  simp [State.coreTrap]

/-! ### Functions, queue interfaces, quads, columns, engines -/

@[simp] theorem vf_modVf_same (s : State) (v : Nat) (f : Vf → Vf) : (s.modVf v f).vf v = f (s.vf v) := by
  simp [State.vf, State.modVf]

theorem vf_modVf_other (s : State) {v w : Nat} (f : Vf → Vf) (h : w ≠ v) : (s.modVf v f).vf w = s.vf w := by
  simp [State.vf, State.modVf, Map.find_put_other _ _ h]

@[simp] theorem qi_modQi_same (s : State) (q : Nat) (f : Qi → Qi) : (s.modQi q f).qi q = f (s.qi q) := by
  simp [State.qi, State.modQi]

theorem qi_modQi_other (s : State) {q r : Nat} (f : Qi → Qi) (h : r ≠ q) : (s.modQi q f).qi r = s.qi r := by
  simp [State.qi, State.modQi, Map.find_put_other _ _ h]

@[simp] theorem quad_modQuad_same (s : State) (k : Nat) (f : Quad → Quad) : (s.modQuad k f).quad k = f (s.quad k) := by
  simp [State.quad, State.modQuad]

theorem quad_modQuad_other (s : State) {k j : Nat} (f : Quad → Quad) (h : j ≠ k) : (s.modQuad k f).quad j = s.quad j := by
  simp [State.quad, State.modQuad, Map.find_put_other _ _ h]

@[simp] theorem col_modCol_same (s : State) {k : Nat} (f : Column → Column) (h : k < 32) :
    (s.modCol k f).col k = f (s.col k) := by
  simp [State.col, State.modCol, h]

theorem col_modCol_other (s : State) {k j : Nat} (f : Column → Column) (h : j ≠ k) : (s.modCol k f).col j = s.col j := by
  simp only [State.col, State.modCol]
  exact vget_vset_other _ _ _ h

@[simp] theorem eng_modEng_same (s : State) (d : Fin 2) (f : DieEng → DieEng) : (s.modEng d f).eng d = f (s.eng d) := by
  simp [State.eng, State.modEng, d.isLt]

theorem eng_modEng_other (s : State) {d e : Fin 2} (f : DieEng → DieEng) (h : e ≠ d) : (s.modEng d f).eng e = s.eng e := by
  simp only [State.eng, State.modEng]
  exact vget_vset_other _ _ _ (fun k => h (Fin.ext k))

/-! ### Records in lists -/

theorem find_modFirst {α : Type} (p : α → Bool) (f : α → α) (l : List α) (h : ∀ x, p x = true → p (f x) = true) :
    (modFirst p f l).find? p = (l.find? p).map f := by
  induction l with
  | nil => rfl
  | cons x l ih =>
    by_cases hx : p x = true
    · simp [modFirst, hx, h x hx]
    · simp [modFirst, hx, ih]

theorem find_modFirst_other {α : Type} (p q : α → Bool) (f : α → α) (l : List α) (h : ∀ x, p x = true → q x = false)
    (hf : ∀ x, p x = true → q (f x) = false) : (modFirst p f l).find? q = l.find? q := by
  induction l with
  | nil => rfl
  | cons x l ih =>
    by_cases hx : p x = true
    · simp [modFirst, hx, h x hx, hf x hx]
    · simp only [modFirst, hx, Bool.false_eq_true, if_false, List.find?_cons, ih]

theorem inst_modInst (s : State) (id : Nat) (f : Inst → Inst) (h : ∀ i, (f i).id = i.id) :
    (s.modInst id f).inst? id = (s.inst? id).map f := by
  simp only [State.inst?, State.modInst]
  exact find_modFirst _ _ _ (by simp [h])

theorem root_modRoot (s : State) (k : Nat) (f : Root → Root) (h : ∀ r, (f r).handle = r.handle) :
    (s.modRoot k f).root? k = (s.root? k).map f := by
  simp only [State.root?, State.modRoot]
  exact find_modFirst _ _ _ (by simp [h])


end Sys2Proof.Machine
end

