-- ==== Sys2Proof/Laws/Operands.lean ====
section
/-!
SUPPORT. Everything that the operations of one instruction do: consuming queue entries, writing a temporary, advancing with its
charge, and the core's put.
-/

namespace Sys2Proof.Machine

/-! ### Context slots -/

theorem ctx_modCtx (v : Station) (c : Nat) (f : Ctx → Ctx) (e : Nat) :
    (v.modCtx c f).ctx e = if e = c ∧ c < 8 then f (v.ctx c) else v.ctx e := by
  unfold Station.modCtx Station.ctx
  split
  · rename_i h
    obtain ⟨rfl, h⟩ := h
    exact vget_vset_same _ _ _ h
  · rename_i h
    by_cases he : e = c
    · subst he
      have h8 : ¬ e < 8 := fun k => h ⟨rfl, k⟩
      simp [vget, h8]
    · exact vget_vset_other _ _ _ he

/-- The slot of the firing after a change of it; a firing of no slot sees an empty one. -/
theorem cx_modCx (s : State) (f : Ctx → Ctx) : (s.modCx f).cx = if s.fir.ctx < 8 then f s.cx else s.cx := by
  have hf : (s.modCx f).fir = s.fir := fir_modCx s f
  unfold State.cx
  rw [hf]
  simp only [State.modCx, modSt_sched, st_modSt_same]
  rw [show (s.st s.sched.curSt).firing.ctx = s.fir.ctx from rfl, ctx_modCtx]
  simp only [true_and]

/-- A slot number beyond the eight of a station names no slot. -/
theorem cx_of_not_lt (s : State) (h : ¬ s.fir.ctx < 8) : s.cx = {} := by
  simp [State.cx, Station.ctx, vget, h]

/-- Frames compose, as long as the firing keeps its slot. -/
theorem onlyFiring_trans {s t u : State} (hc : t.sched = s.sched) (hf : t.fir.ctx = s.fir.ctx) (h : OnlyFiring s t)
    (k : OnlyFiring t u) : OnlyFiring s u := by
  rw [OnlyFiring, hc, hf] at k
  obtain ⟨stations, here, slots, bytes⟩ := h
  refine ⟨fun m away => (k.1 m away).trans (stations m away), ?_, fun c away => ?_, fun a => ?_⟩
  · rw [k.2.1, here]
  · rw [← slots c away]
    exact k.2.2.1 c away
  · rw [← bytes a]
    exact k.2.2.2 a

theorem onlyFabric_trans {s t u : State} (h : OnlyFabric s t) (k : OnlyFabric t u) : OnlyFabric s u := by
  unfold OnlyFabric at h k ⊢
  simp_all

theorem sameNetworks_trans {s t u : State} (h : SameNetworks s t) (k : SameNetworks t u) : SameNetworks s u := by
  unfold SameNetworks at *
  rw [k, h]

/-- Two states agree on all but the slot of the firing in progress and the charged work. -/
structure SlotOnly (s t : State) : Prop where
  schedule : t.sched = s.sched
  firing : t.fir = s.fir
  networks : SameNetworks s t
  fabric : OnlyFabric s t
  station : OnlyFiring s t

theorem slotOnly_refl (s : State) : SlotOnly s s := by
  exact ⟨rfl, rfl, rfl, by simp [OnlyFabric], by simp [OnlyFiring, State.fir]⟩

theorem slotOnly_modCx (s : State) (f : Ctx → Ctx) : SlotOnly s (s.modCx f) := by
  refine ⟨by simp, by simp, rfl, by simp [OnlyFabric, State.core, State.modCx, State.modSt, State.setSt], ?_⟩
  refine ⟨fun m h => st_modSt_other s _ h, ?_, ?_, ?_⟩
  · simp only [State.modCx, st_modSt_same, State.fir, Station.modCtx, modSt_sched]
  · intro c h
    simp only [State.modCx, st_modSt_same]
    rw [ctx_modCtx]
    have : ¬ (c = (s.st s.sched.curSt).firing.ctx ∧ (s.st s.sched.curSt).firing.ctx < 8) := fun k => h k.1
    simp [this]
  · intro a
    simp [State.modCx, Station.modCtx]

theorem slotOnly_trans {s t u : State} (h : SlotOnly s t) (k : SlotOnly t u) : SlotOnly s u where
  schedule := k.schedule.trans h.schedule
  firing := k.firing.trans h.firing
  networks := sameNetworks_trans h.networks k.networks
  fabric := onlyFabric_trans h.fabric k.fabric
  station := onlyFiring_trans h.schedule (congrArg Firing.ctx h.firing) h.station k.station

theorem slotOnly_charge (s : State) (vf col : Nat) (w : Work) (n : Nat) : SlotOnly s (s.charge vf col w n) := by
  unfold State.charge
  split
  · exact slotOnly_refl s
  · exact ⟨rfl, rfl, rfl, by simp [OnlyFabric, State.core, State.modFab], fun _ _ => rfl, rfl, by simp [State.modFab, State.st]⟩

/-! ### Charging the slot of the firing -/

theorem chargeCtx_eq (s : State) (w : Work) (n : Nat) :
    ∃ vf, s.chargeCtx s.sched.curSt s.fir.ctx w n =
      (s.charge vf (colOf s.sched.curSt) w n).modCx (fun x => { x with site := siteAdd x.site w n }) := by
  refine ⟨match s.inst? ((s.st s.sched.curSt).ctx s.fir.ctx).inst with | some r => r.vf | none => 128, ?_⟩
  have h : ∀ u : State, u.st s.sched.curSt = s.st s.sched.curSt → u.sched = s.sched →
      u.modSt s.sched.curSt (fun v => v.modCtx s.fir.ctx (fun x => { x with site := siteAdd x.site w n })) =
        u.modCx (fun x => { x with site := siteAdd x.site w n }) := by
    intro u h1 h2
    unfold State.modCx State.modSt
    rw [h2, h1]
    rfl
  exact h _ (st_charge s _ _ _ _ _) (charge_sched s _ _ _ _)

theorem slotOnly_chargeCtx (s : State) (w : Work) (n : Nat) : SlotOnly s (s.chargeCtx s.sched.curSt s.fir.ctx w n) := by
  obtain ⟨vf, h⟩ := chargeCtx_eq s w n
  rw [h]
  exact slotOnly_trans (slotOnly_charge s _ _ _ _) (slotOnly_modCx _ _)

@[simp] theorem cx_charge (s : State) (vf col : Nat) (w : Work) (n : Nat) : (s.charge vf col w n).cx = s.cx := by
  have h := (slotOnly_charge s vf col w n).firing
  simp only [State.cx, h, st_charge, charge_sched]

/-- Charging the slot changes its meter site only. -/
theorem cx_chargeCtx (s : State) (w : Work) (n : Nat) :
    (s.chargeCtx s.sched.curSt s.fir.ctx w n).cx = { s.cx with site := (s.chargeCtx s.sched.curSt s.fir.ctx w n).cx.site } := by
  obtain ⟨vf, h⟩ := chargeCtx_eq s w n
  rw [h, cx_modCx]
  split <;> simp

/-! ### Consuming queue entries -/

theorem slotOnly_eat (s : State) (l : List Sel) : SlotOnly s (s.eat l) := by
  unfold State.eat
  split
  · exact slotOnly_modCx s _
  · exact slotOnly_refl s

/-- What the slot of the firing holds after its source fields have been read. -/
theorem cx_eat (s : State) (l : List Sel) :
    (s.eat l).cx = { s.cx with
      q0 := if .q 0 ∈ l then s.cx.q0.eraseIdx (s.queueAt 0) else s.cx.q0
      q1 := if .q 1 ∈ l then s.cx.q1.eraseIdx (s.queueAt 1) else s.cx.q1 } := by
  unfold State.eat
  split
  · rw [cx_modCx]
    split
    · simp
    · rename_i h
      rw [cx_of_not_lt s h]
      simp
  · rename_i h
    have h0 : Sel.q 0 ∉ l := fun m => h (List.any_eq_true.2 ⟨_, m, by simp [Sel.isQ]⟩)
    have h1 : Sel.q 1 ∉ l := fun m => h (List.any_eq_true.2 ⟨_, m, by simp [Sel.isQ]⟩)
    simp [h0, h1]

/-! ### Changes of the firing -/

@[simp] theorem cx_modFir (s : State) (f : Firing → Firing) (h : (f s.fir).ctx = s.fir.ctx) : (s.modFir f).cx = s.cx := by
  unfold State.cx
  rw [fir_modFir, h]
  simp [Station.ctx]

/-- Everything that a change of the firing leaves. -/
theorem modFir_leaves (s : State) (f : Firing → Firing) :
    (s.modFir f).fir = f s.fir ∧ SameNetworks s (s.modFir f) ∧ OnlyFabric s (s.modFir f) ∧ OnlyFiring s (s.modFir f) ∧
      (s.modFir f).sched = s.sched := by
  refine ⟨by simp, rfl, by simp [OnlyFabric, State.core, State.modFir, State.modSt, State.setSt], ?_, rfl⟩
  refine ⟨fun m h => st_modFir_other s f h, ?_, ?_, ?_⟩
  · simp
  · intro c _
    simp [Station.ctx]
  · intro a
    simp

/-- Everything that advancing does: the position moves on, and the slot and the microsecond's list are charged. -/
theorem adv_leaves (s : State) :
    s.adv.fir = { s.fir with pos := s.fir.pos + 1 } ∧ s.adv.cx = { s.cx with site := s.adv.cx.site } ∧
      SameNetworks s s.adv ∧ OnlyFabric s s.adv ∧ OnlyFiring s s.adv ∧ s.adv.sched = s.sched := by
  obtain ⟨m1, m2, m3, m4, m5⟩ := modFir_leaves s (fun f => { f with pos := f.pos + 1 })
  have hc : (s.modFir (fun f => { f with pos := f.pos + 1 })).fir.ctx = s.fir.ctx := by rw [m1]
  have he : s.adv = (s.modFir (fun f => { f with pos := f.pos + 1 })).chargeCtx
      (s.modFir (fun f => { f with pos := f.pos + 1 })).sched.curSt
      (s.modFir (fun f => { f with pos := f.pos + 1 })).fir.ctx .scalar 1 := by
    rw [hc]
    rfl
  have ho := slotOnly_chargeCtx (s.modFir (fun f => { f with pos := f.pos + 1 })) .scalar 1
  have hx := cx_chargeCtx (s.modFir (fun f => { f with pos := f.pos + 1 })) .scalar 1
  rw [← he] at ho hx
  obtain ⟨a1, a2, a3, a4, a5⟩ := ho
  refine ⟨a2.trans m1, ?_, sameNetworks_trans m2 a3, onlyFabric_trans m3 a4, onlyFiring_trans m5 hc m4 a5, a1.trans m5⟩
  rw [cx_modFir s (fun f => { f with pos := f.pos + 1 }) rfl] at hx
  exact hx

/-- Everything that an instruction that computes one value does. -/
theorem result_writesTemp (s : State) (d : Fin 8) (l : List Sel) (v : Double) : WritesTemp s (s.result d l v) d l v := by
  obtain ⟨a1, a2, a3, a4, a5⟩ := slotOnly_eat s l
  have ae := cx_eat s l
  obtain ⟨m1, m2, m3, m4, m5⟩ := modFir_leaves (s.eat l) (fun f => { f with t := f.t.set d v })
  obtain ⟨v1, v2, v3, v4, v5, v6⟩ := adv_leaves ((s.eat l).wr d v)
  have hw : (s.eat l).wr d v = (s.eat l).modFir (fun f => { f with t := f.t.set d v }) := rfl
  have hc : ((s.eat l).wr d v).fir.ctx = s.fir.ctx := by rw [hw, m1, a2]
  refine ⟨by rw [fir_result], ?_, ?_, ?_, ?_, ?_⟩
  · unfold Consumed State.result
    rw [v2, hw, cx_modFir (s.eat l) (fun f => { f with t := f.t.set d v }) rfl, ae]
  · refine onlyFiring_trans (m5.trans a1) hc (onlyFiring_trans a1 (by rw [a2]) a5 m4) v5
  · exact sameNetworks_trans (sameNetworks_trans a3 m2) v3
  · exact onlyFabric_trans (onlyFabric_trans a4 m3) v4
  · exact v6.trans (m5.trans a1)

/-! ### Control cores -/

theorem onlyCore_modCc (s : State) (f : Core → Core) : OnlyCore s (s.modCc f) :=
  by simp +contextual [OnlyCore, core_modCc_other s f]

theorem onlyCore_trans {s t u : State} (h : OnlyCore s t) (k : OnlyCore t u) : OnlyCore s u := by
  unfold OnlyCore at h k ⊢
  simp_all

/-- Everything that put does. -/
theorem put_writesReg (s : State) (d : Fin 32) (v : Double) : WritesReg s (s.put d v) d v := by
  refine ⟨?_, ?_, ?_, onlyCore_trans (onlyCore_modCc s _) (onlyCore_modCc _ _)⟩
  · unfold State.g
    rw [cc_put]
    by_cases h : d = 0
    · subst h
      simp
    · simp only [h, if_false]
      exact reg_setReg_same s.cc d v h
  · intro r h
    unfold State.g
    rw [cc_put]
    exact reg_setReg_other s.cc v h
  · rw [cc_put]
    unfold Core.setReg
    split <;> rfl

/-- Everything that a trap does. -/
theorem coreTrap_traps (s : State) (c : Cause) (info : Nat) (val : Double) : Traps s (s.coreTrap c info val) c info val :=
  ⟨by rw [cc_coreTrap]; rfl, onlyCore_modCc s _⟩

end Sys2Proof.Machine
end

