-- ==== Sys2Proof/Laws/Aside.lean ====
section
/-!
SUPPORT. What reading through the caches, translating, writing by an engine and reporting to rings leave as it was: one lemma for
each operation.
-/

namespace Sys2Proof.Machine

/-! ### The two relations -/

/-- A state with the caches, the charged work and the free choices of another. -/
def State.cachesFrom (s x : State) : State :=
  { s with
    sched := { s.sched with fresh := x.sched.fresh }
    mm := { s.mm with l2 := x.mm.l2, rdc := x.mm.rdc, tlb1 := x.mm.tlb1, tlb2 := x.mm.tlb2 }
    fab := { s.fab with charges := x.fab.charges } }

/-- Only caches, charged work and the free choices differ: what reading and translating may change. -/
def CacheOnly (s t : State) : Prop := t = s.cachesFrom t

/-- Only the memory side, the host side, pending events of control cores, charged work, names and free choices differ: what an
engine's write, a page request or a report may change. -/
structure Aside (s t : State) : Prop where
  clocks : t.clk = s.clk
  engines : t.prick = s.prick
  bringUp : t.boot = s.boot
  fabric : t.fab = { s.fab with charges := t.fab.charges }
  schedule : t.sched = { s.sched with uid := t.sched.uid, fresh := t.sched.fresh }
  cores : ∀ c, t.core c = { s.core c with events := (t.core c).events }

theorem cacheOnly_refl (s : State) : CacheOnly s s := rfl

theorem cacheOnly_trans {s t u : State} (h : CacheOnly s t) (k : CacheOnly t u) : CacheOnly s u := by
  have both : (s.cachesFrom t).cachesFrom u = s.cachesFrom u := rfl
  rw [← show t = s.cachesFrom t from h] at both
  exact Eq.trans k both

/-- Whatever is read of the second state. -/
theorem cacheOnly_read {α : Type} {s t : State} (h : CacheOnly s t) (f : State → α) : f t = f (s.cachesFrom t) := congrArg f h

theorem aside_refl (s : State) : Aside s s where
  clocks := rfl
  engines := rfl
  bringUp := rfl
  fabric := rfl
  schedule := rfl
  cores _ := rfl

theorem aside_trans {s t u : State} (h : Aside s t) (k : Aside t u) : Aside s u where
  clocks := k.clocks.trans h.clocks
  engines := k.engines.trans h.engines
  bringUp := k.bringUp.trans h.bringUp
  fabric := by rw [k.fabric, h.fabric]
  schedule := by rw [k.schedule, h.schedule]
  cores c := by rw [k.cores c, h.cores c]

/-- The cores are those of the first state, events and all. -/
theorem cacheOnly_core {s t : State} (h : CacheOnly s t) (c : Fin 4) : t.core c = s.core c := cacheOnly_read h (State.core · c)

theorem cacheOnly_aside {s t : State} (h : CacheOnly s t) : Aside s t where
  clocks := cacheOnly_read h State.clk
  engines := cacheOnly_read h State.prick
  bringUp := cacheOnly_read h State.boot
  fabric := cacheOnly_read h State.fab
  schedule := by rw [cacheOnly_read h State.sched]; rfl
  cores c := by rw [cacheOnly_core h c]

/-! ### Primitive updates -/

theorem cacheOnly_charge (s : State) (vf col : Nat) (w : Work) (n : Nat) : CacheOnly s (s.charge vf col w n) := by
  unfold State.charge
  split
  · exact cacheOnly_refl s
  · exact rfl

theorem cacheOnly_pick (s : State) (n : Nat) : CacheOnly s (s.pick n).2 := rfl

theorem aside_charge (s : State) (vf col : Nat) (w : Work) (n : Nat) : Aside s (s.charge vf col w n) :=
  cacheOnly_aside (cacheOnly_charge s vf col w n)

theorem aside_pick (s : State) (n : Nat) : Aside s (s.pick n).2 := cacheOnly_aside (cacheOnly_pick s n)

theorem aside_newUid (s : State) : Aside s s.newUid.2 := ⟨rfl, rfl, rfl, rfl, rfl, fun _ => rfl⟩

theorem aside_modMm (s : State) (f : MemSide → MemSide) : Aside s (s.modMm f) := ⟨rfl, rfl, rfl, rfl, rfl, fun _ => rfl⟩

theorem aside_modHost (s : State) (f : HostSide → HostSide) : Aside s (s.modHost f) :=
  ⟨rfl, rfl, rfl, rfl, rfl, fun _ => rfl⟩

theorem aside_modVf (s : State) (v : Nat) (f : Vf → Vf) : Aside s (s.modVf v f) := ⟨rfl, rfl, rfl, rfl, rfl, fun _ => rfl⟩

theorem aside_modQi (s : State) (q : Nat) (f : Qi → Qi) : Aside s (s.modQi q f) := ⟨rfl, rfl, rfl, rfl, rfl, fun _ => rfl⟩

theorem aside_setEvent (s : State) (c : Fin 4) (b : Nat) : Aside s (s.setEvent c b) := by
  refine ⟨rfl, rfl, rfl, rfl, rfl, ?_⟩
  intro e
  by_cases h : e = c
  · subst h
    simp [State.setEvent]
  · simp [State.setEvent, core_modCore_other s _ h]

/-! ### Caches (R41, R43) -/

theorem cacheOnly_displaceL2 (s : State) (line : Nat) : CacheOnly s (s.displaceL2 line) := by
  unfold State.displaceL2
  split
  · exact cacheOnly_refl s
  · rename_i x _
    have h : CacheOnly s (s.modMm (fun m =>
        { m with l2 := m.l2.filter (fun l => !(decide (l.addr = x.addr ∧ l.vf = x.vf))) })) :=
      rfl
    dsimp only
    split
    · exact cacheOnly_trans h (cacheOnly_charge _ _ _ _ _)
    · exact h

theorem cacheOnly_fillL2 (s : State) (line vf : Nat) : CacheOnly s (s.fillL2 line vf) := by
  unfold State.fillL2
  split
  · exact rfl
  · have h : CacheOnly s (s.modMm (fun m => { m with l2 := ⟨line, vf, false, 0, 0⟩ :: m.l2 })) :=
      rfl
    refine cacheOnly_trans ?_ (cacheOnly_displaceL2 _ _)
    split <;> exact cacheOnly_trans h (cacheOnly_charge _ _ _ _ _)

theorem cacheOnly_fillRdc (s : State) (die line vf : Nat) : CacheOnly s (s.fillRdc die line vf) := by
  unfold State.fillRdc
  dsimp only
  split <;> exact rfl

theorem cacheOnly_foldl {α β : Type} (g : β → State) (f : β → α → β) (l : List α) (b : β) (s : State)
    (h : CacheOnly s (g b)) (hf : ∀ b a, CacheOnly (g b) (g (f b a))) : CacheOnly s (g (l.foldl f b)) := by
  induction l generalizing b with
  | nil => exact h
  | cons a l ih => exact ih (f b a) (cacheOnly_trans h (hf b a))

theorem cacheOnly_serveRead (s : State) (die : Fin 2) (vf pa n : Nat) : CacheOnly s (s.serveRead die vf pa n).2 := by
  unfold State.serveRead
  dsimp only
  refine cacheOnly_foldl (fun b : Nat × Nat × State => b.2.2) _ _ _ s (cacheOnly_refl s) ?_
  intro b p
  dsimp only
  split
  · exact cacheOnly_fillL2 _ _ _
  · split
    · exact cacheOnly_refl _
    · exact cacheOnly_trans (cacheOnly_fillL2 _ _ _) (cacheOnly_fillRdc _ _ _ _)

theorem cacheOnly_homeRead (s : State) (vf pa n : Nat) : CacheOnly s (s.homeRead vf pa n).2 := by
  unfold State.homeRead
  dsimp only
  exact cacheOnly_foldl (fun b : State => b) _ _ _ s (cacheOnly_refl s) (fun b p => cacheOnly_fillL2 b _ _)

/-- A read at the home gives the bytes of memory. -/
theorem homeRead_value (s : State) (vf pa n : Nat) : (s.homeRead vf pa n).1 = Mem.read s.mm.mem pa n := by
  have h := cacheOnly_homeRead s vf pa n
  unfold State.homeRead at h ⊢
  dsimp only at h ⊢
  rw [cacheOnly_read h (·.mm.mem)]
  rfl

/-! ### Translation (R231 to R239) -/

theorem cacheOnly_pickOf {α : Type} (s : State) (n : Nat) (l : List α) : CacheOnly s (s.pickOf n l).2 := by
  unfold State.pickOf
  split <;> exact rfl

theorem cacheOnly_addTlb2 (s : State) (e : Tlb2) : CacheOnly s (s.addTlb2 e) :=
  cacheOnly_trans (cacheOnly_pickOf s _ _) rfl

theorem cacheOnly_addTlb1 (s : State) (e : Tlb1) : CacheOnly s (s.addTlb1 e) :=
  cacheOnly_trans (cacheOnly_pickOf s _ _) rfl

theorem cacheOnly_walkStep (s : State) (r : TReq) (w : Walk) : CacheOnly s (s.walkStep r w).2 := by
  unfold State.walkStep
  by_cases hp : s.poisoned w.reads 8 = true
  · rw [if_pos hp]
    exact cacheOnly_refl s
  rw [if_neg hp]
  split
  · dsimp only
    split
    · exact cacheOnly_refl s
    · split
      · exact cacheOnly_refl s
      · split
        · exact cacheOnly_refl s
        · split
          · exact cacheOnly_addTlb2 _ _
          · split
            · exact cacheOnly_trans (cacheOnly_addTlb2 _ _) (cacheOnly_addTlb1 _ _)
            · exact cacheOnly_addTlb2 _ _
  · split
    · exact cacheOnly_refl s
    · dsimp only
      split
      · exact cacheOnly_homeRead _ _ _ _
      · split
        · exact cacheOnly_homeRead _ _ _ _
        · split
          · exact cacheOnly_homeRead _ _ _ _
          · split
            · exact cacheOnly_trans (cacheOnly_homeRead _ _ _ _) (cacheOnly_addTlb1 _ _)
            · exact cacheOnly_homeRead _ _ _ _

theorem cacheOnly_walkAll (s : State) (r : TReq) (n : Nat) (o : TOut) : CacheOnly s (s.walkAll r n o).2 := by
  induction n generalizing s o with
  | zero => exact cacheOnly_refl s
  | succ n ih =>
    cases o with
    | more w =>
      unfold State.walkAll
      split
      · exact cacheOnly_refl s
      · exact cacheOnly_trans (cacheOnly_walkStep s r w) (ih _ _)
    | done p q => exact cacheOnly_refl s
    | fault c a => exact cacheOnly_refl s
    | miss i a => exact cacheOnly_refl s
    | poison p => exact cacheOnly_refl s

theorem cacheOnly_translate (s : State) (r : TReq) : CacheOnly s (s.translate r).2 := cacheOnly_walkAll _ _ _ _

/-! ### Writes at the home (R241) -/

theorem aside_foldl {α β : Type} (g : β → State) (f : β → α → β) (l : List α) (b : β) (s : State)
    (h : Aside s (g b)) (hf : ∀ b a, Aside (g b) (g (f b a))) : Aside s (g (l.foldl f b)) := by
  induction l generalizing b with
  | nil => exact h
  | cons a l ih => exact ih (f b a) (aside_trans h (hf b a))

theorem aside_serveWrite (s : State) (vf pa n v : Nat) : Aside s (s.serveWrite vf pa n v) := by
  unfold State.serveWrite
  dsimp only
  refine aside_trans ?_ (aside_modMm _ _)
  refine aside_foldl (fun b : State => b) _ _ _ s (aside_refl s) ?_
  intro b p
  have h : Aside b ((b.fillL2 (p.1 / 128) vf).modMm (·.markDirty (p.1 / 128) vf)) :=
    aside_trans (cacheOnly_aside (cacheOnly_fillL2 _ _ _)) (aside_modMm _ _)
  have h' : Aside b (if isHostMem p.1 then ((b.fillL2 (p.1 / 128) vf).modMm (·.markDirty (p.1 / 128) vf)).charge vf
      (portCol (homeDie p.1).val 0) .simiow 1 else (b.fillL2 (p.1 / 128) vf).modMm (·.markDirty (p.1 / 128) vf)) := by
    split
    · exact aside_trans h (aside_charge _ _ _ _ _)
    · exact h
  split
  · exact aside_trans h' (aside_modMm _ _)
  · exact h'

theorem aside_dropRdc (s : State) (pa n : Nat) : Aside s (s.dropRdc pa n) := by
  unfold State.dropRdc
  exact aside_modMm _ _

theorem aside_feSet (s : State) (vf pa : Nat) (full : Bool) : Aside s (s.feSet vf pa full) := by
  unfold State.feSet
  exact aside_trans (aside_trans (cacheOnly_aside (cacheOnly_fillL2 _ _ _)) (aside_modMm _ _)) (aside_modMm _ _)

theorem aside_engineWrite (s : State) (vf pa n v : Nat) : Aside s (s.engineWrite vf pa n v) := by
  unfold State.engineWrite
  split
  · exact aside_trans (aside_serveWrite _ _ _ _ _) (aside_dropRdc _ _ _)
  · exact aside_refl s

/-! ### Interrupt messages, host rings, page requests (R208, R213, R215) -/

theorem aside_sendIrq (s : State) (d : Fin 2) (h : Nat) (f : Option Nat) : Aside s (s.sendIrq d h f) := by
  unfold State.sendIrq
  dsimp only
  repeat' split
  all_goals first
    | exact aside_modHost _ _
    | exact aside_engineWrite _ _ _ _ _
    | exact aside_refl s

theorem aside_flushHostFaults (s : State) (n : Nat) : Aside s (s.flushHostFaults n) := by
  induction n generalizing s with
  | zero => exact aside_refl s
  | succ n ih =>
    unfold State.flushHostFaults
    split
    · exact aside_refl s
    · dsimp only
      split
      · exact aside_refl s
      · refine aside_trans ?_ (ih _)
        split
        · exact aside_trans (aside_trans (aside_trans (aside_engineWrite _ _ _ _ _) (aside_engineWrite _ _ _ _ _)) (aside_modHost _ _))
            (aside_sendIrq _ _ _ _)
        · exact aside_trans (aside_trans (aside_engineWrite _ _ _ _ _) (aside_engineWrite _ _ _ _ _)) (aside_modHost _ _)

theorem aside_hostFault (s : State) (r : BitVec 512) : Aside s (s.hostFault r) := by
  unfold State.hostFault
  dsimp only
  split
  · exact aside_modHost _ _
  · split
    · exact aside_trans (aside_trans (aside_trans (aside_modHost _ _) (aside_flushHostFaults _ _)) (aside_modHost _ _))
        (aside_modHost _ _)
    · exact aside_trans (aside_modHost _ _) (aside_flushHostFaults _ _)

theorem aside_flushPages (s : State) (n : Nat) : Aside s (s.flushPages n) := by
  induction n generalizing s with
  | zero => exact aside_refl s
  | succ n ih =>
    unfold State.flushPages
    split
    · exact aside_refl s
    · dsimp only
      split
      · exact aside_refl s
      · split
        · exact aside_refl s
        · refine aside_trans ?_ (ih _)
          split
          · exact aside_trans (aside_trans (aside_trans (aside_engineWrite _ _ _ _ _) (aside_engineWrite _ _ _ _ _))
              (aside_modHost _ _)) (aside_sendIrq _ _ _ _)
          · exact aside_trans (aside_trans (aside_engineWrite _ _ _ _ _) (aside_engineWrite _ _ _ _ _)) (aside_modHost _ _)

theorem aside_pageRequest (s : State) (die : Fin 2) (vf va ia : Nat) (w wr : Bool) (p : Option Nat) (f : PageFor) :
    Aside s (s.pageRequest die vf va ia w wr p f).2 := by
  unfold State.pageRequest
  split
  · exact aside_refl s
  · dsimp only
    split
    · exact aside_refl s
    · refine aside_trans (aside_trans ?_ (aside_modMm _ _))
        (aside_trans (aside_modHost _ _) (aside_trans (aside_charge _ _ _ _ _) (aside_flushPages _ _)))
      split
      · exact aside_refl s
      · exact aside_pick s _

/-! ### Accesses of the device's own units -/

/-- The state that an access of a unit leaves. -/
def UOut.after : UOut → State
  | .ok _ t => t
  | .fail _ _ t => t
  | .wait t => t

theorem aside_unitAccess (s : State) (die : Fin 2) (vf va : Nat) (w : Bool) (p : Option Nat) (f : PageFor) :
    Aside s (s.unitAccess die vf va w p f).after := by
  unfold State.unitAccess
  generalize hn : (if w = true then 2 else 1 : Nat) = need
  have h := cacheOnly_aside (cacheOnly_translate s ⟨die, die.val * 32, vf, va, need, s.vfRanges die vf⟩)
  dsimp only
  split
  · split
    · exact h
    · split
      · exact h
      · exact h
  · exact h
  · split
    · split
      · refine aside_trans h ?_
        dsimp only [UOut.after]
        exact aside_modMm _ _
      · exact h
    · exact aside_trans h (aside_pageRequest _ _ _ _ _ _ _ _ _)
  · exact h
  · exact h

theorem aside_unit {s t : State} {die : Fin 2} {vf va : Nat} {w : Bool} {p : Option Nat} {f : PageFor} {o : UOut}
    (h : s.unitAccess die vf va w p f = o) (ht : o.after = t) : Aside s t := by
  subst ht
  rw [← h]
  exact aside_unitAccess _ _ _ _ _ _ _

/-! ### Sampler and fault records (R415 to R418, R431 to R434) -/

theorem aside_sampPut (s : State) (v hdr slot : Nat) (next : Option Nat) (n : Nat) (r : BitVec 256) : Aside s (s.sampPut v hdr slot next n r) := by
  unfold State.sampPut
  dsimp only
  have h := aside_trans (aside_trans (aside_trans (aside_engineWrite s v slot 32 (setBits r 0 24 (s.vf v).sampW).toNat)
    (aside_engineWrite _ v hdr 8 ((s.vf v).sampW + 1))) (aside_modVf _ v (fun f => { f with sampW := f.sampW + 1 })))
    (aside_charge _ v (portCol 0 0) .record 1)
  split
  · exact h
  · split
    · exact aside_trans h (aside_engineWrite _ _ _ _ _)
    · exact aside_trans h (aside_trans (aside_engineWrite _ _ _ _ _) (aside_engineWrite _ _ _ _ _))

theorem aside_flushSamples (s : State) (v n : Nat) : Aside s (s.flushSamples v n) := by
  induction n generalizing s with
  | zero => exact aside_refl s
  | succ n ih =>
    unfold State.flushSamples
    split
    · exact aside_refl s
    · dsimp only
      split
      · exact aside_modVf _ _ _
      split
      · rename_i h
        exact aside_trans (aside_trans (aside_unit h rfl) (aside_modVf _ _ _)) (ih _)
      · rename_i h
        exact aside_unit h rfl
      · rename_i h
        have h1 := aside_unit h rfl
        have put (t : State) (ht : Aside s t) (hdr slot : Nat) (next : Option Nat) (n : Nat) (r : BitVec 256) (f : Vf → Vf) :
            Aside s ((t.modVf v f).sampPut v hdr slot next n r) :=
          aside_trans (aside_trans ht (aside_modVf _ _ _)) (aside_sampPut _ _ _ _ _ _ _)
        split
        · rename_i k
          exact aside_trans (aside_trans (aside_trans h1 (aside_unit k rfl)) (aside_modVf _ _ _)) (ih _)
        · rename_i k
          exact aside_trans h1 (aside_unit k rfl)
        · rename_i k
          have h2 := aside_trans h1 (aside_unit k rfl)
          split
          · exact aside_trans (put _ h2 _ _ _ _ _ _) (ih _)
          split
          · rename_i l
            exact aside_trans (put _ (aside_trans h2 (aside_unit l rfl)) _ _ _ _ _ _) (ih _)
          · rename_i l
            exact aside_trans h2 (aside_unit l rfl)
          · rename_i l
            exact aside_trans (put _ (aside_trans h2 (aside_unit l rfl)) _ _ _ _ _ _) (ih _)

theorem aside_sample (s : State) (v : Nat) (die : Fin 2) (code : Nat) (id : SampId) (value tag : BitVec 64) :
    Aside s (s.sample v die code id value tag) := by
  unfold State.sample
  dsimp only
  split
  · exact aside_refl s
  · split
    · exact aside_refl s
    · exact aside_trans (aside_modVf _ _ _) (aside_flushSamples _ _ _)

theorem aside_loseFaults (s : State) (v n : Nat) : Aside s (s.loseFaults v n) :=
  aside_trans (aside_modVf _ _ _) (aside_setEvent _ _ _)

theorem aside_flushFaults (s : State) (v n : Nat) : Aside s (s.flushFaults v n) := by
  induction n generalizing s with
  | zero => exact aside_refl s
  | succ n ih =>
    unfold State.flushFaults
    split
    · exact aside_refl s
    · dsimp only
      have lose (t : State) (ht : Aside s t) (f : Vf → Vf) (k : Nat) : Aside s ((t.modVf v f).loseFaults v k) :=
        aside_trans (aside_trans ht (aside_modVf _ _ _)) (aside_loseFaults _ _ _)
      split
      · exact lose s (aside_refl s) _ _
      split
      · rename_i h
        exact lose _ (aside_unit h rfl) _ _
      · rename_i h
        exact aside_unit h rfl
      · rename_i h
        have h0 := aside_unit h rfl
        split
        · rename_i g
          exact lose _ (aside_trans h0 (aside_unit g rfl)) _ _
        · rename_i g
          exact aside_trans h0 (aside_unit g rfl)
        · rename_i g
          have h1 := aside_trans h0 (aside_unit g rfl)
          split
          · exact h1
          split
          · rename_i k
            exact lose _ (aside_trans h1 (aside_unit k rfl)) _ _
          · rename_i k
            exact aside_trans h1 (aside_unit k rfl)
          · rename_i k
            have h2 := aside_trans h1 (aside_unit k rfl)
            refine aside_trans ?_ (ih _)
            refine aside_trans (aside_trans ?_ (aside_charge _ _ _ _ _)) (aside_setEvent _ _ _)
            exact aside_trans (aside_trans h2 (aside_trans (aside_engineWrite _ _ _ _ _) (aside_engineWrite _ _ _ _ _)))
              (aside_modVf _ _ _)

theorem aside_partFault (s : State) (v : Nat) (f : FaultInfo) (res : Option FaultFor) : Aside s (s.partFault v f res).2 := by
  unfold State.partFault
  dsimp only
  split
  · exact aside_loseFaults _ _ _
  · have h := aside_trans (aside_modVf s v (fun y => { y with heldFaults := y.heldFaults ++
      [f.pack (s.ns f.die) ((s.vf v).faultW + (s.vf v).heldFaults.length)] })) (aside_flushFaults _ v ((s.vf v).heldFaults.length + 2))
    split
    · exact aside_trans (aside_trans h (aside_modVf _ _ _)) (aside_loseFaults _ _ _)
    · split
      · exact h
      · refine aside_trans ?_ (aside_sample _ _ _ _ _ _ _)
        split
        · exact aside_trans h (aside_modVf _ _ _)
        · exact h

theorem aside_report (s : State) (f : FaultInfo) (toHost : Bool) (res : Option FaultFor) :
    Aside s (s.report f toHost res).2 := by
  unfold State.report
  dsimp only
  have h : Aside s (match f.vf with | some v => s.partFault v f res | none => (none, s)).2 := by
    split
    · exact aside_partFault _ _ _ _
    · exact aside_refl s
  split
  · exact aside_trans h (aside_hostFault _ _)
  · exact h

theorem aside_reportHost (s : State) (f : FaultInfo) : Aside s (s.reportHost f) := aside_hostFault _ _

theorem aside_partitionFault (s : State) (f : FaultInfo) : Aside s (s.partitionFault f) := aside_report _ _ _ _

/-! ### What follows from the relations -/

theorem aside_st {s t : State} (h : Aside s t) (l : Loc) : t.st l = s.st l := by
  have h4 := h.fabric
  simp only [State.st]
  rw [h4]

theorem aside_curSt {s t : State} (h : Aside s t) : t.sched.curSt = s.sched.curSt := by rw [h.schedule]

theorem aside_curCore {s t : State} (h : Aside s t) : t.sched.curCore = s.sched.curCore := by rw [h.schedule]

theorem aside_fir {s t : State} (h : Aside s t) : t.fir = s.fir := by
  simp only [State.fir, aside_curSt h, aside_st h]

theorem aside_cx {s t : State} (h : Aside s t) : t.cx = s.cx := by
  simp only [State.cx, aside_curSt h, aside_st h, aside_fir h]

theorem aside_cc {s t : State} (h : Aside s t) : t.cc = { s.cc with events := t.cc.events } := by
  have h6 := h.cores s.sched.curCore
  simp only [State.cc, aside_curCore h]
  exact h6

theorem cacheOnly_cc {s t : State} (h : CacheOnly s t) : t.cc = s.cc := by
  simp only [State.cc, aside_curCore (cacheOnly_aside h)]
  exact cacheOnly_core h _

theorem cacheOnly_mem {s t : State} (h : CacheOnly s t) : t.mm.mem = s.mm.mem := cacheOnly_read h (·.mm.mem)

end Sys2Proof.Machine
end

