-- ==== Sys2Proof/Laws/Arena.lean ====
section
/-!
SUPPORT. The pages of the spill and save arenas (R132, R404): a page that is taken is one that nothing holds, as many are found as are
asked for, and checking them changes nothing but the memory side and what a page request or a charge changes.
-/

namespace Sys2Proof.Machine

/-- The numbers below l.length + n that are not in a list are at least n. -/
theorem free_numbers (l : List Nat) (n : Nat) : n ≤ ((List.range (l.length + n)).filter (fun k => !l.contains k)).length := by
  have hs : (List.range (l.length + n)).filter (fun k => l.contains k) ⊆ l := fun k hk => by
    simpa using (List.mem_filter.1 hk).2
  have hl := (List.subperm_of_subset (List.nodup_range.filter _) hs).length_le
  have := List.length_eq_length_filter_add (l := List.range (l.length + n)) (fun k => l.contains k)
  rw [List.length_range] at this
  omega

/-- A page of the save arena that is taken belongs to no image. -/
theorem freePages_fresh {s : State} {vf n k : Nat} (h : k ∈ s.freePages vf n) : k ∉ s.imagePages vf := by
  have := (List.mem_filter.1 (List.mem_of_mem_take h)).2
  simpa using this

/-- As many pages as are asked for, no two of them the same. -/
theorem freePages_count (s : State) (vf n : Nat) : (s.freePages vf n).length = n ∧ (s.freePages vf n).Nodup := by
  refine ⟨?_, (List.nodup_range.filter _).sublist (List.take_sublist _ _)⟩
  rw [State.freePages, List.length_take]
  exact Nat.min_eq_left (free_numbers _ _)

/-- The lowest number that is not in a list is not in it. -/
theorem first_not_held (l : List Nat) : ((List.range (l.length + 1)).find? (fun k => !l.contains k)).getD 0 ∉ l := by
  cases hf : (List.range (l.length + 1)).find? (fun k => !l.contains k) with
  | some k => simpa using List.find?_some hf
  | none =>
    have hn := free_numbers l 1
    rw [List.filter_eq_nil_iff.2 (List.find?_eq_none.1 hf)] at hn
    simp at hn

/-- A page of the spill arena that is taken belongs to no instance of its function. -/
theorem freePage_fresh {s : State} {vf : Nat} {i : Inst} (hi : i ∈ s.prick.insts) (hv : i.vf = vf) : s.freePage vf ∉ i.pages :=
  fun hk => first_not_held _ (List.mem_flatten.2 ⟨_, List.mem_map.2 ⟨i, List.mem_filter.2 ⟨hi, by simpa using hv⟩, rfl⟩, hk⟩)

/-- The state that an answer leaves. -/
def Got.after {α : Type} : Got α → State
  | .ok _ t => t
  | .wait t => t
  | .fail _ _ t => t

theorem aside_arenaPage (s : State) (d : Fin 2) (vf va : Nat) : Aside s (s.arenaPage d vf va).after := aside_unitAccess _ _ _ _ _ _ _

theorem aside_arenaPages (l : List Nat) : ∀ (s : State) (d : Fin 2) (vf bytes : Nat), Aside s (s.arenaPages d vf bytes l).after := by
  induction l with
  | nil => intro s d vf bytes; exact aside_refl s
  | cons k rest ih =>
    intro s d vf bytes
    rw [State.arenaPages]
    have h := aside_arenaPage s d vf ((s.vf vf).savebase.toNat + 65536 * k)
    split
    · next hp => rw [hp] at h; exact aside_trans (aside_trans h (aside_modMm _ _)) (ih _ _ _ _)
    · next hp => rw [hp] at h; exact h
    · next hp => rw [hp] at h; exact h

/-- Room for further pages of a save arena: those that nothing holds, within SAVELEN; else a wait or SAVE_ARENA_FULL, and no more than
the memory side, requests and charges change. -/
theorem saveRoom_ok {s t : State} {d : Fin 2} {vf n : Nat} {l : List Nat} (h : s.saveRoom d vf n = .ok l t) :
    l = s.freePages vf n ∧ s.saveFits vf n = true ∧ Aside s t := by
  unfold State.saveRoom at h
  split at h
  · next hf =>
    have ha := aside_arenaPages (s.freePages vf n) s d vf 0
    split at h <;> cases h
    next hp => rw [hp] at ha; exact ⟨rfl, hf, ha⟩
  · cases h

theorem saveRoom_fail {s t : State} {d : Fin 2} {vf n c a : Nat} (h : s.saveRoom d vf n = .fail c a t) : c = codeArena ∧ Aside s t := by
  unfold State.saveRoom at h
  split at h
  · have ha := aside_arenaPages (s.freePages vf n) s d vf 0
    split at h <;> cases h
    next hp =>
      rw [hp] at ha
      refine ⟨?_, ha⟩
      exact arenaPages_code _ hp
  · cases h; exact ⟨rfl, aside_refl s⟩
where
  /-- Pages that fail are answered with SAVE_ARENA_FULL. -/
  arenaPages_code (l : List Nat) : ∀ {s t : State} {d : Fin 2} {vf bytes c a : Nat},
      s.arenaPages d vf bytes l = .fail c a t → c = codeArena := by
    induction l with
    | nil => intro _ _ _ _ _ _ _ h; cases h
    | cons k rest ih =>
      intro s t d vf bytes c a h
      rw [State.arenaPages] at h
      split at h
      · exact ih h
      · cases h
      · cases h; rfl

end Sys2Proof.Machine
end

