-- ==== Sys2Proof/Laws/Ids.lean ====
section
/-!
SUPPORT. An instance id is found while fewer than all ids are in use, and it is in use by nothing (R290).
-/

namespace Sys2Proof.Machine

/-- What is found is free, and an id of 18 bits. -/
theorem firstFree_free {used : List Nat} {p n id : Nat} (h : firstFree used p n = some id) : id ∉ used ∧ id < 2 ^ 18 := by
  induction n generalizing p with
  | zero => simp [firstFree] at h
  | succ n ih =>
    rw [firstFree] at h
    split at h
    · exact ih h
    · next hc =>
      cases h
      exact ⟨by simpa using hc, Nat.mod_lt _ (by norm_num)⟩

/-- Nothing is found only where every id tried is in use. -/
theorem firstFree_none {used : List Nat} {p n : Nat} (h : firstFree used p n = none) : ∀ j < n, (p + j) % 2 ^ 18 ∈ used := by
  induction n generalizing p with
  | zero => intro j hj; omega
  | succ n ih =>
    rw [firstFree] at h
    split at h
    · next hc =>
      intro j hj
      cases j with
      | zero => simpa using hc
      | succ j => have := ih h j (by omega); rwa [show p + (j + 1) = p + 1 + j by omega]
    · simp at h

/-- While fewer than 2^18 ids are in use, an id is found. -/
theorem firstFree_some {used : List Nat} (p : Nat) (h : used.length < 2 ^ 18) :
    ∃ id, firstFree used p (used.length + 1) = some id ∧ id ∉ used ∧ id < 2 ^ 18 := by
  cases hf : firstFree used p (used.length + 1) with
  | some id => exact ⟨id, rfl, firstFree_free hf⟩
  | none =>
    have hn := firstFree_none hf
    have hd : ((List.range (used.length + 1)).map (fun j => (p + j) % 2 ^ 18)).Nodup := by
      refine List.Nodup.map_on ?_ List.nodup_range
      intro a ha b hb e
      simp only [List.mem_range] at ha hb
      omega
    have hs : (List.range (used.length + 1)).map (fun j => (p + j) % 2 ^ 18) ⊆ used := by
      intro x hx
      obtain ⟨j, hj, rfl⟩ := List.mem_map.1 hx
      exact hn j (List.mem_range.1 hj)
    have := (List.subperm_of_subset hd hs).length_le
    simp at this

/-- A new id is found while ids are left (R290). -/
theorem newId_some (s : State) (h : s.usedIds.length < 2 ^ 18) :
    ∃ id, s.newId.1 = some id ∧ id ∉ s.usedIds ∧ id < 2 ^ 18 := firstFree_some _ h

end Sys2Proof.Machine
end

