-- ==== Sys2Proof/Laws/PerInstr.lean ====
section
/-!
SUPPORT. One fact about every instruction: the encoder puts no bit outside the word.
-/

namespace Sys2Proof.Laws

/-! ### Bounds of the codes -/

theorem join1_lt {b x : Nat} (h : b + x < 2 ^ 32) : join b [x] < 2 ^ 32 := h

theorem join2_lt {b x y : Nat} (h : b + x + y < 2 ^ 32) : join b [x, y] < 2 ^ 32 := h

theorem join3_lt {b x y z : Nat} (h : b + x + y + z < 2 ^ 32) : join b [x, y, z] < 2 ^ 32 := h

theorem join4_lt {b x y z u : Nat} (h : b + x + y + z + u < 2 ^ 32) : join b [x, y, z, u] < 2 ^ 32 := h

theorem join5_lt {b x y z u v : Nat} (h : b + x + y + z + u + v < 2 ^ 32) : join b [x, y, z, u, v] < 2 ^ 32 := h

theorem join6_lt {b x y z u v w : Nat} (h : b + x + y + z + u + v + w < 2 ^ 32) : join b [x, y, z, u, v, w] < 2 ^ 32 := h

theorem join7_lt {b x y z u v w t : Nat} (h : b + x + y + z + u + v + w + t < 2 ^ 32) : join b [x, y, z, u, v, w, t] < 2 ^ 32 := h

theorem sel_code_lt (a : Sel) : a.code < 16 := by
  cases a <;> simp [Sel.code] <;> omega

theorem bool_toNat_lt (b : Bool) : b.toNat < 2 := by
  cases b <;> decide

theorem scope_code_le (a : Scope) : a.code ≤ 4 := by
  cases a <;> decide

theorem rm_code_le (a : Rm) : a.code ≤ 4 := by
  cases a <;> decide

theorem fenceKind_code_le (a : FenceKind) : a.code ≤ 2 := by
  cases a <;> decide

theorem size_code_le (a : Size) : a.code ≤ 3 := by
  cases a <;> decide

theorem eSize_code_le (a : ESize) : a.code ≤ 7 := by
  cases a <;> decide

theorem gOrder_code_le (a : GOrder) : a.code ≤ 2 := by
  cases a <;> decide

theorem gamoOp_code_le (a : GamoOp) : a.code ≤ 9 := by
  cases a <;> decide

theorem tagField_code_le (a : TagField) : a.code ≤ 6 := by
  cases a <;> decide

theorem fpFmt_code_le (a : FpFmt) : a.code ≤ 2 := by
  cases a <;> decide

theorem cvtFmt_code_le (a : CvtFmt) : a.code ≤ 6 := by
  cases a <;> decide

theorem pred_code_le (a : Pred) : a.code ≤ 4 := by
  cases a <;> decide

theorem hReg_code_le (a : HReg) : a.code ≤ 5 := by
  cases a <;> decide

theorem ovPolicy_code_le (a : OvPolicy) : a.code ≤ 2 := by
  cases a <;> decide

theorem meter_code_le (a : Meter) : a.code ≤ 3 := by
  cases a <;> decide

theorem scType_code_le (a : ScType) : a.code ≤ 2 := by
  cases a <;> decide

theorem tWidth_code_le (a : TWidth) : a.code ≤ 3 := by
  cases a <;> decide

theorem xWidth_code_le (a : XWidth) : a.code ≤ 2 := by
  cases a <;> decide

theorem width_code_le (a : Width) : a.code ≤ 1 := by
  cases a <;> decide

theorem sysReg_code_le (a : SysReg) : a.code ≤ 14 := by
  cases a <;> decide

theorem strandDest_codeBits_lt (a : StrandDest) : a.codeBits < 2 ^ 11 := by
  cases a <;> simp [StrandDest.codeBits] <;> omega

theorem atomOrder_codeBits_lt (a : AtomOrder) : a.codeBits < 2 ^ 6 := by
  cases a <;> simp [AtomOrder.codeBits] <;> rename_i s <;> have := scope_code_le s <;> omega

namespace Bounded

/-- The word of the instruction as a number fits 32 bits, so that encoding loses none of it. -/
def Statement (i : Instr) : Prop := encodeNat i < 2 ^ 32

theorem emit (s : Sel) (r : Fin 16) : Statement (.emit s r) := by
  have := sel_code_lt s; have := r.isLt
  have e : Sys2Proof.join 0x02000000 [Sys2Proof.shl s.code 20, Sys2Proof.shl r.val 16] < 2 ^ 32 := by
    apply join2_lt
    simp only [Sys2Proof.shl]
    omega
  exact e

theorem emit2 (s : Sel) (r : Fin 16) (q : Fin 16) : Statement (.emit2 s r q) := by
  have := sel_code_lt s; have := r.isLt; have := q.isLt
  have e : Sys2Proof.join 0x03000000 [Sys2Proof.shl s.code 20, Sys2Proof.shl r.val 16, Sys2Proof.shl q.val 12] < 2 ^ 32 := by
    apply join3_lt
    simp only [Sys2Proof.shl]
    omega
  exact e

theorem emitt (s : Fin 16) (r : Fin 16) : Statement (.emitt s r) := by
  have := s.isLt; have := r.isLt
  have e : Sys2Proof.join 0x04000000 [Sys2Proof.shl s.val 20, Sys2Proof.shl r.val 16] < 2 ^ 32 := by
    apply join2_lt
    simp only [Sys2Proof.shl]
    omega
  exact e

theorem emitn (r : Fin 16) : Statement (.emitn r) := by
  have := r.isLt
  have e : Sys2Proof.join 0x05000000 [Sys2Proof.shl r.val 16] < 2 ^ 32 := by
    apply join1_lt
    simp only [Sys2Proof.shl]
    omega
  exact e

theorem emitr (s : Sel) (r : Fin 16) (p : Scope) : Statement (.emitr s r p) := by
  have := sel_code_lt s; have := r.isLt; have := scope_code_le p
  have e : Sys2Proof.join 0x06000000 [Sys2Proof.shl s.code 20, Sys2Proof.shl r.val 16, Sys2Proof.shl p.code 8] < 2 ^ 32 := by
    apply join3_lt
    simp only [Sys2Proof.shl]
    omega
  exact e

theorem exit (s : Sel) (k : Fin 16) (n : Bool) : Statement (.exit s k n) := by
  have := sel_code_lt s; have := k.isLt; have := bool_toNat_lt n
  have e : Sys2Proof.join 0x07000000 [Sys2Proof.shl s.code 20, Sys2Proof.shl k.val 16, Sys2Proof.shl n.toNat 8] < 2 ^ 32 := by
    apply join3_lt
    simp only [Sys2Proof.shl]
    omega
  exact e

theorem exits (s : Sel) (k : Fin 16) (i : BitVec 16) : Statement (.exits s k i) := by
  have := sel_code_lt s; have := k.isLt; have := i.isLt
  have e : Sys2Proof.join 0x08000000 [Sys2Proof.shl s.code 20, Sys2Proof.shl k.val 16, i.toNat] < 2 ^ 32 := by
    apply join3_lt
    simp only [Sys2Proof.shl]
    omega
  exact e

theorem tget (d : Fin 8) (f : TagField) : Statement (.tget d f) := by
  have := d.isLt; have := tagField_code_le f
  have e : Sys2Proof.join 0x09000000 [Sys2Proof.shl d.val 20, f.code] < 2 ^ 32 := by
    apply join2_lt
    simp only [Sys2Proof.shl]
    omega
  exact e

theorem tset (a : Sel) (f : TagField) : Statement (.tset a f) := by
  have := sel_code_lt a; have := tagField_code_le f
  have e : Sys2Proof.join 0x0A000000 [Sys2Proof.shl a.code 16, f.code] < 2 ^ 32 := by
    apply join2_lt
    simp only [Sys2Proof.shl]
    omega
  exact e

theorem tadd (a : Sel) (f : TagField) : Statement (.tadd a f) := by
  have := sel_code_lt a; have := tagField_code_le f
  have e : Sys2Proof.join 0x0B000000 [Sys2Proof.shl a.code 16, f.code] < 2 ^ 32 := by
    apply join2_lt
    simp only [Sys2Proof.shl]
    omega
  exact e

theorem lgate (d : Fin 8) : Statement (.lgate d) := by
  have := d.isLt
  have e : Sys2Proof.join 0x0C000000 [Sys2Proof.shl d.val 20] < 2 ^ 32 := by
    apply join1_lt
    simp only [Sys2Proof.shl]
    omega
  exact e

theorem steer (s : Sel) (t : Fin 16) (f : Fin 16) (p : Sel) : Statement (.steer s t f p) := by
  have := sel_code_lt s; have := t.isLt; have := f.isLt; have := sel_code_lt p
  have e : Sys2Proof.join 0x0E000000 [Sys2Proof.shl s.code 20, Sys2Proof.shl t.val 16, Sys2Proof.shl f.val 12, Sys2Proof.shl p.code 8] < 2 ^ 32 := by
    apply join4_lt
    simp only [Sys2Proof.shl]
    omega
  exact e

theorem thin (s : Sel) (r : Fin 16) (p : Sel) (g : BitVec 8) : Statement (.thin s r p g) := by
  have := sel_code_lt s; have := r.isLt; have := sel_code_lt p; have := g.isLt
  have e : Sys2Proof.join 0x0F000000 [Sys2Proof.shl s.code 20, Sys2Proof.shl r.val 16, Sys2Proof.shl p.code 8, g.toNat] < 2 ^ 32 := by
    apply join4_lt
    simp only [Sys2Proof.shl]
    omega
  exact e

theorem thend (r : Fin 16) : Statement (.thend r) := by
  have := r.isLt
  have e : Sys2Proof.join 0x10000000 [Sys2Proof.shl r.val 16] < 2 ^ 32 := by
    apply join1_lt
    simp only [Sys2Proof.shl]
    omega
  exact e

theorem sinkw (s : Sel) (k : Fin 8) : Statement (.sinkw s k) := by
  have := sel_code_lt s; have := k.isLt
  have e : Sys2Proof.join 0x11000000 [Sys2Proof.shl s.code 20, k.val] < 2 ^ 32 := by
    apply join2_lt
    simp only [Sys2Proof.shl]
    omega
  exact e

theorem drop (r : Fin 16) : Statement (.drop r) := by
  have := r.isLt
  have e : Sys2Proof.join 0x12000000 [Sys2Proof.shl r.val 16] < 2 ^ 32 := by
    apply join1_lt
    simp only [Sys2Proof.shl]
    omega
  exact e

theorem trap (c : BitVec 16) : Statement (.trap c) := by
  have := c.isLt
  have e : Sys2Proof.join 0x13000000 [c.toNat] < 2 ^ 32 := by
    apply join1_lt
    omega
  exact e

theorem add (d : Fin 8) (a : Sel) (b : Sel) (w : Width) : Statement (.add d a b w) := by
  have := d.isLt; have := sel_code_lt a; have := sel_code_lt b; have := width_code_le w
  have e : Sys2Proof.join 0x20000000 [Sys2Proof.shl d.val 20, Sys2Proof.shl a.code 16, Sys2Proof.shl b.code 12, w.code] < 2 ^ 32 := by
    apply join4_lt
    simp only [Sys2Proof.shl]
    omega
  exact e

theorem sub (d : Fin 8) (a : Sel) (b : Sel) (w : Width) : Statement (.sub d a b w) := by
  have := d.isLt; have := sel_code_lt a; have := sel_code_lt b; have := width_code_le w
  have e : Sys2Proof.join 0x21000000 [Sys2Proof.shl d.val 20, Sys2Proof.shl a.code 16, Sys2Proof.shl b.code 12, w.code] < 2 ^ 32 := by
    apply join4_lt
    simp only [Sys2Proof.shl]
    omega
  exact e

theorem addi (d : Fin 8) (a : Sel) (i : BitVec 16) : Statement (.addi d a i) := by
  have := d.isLt; have := sel_code_lt a; have := i.isLt
  have e : Sys2Proof.join 0x22000000 [Sys2Proof.shl d.val 20, Sys2Proof.shl a.code 16, i.toNat] < 2 ^ 32 := by
    apply join3_lt
    simp only [Sys2Proof.shl]
    omega
  exact e

theorem mul (d : Fin 8) (a : Sel) (b : Sel) (w : Width) : Statement (.mul d a b w) := by
  have := d.isLt; have := sel_code_lt a; have := sel_code_lt b; have := width_code_le w
  have e : Sys2Proof.join 0x23000000 [Sys2Proof.shl d.val 20, Sys2Proof.shl a.code 16, Sys2Proof.shl b.code 12, w.code] < 2 ^ 32 := by
    apply join4_lt
    simp only [Sys2Proof.shl]
    omega
  exact e

theorem mulh (d : Fin 8) (a : Sel) (b : Sel) (w : Width) : Statement (.mulh d a b w) := by
  have := d.isLt; have := sel_code_lt a; have := sel_code_lt b; have := width_code_le w
  have e : Sys2Proof.join 0x24000000 [Sys2Proof.shl d.val 20, Sys2Proof.shl a.code 16, Sys2Proof.shl b.code 12, w.code] < 2 ^ 32 := by
    apply join4_lt
    simp only [Sys2Proof.shl]
    omega
  exact e

theorem mulhn (d : Fin 8) (a : Sel) (b : Sel) (w : Width) : Statement (.mulhn d a b w) := by
  have := d.isLt; have := sel_code_lt a; have := sel_code_lt b; have := width_code_le w
  have e : Sys2Proof.join 0x25000000 [Sys2Proof.shl d.val 20, Sys2Proof.shl a.code 16, Sys2Proof.shl b.code 12, w.code] < 2 ^ 32 := by
    apply join4_lt
    simp only [Sys2Proof.shl]
    omega
  exact e

theorem div (d : Fin 8) (a : Sel) (b : Sel) (w : Width) : Statement (.div d a b w) := by
  have := d.isLt; have := sel_code_lt a; have := sel_code_lt b; have := width_code_le w
  have e : Sys2Proof.join 0x26000000 [Sys2Proof.shl d.val 20, Sys2Proof.shl a.code 16, Sys2Proof.shl b.code 12, w.code] < 2 ^ 32 := by
    apply join4_lt
    simp only [Sys2Proof.shl]
    omega
  exact e

theorem divn (d : Fin 8) (a : Sel) (b : Sel) (w : Width) : Statement (.divn d a b w) := by
  have := d.isLt; have := sel_code_lt a; have := sel_code_lt b; have := width_code_le w
  have e : Sys2Proof.join 0x27000000 [Sys2Proof.shl d.val 20, Sys2Proof.shl a.code 16, Sys2Proof.shl b.code 12, w.code] < 2 ^ 32 := by
    apply join4_lt
    simp only [Sys2Proof.shl]
    omega
  exact e

theorem rem (d : Fin 8) (a : Sel) (b : Sel) (w : Width) : Statement (.rem d a b w) := by
  have := d.isLt; have := sel_code_lt a; have := sel_code_lt b; have := width_code_le w
  have e : Sys2Proof.join 0x28000000 [Sys2Proof.shl d.val 20, Sys2Proof.shl a.code 16, Sys2Proof.shl b.code 12, w.code] < 2 ^ 32 := by
    apply join4_lt
    simp only [Sys2Proof.shl]
    omega
  exact e

theorem remn (d : Fin 8) (a : Sel) (b : Sel) (w : Width) : Statement (.remn d a b w) := by
  have := d.isLt; have := sel_code_lt a; have := sel_code_lt b; have := width_code_le w
  have e : Sys2Proof.join 0x29000000 [Sys2Proof.shl d.val 20, Sys2Proof.shl a.code 16, Sys2Proof.shl b.code 12, w.code] < 2 ^ 32 := by
    apply join4_lt
    simp only [Sys2Proof.shl]
    omega
  exact e

theorem and (d : Fin 8) (a : Sel) (b : Sel) (w : Width) : Statement (.and d a b w) := by
  have := d.isLt; have := sel_code_lt a; have := sel_code_lt b; have := width_code_le w
  have e : Sys2Proof.join 0x2A000000 [Sys2Proof.shl d.val 20, Sys2Proof.shl a.code 16, Sys2Proof.shl b.code 12, w.code] < 2 ^ 32 := by
    apply join4_lt
    simp only [Sys2Proof.shl]
    omega
  exact e

theorem or (d : Fin 8) (a : Sel) (b : Sel) (w : Width) : Statement (.or d a b w) := by
  have := d.isLt; have := sel_code_lt a; have := sel_code_lt b; have := width_code_le w
  have e : Sys2Proof.join 0x2B000000 [Sys2Proof.shl d.val 20, Sys2Proof.shl a.code 16, Sys2Proof.shl b.code 12, w.code] < 2 ^ 32 := by
    apply join4_lt
    simp only [Sys2Proof.shl]
    omega
  exact e

theorem xor (d : Fin 8) (a : Sel) (b : Sel) (w : Width) : Statement (.xor d a b w) := by
  have := d.isLt; have := sel_code_lt a; have := sel_code_lt b; have := width_code_le w
  have e : Sys2Proof.join 0x2C000000 [Sys2Proof.shl d.val 20, Sys2Proof.shl a.code 16, Sys2Proof.shl b.code 12, w.code] < 2 ^ 32 := by
    apply join4_lt
    simp only [Sys2Proof.shl]
    omega
  exact e

theorem andn (d : Fin 8) (a : Sel) (b : Sel) (w : Width) : Statement (.andn d a b w) := by
  have := d.isLt; have := sel_code_lt a; have := sel_code_lt b; have := width_code_le w
  have e : Sys2Proof.join 0x2D000000 [Sys2Proof.shl d.val 20, Sys2Proof.shl a.code 16, Sys2Proof.shl b.code 12, w.code] < 2 ^ 32 := by
    apply join4_lt
    simp only [Sys2Proof.shl]
    omega
  exact e

theorem andi (d : Fin 8) (a : Sel) (i : BitVec 16) : Statement (.andi d a i) := by
  have := d.isLt; have := sel_code_lt a; have := i.isLt
  have e : Sys2Proof.join 0x2E000000 [Sys2Proof.shl d.val 20, Sys2Proof.shl a.code 16, i.toNat] < 2 ^ 32 := by
    apply join3_lt
    simp only [Sys2Proof.shl]
    omega
  exact e

theorem ori (d : Fin 8) (a : Sel) (i : BitVec 16) : Statement (.ori d a i) := by
  have := d.isLt; have := sel_code_lt a; have := i.isLt
  have e : Sys2Proof.join 0x2F000000 [Sys2Proof.shl d.val 20, Sys2Proof.shl a.code 16, i.toNat] < 2 ^ 32 := by
    apply join3_lt
    simp only [Sys2Proof.shl]
    omega
  exact e

theorem xori (d : Fin 8) (a : Sel) (i : BitVec 16) : Statement (.xori d a i) := by
  have := d.isLt; have := sel_code_lt a; have := i.isLt
  have e : Sys2Proof.join 0x30000000 [Sys2Proof.shl d.val 20, Sys2Proof.shl a.code 16, i.toNat] < 2 ^ 32 := by
    apply join3_lt
    simp only [Sys2Proof.shl]
    omega
  exact e

theorem shl (d : Fin 8) (a : Sel) (b : Sel) (w : Width) : Statement (.shl d a b w) := by
  have := d.isLt; have := sel_code_lt a; have := sel_code_lt b; have := width_code_le w
  have e : Sys2Proof.join 0x31000000 [Sys2Proof.shl d.val 20, Sys2Proof.shl a.code 16, Sys2Proof.shl b.code 12, w.code] < 2 ^ 32 := by
    apply join4_lt
    simp only [Sys2Proof.shl]
    omega
  exact e

theorem shr (d : Fin 8) (a : Sel) (b : Sel) (w : Width) : Statement (.shr d a b w) := by
  have := d.isLt; have := sel_code_lt a; have := sel_code_lt b; have := width_code_le w
  have e : Sys2Proof.join 0x32000000 [Sys2Proof.shl d.val 20, Sys2Proof.shl a.code 16, Sys2Proof.shl b.code 12, w.code] < 2 ^ 32 := by
    apply join4_lt
    simp only [Sys2Proof.shl]
    omega
  exact e

theorem sra (d : Fin 8) (a : Sel) (b : Sel) (w : Width) : Statement (.sra d a b w) := by
  have := d.isLt; have := sel_code_lt a; have := sel_code_lt b; have := width_code_le w
  have e : Sys2Proof.join 0x33000000 [Sys2Proof.shl d.val 20, Sys2Proof.shl a.code 16, Sys2Proof.shl b.code 12, w.code] < 2 ^ 32 := by
    apply join4_lt
    simp only [Sys2Proof.shl]
    omega
  exact e

theorem shli (d : Fin 8) (a : Sel) (w : Width) (m : Fin 64) : Statement (.shli d a w m) := by
  have := d.isLt; have := sel_code_lt a; have := width_code_le w; have := m.isLt
  have e : Sys2Proof.join 0x34000000 [Sys2Proof.shl d.val 20, Sys2Proof.shl a.code 16, Sys2Proof.shl w.code 6, m.val] < 2 ^ 32 := by
    apply join4_lt
    simp only [Sys2Proof.shl]
    omega
  exact e

theorem shri (d : Fin 8) (a : Sel) (w : Width) (m : Fin 64) : Statement (.shri d a w m) := by
  have := d.isLt; have := sel_code_lt a; have := width_code_le w; have := m.isLt
  have e : Sys2Proof.join 0x35000000 [Sys2Proof.shl d.val 20, Sys2Proof.shl a.code 16, Sys2Proof.shl w.code 6, m.val] < 2 ^ 32 := by
    apply join4_lt
    simp only [Sys2Proof.shl]
    omega
  exact e

theorem srai (d : Fin 8) (a : Sel) (w : Width) (m : Fin 64) : Statement (.srai d a w m) := by
  have := d.isLt; have := sel_code_lt a; have := width_code_le w; have := m.isLt
  have e : Sys2Proof.join 0x36000000 [Sys2Proof.shl d.val 20, Sys2Proof.shl a.code 16, Sys2Proof.shl w.code 6, m.val] < 2 ^ 32 := by
    apply join4_lt
    simp only [Sys2Proof.shl]
    omega
  exact e

theorem rotl (d : Fin 8) (a : Sel) (b : Sel) (w : Width) : Statement (.rotl d a b w) := by
  have := d.isLt; have := sel_code_lt a; have := sel_code_lt b; have := width_code_le w
  have e : Sys2Proof.join 0x37000000 [Sys2Proof.shl d.val 20, Sys2Proof.shl a.code 16, Sys2Proof.shl b.code 12, w.code] < 2 ^ 32 := by
    apply join4_lt
    simp only [Sys2Proof.shl]
    omega
  exact e

theorem clz (d : Fin 8) (a : Sel) (w : Width) : Statement (.clz d a w) := by
  have := d.isLt; have := sel_code_lt a; have := width_code_le w
  have e : Sys2Proof.join 0x38000000 [Sys2Proof.shl d.val 20, Sys2Proof.shl a.code 16, w.code] < 2 ^ 32 := by
    apply join3_lt
    simp only [Sys2Proof.shl]
    omega
  exact e

theorem ctz (d : Fin 8) (a : Sel) (w : Width) : Statement (.ctz d a w) := by
  have := d.isLt; have := sel_code_lt a; have := width_code_le w
  have e : Sys2Proof.join 0x39000000 [Sys2Proof.shl d.val 20, Sys2Proof.shl a.code 16, w.code] < 2 ^ 32 := by
    apply join3_lt
    simp only [Sys2Proof.shl]
    omega
  exact e

theorem popc (d : Fin 8) (a : Sel) (w : Width) : Statement (.popc d a w) := by
  have := d.isLt; have := sel_code_lt a; have := width_code_le w
  have e : Sys2Proof.join 0x3A000000 [Sys2Proof.shl d.val 20, Sys2Proof.shl a.code 16, w.code] < 2 ^ 32 := by
    apply join3_lt
    simp only [Sys2Proof.shl]
    omega
  exact e

theorem min (d : Fin 8) (a : Sel) (b : Sel) (w : Width) : Statement (.min d a b w) := by
  have := d.isLt; have := sel_code_lt a; have := sel_code_lt b; have := width_code_le w
  have e : Sys2Proof.join 0x3B000000 [Sys2Proof.shl d.val 20, Sys2Proof.shl a.code 16, Sys2Proof.shl b.code 12, w.code] < 2 ^ 32 := by
    apply join4_lt
    simp only [Sys2Proof.shl]
    omega
  exact e

theorem minn (d : Fin 8) (a : Sel) (b : Sel) (w : Width) : Statement (.minn d a b w) := by
  have := d.isLt; have := sel_code_lt a; have := sel_code_lt b; have := width_code_le w
  have e : Sys2Proof.join 0x3C000000 [Sys2Proof.shl d.val 20, Sys2Proof.shl a.code 16, Sys2Proof.shl b.code 12, w.code] < 2 ^ 32 := by
    apply join4_lt
    simp only [Sys2Proof.shl]
    omega
  exact e

theorem max (d : Fin 8) (a : Sel) (b : Sel) (w : Width) : Statement (.max d a b w) := by
  have := d.isLt; have := sel_code_lt a; have := sel_code_lt b; have := width_code_le w
  have e : Sys2Proof.join 0x3D000000 [Sys2Proof.shl d.val 20, Sys2Proof.shl a.code 16, Sys2Proof.shl b.code 12, w.code] < 2 ^ 32 := by
    apply join4_lt
    simp only [Sys2Proof.shl]
    omega
  exact e

theorem maxn (d : Fin 8) (a : Sel) (b : Sel) (w : Width) : Statement (.maxn d a b w) := by
  have := d.isLt; have := sel_code_lt a; have := sel_code_lt b; have := width_code_le w
  have e : Sys2Proof.join 0x3E000000 [Sys2Proof.shl d.val 20, Sys2Proof.shl a.code 16, Sys2Proof.shl b.code 12, w.code] < 2 ^ 32 := by
    apply join4_lt
    simp only [Sys2Proof.shl]
    omega
  exact e

theorem slt (d : Fin 8) (a : Sel) (b : Sel) (w : Width) : Statement (.slt d a b w) := by
  have := d.isLt; have := sel_code_lt a; have := sel_code_lt b; have := width_code_le w
  have e : Sys2Proof.join 0x3F000000 [Sys2Proof.shl d.val 20, Sys2Proof.shl a.code 16, Sys2Proof.shl b.code 12, w.code] < 2 ^ 32 := by
    apply join4_lt
    simp only [Sys2Proof.shl]
    omega
  exact e

theorem sltn (d : Fin 8) (a : Sel) (b : Sel) (w : Width) : Statement (.sltn d a b w) := by
  have := d.isLt; have := sel_code_lt a; have := sel_code_lt b; have := width_code_le w
  have e : Sys2Proof.join 0x40000000 [Sys2Proof.shl d.val 20, Sys2Proof.shl a.code 16, Sys2Proof.shl b.code 12, w.code] < 2 ^ 32 := by
    apply join4_lt
    simp only [Sys2Proof.shl]
    omega
  exact e

theorem slti (d : Fin 8) (a : Sel) (i : BitVec 16) : Statement (.slti d a i) := by
  have := d.isLt; have := sel_code_lt a; have := i.isLt
  have e : Sys2Proof.join 0x41000000 [Sys2Proof.shl d.val 20, Sys2Proof.shl a.code 16, i.toNat] < 2 ^ 32 := by
    apply join3_lt
    simp only [Sys2Proof.shl]
    omega
  exact e

theorem seq (d : Fin 8) (a : Sel) (b : Sel) (w : Width) : Statement (.seq d a b w) := by
  have := d.isLt; have := sel_code_lt a; have := sel_code_lt b; have := width_code_le w
  have e : Sys2Proof.join 0x42000000 [Sys2Proof.shl d.val 20, Sys2Proof.shl a.code 16, Sys2Proof.shl b.code 12, w.code] < 2 ^ 32 := by
    apply join4_lt
    simp only [Sys2Proof.shl]
    omega
  exact e

theorem sne (d : Fin 8) (a : Sel) (b : Sel) (w : Width) : Statement (.sne d a b w) := by
  have := d.isLt; have := sel_code_lt a; have := sel_code_lt b; have := width_code_le w
  have e : Sys2Proof.join 0x43000000 [Sys2Proof.shl d.val 20, Sys2Proof.shl a.code 16, Sys2Proof.shl b.code 12, w.code] < 2 ^ 32 := by
    apply join4_lt
    simp only [Sys2Proof.shl]
    omega
  exact e

theorem csel (d : Fin 8) (a : Sel) (b : Sel) (c : Sel) (w : Width) : Statement (.csel d a b c w) := by
  have := d.isLt; have := sel_code_lt a; have := sel_code_lt b; have := sel_code_lt c; have := width_code_le w
  have e : Sys2Proof.join 0x44000000 [Sys2Proof.shl d.val 20, Sys2Proof.shl a.code 16, Sys2Proof.shl b.code 12, Sys2Proof.shl c.code 8, w.code] < 2 ^ 32 := by
    apply join5_lt
    simp only [Sys2Proof.shl]
    omega
  exact e

theorem mov (d : Fin 8) (a : Sel) (w : Width) : Statement (.mov d a w) := by
  have := d.isLt; have := sel_code_lt a; have := width_code_le w
  have e : Sys2Proof.join 0x45000000 [Sys2Proof.shl d.val 20, Sys2Proof.shl a.code 16, w.code] < 2 ^ 32 := by
    apply join3_lt
    simp only [Sys2Proof.shl]
    omega
  exact e

theorem movi (d : Fin 8) (i : BitVec 16) : Statement (.movi d i) := by
  have := d.isLt; have := i.isLt
  have e : Sys2Proof.join 0x46000000 [Sys2Proof.shl d.val 20, i.toNat] < 2 ^ 32 := by
    apply join2_lt
    simp only [Sys2Proof.shl]
    omega
  exact e

theorem movk (d : Fin 8) (k : Fin 4) (i : BitVec 16) : Statement (.movk d k i) := by
  have := d.isLt; have := k.isLt; have := i.isLt
  have e : Sys2Proof.join 0x47000000 [Sys2Proof.shl d.val 20, Sys2Proof.shl k.val 16, i.toNat] < 2 ^ 32 := by
    apply join3_lt
    simp only [Sys2Proof.shl]
    omega
  exact e

theorem exts (d : Fin 8) (a : Sel) (x : XWidth) (w : Width) : Statement (.exts d a x w) := by
  have := d.isLt; have := sel_code_lt a; have := xWidth_code_le x; have := width_code_le w
  have e : Sys2Proof.join 0x48000000 [Sys2Proof.shl d.val 20, Sys2Proof.shl a.code 16, Sys2Proof.shl x.code 1, w.code] < 2 ^ 32 := by
    apply join4_lt
    simp only [Sys2Proof.shl]
    omega
  exact e

theorem extz (d : Fin 8) (a : Sel) (x : XWidth) (w : Width) : Statement (.extz d a x w) := by
  have := d.isLt; have := sel_code_lt a; have := xWidth_code_le x; have := width_code_le w
  have e : Sys2Proof.join 0x49000000 [Sys2Proof.shl d.val 20, Sys2Proof.shl a.code 16, Sys2Proof.shl x.code 1, w.code] < 2 ^ 32 := by
    apply join4_lt
    simp only [Sys2Proof.shl]
    omega
  exact e

theorem bfi (d : Fin 8) (a : Sel) (b : Sel) (c : Sel) (l : Fin 64) : Statement (.bfi d a b c l) := by
  have := d.isLt; have := sel_code_lt a; have := sel_code_lt b; have := sel_code_lt c; have := l.isLt
  have e : Sys2Proof.join 0x4A000000 [Sys2Proof.shl d.val 20, Sys2Proof.shl a.code 16, Sys2Proof.shl b.code 12, Sys2Proof.shl c.code 8, Sys2Proof.shl l.val 1] < 2 ^ 32 := by
    apply join5_lt
    simp only [Sys2Proof.shl]
    omega
  exact e

theorem adds (d : Fin 8) (a : Sel) (b : Sel) (n : Bool) (w : Width) : Statement (.adds d a b n w) := by
  have := d.isLt; have := sel_code_lt a; have := sel_code_lt b; have := bool_toNat_lt n; have := width_code_le w
  have e : Sys2Proof.join 0x4B000000 [Sys2Proof.shl d.val 20, Sys2Proof.shl a.code 16, Sys2Proof.shl b.code 12, Sys2Proof.shl n.toNat 1, w.code] < 2 ^ 32 := by
    apply join5_lt
    simp only [Sys2Proof.shl]
    omega
  exact e

theorem subs (d : Fin 8) (a : Sel) (b : Sel) (n : Bool) (w : Width) : Statement (.subs d a b n w) := by
  have := d.isLt; have := sel_code_lt a; have := sel_code_lt b; have := bool_toNat_lt n; have := width_code_le w
  have e : Sys2Proof.join 0x4C000000 [Sys2Proof.shl d.val 20, Sys2Proof.shl a.code 16, Sys2Proof.shl b.code 12, Sys2Proof.shl n.toNat 1, w.code] < 2 ^ 32 := by
    apply join5_lt
    simp only [Sys2Proof.shl]
    omega
  exact e

theorem abs (d : Fin 8) (a : Sel) (w : Width) : Statement (.abs d a w) := by
  have := d.isLt; have := sel_code_lt a; have := width_code_le w
  have e : Sys2Proof.join 0x4D000000 [Sys2Proof.shl d.val 20, Sys2Proof.shl a.code 16, w.code] < 2 ^ 32 := by
    apply join3_lt
    simp only [Sys2Proof.shl]
    omega
  exact e

theorem neg (d : Fin 8) (a : Sel) (w : Width) : Statement (.neg d a w) := by
  have := d.isLt; have := sel_code_lt a; have := width_code_le w
  have e : Sys2Proof.join 0x4E000000 [Sys2Proof.shl d.val 20, Sys2Proof.shl a.code 16, w.code] < 2 ^ 32 := by
    apply join3_lt
    simp only [Sys2Proof.shl]
    omega
  exact e

theorem lea (d : Fin 8) (a : Sel) (b : Sel) (s : Fin 8) (w : Width) : Statement (.lea d a b s w) := by
  have := d.isLt; have := sel_code_lt a; have := sel_code_lt b; have := s.isLt; have := width_code_le w
  have e : Sys2Proof.join 0x4F000000 [Sys2Proof.shl d.val 20, Sys2Proof.shl a.code 16, Sys2Proof.shl b.code 12, Sys2Proof.shl s.val 1, w.code] < 2 ^ 32 := by
    apply join5_lt
    simp only [Sys2Proof.shl]
    omega
  exact e

theorem addCr (d : Fin 32) (a : Fin 32) (b : Fin 32) (w : Width) : Statement (.addCr d a b w) := by
  have := d.isLt; have := a.isLt; have := b.isLt; have := width_code_le w
  have e : Sys2Proof.join 0x20000000 [Sys2Proof.shl d.val 19, Sys2Proof.shl a.val 14, Sys2Proof.shl b.val 9, w.code] < 2 ^ 32 := by
    apply join4_lt
    simp only [Sys2Proof.shl]
    omega
  exact e

theorem subCr (d : Fin 32) (a : Fin 32) (b : Fin 32) (w : Width) : Statement (.subCr d a b w) := by
  have := d.isLt; have := a.isLt; have := b.isLt; have := width_code_le w
  have e : Sys2Proof.join 0x21000000 [Sys2Proof.shl d.val 19, Sys2Proof.shl a.val 14, Sys2Proof.shl b.val 9, w.code] < 2 ^ 32 := by
    apply join4_lt
    simp only [Sys2Proof.shl]
    omega
  exact e

theorem addiCi (d : Fin 32) (a : Fin 32) (i : BitVec 14) : Statement (.addiCi d a i) := by
  have := d.isLt; have := a.isLt; have := i.isLt
  have e : Sys2Proof.join 0x22000000 [Sys2Proof.shl d.val 19, Sys2Proof.shl a.val 14, i.toNat] < 2 ^ 32 := by
    apply join3_lt
    simp only [Sys2Proof.shl]
    omega
  exact e

theorem mulCr (d : Fin 32) (a : Fin 32) (b : Fin 32) (w : Width) : Statement (.mulCr d a b w) := by
  have := d.isLt; have := a.isLt; have := b.isLt; have := width_code_le w
  have e : Sys2Proof.join 0x23000000 [Sys2Proof.shl d.val 19, Sys2Proof.shl a.val 14, Sys2Proof.shl b.val 9, w.code] < 2 ^ 32 := by
    apply join4_lt
    simp only [Sys2Proof.shl]
    omega
  exact e

theorem mulhCr (d : Fin 32) (a : Fin 32) (b : Fin 32) (w : Width) : Statement (.mulhCr d a b w) := by
  have := d.isLt; have := a.isLt; have := b.isLt; have := width_code_le w
  have e : Sys2Proof.join 0x24000000 [Sys2Proof.shl d.val 19, Sys2Proof.shl a.val 14, Sys2Proof.shl b.val 9, w.code] < 2 ^ 32 := by
    apply join4_lt
    simp only [Sys2Proof.shl]
    omega
  exact e

theorem mulhnCr (d : Fin 32) (a : Fin 32) (b : Fin 32) (w : Width) : Statement (.mulhnCr d a b w) := by
  have := d.isLt; have := a.isLt; have := b.isLt; have := width_code_le w
  have e : Sys2Proof.join 0x25000000 [Sys2Proof.shl d.val 19, Sys2Proof.shl a.val 14, Sys2Proof.shl b.val 9, w.code] < 2 ^ 32 := by
    apply join4_lt
    simp only [Sys2Proof.shl]
    omega
  exact e

theorem divCr (d : Fin 32) (a : Fin 32) (b : Fin 32) (w : Width) : Statement (.divCr d a b w) := by
  have := d.isLt; have := a.isLt; have := b.isLt; have := width_code_le w
  have e : Sys2Proof.join 0x26000000 [Sys2Proof.shl d.val 19, Sys2Proof.shl a.val 14, Sys2Proof.shl b.val 9, w.code] < 2 ^ 32 := by
    apply join4_lt
    simp only [Sys2Proof.shl]
    omega
  exact e

theorem divnCr (d : Fin 32) (a : Fin 32) (b : Fin 32) (w : Width) : Statement (.divnCr d a b w) := by
  have := d.isLt; have := a.isLt; have := b.isLt; have := width_code_le w
  have e : Sys2Proof.join 0x27000000 [Sys2Proof.shl d.val 19, Sys2Proof.shl a.val 14, Sys2Proof.shl b.val 9, w.code] < 2 ^ 32 := by
    apply join4_lt
    simp only [Sys2Proof.shl]
    omega
  exact e

theorem remCr (d : Fin 32) (a : Fin 32) (b : Fin 32) (w : Width) : Statement (.remCr d a b w) := by
  have := d.isLt; have := a.isLt; have := b.isLt; have := width_code_le w
  have e : Sys2Proof.join 0x28000000 [Sys2Proof.shl d.val 19, Sys2Proof.shl a.val 14, Sys2Proof.shl b.val 9, w.code] < 2 ^ 32 := by
    apply join4_lt
    simp only [Sys2Proof.shl]
    omega
  exact e

theorem remnCr (d : Fin 32) (a : Fin 32) (b : Fin 32) (w : Width) : Statement (.remnCr d a b w) := by
  have := d.isLt; have := a.isLt; have := b.isLt; have := width_code_le w
  have e : Sys2Proof.join 0x29000000 [Sys2Proof.shl d.val 19, Sys2Proof.shl a.val 14, Sys2Proof.shl b.val 9, w.code] < 2 ^ 32 := by
    apply join4_lt
    simp only [Sys2Proof.shl]
    omega
  exact e

theorem andCr (d : Fin 32) (a : Fin 32) (b : Fin 32) (w : Width) : Statement (.andCr d a b w) := by
  have := d.isLt; have := a.isLt; have := b.isLt; have := width_code_le w
  have e : Sys2Proof.join 0x2A000000 [Sys2Proof.shl d.val 19, Sys2Proof.shl a.val 14, Sys2Proof.shl b.val 9, w.code] < 2 ^ 32 := by
    apply join4_lt
    simp only [Sys2Proof.shl]
    omega
  exact e

theorem orCr (d : Fin 32) (a : Fin 32) (b : Fin 32) (w : Width) : Statement (.orCr d a b w) := by
  have := d.isLt; have := a.isLt; have := b.isLt; have := width_code_le w
  have e : Sys2Proof.join 0x2B000000 [Sys2Proof.shl d.val 19, Sys2Proof.shl a.val 14, Sys2Proof.shl b.val 9, w.code] < 2 ^ 32 := by
    apply join4_lt
    simp only [Sys2Proof.shl]
    omega
  exact e

theorem xorCr (d : Fin 32) (a : Fin 32) (b : Fin 32) (w : Width) : Statement (.xorCr d a b w) := by
  have := d.isLt; have := a.isLt; have := b.isLt; have := width_code_le w
  have e : Sys2Proof.join 0x2C000000 [Sys2Proof.shl d.val 19, Sys2Proof.shl a.val 14, Sys2Proof.shl b.val 9, w.code] < 2 ^ 32 := by
    apply join4_lt
    simp only [Sys2Proof.shl]
    omega
  exact e

theorem andnCr (d : Fin 32) (a : Fin 32) (b : Fin 32) (w : Width) : Statement (.andnCr d a b w) := by
  have := d.isLt; have := a.isLt; have := b.isLt; have := width_code_le w
  have e : Sys2Proof.join 0x2D000000 [Sys2Proof.shl d.val 19, Sys2Proof.shl a.val 14, Sys2Proof.shl b.val 9, w.code] < 2 ^ 32 := by
    apply join4_lt
    simp only [Sys2Proof.shl]
    omega
  exact e

theorem andiCi (d : Fin 32) (a : Fin 32) (i : BitVec 14) : Statement (.andiCi d a i) := by
  have := d.isLt; have := a.isLt; have := i.isLt
  have e : Sys2Proof.join 0x2E000000 [Sys2Proof.shl d.val 19, Sys2Proof.shl a.val 14, i.toNat] < 2 ^ 32 := by
    apply join3_lt
    simp only [Sys2Proof.shl]
    omega
  exact e

theorem oriCi (d : Fin 32) (a : Fin 32) (i : BitVec 14) : Statement (.oriCi d a i) := by
  have := d.isLt; have := a.isLt; have := i.isLt
  have e : Sys2Proof.join 0x2F000000 [Sys2Proof.shl d.val 19, Sys2Proof.shl a.val 14, i.toNat] < 2 ^ 32 := by
    apply join3_lt
    simp only [Sys2Proof.shl]
    omega
  exact e

theorem xoriCi (d : Fin 32) (a : Fin 32) (i : BitVec 14) : Statement (.xoriCi d a i) := by
  have := d.isLt; have := a.isLt; have := i.isLt
  have e : Sys2Proof.join 0x30000000 [Sys2Proof.shl d.val 19, Sys2Proof.shl a.val 14, i.toNat] < 2 ^ 32 := by
    apply join3_lt
    simp only [Sys2Proof.shl]
    omega
  exact e

theorem shlCr (d : Fin 32) (a : Fin 32) (b : Fin 32) (w : Width) : Statement (.shlCr d a b w) := by
  have := d.isLt; have := a.isLt; have := b.isLt; have := width_code_le w
  have e : Sys2Proof.join 0x31000000 [Sys2Proof.shl d.val 19, Sys2Proof.shl a.val 14, Sys2Proof.shl b.val 9, w.code] < 2 ^ 32 := by
    apply join4_lt
    simp only [Sys2Proof.shl]
    omega
  exact e

theorem shrCr (d : Fin 32) (a : Fin 32) (b : Fin 32) (w : Width) : Statement (.shrCr d a b w) := by
  have := d.isLt; have := a.isLt; have := b.isLt; have := width_code_le w
  have e : Sys2Proof.join 0x32000000 [Sys2Proof.shl d.val 19, Sys2Proof.shl a.val 14, Sys2Proof.shl b.val 9, w.code] < 2 ^ 32 := by
    apply join4_lt
    simp only [Sys2Proof.shl]
    omega
  exact e

theorem sraCr (d : Fin 32) (a : Fin 32) (b : Fin 32) (w : Width) : Statement (.sraCr d a b w) := by
  have := d.isLt; have := a.isLt; have := b.isLt; have := width_code_le w
  have e : Sys2Proof.join 0x33000000 [Sys2Proof.shl d.val 19, Sys2Proof.shl a.val 14, Sys2Proof.shl b.val 9, w.code] < 2 ^ 32 := by
    apply join4_lt
    simp only [Sys2Proof.shl]
    omega
  exact e

theorem shliCi (d : Fin 32) (a : Fin 32) (w : Width) (m : Fin 64) : Statement (.shliCi d a w m) := by
  have := d.isLt; have := a.isLt; have := width_code_le w; have := m.isLt
  have e : Sys2Proof.join 0x34000000 [Sys2Proof.shl d.val 19, Sys2Proof.shl a.val 14, Sys2Proof.shl w.code 6, m.val] < 2 ^ 32 := by
    apply join4_lt
    simp only [Sys2Proof.shl]
    omega
  exact e

theorem shriCi (d : Fin 32) (a : Fin 32) (w : Width) (m : Fin 64) : Statement (.shriCi d a w m) := by
  have := d.isLt; have := a.isLt; have := width_code_le w; have := m.isLt
  have e : Sys2Proof.join 0x35000000 [Sys2Proof.shl d.val 19, Sys2Proof.shl a.val 14, Sys2Proof.shl w.code 6, m.val] < 2 ^ 32 := by
    apply join4_lt
    simp only [Sys2Proof.shl]
    omega
  exact e

theorem sraiCi (d : Fin 32) (a : Fin 32) (w : Width) (m : Fin 64) : Statement (.sraiCi d a w m) := by
  have := d.isLt; have := a.isLt; have := width_code_le w; have := m.isLt
  have e : Sys2Proof.join 0x36000000 [Sys2Proof.shl d.val 19, Sys2Proof.shl a.val 14, Sys2Proof.shl w.code 6, m.val] < 2 ^ 32 := by
    apply join4_lt
    simp only [Sys2Proof.shl]
    omega
  exact e

theorem rotlCr (d : Fin 32) (a : Fin 32) (b : Fin 32) (w : Width) : Statement (.rotlCr d a b w) := by
  have := d.isLt; have := a.isLt; have := b.isLt; have := width_code_le w
  have e : Sys2Proof.join 0x37000000 [Sys2Proof.shl d.val 19, Sys2Proof.shl a.val 14, Sys2Proof.shl b.val 9, w.code] < 2 ^ 32 := by
    apply join4_lt
    simp only [Sys2Proof.shl]
    omega
  exact e

theorem clzCr (d : Fin 32) (a : Fin 32) (w : Width) : Statement (.clzCr d a w) := by
  have := d.isLt; have := a.isLt; have := width_code_le w
  have e : Sys2Proof.join 0x38000000 [Sys2Proof.shl d.val 19, Sys2Proof.shl a.val 14, w.code] < 2 ^ 32 := by
    apply join3_lt
    simp only [Sys2Proof.shl]
    omega
  exact e

theorem ctzCr (d : Fin 32) (a : Fin 32) (w : Width) : Statement (.ctzCr d a w) := by
  have := d.isLt; have := a.isLt; have := width_code_le w
  have e : Sys2Proof.join 0x39000000 [Sys2Proof.shl d.val 19, Sys2Proof.shl a.val 14, w.code] < 2 ^ 32 := by
    apply join3_lt
    simp only [Sys2Proof.shl]
    omega
  exact e

theorem popcCr (d : Fin 32) (a : Fin 32) (w : Width) : Statement (.popcCr d a w) := by
  have := d.isLt; have := a.isLt; have := width_code_le w
  have e : Sys2Proof.join 0x3A000000 [Sys2Proof.shl d.val 19, Sys2Proof.shl a.val 14, w.code] < 2 ^ 32 := by
    apply join3_lt
    simp only [Sys2Proof.shl]
    omega
  exact e

theorem minCr (d : Fin 32) (a : Fin 32) (b : Fin 32) (w : Width) : Statement (.minCr d a b w) := by
  have := d.isLt; have := a.isLt; have := b.isLt; have := width_code_le w
  have e : Sys2Proof.join 0x3B000000 [Sys2Proof.shl d.val 19, Sys2Proof.shl a.val 14, Sys2Proof.shl b.val 9, w.code] < 2 ^ 32 := by
    apply join4_lt
    simp only [Sys2Proof.shl]
    omega
  exact e

theorem minnCr (d : Fin 32) (a : Fin 32) (b : Fin 32) (w : Width) : Statement (.minnCr d a b w) := by
  have := d.isLt; have := a.isLt; have := b.isLt; have := width_code_le w
  have e : Sys2Proof.join 0x3C000000 [Sys2Proof.shl d.val 19, Sys2Proof.shl a.val 14, Sys2Proof.shl b.val 9, w.code] < 2 ^ 32 := by
    apply join4_lt
    simp only [Sys2Proof.shl]
    omega
  exact e

theorem maxCr (d : Fin 32) (a : Fin 32) (b : Fin 32) (w : Width) : Statement (.maxCr d a b w) := by
  have := d.isLt; have := a.isLt; have := b.isLt; have := width_code_le w
  have e : Sys2Proof.join 0x3D000000 [Sys2Proof.shl d.val 19, Sys2Proof.shl a.val 14, Sys2Proof.shl b.val 9, w.code] < 2 ^ 32 := by
    apply join4_lt
    simp only [Sys2Proof.shl]
    omega
  exact e

theorem maxnCr (d : Fin 32) (a : Fin 32) (b : Fin 32) (w : Width) : Statement (.maxnCr d a b w) := by
  have := d.isLt; have := a.isLt; have := b.isLt; have := width_code_le w
  have e : Sys2Proof.join 0x3E000000 [Sys2Proof.shl d.val 19, Sys2Proof.shl a.val 14, Sys2Proof.shl b.val 9, w.code] < 2 ^ 32 := by
    apply join4_lt
    simp only [Sys2Proof.shl]
    omega
  exact e

theorem sltCr (d : Fin 32) (a : Fin 32) (b : Fin 32) (w : Width) : Statement (.sltCr d a b w) := by
  have := d.isLt; have := a.isLt; have := b.isLt; have := width_code_le w
  have e : Sys2Proof.join 0x3F000000 [Sys2Proof.shl d.val 19, Sys2Proof.shl a.val 14, Sys2Proof.shl b.val 9, w.code] < 2 ^ 32 := by
    apply join4_lt
    simp only [Sys2Proof.shl]
    omega
  exact e

theorem sltnCr (d : Fin 32) (a : Fin 32) (b : Fin 32) (w : Width) : Statement (.sltnCr d a b w) := by
  have := d.isLt; have := a.isLt; have := b.isLt; have := width_code_le w
  have e : Sys2Proof.join 0x40000000 [Sys2Proof.shl d.val 19, Sys2Proof.shl a.val 14, Sys2Proof.shl b.val 9, w.code] < 2 ^ 32 := by
    apply join4_lt
    simp only [Sys2Proof.shl]
    omega
  exact e

theorem sltiCi (d : Fin 32) (a : Fin 32) (i : BitVec 14) : Statement (.sltiCi d a i) := by
  have := d.isLt; have := a.isLt; have := i.isLt
  have e : Sys2Proof.join 0x41000000 [Sys2Proof.shl d.val 19, Sys2Proof.shl a.val 14, i.toNat] < 2 ^ 32 := by
    apply join3_lt
    simp only [Sys2Proof.shl]
    omega
  exact e

theorem seqCr (d : Fin 32) (a : Fin 32) (b : Fin 32) (w : Width) : Statement (.seqCr d a b w) := by
  have := d.isLt; have := a.isLt; have := b.isLt; have := width_code_le w
  have e : Sys2Proof.join 0x42000000 [Sys2Proof.shl d.val 19, Sys2Proof.shl a.val 14, Sys2Proof.shl b.val 9, w.code] < 2 ^ 32 := by
    apply join4_lt
    simp only [Sys2Proof.shl]
    omega
  exact e

theorem sneCr (d : Fin 32) (a : Fin 32) (b : Fin 32) (w : Width) : Statement (.sneCr d a b w) := by
  have := d.isLt; have := a.isLt; have := b.isLt; have := width_code_le w
  have e : Sys2Proof.join 0x43000000 [Sys2Proof.shl d.val 19, Sys2Proof.shl a.val 14, Sys2Proof.shl b.val 9, w.code] < 2 ^ 32 := by
    apply join4_lt
    simp only [Sys2Proof.shl]
    omega
  exact e

theorem cselCr (d : Fin 32) (a : Fin 32) (b : Fin 32) (w : Width) : Statement (.cselCr d a b w) := by
  have := d.isLt; have := a.isLt; have := b.isLt; have := width_code_le w
  have e : Sys2Proof.join 0x44000000 [Sys2Proof.shl d.val 19, Sys2Proof.shl a.val 14, Sys2Proof.shl b.val 9, w.code] < 2 ^ 32 := by
    apply join4_lt
    simp only [Sys2Proof.shl]
    omega
  exact e

theorem movCr (d : Fin 32) (a : Fin 32) (w : Width) : Statement (.movCr d a w) := by
  have := d.isLt; have := a.isLt; have := width_code_le w
  have e : Sys2Proof.join 0x45000000 [Sys2Proof.shl d.val 19, Sys2Proof.shl a.val 14, w.code] < 2 ^ 32 := by
    apply join3_lt
    simp only [Sys2Proof.shl]
    omega
  exact e

theorem moviCi (d : Fin 32) (i : BitVec 14) : Statement (.moviCi d i) := by
  have := d.isLt; have := i.isLt
  have e : Sys2Proof.join 0x46000000 [Sys2Proof.shl d.val 19, i.toNat] < 2 ^ 32 := by
    apply join2_lt
    simp only [Sys2Proof.shl]
    omega
  exact e

theorem movkCi (d : Fin 32) (k : Fin 4) (i : BitVec 14) : Statement (.movkCi d k i) := by
  have := d.isLt; have := k.isLt; have := i.isLt
  have e : Sys2Proof.join 0x47000000 [Sys2Proof.shl d.val 19, Sys2Proof.shl k.val 14, i.toNat] < 2 ^ 32 := by
    apply join3_lt
    simp only [Sys2Proof.shl]
    omega
  exact e

theorem extsCr (d : Fin 32) (a : Fin 32) (x : XWidth) (w : Width) : Statement (.extsCr d a x w) := by
  have := d.isLt; have := a.isLt; have := xWidth_code_le x; have := width_code_le w
  have e : Sys2Proof.join 0x48000000 [Sys2Proof.shl d.val 19, Sys2Proof.shl a.val 14, Sys2Proof.shl x.code 1, w.code] < 2 ^ 32 := by
    apply join4_lt
    simp only [Sys2Proof.shl]
    omega
  exact e

theorem extzCr (d : Fin 32) (a : Fin 32) (x : XWidth) (w : Width) : Statement (.extzCr d a x w) := by
  have := d.isLt; have := a.isLt; have := xWidth_code_le x; have := width_code_le w
  have e : Sys2Proof.join 0x49000000 [Sys2Proof.shl d.val 19, Sys2Proof.shl a.val 14, Sys2Proof.shl x.code 1, w.code] < 2 ^ 32 := by
    apply join4_lt
    simp only [Sys2Proof.shl]
    omega
  exact e

theorem bfiCr (d : Fin 32) (a : Fin 32) (b : Fin 32) (l : Fin 64) : Statement (.bfiCr d a b l) := by
  have := d.isLt; have := a.isLt; have := b.isLt; have := l.isLt
  have e : Sys2Proof.join 0x4A000000 [Sys2Proof.shl d.val 19, Sys2Proof.shl a.val 14, Sys2Proof.shl b.val 9, Sys2Proof.shl l.val 1] < 2 ^ 32 := by
    apply join4_lt
    simp only [Sys2Proof.shl]
    omega
  exact e

theorem addsCr (d : Fin 32) (a : Fin 32) (b : Fin 32) (n : Bool) (w : Width) : Statement (.addsCr d a b n w) := by
  have := d.isLt; have := a.isLt; have := b.isLt; have := bool_toNat_lt n; have := width_code_le w
  have e : Sys2Proof.join 0x4B000000 [Sys2Proof.shl d.val 19, Sys2Proof.shl a.val 14, Sys2Proof.shl b.val 9, Sys2Proof.shl n.toNat 1, w.code] < 2 ^ 32 := by
    apply join5_lt
    simp only [Sys2Proof.shl]
    omega
  exact e

theorem subsCr (d : Fin 32) (a : Fin 32) (b : Fin 32) (n : Bool) (w : Width) : Statement (.subsCr d a b n w) := by
  have := d.isLt; have := a.isLt; have := b.isLt; have := bool_toNat_lt n; have := width_code_le w
  have e : Sys2Proof.join 0x4C000000 [Sys2Proof.shl d.val 19, Sys2Proof.shl a.val 14, Sys2Proof.shl b.val 9, Sys2Proof.shl n.toNat 1, w.code] < 2 ^ 32 := by
    apply join5_lt
    simp only [Sys2Proof.shl]
    omega
  exact e

theorem absCr (d : Fin 32) (a : Fin 32) (w : Width) : Statement (.absCr d a w) := by
  have := d.isLt; have := a.isLt; have := width_code_le w
  have e : Sys2Proof.join 0x4D000000 [Sys2Proof.shl d.val 19, Sys2Proof.shl a.val 14, w.code] < 2 ^ 32 := by
    apply join3_lt
    simp only [Sys2Proof.shl]
    omega
  exact e

theorem negCr (d : Fin 32) (a : Fin 32) (w : Width) : Statement (.negCr d a w) := by
  have := d.isLt; have := a.isLt; have := width_code_le w
  have e : Sys2Proof.join 0x4E000000 [Sys2Proof.shl d.val 19, Sys2Proof.shl a.val 14, w.code] < 2 ^ 32 := by
    apply join3_lt
    simp only [Sys2Proof.shl]
    omega
  exact e

theorem leaCr (d : Fin 32) (a : Fin 32) (b : Fin 32) (s : Fin 8) (w : Width) : Statement (.leaCr d a b s w) := by
  have := d.isLt; have := a.isLt; have := b.isLt; have := s.isLt; have := width_code_le w
  have e : Sys2Proof.join 0x4F000000 [Sys2Proof.shl d.val 19, Sys2Proof.shl a.val 14, Sys2Proof.shl b.val 9, Sys2Proof.shl s.val 1, w.code] < 2 ^ 32 := by
    apply join5_lt
    simp only [Sys2Proof.shl]
    omega
  exact e

theorem beq (a : Fin 32) (b : Fin 32) (o : BitVec 14) : Statement (.beq a b o) := by
  have := a.isLt; have := b.isLt; have := o.isLt
  have e : Sys2Proof.join 0x50000000 [Sys2Proof.shl a.val 19, Sys2Proof.shl b.val 14, o.toNat] < 2 ^ 32 := by
    apply join3_lt
    simp only [Sys2Proof.shl]
    omega
  exact e

theorem bne (a : Fin 32) (b : Fin 32) (o : BitVec 14) : Statement (.bne a b o) := by
  have := a.isLt; have := b.isLt; have := o.isLt
  have e : Sys2Proof.join 0x51000000 [Sys2Proof.shl a.val 19, Sys2Proof.shl b.val 14, o.toNat] < 2 ^ 32 := by
    apply join3_lt
    simp only [Sys2Proof.shl]
    omega
  exact e

theorem blt (a : Fin 32) (b : Fin 32) (o : BitVec 14) : Statement (.blt a b o) := by
  have := a.isLt; have := b.isLt; have := o.isLt
  have e : Sys2Proof.join 0x52000000 [Sys2Proof.shl a.val 19, Sys2Proof.shl b.val 14, o.toNat] < 2 ^ 32 := by
    apply join3_lt
    simp only [Sys2Proof.shl]
    omega
  exact e

theorem bge (a : Fin 32) (b : Fin 32) (o : BitVec 14) : Statement (.bge a b o) := by
  have := a.isLt; have := b.isLt; have := o.isLt
  have e : Sys2Proof.join 0x53000000 [Sys2Proof.shl a.val 19, Sys2Proof.shl b.val 14, o.toNat] < 2 ^ 32 := by
    apply join3_lt
    simp only [Sys2Proof.shl]
    omega
  exact e

theorem bltn (a : Fin 32) (b : Fin 32) (o : BitVec 14) : Statement (.bltn a b o) := by
  have := a.isLt; have := b.isLt; have := o.isLt
  have e : Sys2Proof.join 0x54000000 [Sys2Proof.shl a.val 19, Sys2Proof.shl b.val 14, o.toNat] < 2 ^ 32 := by
    apply join3_lt
    simp only [Sys2Proof.shl]
    omega
  exact e

theorem bgen (a : Fin 32) (b : Fin 32) (o : BitVec 14) : Statement (.bgen a b o) := by
  have := a.isLt; have := b.isLt; have := o.isLt
  have e : Sys2Proof.join 0x55000000 [Sys2Proof.shl a.val 19, Sys2Proof.shl b.val 14, o.toNat] < 2 ^ 32 := by
    apply join3_lt
    simp only [Sys2Proof.shl]
    omega
  exact e

theorem jmp (o : BitVec 24) : Statement (.jmp o) := by
  have := o.isLt
  have e : Sys2Proof.join 0x56000000 [o.toNat] < 2 ^ 32 := by
    apply join1_lt
    omega
  exact e

theorem jal (o : BitVec 24) : Statement (.jal o) := by
  have := o.isLt
  have e : Sys2Proof.join 0x57000000 [o.toNat] < 2 ^ 32 := by
    apply join1_lt
    omega
  exact e

theorem jr (a : Fin 32) : Statement (.jr a) := by
  have := a.isLt
  have e : Sys2Proof.join 0x58000000 [Sys2Proof.shl a.val 14] < 2 ^ 32 := by
    apply join1_lt
    simp only [Sys2Proof.shl]
    omega
  exact e

theorem ldg (d : Fin 32) (a : Fin 32) (o : BitVec 12) (z : Size) : Statement (.ldg d a o z) := by
  have := d.isLt; have := a.isLt; have := o.isLt; have := size_code_le z
  have e : Sys2Proof.join 0x59000000 [Sys2Proof.shl d.val 19, Sys2Proof.shl a.val 14, Sys2Proof.shl o.toNat 2, z.code] < 2 ^ 32 := by
    apply join4_lt
    simp only [Sys2Proof.shl]
    omega
  exact e

theorem stg (d : Fin 32) (a : Fin 32) (o : BitVec 12) (z : Size) : Statement (.stg d a o z) := by
  have := d.isLt; have := a.isLt; have := o.isLt; have := size_code_le z
  have e : Sys2Proof.join 0x5A000000 [Sys2Proof.shl d.val 19, Sys2Proof.shl a.val 14, Sys2Proof.shl o.toNat 2, z.code] < 2 ^ 32 := by
    apply join4_lt
    simp only [Sys2Proof.shl]
    omega
  exact e

theorem ldgf (d : Fin 32) (a : Fin 32) (o : BitVec 12) (c : Bool) : Statement (.ldgf d a o c) := by
  have := d.isLt; have := a.isLt; have := o.isLt; have := bool_toNat_lt c
  have e : Sys2Proof.join 0x5B000000 [Sys2Proof.shl d.val 19, Sys2Proof.shl a.val 14, Sys2Proof.shl o.toNat 2, c.toNat] < 2 ^ 32 := by
    apply join4_lt
    simp only [Sys2Proof.shl]
    omega
  exact e

theorem stgf (d : Fin 32) (a : Fin 32) (o : BitVec 12) : Statement (.stgf d a o) := by
  have := d.isLt; have := a.isLt; have := o.isLt
  have e : Sys2Proof.join 0x5C000000 [Sys2Proof.shl d.val 19, Sys2Proof.shl a.val 14, Sys2Proof.shl o.toNat 2] < 2 ^ 32 := by
    apply join3_lt
    simp only [Sys2Proof.shl]
    omega
  exact e

theorem lnch (d : Fin 32) (a : Fin 32) (b : Fin 32) : Statement (.lnch d a b) := by
  have := d.isLt; have := a.isLt; have := b.isLt
  have e : Sys2Proof.join 0x5D000000 [Sys2Proof.shl d.val 19, Sys2Proof.shl a.val 14, Sys2Proof.shl b.val 9] < 2 ^ 32 := by
    apply join3_lt
    simp only [Sys2Proof.shl]
    omega
  exact e

theorem inj (a : Fin 32) (b : Fin 32) (e : Fin 16) : Statement (.inj a b e) := by
  have := a.isLt; have := b.isLt; have := e.isLt
  have e : Sys2Proof.join 0x5E000000 [Sys2Proof.shl a.val 14, Sys2Proof.shl b.val 9, e.val] < 2 ^ 32 := by
    apply join3_lt
    simp only [Sys2Proof.shl]
    omega
  exact e

theorem snkr (d : Fin 32) (a : Fin 32) (k : Fin 8) : Statement (.snkr d a k) := by
  have := d.isLt; have := a.isLt; have := k.isLt
  have e : Sys2Proof.join 0x5F000000 [Sys2Proof.shl d.val 19, Sys2Proof.shl a.val 14, k.val] < 2 ^ 32 := by
    apply join3_lt
    simp only [Sys2Proof.shl]
    omega
  exact e

theorem knwait (d : Fin 32) (a : Fin 32) : Statement (.knwait d a) := by
  have := d.isLt; have := a.isLt
  have e : Sys2Proof.join 0x60000000 [Sys2Proof.shl d.val 19, Sys2Proof.shl a.val 14] < 2 ^ 32 := by
    apply join2_lt
    simp only [Sys2Proof.shl]
    omega
  exact e

theorem srr (d : Fin 32) (r : SysReg) : Statement (.srr d r) := by
  have := d.isLt; have := sysReg_code_le r
  have e : Sys2Proof.join 0x61000000 [Sys2Proof.shl d.val 19, r.code] < 2 ^ 32 := by
    apply join2_lt
    simp only [Sys2Proof.shl]
    omega
  exact e

theorem srw (d : Fin 32) (r : SysReg) : Statement (.srw d r) := by
  have := d.isLt; have := sysReg_code_le r
  have e : Sys2Proof.join 0x62000000 [Sys2Proof.shl d.val 19, r.code] < 2 ^ 32 := by
    apply join2_lt
    simp only [Sys2Proof.shl]
    omega
  exact e

theorem qpop (d : Fin 32) (a : Fin 32) : Statement (.qpop d a) := by
  have := d.isLt; have := a.isLt
  have e : Sys2Proof.join 0x65000000 [Sys2Proof.shl d.val 19, Sys2Proof.shl a.val 14] < 2 ^ 32 := by
    apply join2_lt
    simp only [Sys2Proof.shl]
    omega
  exact e

theorem qdone (a : Fin 32) (b : Fin 32) : Statement (.qdone a b) := by
  have := a.isLt; have := b.isLt
  have e : Sys2Proof.join 0x66000000 [Sys2Proof.shl a.val 14, Sys2Proof.shl b.val 9] < 2 ^ 32 := by
    apply join2_lt
    simp only [Sys2Proof.shl]
    omega
  exact e

theorem irq (a : Fin 32) : Statement (.irq a) := by
  have := a.isLt
  have e : Sys2Proof.join 0x67000000 [Sys2Proof.shl a.val 14] < 2 ^ 32 := by
    apply join1_lt
    simp only [Sys2Proof.shl]
    omega
  exact e

theorem gfence (k : FenceKind) (s : Scope) : Statement (.gfence k s) := by
  have := fenceKind_code_le k; have := scope_code_le s
  have e : Sys2Proof.join 0x68000000 [Sys2Proof.shl k.code 3, s.code] < 2 ^ 32 := by
    apply join2_lt
    simp only [Sys2Proof.shl]
    omega
  exact e

theorem gamo (d : Fin 32) (a : Fin 32) (b : Fin 32) (w : Width) (r : GOrder) (o : GamoOp) : Statement (.gamo d a b w r o) := by
  have := d.isLt; have := a.isLt; have := b.isLt; have := width_code_le w; have := gOrder_code_le r; have := gamoOp_code_le o
  have e : Sys2Proof.join 0x69000000 [Sys2Proof.shl d.val 19, Sys2Proof.shl a.val 14, Sys2Proof.shl b.val 9, Sys2Proof.shl w.code 6, Sys2Proof.shl r.code 4, o.code] < 2 ^ 32 := by
    apply join6_lt
    simp only [Sys2Proof.shl]
    omega
  exact e

theorem sdef (v : Fin 8) (a : Sel) (b : Sel) (y : StrandDest) (t : Bool) (w : Bool) (z : ESize) : Statement (.sdef v a b y t w z) := by
  have := v.isLt; have := sel_code_lt a; have := sel_code_lt b; have := strandDest_codeBits_lt y; have := bool_toNat_lt t; have := bool_toNat_lt w; have := eSize_code_le z
  have e : Sys2Proof.join 0x70000000 [Sys2Proof.shl v.val 20, Sys2Proof.shl a.code 16, Sys2Proof.shl b.code 12, y.codeBits, Sys2Proof.shl t.toNat 5, Sys2Proof.shl w.toNat 6, z.code] < 2 ^ 32 := by
    apply join7_lt
    simp only [Sys2Proof.shl]
    omega
  exact e

theorem slen (v : Fin 8) (a : Sel) : Statement (.slen v a) := by
  have := v.isLt; have := sel_code_lt a
  have e : Sys2Proof.join 0x71000000 [Sys2Proof.shl v.val 20, Sys2Proof.shl a.code 16] < 2 ^ 32 := by
    apply join2_lt
    simp only [Sys2Proof.shl]
    omega
  exact e

theorem sgo (v : Fin 8) (a : Sel) : Statement (.sgo v a) := by
  have := v.isLt; have := sel_code_lt a
  have e : Sys2Proof.join 0x72000000 [Sys2Proof.shl v.val 20, Sys2Proof.shl a.code 16] < 2 ^ 32 := by
    apply join2_lt
    simp only [Sys2Proof.shl]
    omega
  exact e

theorem lds (d : Fin 8) (a : Sel) (b : Fin 8) (i : Fin 32) : Statement (.lds d a b i) := by
  have := d.isLt; have := sel_code_lt a; have := b.isLt; have := i.isLt
  have e : Sys2Proof.join 0x73000000 [Sys2Proof.shl d.val 20, Sys2Proof.shl a.code 16, Sys2Proof.shl b.val 12, Sys2Proof.shl i.val 7] < 2 ^ 32 := by
    apply join4_lt
    simp only [Sys2Proof.shl]
    omega
  exact e

theorem sts (v : Sel) (a : Sel) (b : Fin 8) (i : Fin 32) : Statement (.sts v a b i) := by
  have := sel_code_lt v; have := sel_code_lt a; have := b.isLt; have := i.isLt
  have e : Sys2Proof.join 0x74000000 [Sys2Proof.shl v.code 20, Sys2Proof.shl a.code 16, Sys2Proof.shl b.val 12, Sys2Proof.shl i.val 7] < 2 ^ 32 := by
    apply join4_lt
    simp only [Sys2Proof.shl]
    omega
  exact e

theorem ldsp (d : Fin 8) (a : Sel) (b : Sel) (i : Fin 32) (x : Bool) (z : Size) : Statement (.ldsp d a b i x z) := by
  have := d.isLt; have := sel_code_lt a; have := sel_code_lt b; have := i.isLt; have := bool_toNat_lt x; have := size_code_le z
  have e : Sys2Proof.join 0x75000000 [Sys2Proof.shl d.val 20, Sys2Proof.shl a.code 16, Sys2Proof.shl b.code 12, Sys2Proof.shl i.val 7, Sys2Proof.shl x.toNat 2, z.code] < 2 ^ 32 := by
    apply join6_lt
    simp only [Sys2Proof.shl]
    omega
  exact e

theorem stsp (v : Sel) (a : Sel) (b : Sel) (i : Fin 32) (z : Size) : Statement (.stsp v a b i z) := by
  have := sel_code_lt v; have := sel_code_lt a; have := sel_code_lt b; have := i.isLt; have := size_code_le z
  have e : Sys2Proof.join 0x76000000 [Sys2Proof.shl v.code 20, Sys2Proof.shl a.code 16, Sys2Proof.shl b.code 12, Sys2Proof.shl i.val 7, z.code] < 2 ^ 32 := by
    apply join5_lt
    simp only [Sys2Proof.shl]
    omega
  exact e

theorem ldf (d : Fin 8) (a : Sel) (b : Sel) (i : Fin 32) (c : Bool) (x : Bool) (z : Size) : Statement (.ldf d a b i c x z) := by
  have := d.isLt; have := sel_code_lt a; have := sel_code_lt b; have := i.isLt; have := bool_toNat_lt c; have := bool_toNat_lt x; have := size_code_le z
  have e : Sys2Proof.join 0x77000000 [Sys2Proof.shl d.val 20, Sys2Proof.shl a.code 16, Sys2Proof.shl b.code 12, Sys2Proof.shl i.val 7, Sys2Proof.shl c.toNat 3, Sys2Proof.shl x.toNat 2, z.code] < 2 ^ 32 := by
    apply join7_lt
    simp only [Sys2Proof.shl]
    omega
  exact e

theorem stf (v : Sel) (a : Sel) (b : Sel) (i : Fin 32) (z : Size) : Statement (.stf v a b i z) := by
  have := sel_code_lt v; have := sel_code_lt a; have := sel_code_lt b; have := i.isLt; have := size_code_le z
  have e : Sys2Proof.join 0x78000000 [Sys2Proof.shl v.code 20, Sys2Proof.shl a.code 16, Sys2Proof.shl b.code 12, Sys2Proof.shl i.val 7, z.code] < 2 ^ 32 := by
    apply join5_lt
    simp only [Sys2Proof.shl]
    omega
  exact e

theorem fec (a : Sel) (b : Sel) (i : Fin 32) (m : Bool) : Statement (.fec a b i m) := by
  have := sel_code_lt a; have := sel_code_lt b; have := i.isLt; have := bool_toNat_lt m
  have e : Sys2Proof.join 0x79000000 [Sys2Proof.shl a.code 16, Sys2Proof.shl b.code 12, Sys2Proof.shl i.val 7, m.toNat] < 2 ^ 32 := by
    apply join4_lt
    simp only [Sys2Proof.shl]
    omega
  exact e

theorem feq (d : Fin 8) (a : Sel) (i : Fin 32) (m : Bool) : Statement (.feq d a i m) := by
  have := d.isLt; have := sel_code_lt a; have := i.isLt; have := bool_toNat_lt m
  have e : Sys2Proof.join 0x7A000000 [Sys2Proof.shl d.val 20, Sys2Proof.shl a.code 16, Sys2Proof.shl i.val 7, m.toNat] < 2 ^ 32 := by
    apply join4_lt
    simp only [Sys2Proof.shl]
    omega
  exact e

theorem gath (v : Sel) (b : Fin 8) : Statement (.gath v b) := by
  have := sel_code_lt v; have := b.isLt
  have e : Sys2Proof.join 0x7B000000 [Sys2Proof.shl v.code 20, Sys2Proof.shl b.val 12] < 2 ^ 32 := by
    apply join2_lt
    simp only [Sys2Proof.shl]
    omega
  exact e

theorem scat (v : Sel) (a : Sel) (b : Fin 8) (i : Fin 32) : Statement (.scat v a b i) := by
  have := sel_code_lt v; have := sel_code_lt a; have := b.isLt; have := i.isLt
  have e : Sys2Proof.join 0x7C000000 [Sys2Proof.shl v.code 20, Sys2Proof.shl a.code 16, Sys2Proof.shl b.val 12, Sys2Proof.shl i.val 7] < 2 ^ 32 := by
    apply join4_lt
    simp only [Sys2Proof.shl]
    omega
  exact e

theorem scadd (v : Sel) (a : Sel) (b : Fin 8) (i : Fin 32) (t : ScType) : Statement (.scadd v a b i t) := by
  have := sel_code_lt v; have := sel_code_lt a; have := b.isLt; have := i.isLt; have := scType_code_le t
  have e : Sys2Proof.join 0x7D000000 [Sys2Proof.shl v.code 20, Sys2Proof.shl a.code 16, Sys2Proof.shl b.val 12, Sys2Proof.shl i.val 7, t.code] < 2 ^ 32 := by
    apply join5_lt
    simp only [Sys2Proof.shl]
    omega
  exact e

theorem scflush (b : Fin 8) (s : Scope) : Statement (.scflush b s) := by
  have := b.isLt; have := scope_code_le s
  have e : Sys2Proof.join 0x7E000000 [Sys2Proof.shl b.val 12, s.code] < 2 ^ 32 := by
    apply join2_lt
    simp only [Sys2Proof.shl]
    omega
  exact e

theorem copy (v : Sel) (a : Sel) (b : Sel) (i : Fin 32) (y : Bool) (x : Bool) : Statement (.copy v a b i y x) := by
  have := sel_code_lt v; have := sel_code_lt a; have := sel_code_lt b; have := i.isLt; have := bool_toNat_lt y; have := bool_toNat_lt x
  have e : Sys2Proof.join 0x7F000000 [Sys2Proof.shl v.code 20, Sys2Proof.shl a.code 16, Sys2Proof.shl b.code 12, Sys2Proof.shl i.val 7, Sys2Proof.shl y.toNat 1, x.toNat] < 2 ^ 32 := by
    apply join6_lt
    simp only [Sys2Proof.shl]
    omega
  exact e

theorem cpstat (d : Fin 8) (i : Fin 32) : Statement (.cpstat d i) := by
  have := d.isLt; have := i.isLt
  have e : Sys2Proof.join 0x80000000 [Sys2Proof.shl d.val 20, Sys2Proof.shl i.val 7] < 2 ^ 32 := by
    apply join2_lt
    simp only [Sys2Proof.shl]
    omega
  exact e

theorem pref (a : Sel) (b : Sel) : Statement (.pref a b) := by
  have := sel_code_lt a; have := sel_code_lt b
  have e : Sys2Proof.join 0x81000000 [Sys2Proof.shl a.code 16, Sys2Proof.shl b.code 12] < 2 ^ 32 := by
    apply join2_lt
    simp only [Sys2Proof.shl]
    omega
  exact e

theorem sbar (m : BitVec 4) (n : BitVec 4) (s : Scope) : Statement (.sbar m n s) := by
  have := m.isLt; have := n.isLt; have := scope_code_le s
  have e : Sys2Proof.join 0x82000000 [Sys2Proof.shl m.toNat 20, Sys2Proof.shl n.toNat 12, s.code] < 2 ^ 32 := by
    apply join3_lt
    simp only [Sys2Proof.shl]
    omega
  exact e

theorem ldm (d : Fin 8) (a : Sel) (b : Sel) (i : Fin 32) (x : Bool) (z : Size) : Statement (.ldm d a b i x z) := by
  have := d.isLt; have := sel_code_lt a; have := sel_code_lt b; have := i.isLt; have := bool_toNat_lt x; have := size_code_le z
  have e : Sys2Proof.join 0x83000000 [Sys2Proof.shl d.val 20, Sys2Proof.shl a.code 16, Sys2Proof.shl b.code 12, Sys2Proof.shl i.val 7, Sys2Proof.shl x.toNat 2, z.code] < 2 ^ 32 := by
    apply join6_lt
    simp only [Sys2Proof.shl]
    omega
  exact e

theorem stm (v : Sel) (a : Sel) (b : Sel) (i : Fin 32) (z : Size) : Statement (.stm v a b i z) := by
  have := sel_code_lt v; have := sel_code_lt a; have := sel_code_lt b; have := i.isLt; have := size_code_le z
  have e : Sys2Proof.join 0x84000000 [Sys2Proof.shl v.code 20, Sys2Proof.shl a.code 16, Sys2Proof.shl b.code 12, Sys2Proof.shl i.val 7, z.code] < 2 ^ 32 := by
    apply join5_lt
    simp only [Sys2Proof.shl]
    omega
  exact e

theorem ldmf (d : Fin 8) (a : Sel) (b : Sel) (i : Fin 32) (c : Bool) (x : Bool) (z : Size) : Statement (.ldmf d a b i c x z) := by
  have := d.isLt; have := sel_code_lt a; have := sel_code_lt b; have := i.isLt; have := bool_toNat_lt c; have := bool_toNat_lt x; have := size_code_le z
  have e : Sys2Proof.join 0x85000000 [Sys2Proof.shl d.val 20, Sys2Proof.shl a.code 16, Sys2Proof.shl b.code 12, Sys2Proof.shl i.val 7, Sys2Proof.shl c.toNat 3, Sys2Proof.shl x.toNat 2, z.code] < 2 ^ 32 := by
    apply join7_lt
    simp only [Sys2Proof.shl]
    omega
  exact e

theorem stmf (v : Sel) (a : Sel) (b : Sel) (i : Fin 32) (z : Size) : Statement (.stmf v a b i z) := by
  have := sel_code_lt v; have := sel_code_lt a; have := sel_code_lt b; have := i.isLt; have := size_code_le z
  have e : Sys2Proof.join 0x86000000 [Sys2Proof.shl v.code 20, Sys2Proof.shl a.code 16, Sys2Proof.shl b.code 12, Sys2Proof.shl i.val 7, z.code] < 2 ^ 32 := by
    apply join5_lt
    simp only [Sys2Proof.shl]
    omega
  exact e

theorem tld (t : Fin 16) (a : Sel) (b : Sel) (i : Fin 32) (p : Bool) : Statement (.tld t a b i p) := by
  have := t.isLt; have := sel_code_lt a; have := sel_code_lt b; have := i.isLt; have := bool_toNat_lt p
  have e : Sys2Proof.join 0x87000000 [Sys2Proof.shl t.val 20, Sys2Proof.shl a.code 16, Sys2Proof.shl b.code 12, Sys2Proof.shl i.val 7, p.toNat] < 2 ^ 32 := by
    apply join5_lt
    simp only [Sys2Proof.shl]
    omega
  exact e

theorem tst (t : Fin 16) (a : Sel) (b : Sel) (i : Fin 32) (p : Bool) : Statement (.tst t a b i p) := by
  have := t.isLt; have := sel_code_lt a; have := sel_code_lt b; have := i.isLt; have := bool_toNat_lt p
  have e : Sys2Proof.join 0x88000000 [Sys2Proof.shl t.val 20, Sys2Proof.shl a.code 16, Sys2Proof.shl b.code 12, Sys2Proof.shl i.val 7, p.toNat] < 2 ^ 32 := by
    apply join5_lt
    simp only [Sys2Proof.shl]
    omega
  exact e

theorem fence (k : FenceKind) (s : Scope) : Statement (.fence k s) := by
  have := fenceKind_code_le k; have := scope_code_le s
  have e : Sys2Proof.join 0x90000000 [Sys2Proof.shl k.code 3, s.code] < 2 ^ 32 := by
    apply join2_lt
    simp only [Sys2Proof.shl]
    omega
  exact e

theorem barj (d : Fin 8) (a : Sel) (s : Scope) : Statement (.barj d a s) := by
  have := d.isLt; have := sel_code_lt a; have := scope_code_le s
  have e : Sys2Proof.join 0x92000000 [Sys2Proof.shl d.val 20, Sys2Proof.shl a.code 16, s.code] < 2 ^ 32 := by
    apply join3_lt
    simp only [Sys2Proof.shl]
    omega
  exact e

theorem aadd (d : Fin 8) (a : Sel) (b : Sel) (i : Fin 32) (o : AtomOrder) (w : Width) : Statement (.aadd d a b i o w) := by
  have := d.isLt; have := sel_code_lt a; have := sel_code_lt b; have := i.isLt; have := atomOrder_codeBits_lt o; have := width_code_le w
  have e : Sys2Proof.join 0x93000000 [Sys2Proof.shl d.val 20, Sys2Proof.shl a.code 16, Sys2Proof.shl b.code 12, Sys2Proof.shl i.val 7, o.codeBits, w.code] < 2 ^ 32 := by
    apply join6_lt
    simp only [Sys2Proof.shl]
    omega
  exact e

theorem amin (d : Fin 8) (a : Sel) (b : Sel) (i : Fin 32) (o : AtomOrder) (w : Width) : Statement (.amin d a b i o w) := by
  have := d.isLt; have := sel_code_lt a; have := sel_code_lt b; have := i.isLt; have := atomOrder_codeBits_lt o; have := width_code_le w
  have e : Sys2Proof.join 0x94000000 [Sys2Proof.shl d.val 20, Sys2Proof.shl a.code 16, Sys2Proof.shl b.code 12, Sys2Proof.shl i.val 7, o.codeBits, w.code] < 2 ^ 32 := by
    apply join6_lt
    simp only [Sys2Proof.shl]
    omega
  exact e

theorem amax (d : Fin 8) (a : Sel) (b : Sel) (i : Fin 32) (o : AtomOrder) (w : Width) : Statement (.amax d a b i o w) := by
  have := d.isLt; have := sel_code_lt a; have := sel_code_lt b; have := i.isLt; have := atomOrder_codeBits_lt o; have := width_code_le w
  have e : Sys2Proof.join 0x95000000 [Sys2Proof.shl d.val 20, Sys2Proof.shl a.code 16, Sys2Proof.shl b.code 12, Sys2Proof.shl i.val 7, o.codeBits, w.code] < 2 ^ 32 := by
    apply join6_lt
    simp only [Sys2Proof.shl]
    omega
  exact e

theorem aminn (d : Fin 8) (a : Sel) (b : Sel) (i : Fin 32) (o : AtomOrder) (w : Width) : Statement (.aminn d a b i o w) := by
  have := d.isLt; have := sel_code_lt a; have := sel_code_lt b; have := i.isLt; have := atomOrder_codeBits_lt o; have := width_code_le w
  have e : Sys2Proof.join 0x96000000 [Sys2Proof.shl d.val 20, Sys2Proof.shl a.code 16, Sys2Proof.shl b.code 12, Sys2Proof.shl i.val 7, o.codeBits, w.code] < 2 ^ 32 := by
    apply join6_lt
    simp only [Sys2Proof.shl]
    omega
  exact e

theorem amaxn (d : Fin 8) (a : Sel) (b : Sel) (i : Fin 32) (o : AtomOrder) (w : Width) : Statement (.amaxn d a b i o w) := by
  have := d.isLt; have := sel_code_lt a; have := sel_code_lt b; have := i.isLt; have := atomOrder_codeBits_lt o; have := width_code_le w
  have e : Sys2Proof.join 0x97000000 [Sys2Proof.shl d.val 20, Sys2Proof.shl a.code 16, Sys2Proof.shl b.code 12, Sys2Proof.shl i.val 7, o.codeBits, w.code] < 2 ^ 32 := by
    apply join6_lt
    simp only [Sys2Proof.shl]
    omega
  exact e

theorem aand (d : Fin 8) (a : Sel) (b : Sel) (i : Fin 32) (o : AtomOrder) (w : Width) : Statement (.aand d a b i o w) := by
  have := d.isLt; have := sel_code_lt a; have := sel_code_lt b; have := i.isLt; have := atomOrder_codeBits_lt o; have := width_code_le w
  have e : Sys2Proof.join 0x98000000 [Sys2Proof.shl d.val 20, Sys2Proof.shl a.code 16, Sys2Proof.shl b.code 12, Sys2Proof.shl i.val 7, o.codeBits, w.code] < 2 ^ 32 := by
    apply join6_lt
    simp only [Sys2Proof.shl]
    omega
  exact e

theorem aor (d : Fin 8) (a : Sel) (b : Sel) (i : Fin 32) (o : AtomOrder) (w : Width) : Statement (.aor d a b i o w) := by
  have := d.isLt; have := sel_code_lt a; have := sel_code_lt b; have := i.isLt; have := atomOrder_codeBits_lt o; have := width_code_le w
  have e : Sys2Proof.join 0x99000000 [Sys2Proof.shl d.val 20, Sys2Proof.shl a.code 16, Sys2Proof.shl b.code 12, Sys2Proof.shl i.val 7, o.codeBits, w.code] < 2 ^ 32 := by
    apply join6_lt
    simp only [Sys2Proof.shl]
    omega
  exact e

theorem axor (d : Fin 8) (a : Sel) (b : Sel) (i : Fin 32) (o : AtomOrder) (w : Width) : Statement (.axor d a b i o w) := by
  have := d.isLt; have := sel_code_lt a; have := sel_code_lt b; have := i.isLt; have := atomOrder_codeBits_lt o; have := width_code_le w
  have e : Sys2Proof.join 0x9A000000 [Sys2Proof.shl d.val 20, Sys2Proof.shl a.code 16, Sys2Proof.shl b.code 12, Sys2Proof.shl i.val 7, o.codeBits, w.code] < 2 ^ 32 := by
    apply join6_lt
    simp only [Sys2Proof.shl]
    omega
  exact e

theorem axchg (d : Fin 8) (a : Sel) (b : Sel) (i : Fin 32) (o : AtomOrder) (w : Width) : Statement (.axchg d a b i o w) := by
  have := d.isLt; have := sel_code_lt a; have := sel_code_lt b; have := i.isLt; have := atomOrder_codeBits_lt o; have := width_code_le w
  have e : Sys2Proof.join 0x9B000000 [Sys2Proof.shl d.val 20, Sys2Proof.shl a.code 16, Sys2Proof.shl b.code 12, Sys2Proof.shl i.val 7, o.codeBits, w.code] < 2 ^ 32 := by
    apply join6_lt
    simp only [Sys2Proof.shl]
    omega
  exact e

theorem acas (d : Fin 8) (a : Sel) (b : Sel) (i : Fin 32) (o : AtomOrder) (w : Width) : Statement (.acas d a b i o w) := by
  have := d.isLt; have := sel_code_lt a; have := sel_code_lt b; have := i.isLt; have := atomOrder_codeBits_lt o; have := width_code_le w
  have e : Sys2Proof.join 0x9C000000 [Sys2Proof.shl d.val 20, Sys2Proof.shl a.code 16, Sys2Proof.shl b.code 12, Sys2Proof.shl i.val 7, o.codeBits, w.code] < 2 ^ 32 := by
    apply join6_lt
    simp only [Sys2Proof.shl]
    omega
  exact e

theorem afadd (d : Fin 8) (a : Sel) (b : Sel) (i : Fin 32) (o : AtomOrder) : Statement (.afadd d a b i o) := by
  have := d.isLt; have := sel_code_lt a; have := sel_code_lt b; have := i.isLt; have := atomOrder_codeBits_lt o
  have e : Sys2Proof.join 0x9D000001 [Sys2Proof.shl d.val 20, Sys2Proof.shl a.code 16, Sys2Proof.shl b.code 12, Sys2Proof.shl i.val 7, o.codeBits] < 2 ^ 32 := by
    apply join5_lt
    simp only [Sys2Proof.shl]
    omega
  exact e

theorem call (n : Fin 16) (i : BitVec 16) : Statement (.call n i) := by
  have := n.isLt; have := i.isLt
  have e : Sys2Proof.join 0xA0000000 [Sys2Proof.shl n.val 16, i.toNat] < 2 ^ 32 := by
    apply join2_lt
    simp only [Sys2Proof.shl]
    omega
  exact e

theorem callf (n : Fin 16) (i : BitVec 16) : Statement (.callf n i) := by
  have := n.isLt; have := i.isLt
  have e : Sys2Proof.join 0xA1000000 [Sys2Proof.shl n.val 16, i.toNat] < 2 ^ 32 := by
    apply join2_lt
    simp only [Sys2Proof.shl]
    omega
  exact e

theorem instid (d : Fin 8) : Statement (.instid d) := by
  have := d.isLt
  have e : Sys2Proof.join 0xA3000000 [Sys2Proof.shl d.val 20] < 2 ^ 32 := by
    apply join1_lt
    simp only [Sys2Proof.shl]
    omega
  exact e

theorem areaq (d : Fin 8) (h : BitVec 8) (w : BitVec 8) : Statement (.areaq d h w) := by
  have := d.isLt; have := h.isLt; have := w.isLt
  have e : Sys2Proof.join 0xA4000000 [Sys2Proof.shl d.val 20, Sys2Proof.shl h.toNat 8, w.toNat] < 2 ^ 32 := by
    apply join3_lt
    simp only [Sys2Proof.shl]
    omega
  exact e

theorem knotq (d : Fin 8) (i : BitVec 16) : Statement (.knotq d i) := by
  have := d.isLt; have := i.isLt
  have e : Sys2Proof.join 0xA5000000 [Sys2Proof.shl d.val 20, i.toNat] < 2 ^ 32 := by
    apply join2_lt
    simp only [Sys2Proof.shl]
    omega
  exact e

theorem vadd (d : Fin 16) (a : Fin 16) (b : Fin 16) (r : Rm) : Statement (.vadd d a b r) := by
  have := d.isLt; have := a.isLt; have := b.isLt; have := rm_code_le r
  have e : Sys2Proof.join 0xB0000000 [Sys2Proof.shl d.val 20, Sys2Proof.shl a.val 16, Sys2Proof.shl b.val 12, r.code] < 2 ^ 32 := by
    apply join4_lt
    simp only [Sys2Proof.shl]
    omega
  exact e

theorem vsub (d : Fin 16) (a : Fin 16) (b : Fin 16) (r : Rm) : Statement (.vsub d a b r) := by
  have := d.isLt; have := a.isLt; have := b.isLt; have := rm_code_le r
  have e : Sys2Proof.join 0xB1000000 [Sys2Proof.shl d.val 20, Sys2Proof.shl a.val 16, Sys2Proof.shl b.val 12, r.code] < 2 ^ 32 := by
    apply join4_lt
    simp only [Sys2Proof.shl]
    omega
  exact e

theorem vmul (d : Fin 16) (a : Fin 16) (b : Fin 16) (r : Rm) : Statement (.vmul d a b r) := by
  have := d.isLt; have := a.isLt; have := b.isLt; have := rm_code_le r
  have e : Sys2Proof.join 0xB2000000 [Sys2Proof.shl d.val 20, Sys2Proof.shl a.val 16, Sys2Proof.shl b.val 12, r.code] < 2 ^ 32 := by
    apply join4_lt
    simp only [Sys2Proof.shl]
    omega
  exact e

theorem vfma (d : Fin 16) (a : Fin 16) (b : Fin 16) (r : Rm) : Statement (.vfma d a b r) := by
  have := d.isLt; have := a.isLt; have := b.isLt; have := rm_code_le r
  have e : Sys2Proof.join 0xB3000000 [Sys2Proof.shl d.val 20, Sys2Proof.shl a.val 16, Sys2Proof.shl b.val 12, r.code] < 2 ^ 32 := by
    apply join4_lt
    simp only [Sys2Proof.shl]
    omega
  exact e

theorem vmin (d : Fin 16) (a : Fin 16) (b : Fin 16) : Statement (.vmin d a b) := by
  have := d.isLt; have := a.isLt; have := b.isLt
  have e : Sys2Proof.join 0xB4000000 [Sys2Proof.shl d.val 20, Sys2Proof.shl a.val 16, Sys2Proof.shl b.val 12] < 2 ^ 32 := by
    apply join3_lt
    simp only [Sys2Proof.shl]
    omega
  exact e

theorem vmax (d : Fin 16) (a : Fin 16) (b : Fin 16) : Statement (.vmax d a b) := by
  have := d.isLt; have := a.isLt; have := b.isLt
  have e : Sys2Proof.join 0xB5000000 [Sys2Proof.shl d.val 20, Sys2Proof.shl a.val 16, Sys2Proof.shl b.val 12] < 2 ^ 32 := by
    apply join3_lt
    simp only [Sys2Proof.shl]
    omega
  exact e

theorem vabs (d : Fin 16) (a : Fin 16) : Statement (.vabs d a) := by
  have := d.isLt; have := a.isLt
  have e : Sys2Proof.join 0xB6000000 [Sys2Proof.shl d.val 20, Sys2Proof.shl a.val 16] < 2 ^ 32 := by
    apply join2_lt
    simp only [Sys2Proof.shl]
    omega
  exact e

theorem vneg (d : Fin 16) (a : Fin 16) : Statement (.vneg d a) := by
  have := d.isLt; have := a.isLt
  have e : Sys2Proof.join 0xB7000000 [Sys2Proof.shl d.val 20, Sys2Proof.shl a.val 16] < 2 ^ 32 := by
    apply join2_lt
    simp only [Sys2Proof.shl]
    omega
  exact e

theorem vrcp (d : Fin 16) (a : Fin 16) (r : Rm) : Statement (.vrcp d a r) := by
  have := d.isLt; have := a.isLt; have := rm_code_le r
  have e : Sys2Proof.join 0xB8000000 [Sys2Proof.shl d.val 20, Sys2Proof.shl a.val 16, r.code] < 2 ^ 32 := by
    apply join3_lt
    simp only [Sys2Proof.shl]
    omega
  exact e

theorem vrsq (d : Fin 16) (a : Fin 16) (r : Rm) : Statement (.vrsq d a r) := by
  have := d.isLt; have := a.isLt; have := rm_code_le r
  have e : Sys2Proof.join 0xB9000000 [Sys2Proof.shl d.val 20, Sys2Proof.shl a.val 16, r.code] < 2 ^ 32 := by
    apply join3_lt
    simp only [Sys2Proof.shl]
    omega
  exact e

theorem vexp2 (d : Fin 16) (a : Fin 16) (r : Rm) : Statement (.vexp2 d a r) := by
  have := d.isLt; have := a.isLt; have := rm_code_le r
  have e : Sys2Proof.join 0xBA000000 [Sys2Proof.shl d.val 20, Sys2Proof.shl a.val 16, r.code] < 2 ^ 32 := by
    apply join3_lt
    simp only [Sys2Proof.shl]
    omega
  exact e

theorem vlog2 (d : Fin 16) (a : Fin 16) (r : Rm) : Statement (.vlog2 d a r) := by
  have := d.isLt; have := a.isLt; have := rm_code_le r
  have e : Sys2Proof.join 0xBB000000 [Sys2Proof.shl d.val 20, Sys2Proof.shl a.val 16, r.code] < 2 ^ 32 := by
    apply join3_lt
    simp only [Sys2Proof.shl]
    omega
  exact e

theorem vcvt (d : Fin 16) (a : Fin 16) (b : Fin 16) (f : BitVec 6) (r : Rm) : Statement (.vcvt d a b f r) := by
  have := d.isLt; have := a.isLt; have := b.isLt; have := f.isLt; have := rm_code_le r
  have e : Sys2Proof.join 0xBC000000 [Sys2Proof.shl d.val 20, Sys2Proof.shl a.val 16, Sys2Proof.shl b.val 12, Sys2Proof.shl f.toNat 3, r.code] < 2 ^ 32 := by
    apply join5_lt
    simp only [Sys2Proof.shl]
    omega
  exact e

theorem vscl (d : Fin 16) (a : Fin 16) (b : Fin 16) (k : Fin 16) (r : Rm) : Statement (.vscl d a b k r) := by
  have := d.isLt; have := a.isLt; have := b.isLt; have := k.isLt; have := rm_code_le r
  have e : Sys2Proof.join 0xBD000000 [Sys2Proof.shl d.val 20, Sys2Proof.shl a.val 16, Sys2Proof.shl b.val 12, Sys2Proof.shl k.val 3, r.code] < 2 ^ 32 := by
    apply join5_lt
    simp only [Sys2Proof.shl]
    omega
  exact e

theorem vreds (d : Fin 8) (a : Fin 16) (b : Fin 16) : Statement (.vreds d a b) := by
  have := d.isLt; have := a.isLt; have := b.isLt
  have e : Sys2Proof.join 0xBE000000 [Sys2Proof.shl d.val 20, Sys2Proof.shl a.val 16, Sys2Proof.shl b.val 12] < 2 ^ 32 := by
    apply join3_lt
    simp only [Sys2Proof.shl]
    omega
  exact e

theorem vredx (d : Fin 8) (a : Fin 16) (b : Fin 16) : Statement (.vredx d a b) := by
  have := d.isLt; have := a.isLt; have := b.isLt
  have e : Sys2Proof.join 0xBF000000 [Sys2Proof.shl d.val 20, Sys2Proof.shl a.val 16, Sys2Proof.shl b.val 12] < 2 ^ 32 := by
    apply join3_lt
    simp only [Sys2Proof.shl]
    omega
  exact e

theorem vcmp (d : Fin 16) (a : Fin 16) (b : Fin 16) (p : Pred) : Statement (.vcmp d a b p) := by
  have := d.isLt; have := a.isLt; have := b.isLt; have := pred_code_le p
  have e : Sys2Proof.join 0xC0000000 [Sys2Proof.shl d.val 20, Sys2Proof.shl a.val 16, Sys2Proof.shl b.val 12, Sys2Proof.shl p.code 3] < 2 ^ 32 := by
    apply join4_lt
    simp only [Sys2Proof.shl]
    omega
  exact e

theorem vsel (d : Fin 16) (a : Fin 16) (b : Fin 16) (m : Fin 16) : Statement (.vsel d a b m) := by
  have := d.isLt; have := a.isLt; have := b.isLt; have := m.isLt
  have e : Sys2Proof.join 0xC1000000 [Sys2Proof.shl d.val 20, Sys2Proof.shl a.val 16, Sys2Proof.shl b.val 12, Sys2Proof.shl m.val 5] < 2 ^ 32 := by
    apply join4_lt
    simp only [Sys2Proof.shl]
    omega
  exact e

theorem vbcast (d : Fin 16) (a : Sel) : Statement (.vbcast d a) := by
  have := d.isLt; have := sel_code_lt a
  have e : Sys2Proof.join 0xC2000000 [Sys2Proof.shl d.val 20, Sys2Proof.shl a.code 16] < 2 ^ 32 := by
    apply join2_lt
    simp only [Sys2Proof.shl]
    omega
  exact e

theorem vext (d : Fin 8) (a : Fin 16) (b : Fin 16) (c : BitVec 12) : Statement (.vext d a b c) := by
  have := d.isLt; have := a.isLt; have := b.isLt; have := c.isLt
  have e : Sys2Proof.join 0xC3000000 [Sys2Proof.shl d.val 20, Sys2Proof.shl a.val 16, Sys2Proof.shl b.val 12, c.toNat] < 2 ^ 32 := by
    apply join4_lt
    simp only [Sys2Proof.shl]
    omega
  exact e

theorem vdot (d : Fin 8) (a : Fin 16) (b : Fin 16) (r : Fin 16) : Statement (.vdot d a b r) := by
  have := d.isLt; have := a.isLt; have := b.isLt; have := r.isLt
  have e : Sys2Proof.join 0xC4000000 [Sys2Proof.shl d.val 20, Sys2Proof.shl a.val 16, Sys2Proof.shl b.val 12, Sys2Proof.shl r.val 3] < 2 ^ 32 := by
    apply join4_lt
    simp only [Sys2Proof.shl]
    omega
  exact e

theorem vshf (d : Fin 16) (a : Fin 16) (b : Fin 16) : Statement (.vshf d a b) := by
  have := d.isLt; have := a.isLt; have := b.isLt
  have e : Sys2Proof.join 0xC5000000 [Sys2Proof.shl d.val 20, Sys2Proof.shl a.val 16, Sys2Proof.shl b.val 12] < 2 ^ 32 := by
    apply join3_lt
    simp only [Sys2Proof.shl]
    omega
  exact e

theorem fadd (d : Fin 8) (a : Sel) (b : Sel) (f : FpFmt) (r : Rm) : Statement (.fadd d a b f r) := by
  have := d.isLt; have := sel_code_lt a; have := sel_code_lt b; have := fpFmt_code_le f; have := rm_code_le r
  have e : Sys2Proof.join 0xC6000000 [Sys2Proof.shl d.val 20, Sys2Proof.shl a.code 16, Sys2Proof.shl b.code 12, Sys2Proof.shl f.code 3, r.code] < 2 ^ 32 := by
    apply join5_lt
    simp only [Sys2Proof.shl]
    omega
  exact e

theorem fsub (d : Fin 8) (a : Sel) (b : Sel) (f : FpFmt) (r : Rm) : Statement (.fsub d a b f r) := by
  have := d.isLt; have := sel_code_lt a; have := sel_code_lt b; have := fpFmt_code_le f; have := rm_code_le r
  have e : Sys2Proof.join 0xC7000000 [Sys2Proof.shl d.val 20, Sys2Proof.shl a.code 16, Sys2Proof.shl b.code 12, Sys2Proof.shl f.code 3, r.code] < 2 ^ 32 := by
    apply join5_lt
    simp only [Sys2Proof.shl]
    omega
  exact e

theorem fmul (d : Fin 8) (a : Sel) (b : Sel) (f : FpFmt) (r : Rm) : Statement (.fmul d a b f r) := by
  have := d.isLt; have := sel_code_lt a; have := sel_code_lt b; have := fpFmt_code_le f; have := rm_code_le r
  have e : Sys2Proof.join 0xC8000000 [Sys2Proof.shl d.val 20, Sys2Proof.shl a.code 16, Sys2Proof.shl b.code 12, Sys2Proof.shl f.code 3, r.code] < 2 ^ 32 := by
    apply join5_lt
    simp only [Sys2Proof.shl]
    omega
  exact e

theorem ffma (d : Fin 8) (a : Sel) (b : Sel) (c : Sel) (f : FpFmt) (r : Rm) : Statement (.ffma d a b c f r) := by
  have := d.isLt; have := sel_code_lt a; have := sel_code_lt b; have := sel_code_lt c; have := fpFmt_code_le f; have := rm_code_le r
  have e : Sys2Proof.join 0xC9000000 [Sys2Proof.shl d.val 20, Sys2Proof.shl a.code 16, Sys2Proof.shl b.code 12, Sys2Proof.shl c.code 8, Sys2Proof.shl f.code 3, r.code] < 2 ^ 32 := by
    apply join6_lt
    simp only [Sys2Proof.shl]
    omega
  exact e

theorem fcvt (d : Fin 8) (a : Sel) (s : CvtFmt) (x : CvtFmt) (r : Rm) : Statement (.fcvt d a s x r) := by
  have := d.isLt; have := sel_code_lt a; have := cvtFmt_code_le s; have := cvtFmt_code_le x; have := rm_code_le r
  have e : Sys2Proof.join 0xCA000000 [Sys2Proof.shl d.val 20, Sys2Proof.shl a.code 16, Sys2Proof.shl s.code 8, Sys2Proof.shl x.code 5, r.code] < 2 ^ 32 := by
    apply join5_lt
    simp only [Sys2Proof.shl]
    omega
  exact e

theorem fcmp (d : Fin 8) (a : Sel) (b : Sel) (p : Pred) (f : FpFmt) : Statement (.fcmp d a b p f) := by
  have := d.isLt; have := sel_code_lt a; have := sel_code_lt b; have := pred_code_le p; have := fpFmt_code_le f
  have e : Sys2Proof.join 0xCB000000 [Sys2Proof.shl d.val 20, Sys2Proof.shl a.code 16, Sys2Proof.shl b.code 12, Sys2Proof.shl p.code 5, Sys2Proof.shl f.code 3] < 2 ^ 32 := by
    apply join5_lt
    simp only [Sys2Proof.shl]
    omega
  exact e

theorem fmin (d : Fin 8) (a : Sel) (b : Sel) (f : FpFmt) : Statement (.fmin d a b f) := by
  have := d.isLt; have := sel_code_lt a; have := sel_code_lt b; have := fpFmt_code_le f
  have e : Sys2Proof.join 0xCC000000 [Sys2Proof.shl d.val 20, Sys2Proof.shl a.code 16, Sys2Proof.shl b.code 12, Sys2Proof.shl f.code 3] < 2 ^ 32 := by
    apply join4_lt
    simp only [Sys2Proof.shl]
    omega
  exact e

theorem fmax (d : Fin 8) (a : Sel) (b : Sel) (f : FpFmt) : Statement (.fmax d a b f) := by
  have := d.isLt; have := sel_code_lt a; have := sel_code_lt b; have := fpFmt_code_le f
  have e : Sys2Proof.join 0xCD000000 [Sys2Proof.shl d.val 20, Sys2Proof.shl a.code 16, Sys2Proof.shl b.code 12, Sys2Proof.shl f.code 3] < 2 ^ 32 := by
    apply join4_lt
    simp only [Sys2Proof.shl]
    omega
  exact e

theorem vseed (a : Sel) : Statement (.vseed a) := by
  have := sel_code_lt a
  have e : Sys2Proof.join 0xCE000000 [Sys2Proof.shl a.code 16] < 2 ^ 32 := by
    apply join1_lt
    simp only [Sys2Proof.shl]
    omega
  exact e

theorem tcfg (d : Fin 16) (a : Fin 16) (w : TWidth) (b : Fin 12) : Statement (.tcfg d a w b) := by
  have := d.isLt; have := a.isLt; have := tWidth_code_le w; have := b.isLt
  have e : Sys2Proof.join 0xD0000000 [Sys2Proof.shl d.val 20, Sys2Proof.shl a.val 16, Sys2Proof.shl w.code 4, b.val] < 2 ^ 32 := by
    apply join4_lt
    simp only [Sys2Proof.shl]
    omega
  exact e

theorem tzero (d : Fin 16) : Statement (.tzero d) := by
  have := d.isLt
  have e : Sys2Proof.join 0xD1000000 [Sys2Proof.shl d.val 20] < 2 ^ 32 := by
    apply join1_lt
    simp only [Sys2Proof.shl]
    omega
  exact e

theorem tmov (d : Fin 16) (a : Fin 16) : Statement (.tmov d a) := by
  have := d.isLt; have := a.isLt
  have e : Sys2Proof.join 0xD2000000 [Sys2Proof.shl d.val 20, Sys2Proof.shl a.val 16] < 2 ^ 32 := by
    apply join2_lt
    simp only [Sys2Proof.shl]
    omega
  exact e

theorem txp (d : Fin 16) (a : Fin 16) : Statement (.txp d a) := by
  have := d.isLt; have := a.isLt
  have e : Sys2Proof.join 0xD3000000 [Sys2Proof.shl d.val 20, Sys2Proof.shl a.val 16] < 2 ^ 32 := by
    apply join2_lt
    simp only [Sys2Proof.shl]
    omega
  exact e

theorem mma (a : Fin 16) (b : Fin 16) (c : Fin 8) : Statement (.mma a b c) := by
  have := a.isLt; have := b.isLt; have := c.isLt
  have e : Sys2Proof.join 0xD4000000 [Sys2Proof.shl a.val 16, Sys2Proof.shl b.val 12, Sys2Proof.shl c.val 9] < 2 ^ 32 := by
    apply join3_lt
    simp only [Sys2Proof.shl]
    omega
  exact e

theorem mmas (s : Fin 16) (a : Fin 16) (b : Fin 16) (c : Fin 8) : Statement (.mmas s a b c) := by
  have := s.isLt; have := a.isLt; have := b.isLt; have := c.isLt
  have e : Sys2Proof.join 0xD5000000 [Sys2Proof.shl s.val 20, Sys2Proof.shl a.val 16, Sys2Proof.shl b.val 12, Sys2Proof.shl c.val 9] < 2 ^ 32 := by
    apply join4_lt
    simp only [Sys2Proof.shl]
    omega
  exact e

theorem accrd (n : Fin 16) (s : Sel) (c : Fin 8) (r : Rm) (f : BitVec 6) : Statement (.accrd n s c r f) := by
  have := n.isLt; have := sel_code_lt s; have := c.isLt; have := rm_code_le r; have := f.isLt
  have e : Sys2Proof.join 0xD6000000 [Sys2Proof.shl n.val 20, Sys2Proof.shl s.code 16, Sys2Proof.shl c.val 9, Sys2Proof.shl r.code 6, f.toNat] < 2 ^ 32 := by
    apply join5_lt
    simp only [Sys2Proof.shl]
    omega
  exact e

theorem accld (a : Fin 16) (c : Fin 8) : Statement (.accld a c) := by
  have := a.isLt; have := c.isLt
  have e : Sys2Proof.join 0xD8000000 [Sys2Proof.shl a.val 16, Sys2Proof.shl c.val 9] < 2 ^ 32 := by
    apply join2_lt
    simp only [Sys2Proof.shl]
    omega
  exact e

theorem wpre (a : Fin 16) : Statement (.wpre a) := by
  have := a.isLt
  have e : Sys2Proof.join 0xD9000000 [Sys2Proof.shl a.val 16] < 2 ^ 32 := by
    apply join1_lt
    simp only [Sys2Proof.shl]
    omega
  exact e

theorem afeed (a : Fin 16) : Statement (.afeed a) := by
  have := a.isLt
  have e : Sys2Proof.join 0xDA000000 [Sys2Proof.shl a.val 16] < 2 ^ 32 := by
    apply join1_lt
    simp only [Sys2Proof.shl]
    omega
  exact e

theorem plstat (d : Fin 8) : Statement (.plstat d) := by
  have := d.isLt
  have e : Sys2Proof.join 0xDB000000 [Sys2Proof.shl d.val 20] < 2 ^ 32 := by
    apply join1_lt
    simp only [Sys2Proof.shl]
    omega
  exact e

theorem hfw (a : Sel) (r : HReg) (f : Fin 16) : Statement (.hfw a r f) := by
  have := sel_code_lt a; have := hReg_code_le r; have := f.isLt
  have e : Sys2Proof.join 0xE0000000 [Sys2Proof.shl a.code 16, Sys2Proof.shl r.code 4, f.val] < 2 ^ 32 := by
    apply join3_lt
    simp only [Sys2Proof.shl]
    omega
  exact e

theorem hfr (d : Fin 8) (r : HReg) (f : Fin 16) : Statement (.hfr d r f) := by
  have := d.isLt; have := hReg_code_le r; have := f.isLt
  have e : Sys2Proof.join 0xE1000000 [Sys2Proof.shl d.val 20, Sys2Proof.shl r.code 4, f.val] < 2 ^ 32 := by
    apply join3_lt
    simp only [Sys2Proof.shl]
    omega
  exact e

theorem hash (n : Fin 16) (a : Sel) (b : Sel) (f : Fin 16) : Statement (.hash n a b f) := by
  have := n.isLt; have := sel_code_lt a; have := sel_code_lt b; have := f.isLt
  have e : Sys2Proof.join 0xE2000000 [Sys2Proof.shl n.val 20, Sys2Proof.shl a.code 16, Sys2Proof.shl b.code 12, f.val] < 2 ^ 32 := by
    apply join4_lt
    simp only [Sys2Proof.shl]
    omega
  exact e

theorem tins (v : Sel) (a : Sel) (b : Sel) (i : Fin 32) (f : Fin 16) : Statement (.tins v a b i f) := by
  have := sel_code_lt v; have := sel_code_lt a; have := sel_code_lt b; have := i.isLt; have := f.isLt
  have e : Sys2Proof.join 0xE3000000 [Sys2Proof.shl v.code 20, Sys2Proof.shl a.code 16, Sys2Proof.shl b.code 12, Sys2Proof.shl i.val 7, f.val] < 2 ^ 32 := by
    apply join5_lt
    simp only [Sys2Proof.shl]
    omega
  exact e

theorem tdel (v : Sel) (a : Sel) (b : Sel) (i : Fin 32) (f : Fin 16) : Statement (.tdel v a b i f) := by
  have := sel_code_lt v; have := sel_code_lt a; have := sel_code_lt b; have := i.isLt; have := f.isLt
  have e : Sys2Proof.join 0xE4000000 [Sys2Proof.shl v.code 20, Sys2Proof.shl a.code 16, Sys2Proof.shl b.code 12, Sys2Proof.shl i.val 7, f.val] < 2 ^ 32 := by
    apply join5_lt
    simp only [Sys2Proof.shl]
    omega
  exact e

theorem tprb (n : Fin 16) (a : Sel) (b : Sel) (f : Fin 16) : Statement (.tprb n a b f) := by
  have := n.isLt; have := sel_code_lt a; have := sel_code_lt b; have := f.isLt
  have e : Sys2Proof.join 0xE5000000 [Sys2Proof.shl n.val 20, Sys2Proof.shl a.code 16, Sys2Proof.shl b.code 12, f.val] < 2 ^ 32 := by
    apply join4_lt
    simp only [Sys2Proof.shl]
    omega
  exact e

theorem trhs (v : Sel) (a : Sel) (i : Fin 32) : Statement (.trhs v a i) := by
  have := sel_code_lt v; have := sel_code_lt a; have := i.isLt
  have e : Sys2Proof.join 0xE6000000 [Sys2Proof.shl v.code 20, Sys2Proof.shl a.code 16, Sys2Proof.shl i.val 7] < 2 ^ 32 := by
    apply join3_lt
    simp only [Sys2Proof.shl]
    omega
  exact e

theorem tfen (a : Sel) (s : Scope) : Statement (.tfen a s) := by
  have := sel_code_lt a; have := scope_code_le s
  have e : Sys2Proof.join 0xE7000000 [Sys2Proof.shl a.code 16, s.code] < 2 ^ 32 := by
    apply join2_lt
    simp only [Sys2Proof.shl]
    omega
  exact e

theorem tstat (d : Fin 8) (a : Sel) : Statement (.tstat d a) := by
  have := d.isLt; have := sel_code_lt a
  have e : Sys2Proof.join 0xE8000000 [Sys2Proof.shl d.val 20, Sys2Proof.shl a.code 16] < 2 ^ 32 := by
    apply join2_lt
    simp only [Sys2Proof.shl]
    omega
  exact e

theorem tovp (a : Sel) (i : Fin 32) (p : OvPolicy) : Statement (.tovp a i p) := by
  have := sel_code_lt a; have := i.isLt; have := ovPolicy_code_le p
  have e : Sys2Proof.join 0xE9000000 [Sys2Proof.shl a.code 16, Sys2Proof.shl i.val 7, p.code] < 2 ^ 32 := by
    apply join3_lt
    simp only [Sys2Proof.shl]
    omega
  exact e

theorem qrd (d : Fin 8) (s : Bool) : Statement (.qrd d s) := by
  have := d.isLt; have := bool_toNat_lt s
  have e : Sys2Proof.join 0xF0000000 [Sys2Proof.shl d.val 20, s.toNat] < 2 ^ 32 := by
    apply join2_lt
    simp only [Sys2Proof.shl]
    omega
  exact e

theorem qarm (a : Sel) : Statement (.qarm a) := by
  have := sel_code_lt a
  have e : Sys2Proof.join 0xF1000000 [Sys2Proof.shl a.code 16] < 2 ^ 32 := by
    apply join1_lt
    simp only [Sys2Proof.shl]
    omega
  exact e

theorem trc (a : Sel) (c : BitVec 14) : Statement (.trc a c) := by
  have := sel_code_lt a; have := c.isLt
  have e : Sys2Proof.join 0xF2000000 [Sys2Proof.shl a.code 16, c.toNat] < 2 ^ 32 := by
    apply join2_lt
    simp only [Sys2Proof.shl]
    omega
  exact e

theorem time (d : Fin 8) (f : Bool) : Statement (.time d f) := by
  have := d.isLt; have := bool_toNat_lt f
  have e : Sys2Proof.join 0xF3000000 [Sys2Proof.shl d.val 20, f.toNat] < 2 ^ 32 := by
    apply join2_lt
    simp only [Sys2Proof.shl]
    omega
  exact e

theorem emtr (d : Fin 8) (c : Meter) : Statement (.emtr d c) := by
  have := d.isLt; have := meter_code_le c
  have e : Sys2Proof.join 0xF6000000 [Sys2Proof.shl d.val 20, c.code] < 2 ^ 32 := by
    apply join2_lt
    simp only [Sys2Proof.shl]
    omega
  exact e

theorem heatq (d : Fin 8) : Statement (.heatq d) := by
  have := d.isLt
  have e : Sys2Proof.join 0xF7000000 [Sys2Proof.shl d.val 20] < 2 ^ 32 := by
    apply join1_lt
    simp only [Sys2Proof.shl]
    omega
  exact e

theorem qrdCi (d : Fin 32) (s : Bool) : Statement (.qrdCi d s) := by
  have := d.isLt; have := bool_toNat_lt s
  have e : Sys2Proof.join 0xF0000000 [Sys2Proof.shl d.val 19, s.toNat] < 2 ^ 32 := by
    apply join2_lt
    simp only [Sys2Proof.shl]
    omega
  exact e

theorem qarmCi (a : Fin 32) : Statement (.qarmCi a) := by
  have := a.isLt
  have e : Sys2Proof.join 0xF1000000 [Sys2Proof.shl a.val 14] < 2 ^ 32 := by
    apply join1_lt
    simp only [Sys2Proof.shl]
    omega
  exact e

theorem trcCi (a : Fin 32) (c : BitVec 14) : Statement (.trcCi a c) := by
  have := a.isLt; have := c.isLt
  have e : Sys2Proof.join 0xF2000000 [Sys2Proof.shl a.val 14, c.toNat] < 2 ^ 32 := by
    apply join2_lt
    simp only [Sys2Proof.shl]
    omega
  exact e

theorem timeCi (d : Fin 32) (f : Bool) : Statement (.timeCi d f) := by
  have := d.isLt; have := bool_toNat_lt f
  have e : Sys2Proof.join 0xF3000000 [Sys2Proof.shl d.val 19, f.toNat] < 2 ^ 32 := by
    apply join2_lt
    simp only [Sys2Proof.shl]
    omega
  exact e

theorem emtrCi (d : Fin 32) (c : Meter) : Statement (.emtrCi d c) := by
  have := d.isLt; have := meter_code_le c
  have e : Sys2Proof.join 0xF6000000 [Sys2Proof.shl d.val 19, c.code] < 2 ^ 32 := by
    apply join2_lt
    simp only [Sys2Proof.shl]
    omega
  exact e

theorem heatqCi (d : Fin 32) : Statement (.heatqCi d) := by
  have := d.isLt
  have e : Sys2Proof.join 0xF7000000 [Sys2Proof.shl d.val 19] < 2 ^ 32 := by
    apply join1_lt
    simp only [Sys2Proof.shl]
    omega
  exact e

theorem nop : Statement .nop := by unfold Statement; decide

theorem lfree : Statement .lfree := by unfold Statement; decide

theorem eret : Statement .eret := by unfold Statement; decide

theorem wfe : Statement .wfe := by unfold Statement; decide

theorem stilePlot : Statement .stilePlot := by unfold Statement; decide

theorem stileDie : Statement .stileDie := by unfold Statement; decide

theorem stileDevice : Statement .stileDevice := by unfold Statement; decide

theorem stileSystem : Statement .stileSystem := by unfold Statement; decide

theorem ret : Statement .ret := by unfold Statement; decide

theorem accclr0 : Statement .accclr0 := by unfold Statement; decide

theorem accclr1 : Statement .accclr1 := by unfold Statement; decide

theorem accclr2 : Statement .accclr2 := by unfold Statement; decide

theorem accclr3 : Statement .accclr3 := by unfold Statement; decide

theorem accclr4 : Statement .accclr4 := by unfold Statement; decide

theorem accclr5 : Statement .accclr5 := by unfold Statement; decide

theorem accclr6 : Statement .accclr6 := by unfold Statement; decide

theorem accclr7 : Statement .accclr7 := by unfold Statement; decide

theorem prio0 : Statement .prio0 := by unfold Statement; decide

theorem prio1 : Statement .prio1 := by unfold Statement; decide

theorem prio2 : Statement .prio2 := by unfold Statement; decide

theorem prio3 : Statement .prio3 := by unfold Statement; decide

theorem prio4 : Statement .prio4 := by unfold Statement; decide

theorem prio5 : Statement .prio5 := by unfold Statement; decide

theorem prio6 : Statement .prio6 := by unfold Statement; decide

theorem prio7 : Statement .prio7 := by unfold Statement; decide

theorem yield : Statement .yield := by unfold Statement; decide

theorem tokenArrival : Statement .tokenArrival := by unfold Statement; decide

theorem frameFire : Statement .frameFire := by unfold Statement; decide

theorem firingCommit : Statement .firingCommit := by unfold Statement; decide

theorem frameResume : Statement .frameResume := by unfold Statement; decide

theorem entryReturn : Statement .entryReturn := by unfold Statement; decide

theorem loopCredit : Statement .loopCredit := by unfold Statement; decide

theorem barrierJoin : Statement .barrierJoin := by unfold Statement; decide

theorem sinkWrite : Statement .sinkWrite := by unfold Statement; decide

theorem callRequest : Statement .callRequest := by unfold Statement; decide

theorem spawnRequest : Statement .spawnRequest := by unfold Statement; decide

theorem placementStart : Statement .placementStart := by unfold Statement; decide

theorem placementCommit : Statement .placementCommit := by unfold Statement; decide

theorem commitAcknowledged : Statement .commitAcknowledged := by unfold Statement; decide

theorem placementAbort : Statement .placementAbort := by unfold Statement; decide

theorem evictionStart : Statement .evictionStart := by unfold Statement; decide

theorem evictionComplete : Statement .evictionComplete := by unfold Statement; decide

theorem savedGranuleTest : Statement .savedGranuleTest := by unfold Statement; decide

theorem areaArbiterPass : Statement .areaArbiterPass := by unfold Statement; decide

theorem fencedToken : Statement .fencedToken := by unfold Statement; decide

theorem sweepArrival : Statement .sweepArrival := by unfold Statement; decide

theorem strandElementIssue : Statement .strandElementIssue := by unfold Statement; decide

theorem memoryRequest : Statement .memoryRequest := by unfold Statement; decide

theorem walkReadComplete : Statement .walkReadComplete := by unfold Statement; decide

theorem accessReturn : Statement .accessReturn := by unfold Statement; decide

theorem rdcInvalidation : Statement .rdcInvalidation := by unfold Statement; decide

theorem binApply : Statement .binApply := by unfold Statement; decide

theorem copyGranule : Statement .copyGranule := by unfold Statement; decide

theorem heatBucketCycle : Statement .heatBucketCycle := by unfold Statement; decide

theorem matrixEntryStart : Statement .matrixEntryStart := by unfold Statement; decide

theorem matrixEntryEnd : Statement .matrixEntryEnd := by unfold Statement; decide

theorem partialArrival : Statement .partialArrival := by unfold Statement; decide

theorem thicketProbe : Statement .thicketProbe := by unfold Statement; decide

theorem thicketUpdate : Statement .thicketUpdate := by unfold Statement; decide

theorem interrupt : Statement .interrupt := by unfold Statement; decide

theorem notifyWrite : Statement .notifyWrite := by unfold Statement; decide

theorem packetRead : Statement .packetRead := by unfold Statement; decide

theorem hostRingPoll : Statement .hostRingPoll := by unfold Statement; decide

theorem faultRingPoll : Statement .faultRingPoll := by unfold Statement; decide

theorem flitCrcFail : Statement .flitCrcFail := by unfold Statement; decide

theorem timeMessage : Statement .timeMessage := by unfold Statement; decide

theorem columnMeasurement : Statement .columnMeasurement := by unfold Statement; decide

theorem energyDebit : Statement .energyDebit := by unfold Statement; decide

theorem grantUpdate : Statement .grantUpdate := by unfold Statement; decide

theorem sliceTick : Statement .sliceTick := by unfold Statement; decide

theorem markerInjection : Statement .markerInjection := by unfold Statement; decide

theorem stationSave : Statement .stationSave := by unfold Statement; decide

theorem hedgerowDrainComplete : Statement .hedgerowDrainComplete := by unfold Statement; decide

theorem partitionSaveComplete : Statement .partitionSaveComplete := by unfold Statement; decide

theorem correctedError : Statement .correctedError := by unfold Statement; decide

theorem sramUncorrectable : Statement .sramUncorrectable := by unfold Statement; decide

theorem tagUncorrectable : Statement .tagUncorrectable := by unfold Statement; decide

theorem hbmPoison : Statement .hbmPoison := by unfold Statement; decide

theorem remapTableLoss : Statement .remapTableLoss := by unfold Statement; decide

theorem powerOnReset : Statement .powerOnReset := by unfold Statement; decide

theorem faladeVerify : Statement .faladeVerify := by unfold Statement; decide

theorem supplyRaise : Statement .supplyRaise := by unfold Statement; decide

theorem hbmTrain : Statement .hbmTrain := by unfold Statement; decide

theorem microcodeVerify : Statement .microcodeVerify := by unfold Statement; decide

theorem simiowTrain : Statement .simiowTrain := by unfold Statement; decide

theorem powerDieFault : Statement .powerDieFault := by unfold Statement; decide

theorem flashRecovery : Statement .flashRecovery := by unfold Statement; decide

theorem registerWrite : Statement .registerWrite := by unfold Statement; decide

theorem scrub : Statement .scrub := by unfold Statement; decide

theorem assign : Statement .assign := by unfold Statement; decide

theorem release : Statement .release := by unfold Statement; decide

theorem fotFrameComplete : Statement .fotFrameComplete := by unfold Statement; decide

theorem tlbinvAll : Statement .tlbinvAll := by unfold Statement; decide

theorem tlbinvStage1 : Statement .tlbinvStage1 := by unfold Statement; decide

theorem tlbinvStage2 : Statement .tlbinvStage2 := by unfold Statement; decide

theorem tlbinvComplete : Statement .tlbinvComplete := by unfold Statement; decide

theorem pageResponseResolved : Statement .pageResponseResolved := by unfold Statement; decide

theorem pageResponseFailedHost : Statement .pageResponseFailedHost := by unfold Statement; decide

theorem pageResponseFailedTenant : Statement .pageResponseFailedTenant := by unfold Statement; decide

theorem qiCfgWrite : Statement .qiCfgWrite := by unfold Statement; decide

theorem cecountClear : Statement .cecountClear := by unfold Statement; decide

theorem uecountClear : Statement .uecountClear := by unfold Statement; decide

theorem attreq : Statement .attreq := by unfold Statement; decide

theorem attestationReport : Statement .attestationReport := by unfold Statement; decide

theorem run : Statement .run := by unfold Statement; decide

theorem doorbell : Statement .doorbell := by unfold Statement; decide

theorem ctlWrite : Statement .ctlWrite := by unfold Statement; decide

theorem quotaWrite : Statement .quotaWrite := by unfold Statement; decide

theorem qadd : Statement .qadd := by unfold Statement; decide

theorem warnWrite : Statement .warnWrite := by unfold Statement; decide

theorem areaWrite : Statement .areaWrite := by unfold Statement; decide

theorem save : Statement .save := by unfold Statement; decide

theorem resume : Statement .resume := by unfold Statement; decide

theorem killall : Statement .killall := by unfold Statement; decide

theorem reset : Statement .reset := by unfold Statement; decide

theorem killinst : Statement .killinst := by unfold Statement; decide

theorem resumeinst : Statement .resumeinst := by unfold Statement; decide

theorem resumeFault : Statement .resumeFault := by unfold Statement; decide

theorem discardFault : Statement .discardFault := by unfold Statement; decide

theorem knotreg : Statement .knotreg := by unfold Statement; decide

theorem hfree : Statement .hfree := by unfold Statement; decide

theorem eventsClear : Statement .eventsClear := by unfold Statement; decide

theorem curvfWrite : Statement .curvfWrite := by unfold Statement; decide

theorem illegal : Statement .illegal := by unfold Statement; decide

theorem fetch : Statement .fetch := by unfold Statement; decide

theorem portRetrain : Statement .portRetrain := by unfold Statement; decide

theorem hostWindowAccess : Statement .hostWindowAccess := by unfold Statement; decide

theorem powerOff : Statement .powerOff := by unfold Statement; decide

theorem mapOutListClear : Statement .mapOutListClear := by unfold Statement; decide

end Bounded

end Sys2Proof.Laws
end

