-- ==== Sys2Proof/Laws/Resident.lean ====
section
/-!
SUPPORT. What making registers resident changes (R347), and what smaller updates of the engines leave.
-/

namespace Sys2Proof.Machine

/-- A station as it stands but for which registers are resident and which are parked. -/
def Station.SameButPlaces (v u : Station) : Prop :=
  u = { v with resident := u.resident, parkedRegs := u.parkedRegs }

theorem Station.SameButPlaces.trans {a b c : Station} (h : a.SameButPlaces b) (k : b.SameButPlaces c) : a.SameButPlaces c := by
  unfold Station.SameButPlaces at *
  rw [k, h]

/-- Bringing one register in moves registers and changes nothing else. -/
theorem Station.bring_keeps {v u : Station} {r : SlotReg} {needs : List SlotReg} {n : Nat} (h : v.bring r needs = some (u, n)) :
    v.SameButPlaces u := by
  simp only [Station.bring] at h
  generalize (if v.parkedRegs.contains r = true then r.reg.rows48 else 0) = back at h
  split at h
  · simp only [Option.some.injEq, Prod.mk.injEq] at h
    rw [← h.1]; rfl
  · obtain ⟨q, -, hq⟩ := Option.map_eq_some_iff.mp h
    simp only [Prod.mk.injEq] at hq
    rw [← hq.1]; rfl

/-- So does bringing in a list of them. -/
theorem Station.bringAll_keeps (needs : List SlotReg) : ∀ {l : List SlotReg} {v u : Station} {n : Nat},
    v.bringAll needs l = some (u, n) → v.SameButPlaces u
  | [], v, u, n, h => by
      simp only [Station.bringAll, Option.some.injEq, Prod.mk.injEq] at h
      rw [← h.1]; rfl
  | r :: rs, v, u, n, h => by
      unfold Station.bringAll at h
      split at h
      · exact absurd h (by simp)
      · rename_i p hp
        obtain ⟨q, hq, e⟩ := Option.map_eq_some_iff.mp h
        have := Station.bringAll_keeps needs (u := q.1) (n := q.2) hq
        simp only [Prod.mk.injEq] at e
        rw [e.1] at this
        exact (Station.bring_keeps (n := p.2) hp).trans this

/-- Making the registers of a sprig resident changes which registers of the station are, charges the moves, and leaves all else. -/
theorem makeResident_keeps {s t : State} {l : Loc} {c n : Nat} (h : s.makeResident l c n = some t) :
    (s.st l).SameButPlaces (t.st l) ∧ (∀ m, m ≠ l → t.st m = s.st m) ∧ t.mm = s.mm ∧ t.prick = s.prick ∧ t.cores = s.cores ∧
      t.host = s.host ∧ t.sched = s.sched ∧ t.clk = s.clk ∧ t.boot = s.boot := by
  obtain ⟨p, hp, rfl⟩ := Option.map_eq_some_iff.mp h
  refine ⟨?_, fun m hm => ?_, ?_⟩
  · simpa using Station.bringAll_keeps _ (u := p.1) (n := p.2) hp
  · simp [st_setSt_other s _ hm]
  · simp

/-! ### Smaller updates -/

@[simp] theorem dropRequest_requests (s : State) (n : Nat) : (s.dropRequest n).fab.requests = s.fab.requests.eraseIdx n := rfl
@[simp] theorem dropRequest_mm (s : State) (n : Nat) : (s.dropRequest n).mm = s.mm := rfl
@[simp] theorem dropRequest_prick (s : State) (n : Nat) : (s.dropRequest n).prick = s.prick := rfl
@[simp] theorem dropRequest_stations (s : State) (n : Nat) : (s.dropRequest n).fab.stations = s.fab.stations := rfl

/-- What a first use found wrong stands in the engine of its die only. -/
@[simp] theorem keepBad_fab (s : State) (d : Fin 2) (vf idx code arg : Nat) : (s.keepBad d vf idx code arg).fab = s.fab := by
  unfold State.keepBad; split <;> rfl
@[simp] theorem keepBad_mm (s : State) (d : Fin 2) (vf idx code arg : Nat) : (s.keepBad d vf idx code arg).mm = s.mm := by
  unfold State.keepBad; split <;> rfl
@[simp] theorem keepBad_cores (s : State) (d : Fin 2) (vf idx code arg : Nat) : (s.keepBad d vf idx code arg).cores = s.cores := by
  unfold State.keepBad; split <;> rfl
@[simp] theorem keepBad_host (s : State) (d : Fin 2) (vf idx code arg : Nat) : (s.keepBad d vf idx code arg).host = s.host := by
  unfold State.keepBad; split <;> rfl
@[simp] theorem keepBad_insts (s : State) (d : Fin 2) (vf idx code arg : Nat) :
    (s.keepBad d vf idx code arg).prick.insts = s.prick.insts := by
  unfold State.keepBad; split <;> rfl

@[simp] theorem thCharge_mm (s : State) (t : ThReq) : (s.thCharge t).mm = s.mm := by simp [State.thCharge]
@[simp] theorem thCharge_prick (s : State) (t : ThReq) : (s.thCharge t).prick = s.prick := by simp [State.thCharge]
@[simp] theorem thCharge_host (s : State) (t : ThReq) : (s.thCharge t).host = s.host := by simp [State.thCharge]
@[simp] theorem thCharge_st (s : State) (t : ThReq) (l : Loc) : (s.thCharge t).st l = s.st l := by simp [State.thCharge]

end Sys2Proof.Machine
end

