-- ==== Sys2Proof/Tests/Slice0.lean ====
section
/-!
SUPPORT. Tests: ill-formed terms that the checks refuse, words of the spec and what they decode to, single steps on small
states with results from the spec's text and tables, and for each statement states and operands that meet its hypotheses.
-/

namespace Sys2Proof.Tests

open Sys2Proof Sys2Proof.Machine

set_option Elab.async false

/-! ### Well-formedness: one ill-formed term for each check -/

/-- The engine column (R66 to R73): a matrix instruction on a bobbin station, a memory one on a compute station, a branch on a
station, a station's EMIT on a core, and a step without an encoding anywhere. -/
theorem test_wf_engines :
    (Instr.mma 0 1 0).wf (.station .bobbin) = false ∧ (Instr.cpstat 0 0).wf (.station .compute) = false ∧
      (Instr.beq 0 0 0).wf (.station .compute) = false ∧ (Instr.emit .z 0).wf .core = false ∧
      (Instr.tokenArrival).wf .core = false := by decide

/-- A queue register on a compute station (R59). -/
theorem test_wf_queue_registers :
    (Instr.emit (.q 0) 0).wf (.station .compute) = false ∧ (Instr.emit (.q 0) 0).wf (.station .bobbin) = true := by decide

/-- EMIT2 and STEER with one arc twice (R152, R146); EMITR with scope FIRING (R66). -/
theorem test_wf_arcs :
    (Instr.emit2 .z 3 3).wf (.station .compute) = false ∧ (Instr.steer .z 3 3 .z).wf (.station .compute) = false ∧
      (Instr.emitr .z 0 .firing).wf (.station .compute) = false := by decide

/-- TSET and TADD take ITER and THREAD only (R65); THIN takes a group size from 1 (R66). -/
theorem test_wf_tag_fields :
    (Instr.tset .z .ctx).wf (.station .compute) = false ∧ (Instr.tadd .z .nulls).wf (.station .compute) = false ∧
      (Instr.tget 0 .nulls).wf (.station .compute) = true ∧ (Instr.thin .z 0 .z 0).wf (.station .compute) = false := by decide

/-- An immediate shift of the word form takes at most 31 (R172). -/
theorem test_wf_shifts :
    (Instr.shli 0 .z .w32 32).wf (.station .compute) = false ∧ (Instr.shri 0 .z .w32 31).wf (.station .compute) = true ∧
      (Instr.sraiCi 0 0 .w32 32).wf .core = false := by decide

/-- FADD of GAMO is a word operation (R200); an acquire or release of a station's atomic and BARJ and TFEN name a scope from
PLOT up (R70, R284). -/
theorem test_wf_atomics :
    (Instr.gamo 0 0 0 .w64 .relaxed .fadd).wf .core = false ∧
      (Instr.aadd 0 .z .z 0 (.acq .firing) .w64).wf (.station .bobbin) = false ∧
      (Instr.barj 0 .z .firing).wf (.station .compute) = false ∧ (Instr.tfen .z .firing).wf (.station .bobbin) = false := by decide

/-- SDEF takes the combinations of R224 only. -/
theorem test_wf_strands :
    (Instr.sdef 0 .z .z (.q 0) false true .e8).wf (.station .bobbin) = false ∧
      (Instr.sdef 0 .z .z (.q 0) false false .e16).wf (.station .bobbin) = false ∧
      (Instr.sdef 0 .z .z .sp true true .e8).wf (.station .bobbin) = false ∧
      (Instr.sdef 0 .z .z .sp false true .e384).wf (.station .bobbin) = true := by decide

/-- AREAQ takes 1 to 16 by 1 to 20 quads (R70); VEXT a column below 768 and VCVT and ACCRD a format that is not reserved (R63,
R71, R72). -/
theorem test_wf_ranges :
    (Instr.areaq 0 0 1).wf (.station .compute) = false ∧ (Instr.areaq 0 21 1).wf (.station .compute) = false ∧
      (Instr.areaq 0 20 16).wf (.station .compute) = true ∧ (Instr.vext 0 0 0 768).wf (.station .compute) = false ∧
      (Instr.vcvt 0 0 0 7 .rne).wf (.station .compute) = false ∧ (Instr.accrd 0 .z 0 .rne 0x23).wf (.station .compute) = false := by
  decide

/-! ### Decoding: words that the spec writes out -/

/-- The engine decodes the word to the instruction, and the encoder gives the word back. -/
def reads (e : Engine) (w : Word) (i : Instr) : Bool :=
  (match decode e w with
    | .ok j => decide (j = i)
    | .error _ => false) && decide (encode i = w)

/-- No engine takes the word. -/
def noEngine (w : Word) : Bool :=
  [Engine.core, .station .compute, .station .bobbin].all (fun e => match decode e w with | .ok _ => false | .error _ => true)

/-- Words of the token family as its class chapter writes them out (R66). -/
theorem test_words_token :
    reads (.station .compute) 0x01000000 (.nop) = true ∧
      reads (.station .compute) 0x02110000 (.emit (.t 1) 1) = true ∧
      reads (.station .compute) 0x11100002 (.sinkw (.t 1) 2) = true ∧
      reads (.station .compute) 0x07000000 (.exit (.t 0) 0 false) = true ∧
      reads (.station .compute) 0x07210100 (.exit (.t 2) 1 true) = true ∧
      reads (.station .compute) 0x08010002 (.exits (.t 0) 1 2) = true ∧
      reads (.station .compute) 0x09000006 (.tget 0 .nulls) = true ∧
      reads (.station .compute) 0x0A0D0000 (.tset .z .iter) = true ∧
      reads (.station .compute) 0x0B030000 (.tadd (.t 3) .iter) = true ∧
      reads (.station .compute) 0x0C000000 (.lgate 0) = true ∧
      reads (.station .compute) 0x0D000000 (.lfree) = true ∧
      reads (.station .compute) 0x0E801000 (.steer (.i 0) 0 1 (.t 0)) = true ∧
      reads (.station .compute) 0x0F000110 (.thin (.t 0) 0 (.t 1) 16) = true ∧
      reads (.station .compute) 0x10000000 (.thend 0) = true ∧
      reads (.station .compute) 0x13000042 (.trap 0x42) = true := by decide +kernel

/-- Words of the integer family as its class chapter writes them out (R67). -/
theorem test_words_integer :
    reads (.station .compute) 0x35080020 (.shri 0 (.i 0) .w64 32) = true ∧
      reads (.station .compute) 0x49180004 (.extz 1 (.i 0) .x32 .w64) = true ∧
      reads (.station .compute) 0x29201000 (.remn 2 (.t 0) (.t 1) .w64) = true ∧
      reads (.station .compute) 0x4331D000 (.sne 3 (.t 1) .z .w64) = true ∧
      reads (.station .compute) 0x2B442000 (.or 4 (.t 4) (.t 2) .w64) = true ∧
      reads (.station .compute) 0x4B201003 (.adds 2 (.t 0) (.t 1) true .w32) = true ∧
      reads (.station .compute) 0x35010048 (.shri 0 (.t 1) .w32 8) = true ∧
      reads (.station .compute) 0x44109801 (.csel 1 (.t 0) (.i 1) (.i 0) .w32) = true ∧
      reads (.station .compute) 0x4A012316 (.bfi 0 (.t 1) (.t 2) (.t 3) 11) = true ∧
      reads (.station .compute) 0x4F501006 (.lea 5 (.t 0) (.t 1) 3 .w64) = true ∧
      reads (.station .compute) 0x4600E9B7 (.movi 0 0xE9B7) = true ∧
      reads (.station .compute) 0x4703C3A5 (.movk 0 3 0xC3A5) = true ∧
      reads (.station .compute) 0x40160000 (.sltn 1 (.t 6) (.t 0) .w64) = true ∧
      reads (.station .compute) 0x2E200001 (.andi 2 (.t 0) 1) = true ∧
      reads .core 0x2229BFFD (.addiCi 5 6 0x3FFD) = true := by decide +kernel

/-- Words of the core family as its class chapter writes them out (R68). -/
theorem test_words_core :
    reads .core 0x51083FFD (.bne 1 0 0x3FFD) = true ∧
      reads .core 0x57000010 (.jal 16) = true ∧
      reads .core 0x5807C000 (.jr 31) = true ∧
      reads .core 0x59288023 (.ldg 5 2 8 .b8) = true ∧
      reads .core 0x5B288001 (.ldgf 5 2 0 true) = true ∧
      reads .core 0x5D508600 (.lnch 10 2 3) = true ∧
      reads .core 0x5E029601 (.inj 10 11 1) = true ∧
      reads .core 0x5F328000 (.snkr 6 10 0) = true ∧
      reads .core 0x60228000 (.knwait 4 10) = true ∧
      reads .core 0x61380002 (.srr 7 .cause) = true ∧
      reads .core 0x62480001 (.srw 9 .epc) = true ∧
      reads .core 0x63000000 (.eret) = true ∧
      reads .core 0x64000000 (.wfe) = true ∧
      reads .core 0x65088000 (.qpop 1 2) = true ∧
      reads .core 0x66004400 (.qdone 1 2) = true ∧
      reads .core 0x6700C000 (.irq 3) = true ∧
      reads .core 0x68000013 (.gfence .full .device) = true ∧
      reads .core 0x69190A10 (.gamo 3 4 5 .w64 .acq .add) = true := by decide +kernel

/-- Words of the memory family as its class chapter writes them out (R69). -/
theorem test_words_memory :
    reads (.station .bobbin) 0x70081003 (.sdef 0 (.i 0) (.t 1) .sp false false .e8) = true ∧
      reads (.station .bobbin) 0x701012BB (.sdef 1 (.t 0) (.t 1) (.arc 5) true false .e8) = true ∧
      reads (.station .bobbin) 0x7030107A (.sdef 3 (.t 0) (.t 1) (.arc 0) true true .e4) = true ∧
      reads (.station .bobbin) 0x71020000 (.slen 0 (.t 2)) = true ∧
      reads (.station .bobbin) 0x72030000 (.sgo 0 (.t 3)) = true ∧
      reads (.station .bobbin) 0x73012000 (.lds 0 (.t 1) 2 0) = true ∧
      reads (.station .bobbin) 0x74012200 (.sts (.t 0) (.t 1) 2 4) = true ∧
      reads (.station .bobbin) 0x7B801000 (.gath (.i 0) 1) = true ∧
      reads (.station .bobbin) 0x7C013080 (.scat (.t 0) (.t 1) 3 1) = true ∧
      reads (.station .bobbin) 0x7D013101 (.scadd (.t 0) (.t 1) 3 2 .f32) = true ∧
      reads (.station .bobbin) 0x7E003003 (.scflush 3 .device) = true ∧
      reads (.station .bobbin) 0x7510D006 (.ldsp 1 (.t 0) .z 0 true .b4) = true ∧
      reads (.station .bobbin) 0x76201183 (.stsp (.t 2) (.t 0) (.t 1) 3 .b8) = true ∧
      reads (.station .bobbin) 0x8338D003 (.ldm 3 (.i 0) .z 0 false .b8) = true ∧
      reads (.station .bobbin) 0x7754D003 (.ldf 5 (.t 4) .z 0 false false .b8) = true ∧
      reads (.station .bobbin) 0x7824D083 (.stf (.t 2) (.t 4) .z 1 .b8) = true ∧
      reads (.station .bobbin) 0x8548D00B (.ldmf 4 (.i 0) .z 0 true false .b8) = true ∧
      reads (.station .bobbin) 0x8629D003 (.stmf (.t 2) (.i 1) .z 0 .b8) = true ∧
      reads (.station .bobbin) 0x79036001 (.fec (.t 3) (.t 6) 0 true) = true ∧
      reads (.station .bobbin) 0x7A030000 (.feq 0 (.t 3) 0 false) = true ∧
      reads (.station .bobbin) 0x7F123102 (.copy (.t 1) (.t 2) (.t 3) 2 true false) = true ∧
      reads (.station .bobbin) 0x80500100 (.cpstat 5 2) = true ∧
      reads (.station .bobbin) 0x81001000 (.pref (.t 0) (.t 1)) = true ∧
      reads (.station .bobbin) 0x82005003 (.sbar 0 5 .device) = true ∧
      reads (.station .compute) 0x87201001 (.tld 2 (.t 0) (.t 1) 0 true) = true ∧
      reads (.station .compute) 0x88301280 (.tst 3 (.t 0) (.t 1) 5 false) = true := by decide +kernel

/-- Words of the ordering family as its class chapter writes them out (R70). -/
theorem test_words_ordering :
    reads (.station .compute) 0x90000013 (.fence .full .device) = true ∧
      reads (.station .compute) 0x90000009 (.fence .rel .plot) = true ∧
      reads (.station .compute) 0x90000002 (.fence .acq .die) = true ∧
      reads (.station .compute) 0x91000003 (.stileDevice) = true ∧
      reads (.station .compute) 0x92210003 (.barj 2 (.t 1) .device) = true ∧
      reads (.station .bobbin) 0x93012180 (.aadd 0 (.t 1) (.t 2) 3 .relaxed .w64) = true ∧
      reads (.station .bobbin) 0x9301219D (.aadd 0 (.t 1) (.t 2) 3 (.rel .device) .w32) = true ∧
      reads (.station .bobbin) 0x9B405000 (.axchg 4 (.t 0) (.t 5) 0 .relaxed .w64) = true ∧
      reads (.station .bobbin) 0x9C312080 (.acas 3 (.t 1) (.t 2) 1 .relaxed .w64) = true ∧
      reads (.station .bobbin) 0x9D012113 (.afadd 0 (.t 1) (.t 2) 2 (.acq .die)) = true := by decide +kernel

/-- Words of the call family as its class chapter writes them out (R70). -/
theorem test_words_call :
    reads (.station .compute) 0xA0000005 (.call 0 5) = true ∧
      reads (.station .compute) 0xA1020011 (.callf 2 0x11) = true ∧
      reads (.station .compute) 0xA2000000 (.ret) = true ∧
      reads (.station .compute) 0xA3300000 (.instid 3) = true ∧
      reads (.station .compute) 0xA4000102 (.areaq 0 1 2) = true ∧
      reads (.station .compute) 0xA5100007 (.knotq 1 7) = true := by decide +kernel

/-- Words of the vector family as its class chapter writes them out (R71). -/
theorem test_words_vector :
    reads (.station .compute) 0xB0201000 (.vadd 2 0 1 .rne) = true ∧
      reads (.station .compute) 0xB3312001 (.vfma 3 1 2 .rz) = true ∧
      reads (.station .compute) 0xBA540004 (.vexp2 5 4 .sr) = true ∧
      reads (.station .compute) 0xBC102180 (.vcvt 1 0 2 0x30 .rne) = true ∧
      reads (.station .compute) 0xBD201008 (.vscl 2 0 1 1 .rne) = true ∧
      reads (.station .compute) 0xBE025000 (.vreds 0 2 5) = true ∧
      reads (.station .compute) 0xC4101018 (.vdot 1 0 1 3) = true ∧
      reads (.station .compute) 0xC0301008 (.vcmp 3 0 1 .lt) = true ∧
      reads (.station .compute) 0xC1401060 (.vsel 4 0 1 3) = true ∧
      reads (.station .compute) 0xC2080000 (.vbcast 0 (.i 0)) = true ∧
      reads (.station .compute) 0xC3325064 (.vext 3 2 5 100) = true ∧
      reads (.station .compute) 0xC5201000 (.vshf 2 0 1) = true ∧
      reads (.station .compute) 0xCE040000 (.vseed (.t 4)) = true ∧
      reads (.station .compute) 0xC8301011 (.fmul 3 (.t 0) (.t 1) .bf16 .rz) = true ∧
      reads (.station .compute) 0xC9401200 (.ffma 4 (.t 0) (.t 1) (.t 2) .f32 .rne) = true ∧
      reads (.station .compute) 0xCD201008 (.fmax 2 (.t 0) (.t 1) .f16) = true ∧
      reads (.station .compute) 0xCA100061 (.fcvt 1 (.t 0) .f32 .i32 .rz) = true ∧
      reads (.station .compute) 0xCA300400 (.fcvt 3 (.t 0) .i64 .f32 .rne) = true ∧
      reads (.station .compute) 0xCB501020 (.fcmp 5 (.t 0) (.t 1) .lt .f32) = true := by decide +kernel

/-- Words of the matrix family as its class chapter writes them out (R72). -/
theorem test_words_matrix :
    reads (.station .compute) 0xD00F002B (.tcfg 0 15 .w16 11) = true ∧
      reads (.station .compute) 0xD0200031 (.tcfg 2 0 .w32 1) = true ∧
      reads (.station .compute) 0xD1300000 (.tzero 3) = true ∧
      reads (.station .compute) 0xD2400000 (.tmov 4 0) = true ∧
      reads (.station .compute) 0xD3510000 (.txp 5 1) = true ∧
      reads (.station .compute) 0xD4034400 (.mma 3 4 2) = true ∧
      reads (.station .compute) 0xD5201200 (.mmas 2 0 1 1) = true ∧
      reads (.station .compute) 0xD7000600 (.accclr3) = true ∧
      reads (.station .compute) 0xD8060200 (.accld 6 1) = true ∧
      reads (.station .compute) 0xD60D0000 (.accrd 0 .z 0 .rne 0) = true ∧
      reads (.station .compute) 0xD6350302 (.accrd 3 (.t 5) 1 .sr 2) = true ∧
      reads (.station .compute) 0xD9010000 (.wpre 1) = true ∧
      reads (.station .compute) 0xDA000000 (.afeed 0) = true ∧
      reads (.station .compute) 0xDB400000 (.plstat 4) = true := by decide +kernel

/-- Words of the retrieval family as its class chapter writes them out (R73). -/
theorem test_words_retrieval :
    reads (.station .bobbin) 0xE0020053 (.hfw (.t 2) .seed 3) = true ∧
      reads (.station .bobbin) 0xE1100053 (.hfr 1 .seed 3) = true ∧
      reads (.station .bobbin) 0xE2101003 (.hash 1 (.t 0) (.t 1) 3) = true ∧
      reads (.station .bobbin) 0xE5081003 (.tprb 0 (.i 0) (.t 1) 3) = true ∧
      reads (.station .bobbin) 0xE3201203 (.tins (.t 2) (.t 0) (.t 1) 4 3) = true ∧
      reads (.station .bobbin) 0xE4201283 (.tdel (.t 2) (.t 0) (.t 1) 5 3) = true ∧
      reads (.station .bobbin) 0xE6300300 (.trhs (.t 3) (.t 0) 6) = true ∧
      reads (.station .bobbin) 0xE9000382 (.tovp (.t 0) 7 .chain) = true ∧
      reads (.station .bobbin) 0xE7000003 (.tfen (.t 0) .device) = true ∧
      reads (.station .bobbin) 0xE8500000 (.tstat 5 (.t 0)) = true := by decide +kernel

/-- Words of the system family as its class chapter writes them out (R73). -/
theorem test_words_system :
    reads (.station .compute) 0xF0200001 (.qrd 2 true) = true ∧
      reads .core 0xF0280000 (.qrdCi 5 false) = true ∧
      reads (.station .compute) 0xF1010000 (.qarm (.t 1)) = true ∧
      reads .core 0xF100C000 (.qarmCi 3) = true ∧
      reads (.station .compute) 0xF2030001 (.trc (.t 3) 1) = true ∧
      reads .core 0xF2010002 (.trcCi 4 2) = true ∧
      reads (.station .compute) 0xF3100001 (.time 1 true) = true ∧
      reads .core 0xF3380000 (.timeCi 7 false) = true ∧
      reads (.station .compute) 0xF4000005 (.prio5) = true ∧
      reads (.station .compute) 0xF5000000 (.yield) = true ∧
      reads (.station .compute) 0xF6400001 (.emtr 4 .site) = true ∧
      reads .core 0xF6200000 (.emtrCi 4 .charged) = true ∧
      reads (.station .compute) 0xF7500000 (.heatq 5) = true ∧
      reads .core 0xF7300000 (.heatqCi 6) = true := by decide +kernel

/-- Opcodes that no engine takes (R74), reserved field values (R61, R62, R65) and a field that must be zero. -/
theorem test_words_refused :
    noEngine 0x00000000 = true ∧ noEngine 0x14000000 = true ∧ noEngine 0x6A000000 = true ∧ noEngine 0x89000000 = true ∧
      noEngine 0x9E000000 = true ∧ noEngine 0xA6000000 = true ∧ noEngine 0xCF000000 = true ∧ noEngine 0xDC000000 = true ∧
      noEngine 0xEA000000 = true ∧ noEngine 0xF8000000 = true ∧ noEngine 0xFF000000 = true ∧ noEngine 0x90000005 = true ∧
      noEngine 0x09000007 = true ∧ noEngine 0x01000001 = true ∧ noEngine 0x35000060 = true := by decide +kernel

/-- A word in memory is read least significant byte first (R5). -/
theorem test_bytes :
    (match decodeBytes (.station .compute) [0x00, 0x90, 0x08, 0x20, 0x55] with
      | .ok r => decide (r = (.add 0 (.i 0) (.i 1) .w64, [0x55]))
      | .error _ => false) = true := by decide +kernel

/-! ### States for single steps -/

/-- A slot that holds instance 5 with sprig 0, whose arcs 0 to 3 lead to slot 0 of its own sprig, arc 4 to sink 2 and arc 16 to
sink 3. -/
def slot5 : Ctx :=
  { word := 0x000200000000000000000000000000001 + (5 <<< 94), sprigs := [0], leased := true, allow := 4, admitted := 2,
    routes := [[0x0000000000000001, 0x0800000000000002, 0x1000000000000003, 0x1800000000000004, 0x2100000040000005, 0x8100000060000006]] }

/-- A firing of instance 5 in slot 0. -/
def fire5 : Firing := { active := true, id := 9, inst := 5, tag := 0x0000014000800007, otag := 0x0000014000800007 }

/-- The record of instance 5, of partition 1, that cannot retire for an argument reservation. -/
def inst5 : Inst := { id := 5, vf := 1, die := 0, st := .live, kidx := 0, kind := .root, root := 7, argRes := 1 }

/-- The firing at the first station of a kind. -/
def at5 (l : Loc) (f : Firing) (c : Ctx) : State :=
  let s := State.reset.modSt l (fun v => { v with firing := f, ctxs := v.ctxs.set 0 c })
  { s with sched := { s.sched with curSt := l, arg := { s.sched.arg with loc := l } }, prick := { s.prick with insts := [inst5] } }

/-- A compute and a bobbin station with the firing in progress. -/
def cst : State := at5 ⟨0, 0, 0⟩ fire5 slot5
def bst : State := at5 ⟨0, 1, 0⟩ fire5 slot5

/-- The state with temporaries t0, t1 and t2. -/
def withT (s : State) (a b c : Double) : State :=
  s.modFir (fun f => { f with t := ((f.t.set 0 a).set 1 b).set 2 c })

/-- A property of the state after an instruction; false where it does not complete. -/
def gives (i : Instr) (s : State) (p : State → Bool) : Bool :=
  match exec i s with
  | .next t => p t
  | .fault _ => false
  | .refused _ => false

/-- What t3 holds after an instruction on temporaries t0, t1 and t2. -/
def temp3 (i : Instr) (a b c : Double) (v : Double) : Bool := gives i (withT cst a b c) (fun t => decide (t.fir.t[3] = v))

/-- A released control core 0 in host mode with registers g1, g2 and g3. -/
def kst (a b c : Double) : State :=
  State.reset.modCore 0 (fun k => { k with run := true, pc := 0x100, hvec := 0x80, g := ((k.g.set 1 a).set 2 b).set 3 c })

/-- What g4 holds after an instruction. -/
def reg4 (i : Instr) (a b c : Double) (v : Double) : Bool := gives i (kst a b c) (fun t => decide (t.g 4 = v))

/-! ### Integer instructions: the edge cases and tables of spec/06_class_integer.md -/

theorem test_add_word_wraps : temp3 (.add 3 (.t 0) (.t 1) .w32) 0x7FFFFFFF 1 0 0xFFFFFFFF80000000 = true := by decide +kernel
theorem test_adds_saturates : temp3 (.adds 3 (.t 0) (.t 1) false .w32) 0x7FFFFFFF 1 0 0x7FFFFFFF = true ∧
    temp3 (.adds 3 (.t 0) (.t 1) true .w32) 0xFFFFFFF0 0x20 0 0xFFFFFFFF = true := by decide +kernel
theorem test_subs_natural : temp3 (.subs 3 (.t 0) (.t 1) true .w64) 3 5 0 0 = true := by decide +kernel
theorem test_mulh : temp3 (.mulh 3 (.t 0) (.t 1) .w64) (-1) 1 0 (-1) = true ∧
    temp3 (.mulhn 3 (.t 0) (.t 1) .w64) 0xFFFFFFFFFFFFFFFF 2 0 1 = true := by decide +kernel
theorem test_mulh_word : temp3 (.mulh 3 (.t 0) (.t 1) .w32) 0x80000000 0x80000000 0 0x40000000 = true := by decide +kernel
theorem test_div_by_zero : temp3 (.div 3 (.t 0) (.t 1) .w64) 9 0 0 0xFFFFFFFFFFFFFFFF = true ∧
    temp3 (.rem 3 (.t 0) (.t 1) .w64) 9 0 0 9 = true := by decide +kernel
theorem test_div_overflow : temp3 (.div 3 (.t 0) (.t 1) .w32) 0x0000000180000000 (-1) 0 0xFFFFFFFF80000000 = true ∧
    temp3 (.rem 3 (.t 0) (.t 1) .w32) 0x0000000180000000 (-1) 0 0 = true := by decide +kernel
theorem test_divn : temp3 (.divn 3 (.t 0) (.t 1) .w64) 0xFFFFFFFFFFFFFFFF 16 0 0x0FFFFFFFFFFFFFFF = true ∧
    temp3 (.remn 3 (.t 0) (.t 1) .w32) 7 0 0 7 = true := by decide +kernel
theorem test_and_word : temp3 (.and 3 (.t 0) (.t 1) .w32) 0xFFFFFFFF 0x80000000 0 0xFFFFFFFF80000000 = true := by decide +kernel
theorem test_shl_amount : temp3 (.shl 3 (.t 0) (.t 1) .w64) 5 65 0 10 = true ∧
    temp3 (.shr 3 (.t 0) (.t 1) .w32) 0xFFFFFFFF 0 0 0xFFFFFFFF = true := by decide +kernel
theorem test_clz : temp3 (.clz 3 (.t 0) .w32) 0x0000000100000000 0 0 32 = true ∧ temp3 (.clz 3 (.t 0) .w64) 1 0 0 63 = true := by
  decide +kernel
theorem test_movi : temp3 (.movi 3 0xE9B7) 0 0 0 0xFFFFFFFFFFFFE9B7 = true := by decide +kernel
theorem test_lea : temp3 (.lea 3 (.t 0) (.t 1) 3 .w64) 0x100 3 0 0x118 = true := by decide +kernel
theorem test_abs_most_negative : temp3 (.abs 3 (.t 0) .w64) 0x8000000000000000 0 0 0x8000000000000000 = true := by decide +kernel

/-! ### Control cores -/

theorem test_core_g0 : gives (.addiCi 0 1 1) (kst 7 0 0) (fun t => decide (t.g 0 = 0 ∧ t.cc.pc = 0x104)) = true := by decide +kernel
theorem test_core_movk : reg4 (.movkCi 4 3 0x2345) 0 0 0 0x2345000000000000 = true := by decide +kernel
theorem test_bne_back : gives (.bne 1 0 0x3FFD) (kst 1 0 0) (fun t => decide (t.cc.pc = 0xF4)) = true := by decide +kernel
theorem test_jal : gives (.jal 16) (kst 0 0 0) (fun t => decide (t.cc.pc = 0x140 ∧ t.g 31 = 0x104)) = true := by decide +kernel
theorem test_jr_misaligned : gives (.jr 1) (kst 0x102 0 0) (fun t => decide (t.cc.pc = 0x80 ∧ t.cc.epc = 0x100 ∧
    t.cc.cause = 0x00150003 ∧ t.cc.eval = 0x102 ∧ t.cc.status = 5)) = true := by decide +kernel
theorem test_stg_ldg : gives (.stg 1 2 0 .b2) (kst 0x12345 0x40 0) (fun t =>
    gives (.ldg 4 2 0 .b8) t (fun u => decide (u.g 4 = 0x2345))) = true := by decide +kernel
theorem test_eret : gives .eret (kst 0 0 0) (fun t => decide (t.cc.pc = 0 ∧ t.cc.mode = true ∧ t.cc.ie = false)) = true := by
  decide +kernel
theorem test_srr_coreno : reg4 (.srr 4 .coreno) 0 0 0 0 = true := by decide +kernel
theorem test_srw_hvec : gives (.srw 1 .hvec) (kst 0x1237 0 0) (fun t => decide (t.cc.hvec = 0x1234)) = true := by decide +kernel
theorem test_gamo : gives (.gamo 4 1 2 .w32 .relaxed .add) (kst 0x40 0xFFFFFFFF 0) (fun t =>
    decide (t.g 4 = 0 ∧ Mem.read t.cc.lm 0x40 8 = 0xFFFFFFFF)) = true := by decide +kernel
theorem test_illegal : gives .illegal { kst 0 0 0 with sched := { (kst 0 0 0).sched with arg := { value := 0x6A000000 } } }
    (fun t => decide (t.cc.cause = 1 ∧ t.cc.eval = 0x6A000000 ∧ t.cc.epc = 0x100)) = true := by decide +kernel

/-! ### Token class -/

theorem test_emit : gives (.emit (.t 0) 1) (withT cst 42 0 0) (fun t =>
    decide (t.fab.tokens.map (fun f => (f.tok.tag, f.tok.payload)) = [(0x0000014000800007, .word 42)] ∧
      t.fir.isClaimed 1 = true ∧ t.fir.pos = 1)) = true := by decide +kernel
theorem test_emit_twice : gives (.emit (.t 0) 1) (cst.modFir (fun f => { f with claimed := 2 })) (fun t =>
    decide (t.fir.active = false ∧ t.fab.tokens = [] ∧ (t.st ⟨0, 0, 0⟩).parked.map (·.park) = [.fault])) = true := by decide +kernel
theorem test_steer : gives (.steer (.t 0) 0 1 (.t 1)) (withT cst 42 0 0) (fun t =>
    decide (t.fab.tokens.map (fun f => (f.tok.payload, f.tok.slot)) = [(.word 42, 0), (.null, 0)])) = true := by decide +kernel
theorem test_sinkw : gives (.sinkw (.t 0) 2) (withT cst 42 0 0) (fun t =>
    decide (t.fab.sinkMsgs.map (fun m => (m.inst, m.k, m.payload)) = [(5, 2, .word 42)])) = true := by decide +kernel
theorem test_lgate : gives (.lgate 3) cst (fun t =>
    decide (t.fir.t[3] = 2 ∧ t.cx.allow = 3 ∧ t.cx.admitted = 3 ∧ tagIter t.fir.otag = 2)) = true := by decide +kernel
theorem test_tadd_wraps : gives (.tadd (.t 0) .iter) (withT cst 0xFFFFF 0 0) (fun t => decide (tagIter t.fir.otag = 6)) = true := by
  decide +kernel
theorem test_thin : gives (.thin (.t 0) 0 (.t 1) 16) (withT cst 9 1 0) (fun t =>
    decide (t.fab.tokens.map (fun f => (tagIter f.tok.tag, f.tok.payload)) = [(0, .word 9)] ∧
      t.cx.thin.map (fun c => (c.c, c.g)) = [(1, 16)])) = true := by decide +kernel
theorem test_exit : gives (.exit (.t 0) 0 false) (withT cst 5 0 0) (fun t =>
    decide (t.fab.sinkMsgs.map (fun m => (m.k, m.payload)) = [(3, .word 5)] ∧ t.fir.exitDone = true)) = true := by decide +kernel

/-! ### Scratchpad, system, floating point -/

theorem test_stsp_ldsp : gives (.stsp (.t 0) (.t 1) .z 3 .b4) (withT bst 0x1FFFFFFFE 0x20 0) (fun t =>
    gives (.ldsp 3 (.t 1) .z 0 true .b4) t (fun u => decide (u.fir.t[3] = 0xFFFFFFFFFFFFFFFE ∧ u.fir.lsids = 8))) = true := by
  decide +kernel
theorem test_stf_fills : gives (.stf (.t 0) (.t 1) .z 1 .b8) (withT bst 7 0x40 0) (fun t =>
    gives (.ldf 3 (.t 1) .z 0 true false .b8) t (fun u => decide ((t.st ⟨0, 1, 0⟩).spFull = [4] ∧ u.fir.t[3] = 7 ∧
      (u.st ⟨0, 1, 0⟩).spFull = []))) = true := by decide +kernel
theorem test_aadd_scratchpad : gives (.aadd 3 (.t 1) (.t 0) 3 .relaxed .w32) (withT bst 0x7FFFFFFF 0x8000000000000020 0)
    (fun t => gives (.aadd 3 (.t 1) (.t 0) 4 .relaxed .w32) t (fun u =>
      decide (u.fir.t[3] = 0x7FFFFFFF ∧ Mem.read (u.st ⟨0, 1, 0⟩).sp 0x20 8 = 0xFFFFFFFE))) = true := by decide +kernel
theorem test_ldm_issues : gives (.ldm 3 (.t 0) .z 2 false .b8) (withT bst 0x20000000 0 0) (fun t =>
    decide (t.mm.accesses.map (fun a => (a.va, a.n, a.lsid, a.td)) = [(0x20000000, 8, 2, some 3)] ∧ t.fir.pendT = [(3, 1)])) = true := by
  decide +kernel
theorem test_prio : gives .prio5 cst (fun t => decide (t.fir.prio = some 5)) = true := by decide +kernel
theorem test_fadd : temp3 (.fadd 3 (.t 0) (.t 1) .f32 .rne) 0x3F800000 0x40000000 0 0x40400000 = true := by decide +kernel
theorem test_fmul_nan : temp3 (.fmul 3 (.t 0) (.t 1) .f32 .rne) 0x7F800000 0 0 0x7FC00000 = true := by decide +kernel
theorem test_fcvt_integer : temp3 (.fcvt 3 (.t 0) .f32 .i32 .rz) 0xC0200000 0 0 0xFFFFFFFFFFFFFFFE = true := by decide +kernel
theorem test_fcmp : temp3 (.fcmp 3 (.t 0) (.t 1) .lt .f32) 0x3F800000 0x40000000 0 1 = true ∧
    temp3 (.fcmp 3 (.t 0) (.t 1) .un .f32) 0x7FC00000 0 0 1 = true := by decide +kernel

/-- The rows of the VCVT example of spec/13_class_vector.md: 1.5, 300, -1000, NaN, +Inf, 0.1, 2^-12 and 17 in b8p4se. -/
theorem test_vcvt_codes :
    [0x3FC00000, 0x43960000, 0xC47A0000, 0x7FC00000, 0x7F800000, 0x3DCCCCCD, 0x39800000, 0x41880000].map (fun w =>
      ((fmtOf 0x30).saturate .rne 0 (f32Spec.decode w)).1) = [0x44, 0x7E, 0xFE, 0x80, 0x7F, 0x25, 0x00, 0x60] := by decide +kernel
theorem test_tcfg : gives (.tcfg 0 15 .w32 11) cst (fun t => decide ((t.cx.tile 0).rows = 16 ∧ (t.cx.tile 0).rowBytes = 384)) = true := by
  decide +kernel
theorem test_areaq : gives (.areaq 3 1 1) cst (fun t => decide (t.fir.pos = 1 ∧ t.prick.insts.length = 1)) = true := by decide +kernel

/-! ### Whole steps -/

/-- A word placed for a control core and one placed for a station run as the next step (R66, R67). -/
theorem test_step_core : (match step (State.reset.withFetchWord 32 0x5807C000) with
    | .next t => decide ((t.core 0).pc = 0) | .fault _ => false | .refused _ => false) = true := by decide +kernel
theorem test_step_station : (match step (State.reset.withFetchWord 32 0x46600001) with
    | .next t => decide ((t.st ⟨0, 0, 0⟩).firing.t[6] = 1) | .fault _ => false | .refused _ => false) = true := by decide +kernel


/-- The first bytes of SHAKE256 of the empty message, as FIPS 202 has them (log entry 14). -/
theorem test_shake256_empty : (shake256 []).take 8 = [0x46, 0xB9, 0xDD, 0x2B, 0x0B, 0xA8, 0x8D, 0x13] := by decide +kernel
/-! ### Witnesses: states and operands that meet the hypotheses of each statement -/

/-- An image of one quad with one entry and no station record. -/
def img1 (entry : BitVec 64) : Image :=
  { w := 1, h := 1, length := 64, pleach := false, signed := false, entries := [entry], results := [], sites := [], spawns := [], stas := [] }

/-- A core in partition mode for function 1, with registers g1, g2 and g3; function 1 owns frame 2, which cached translations of the
core and of the die's engines give for the addresses from 0 on, with F/E pages when fe. -/
def pst (a b c : Double) (fe : Bool) : State :=
  let s := (kst a b c).modCore 0 (fun k => { k with status := 0, curvf := 0x81 })
  { s.modVf 1 (fun f => { f with ctl := 1, knotcnt := 3 }) with
    mm := { s.mm with fot := [(2, 3, 1)]
                      tlb1 := [64, 0].map (fun p =>
                        { port := p, vf := 1, va := 0, run := 16, ia := 0, pa := 0x20000, perm := if fe then 11 else 3, perm2 := 3 }) } }

/-- A core in partition mode with a CURVF that is not valid. -/
def nst (a : Double) : State := (kst a 0 0).modCore 0 (fun k => { k with status := 0 })

/-- A read as a core gives a value. -/
def gotOk (g : CoreGot) : Bool := match g with | .ok _ _ => true | .out _ => false

theorem gotOk_spec {g : CoreGot} (h : gotOk g = true) : ∃ v u, g = .ok v u := by
  cases g with
  | ok v u => exact ⟨v, u, rfl⟩
  | out u => exact absurd h (by simp [gotOk])

theorem gotOut_spec {g : CoreGot} (h : gotOk g = false) : ∃ u, g = .out u := by
  cases g with
  | ok v u => exact absurd h (by simp [gotOk])
  | out u => exact ⟨u, rfl⟩

/-- Where an address of a core leads: 0 local memory, 1 the window, 2 memory, 3 memory with F/E granules, 4 a trap, 5 a wait; and what
holds of the state then. -/
def leads (r : CoreRef × State) (k : Nat) (p : Nat → State → Bool) : Bool :=
  match r.1 with
  | .lm a => decide (k = 0) && p a r.2
  | .window a => decide (k = 1) && p a r.2
  | .mem pa _ fe => decide (k = if fe then 3 else 2) && p pa r.2
  | .trap _ _ _ => decide (k = 4) && p 0 r.2
  | .wait => decide (k = 5) && p 0 r.2

theorem leads_window {r : CoreRef × State} {p : Nat → State → Bool} (h : leads r 1 p = true) :
    ∃ a u, r = (.window a, u) ∧ p a u = true := by
  rcases r with ⟨c, u⟩
  cases c <;> simp [leads] at h
  · exact ⟨_, u, rfl, h⟩
  · split at h <;> simp at h

theorem leads_mem {r : CoreRef × State} {p : Nat → State → Bool} {fe : Bool} (h : leads r (if fe then 3 else 2) p = true) :
    ∃ pa vf u, r = (.mem pa vf fe, u) ∧ p pa u = true := by
  rcases r with ⟨c, u⟩
  cases c <;> cases fe <;> simp [leads] at h
  all_goals exact ⟨_, _, u, by rw [h.1], h.2⟩

theorem leads_trap {r : CoreRef × State} {p : Nat → State → Bool} (h : leads r 4 p = true) :
    ∃ c i v u, r = (.trap c i v, u) ∧ p 0 u = true := by
  rcases r with ⟨c, u⟩
  cases c <;> simp [leads] at h
  · split at h <;> simp at h
  · exact ⟨_, _, _, u, rfl, h⟩

theorem witness_JumpsGoWhereTheSpecSays : ((kst 0x104 0 0).g 1).toNat % 4 = 0 ∧ ((kst 0x103 0 0).g 1).toNat % 4 ≠ 0 := by
  decide +kernel

/-- A core with events pending and enabled. -/
def est (events : BitVec 5) (mask : Double) : State := (kst 0 0 0).modCore 0 (fun k => { k with events := events, iemask := mask })

theorem witness_TrapEntrySavesAndEntersHostMode :
    let s := est 0x1C 0x18
    (3 < 5 ∧ s.cc.events.getLsbD 3 = true ∧ s.cc.iemask.getLsbD 3 = true ∧
      ∀ e < 3, ¬ (s.cc.events.getLsbD e = true ∧ s.cc.iemask.getLsbD e = true)) ∧
    Traps (kst 0 0 0) ((kst 0 0 0).coreTrap .align 0x15 9) .align 0x15 9 ∧ 0x15 < 2 ^ 16 :=
  ⟨by decide +kernel, ⟨rfl, rfl, rfl, rfl, rfl, rfl, rfl, rfl, by decide +kernel, fun _ => rfl⟩, by decide⟩

theorem witness_PrivilegedFormsTrapInPartitionMode :
    (pst 0 0 0 false).cc.mode = false ∧ (kst 0 0 0).cc.mode = true ∧
    (∃ b < 5, (est 0x10 0x10).cc.events.getLsbD b = true ∧ (est 0x10 0x10).cc.iemask.getLsbD b = true) ∧
    (∀ b < 5, ¬ ((est 0x10 0x0F).cc.events.getLsbD b = true ∧ (est 0x10 0x0F).cc.iemask.getLsbD b = true)) := by
  decide +kernel

theorem witness_SystemRegistersReadAsTheTableSays :
    ((kst 0 0 0).cc.mode = true ∨ SysReg.hvec ∈ [SysReg.curvf, .coreno, .snkflag, .knottab, .knotcnt, .knotreg, .hfree, .cycle]) ∧
    ((pst 0 0 0 false).cc.mode = true ∨
      SysReg.knotcnt ∈ [SysReg.curvf, .coreno, .snkflag, .knottab, .knotcnt, .knotreg, .hfree, .cycle]) ∧
    (pst 0 0 0 false).cc.curVf = some 1 := by decide +kernel

/-- What an engine gets: 0 a value, 1 a wait, 2 a failure. -/
def gotIs {α : Type} (g : Got α) (k : Nat) (p : State → Bool) : Bool :=
  match g with
  | .ok _ t => decide (k = 0) && p t
  | .wait t => decide (k = 1) && p t
  | .fail _ _ t => decide (k = 2) && p t

theorem gotIs_ok {α : Type} {g : Got α} {p : State → Bool} (h : gotIs g 0 p = true) : ∃ x t, g = .ok x t ∧ p t = true := by
  cases g with
  | ok x t => exact ⟨x, t, rfl, by simpa [gotIs] using h⟩
  | wait t => exact absurd h (by simp [gotIs])
  | fail c a t => exact absurd h (by simp [gotIs])

theorem gotIs_wait {α : Type} {g : Got α} {p : State → Bool} (h : gotIs g 1 p = true) : ∃ t, g = .wait t ∧ p t = true := by
  cases g with
  | ok x t => exact absurd h (by simp [gotIs])
  | wait t => exact ⟨t, rfl, by simpa [gotIs] using h⟩
  | fail c a t => exact absurd h (by simp [gotIs])

theorem gotIs_fail {α : Type} {g : Got α} {p : State → Bool} (h : gotIs g 2 p = true) : ∃ c a t, g = .fail c a t ∧ p t = true := by
  cases g with
  | ok x t => exact absurd h (by simp [gotIs])
  | wait t => exact absurd h (by simp [gotIs])
  | fail c a t => exact ⟨c, a, t, rfl, by simpa [gotIs] using h⟩

/-- Core 0 in host mode with CURVF naming function 1. -/
def hst (a b c : Double) : State := (pst a b c false).modCore 0 (fun k => { k with status := 5 })

/-- Function 1 has its range table at an address; lines are poisoned. -/
def rangest (base : Double) (poison : List Nat) : State :=
  let s := (hst 0x81 0 0).modVf 1 (fun v => { v with rangebase := base })
  { s with mm := { s.mm with poison := poison } }

theorem witness_SystemRegistersAreWritten :
    (hst 0x7F 0 0).cc.mode = true ∧ ((hst 0x7F 0 0).g 1).toNat / 128 % 2 = 0 ∧ (hst 65536 0 0).cc.curVf = some 1 ∧
    ((hst 65536 0 0).g 1).toNat ≤ 65536 ∧
    (((hst 0x81 0 0).g 1).toNat / 128 % 2 = 1 ∧ ((hst 0x81 0 0).vf (((hst 0x81 0 0).g 1).toNat % 128)).rangebase = 0) ∧
    ((pst 65536 0 0 false).cc.mode = false ∧ (pst 65536 0 0 false).cc.curVf = some 1) ∧ (nst 0).cc.curVf = none ∧
    (∃ l u, (rangest 0x100 []).rangeTable 0 1 = .ok l u ∧ true = true) ∧
    (∃ u, (rangest 0x10000 []).rangeTable 0 1 = .wait u ∧ true = true) ∧
    (∃ c a u, (rangest 0x100 [0x402]).rangeTable 0 1 = .fail c a u ∧ true = true) ∧
    (let s : State := { hst 0 0 0 with sched := { (hst 0 0 0).sched with arg := { value := 0x7F } } }
     s.sched.arg.value / 128 % 2 = 0 ∧ s.cc.curVf = some 1 ∧ s.sched.arg.value < 2 ^ 64) ∧
    (let s : State := { hst 0 0 0 with sched := { (hst 0 0 0).sched with arg := { value := 0x81 } } }
     s.sched.arg.value / 128 % 2 = 1 ∧ gotIs (s.rangeTable 0 1) 0 (fun _ => true) = true) := by
  refine ⟨?_, ?_, ?_, ?_, ?first, ?_, ?_, gotIs_ok (p := fun _ => true) (by decide +kernel),
    gotIs_wait (p := fun _ => true) (by decide +kernel), gotIs_fail (p := fun _ => true) (by decide +kernel), ?_, ?_⟩ <;> decide +kernel

theorem witness_CoreLoadsReadTheBytesOfTheirAddress :
    ((kst 0x41 0 0).g 1 + (0 : BitVec 12).signExtend 64).toNat % 2 ≠ 0 ∧
    (let va := ((kst 0xFFF8 0 0).g 1 + (0 : BitVec 12).signExtend 64).toNat
     va % 8 = 0 ∧ (kst 0xFFF8 0 0).cc.mode = true ∧ va < 0x10000) ∧
    (let s := kst 0x10000 0 0
     let va := (s.g 1 + (0 : BitVec 12).signExtend 64).toNat
     va % 8 = 0 ∧ s.cc.mode = true ∧ 0x10000 ≤ va ∧ ¬ (windowBase ≤ va ∧ va < windowBase + 0x100000) ∧ s.physOk va = true ∧
      s.portWaits va = false ∧ s.cc.sb = [] ∧ (∀ l ∈ s.cc.l1, l.pa ≠ va / 128) ∧ homeDie va = coreDie s.sched.curCore ∧
      s.poisoned va 8 = false) ∧
    (∃ v u, (pst 0x18 0 0 false).coreRead 0x18 8 = .ok v u) ∧ (∃ u, (pst 0x18 0 0 false).coreRead 0x10000 8 = .out u) := by
  refine ⟨?_, ?_, ?_, gotOk_spec (by decide +kernel), gotOut_spec (by decide +kernel)⟩ <;> decide +kernel

/-- The store buffer of core 0 is full. -/
def fullSb (s : State) : State := s.modCore 0 (fun k => { k with sb := List.replicate 16 { va := 0, n := 8, value := 0, pa := 0x20000, vf := 1 } })

theorem witness_CoreStoresWriteTheBytesOfTheirAddress :
    ((kst 0x44 0 0).g 1 + (-1 : BitVec 12).signExtend 64).toNat % 2 ≠ 0 ∧
    (let va := ((kst 0xC000 0 0).g 1 + (0 : BitVec 12).signExtend 64).toNat
     va % 8 = 0 ∧ (kst 0xC000 0 0).cc.mode = true ∧ 0xC000 ≤ va ∧ va ≤ 0xFFFF) ∧
    (let va := ((kst 0xBFF8 0 0).g 1 + (0 : BitVec 12).signExtend 64).toNat
     va % 8 = 0 ∧ (kst 0xBFF8 0 0).cc.mode = true ∧ va < 0xC000) ∧
    (pst 8 0 0 false).atSlots 8 = false ∧
    (∃ pa vf u, (pst 8 0 0 false).coreRef 8 2 = (.mem pa vf false, u) ∧ decide (u.cc.sb.length < 16) = true) ∧
    (∃ pa vf u, (fullSb (pst 8 0 0 true)).coreRef 8 2 = (.mem pa vf true, u) ∧ decide (16 ≤ u.cc.sb.length) = true) ∧
    (∃ off u, (kst windowBase 0 0).coreRef windowBase 2 = (.window off, u) ∧ decide (off = 0) = true) ∧
    (∃ c i v u, (nst 8).coreRef 0x10000 2 = (.trap c i v, u) ∧ true = true) := by
  refine ⟨?_, ?_, ?_, ?_, leads_mem (p := fun _ u => decide (u.cc.sb.length < 16)) (fe := false) (by decide +kernel),
    leads_mem (p := fun _ u => decide (16 ≤ u.cc.sb.length)) (fe := true) (by decide +kernel), leads_window (p := fun
    off _ => decide (off = 0)) (by decide +kernel), leads_trap (p := fun _ _ => true) (by decide +kernel)⟩ <;> decide +kernel

theorem witness_CoreStoreThenLoadReturnsTheValue :
    let s := kst 0x40000 0x1234 0
    let va := (s.g 1 + (0 : BitVec 12).signExtend 64).toNat
    s.cc.mode = true ∧ va % 8 = 0 ∧ 0x10000 ≤ va ∧ ¬ (windowBase ≤ va ∧ va < windowBase + 0x100000) ∧ s.physOk va = true ∧
      s.portWaits va = false ∧ s.cc.sb.length < 16 ∧ homeDie va = coreDie s.sched.curCore ∧ s.poisoned va 8 = false ∧
      gives (.stg 2 1 0 .b8) s (fun t => gives (.ldg 3 1 0 .b8) t (fun u => decide (u.g 3 = 0x1234))) = true ∧ (3 : Fin 32) ≠ 0 := by
  decide +kernel

theorem witness_SynchronisingAccessesOfCores :
    ((kst 0x44 0 0).g 1).toNat % 8 ≠ 0 ∧ (((kst 0xFFF8 0 0).g 1).toNat % 8 = 0 ∧ (kst 0xFFF8 0 0).cc.mode = true ∧ 0xFFF8 < 0x10000) ∧
    (∃ pa vf u, (pst 0 0 0 false).coreRef 0x10 1 = (.mem pa vf false, u) ∧ true = true) ∧
    (∃ off u, (kst 0 0 0).coreRef windowBase 2 = (.window off, u) ∧ true = true) ∧
    (∃ e i v u, (nst 0).coreRef 0x10000 1 = (.trap e i v, u) ∧ true = true) ∧
    (∃ pa vf u, (pst 0 0 0 true).coreRef 0x10 1 = (.mem pa vf true, u) ∧
      decide (u.cc.buffered (pa / 16 * 16) 16 = false ∧ u.poisoned pa 8 = false ∧ pa / 16 ∉ u.mm.fe) = true) ∧
    (let s := pst 0 0 0 true
     ∃ pa vf u, ({ s with mm := { s.mm with fe := [0x2001] } } : State).coreRef 0x10 1 = (.mem pa vf true, u) ∧
      decide (u.cc.buffered (pa / 16 * 16) 16 = false ∧ u.poisoned pa 8 = false ∧ pa / 16 ∈ u.mm.fe) = true) ∧
    (∃ pa vf u, (pst 0 0 0 true).coreRef 0x10 2 = (.mem pa vf true, u) ∧ decide (u.cc.sb.length < 16) = true) ∧
    (∃ pa vf u, (fullSb (pst 0 0 0 true)).coreRef 0x10 2 = (.mem pa vf true, u) ∧ decide (16 ≤ u.cc.sb.length) = true) := by
  refine ⟨?_, ?_, leads_mem (p := fun _ _ => true) (fe := false) (by decide +kernel), leads_window (p := fun _ _ =>
    true) (by decide +kernel), leads_trap (p := fun _ _ => true) (by decide +kernel), leads_mem (p := fun pa u => decide
    (u.cc.buffered (pa / 16 * 16) 16 = false ∧ u.poisoned pa 8 = false ∧ pa / 16 ∉ u.mm.fe)) (fe := true) (by decide +kernel), leads_mem (p := fun pa u => decide (u.cc.buffered (pa / 16 * 16) 16 = false ∧ u.poisoned pa 8 = false ∧ pa
    / 16 ∈ u.mm.fe)) (fe := true) (by decide +kernel), leads_mem (p := fun _ u => decide (u.cc.sb.length < 16)) (fe :=
    true) (by decide +kernel), leads_mem (p := fun _ u => decide (16 ≤ u.cc.sb.length)) (fe := true) (by decide +kernel)⟩ <;> decide +kernel

theorem witness_FencesAndAtomicsOfCores :
    (kst 0 0 0).gfenceMet 0 .full .system = true ∧ (fullSb (kst 0 0 0)).gfenceMet 0 .rel .die = false ∧
    ((fullSb (kst 0 0 0)).cc.sb ≠ []) ∧ ((kst 0 0 0).cc.sb = [] ∧ (kst 0 0 0).cc.before = [] ∧ (kst 0 0 0).mm.accesses = []) ∧
    ((kst 0x44 0 0).g 1).toNat % 8 ≠ 0 ∧ (let s := kst 0xC000 0 0
     (s.g 1).toNat % 8 = 0 ∧ s.cc.mode = true ∧ 0xC000 ≤ (s.g 1).toNat) ∧
    (let s := kst 0xBFF8 0 0
     (s.g 1).toNat % 8 = 0 ∧ s.cc.mode = true ∧ (s.g 1).toNat < 0xC000 ∧ s.coreDone s.sched.curCore .system = true) ∧
    (fullSb (pst 8 0 0 false)).atSlots 8 = false ∧ (fullSb (pst 8 0 0 false)).coreDone 0 .system = false ∧
    (∃ old u, (pst 8 0 0 false).gamoAt 8 8 5 .rel .add = .ok old u) ∧ (pst 8 0 0 false).coreDone 0 .system = true ∧
    (∃ pa vf u, (pst 8 0 0 false).coreRef 8 2 = (.mem pa vf false, u) ∧
      decide (u.cc.buffered pa 8 = false ∧ u.poisoned pa 8 = false) = true) ∧ Memory.wf (pst 8 0 0 false).mm.mem = true := by
  refine ⟨?_, ?_, ?_, ?_, ?first, ?_, ?_, ?_, ?_, gotOk_spec (by decide +kernel), ?fits,
    leads_mem (p := fun pa u => decide (u.cc.buffered pa 8 = false ∧ u.poisoned pa 8 = false)) (fe := false) (by decide +kernel), ?_⟩ <;>
    decide +kernel

theorem witness_AtomicCombinationsAreThoseOfTheSpec : (8 : Nat) ∈ [4, 8] ∧ 2 ^ 64 - 1 < 256 ^ 8 ∧ 2 ^ 32 - 1 < 256 ^ 4 := by decide

/-- The state with a validated copy of knot 2 of function 1 at die 0. -/
def withCopy (s : State) : State := s.modEng 0 (fun e => { e with knots := [{ vf := 1, idx := 2, used := 0, cached := true, img := img1 0 }] })

/-- An entry of the knot table: whether it is valid. -/
def gotEntry (g : Got (Nat × Bool)) : Option Bool := match g with | .ok x _ => some x.2 | .wait _ => none | .fail _ _ _ => none

theorem gotEntry_spec {g : Got (Nat × Bool)} {b : Bool} (h : gotEntry g = some b) : ∃ e w, g = .ok (e, b) w := by
  cases g with
  | ok x w => exact ⟨x.1, w, by simp only [gotEntry, Option.some.injEq] at h; rw [← h]⟩
  | wait w => exact absurd h (by simp [gotEntry])
  | fail c a w => exact absurd h (by simp [gotEntry])

/-- A launch by core 0 for function 1 of knot 2, whose parameter block is at local address 0x20; enabled when on. -/
def lst (on : Bool) (block : Nat) : State :=
  ((hst 2 0x20 0).modVf 1 (fun f => { f with ctl := if on then 1 else 0 })).modCore 0 (fun k => { k with lm := Mem.write k.lm 0x20 8 block })

/-- The first use of knot 2 of function 1 has found it bad. -/
def withBad (s : State) (code : Nat) : State := s.modEng 0 (fun e => { e with bad := [{ vf := 1, idx := 2, code := code, arg := 0 }] })

/-- The doubles of an image of one quad whose compute station (0, 0) has one sprig with the body RET (R79, R80, R56). -/
def image1 : List (BitVec 64) := [0x000000014B4E3354, 1, 64, 0, 0, 0, 96, 0, 0x0000000000300000, 0, 0, 0xA2000000]

/-- Entry 2 of function 1's knot table is valid and names an address; image1 lies at virtual address 0x1000. -/
def knotst (va : Nat) : State :=
  let s := lst true 0
  let image := image1.zipIdx.foldl (fun m p => Mem.write m (0x21000 + 8 * p.2) 8 p.1.toNat) s.mm.mem
  { s with mm := { s.mm with mem := Mem.write (Mem.write image 0x20020 8 1) 0x20028 8 va } }

/-- Function 1 has 1,024 root records. -/
def manyRoots (s : State) : State :=
  { s with prick := { s.prick with roots := List.replicate 1024 { handle := 0, vf := 1, die := 0, inst := 0, core := 0, lineage := 1 } } }

theorem isSome_spec {α β : Type} {x : Option α × β} (h : x.1.isSome = true) : ∃ a q, x = (some a, q) := by
  rcases x with ⟨a | a, q⟩
  · simp at h
  · exact ⟨a, q, rfl⟩

theorem witness_LaunchesAreQueuedOrRefused :
    (kst 0 0 0).cc.curVf = none ∧ (lst false 0).cc.curVf = some 1 ∧ ((lst false 0).vf 1).enable = false ∧
    ((lst true 0).vf 1).enable = true ∧ (∃ p u, (lst true 0).coreRead 0x20 8 = .ok p u) ∧ (∃ u, (lst true 0).coreRead 0x21 8 = .out u) ∧
    (fld (2 ^ 35) 35 13 ≠ 0 ∧ fld (2 ^ 48) 35 13 = 0 ∧ fld (2 ^ 48) 0 32 = 0 ∧ fld (2 ^ 48) 48 2 ≠ 3 ∧ fld (3 * 2 ^ 48) 48 2 = 3) ∧
    ((lst true 0).vf 1).knotcnt.toNat ≤ 3 ∧ 2 < ((lst true 0).vf 1).knotcnt.toNat ∧ (lst true 0).copy? 0 1 2 = none ∧
    (lst true 0).badKnot? 0 1 2 = none ∧ ((withBad (lst true 0) 0x30).badKnot? 0 1 2).map (·.code) = some 0x30 ∧
    ((withBad (lst true 0) 0x23).badKnot? 0 1 2).map (·.code) = some 0x23 ∧
    (∃ e w, (lst true 0).knotEntry 0 1 2 = .ok (e, false) w) ∧
    gotIs (((lst true 0).modVf 1 (fun v => { v with knottab := 0x100000 })).knotEntry 0 1 2) 1 (fun _ => true) = true ∧
    gotIs (((lst true 0).modVf 1 (fun v => { v with knottab := 0x1000000000000000 })).knotEntry 0 1 2) 2 (fun _ => true) = true ∧
    (gotEntry ((knotst 0x1000).knotEntry 0 1 2) = some true ∧ gotIs ((knotst 0x1000).fetchImage 0 1 0x1000) 0 (fun _ => true) = true) ∧
    gotIs ((knotst 0x100000).fetchImage 0 1 0x100000) 1 (fun _ => true) = true ∧
    gotIs ((knotst 0x2000).fetchImage 0 1 0x2000) 2 (fun _ => true) = true ∧
    ((withCopy (lst true 0)).copy? 0 1 2).isSome = true ∧
    (withCopy (lst true 0)).rootsOf 1 < 1024 ∧ (∃ id q, (withCopy (lst true 0)).rootId 0 = (some id, q)) ∧
    1024 ≤ (manyRoots (lst true 0)).rootsOf 1 := by
  refine ⟨?_, ?_, ?_, ?_, gotOk_spec (by decide +kernel), gotOut_spec (by decide +kernel), ?first, ?_, ?_, ?_, ?_, ?fits, ?_, gotEntry_spec
    (by decide +kernel), ?_, ?_, ?_, ?held, ?_, ?_, ?_, isSome_spec (by decide +kernel), ?_⟩ <;> decide +kernel

/-- Core 0 with root record 7 of function 1, whose instance 5 is in a state and with a number of held tokens, which has retired or not, and
whose retirement waits for accesses. -/
def rst (st : IState) (placed : Bool) (held : Nat) (retired : Bool) (before : List Nat) : State :=
  let s := hst 7 0x55 0
  let m := img1 0
  let f : Flight := { tok := ⟨0, 0, .null⟩ }
  { s with prick := { s.prick with
      insts := [{ inst5 with st := st, img := if placed then some m else none }]
      roots := [{ handle := 7, vf := 1, die := 0, inst := 5, core := 0, lineage := 1, retired := retired, before := before,
                  held := List.replicate held (0, f) }] } }

/-- The way of an INJ to the root of handle 7. -/
def way (s : State) : Option InjWay :=
  match s.rootFor 7 with
  | none => none
  | some r => (s.rootInst r).map (s.injWay r)

theorem witness_InjectionsAreSentHeldOrReported :
    (fullSb (hst 7 0 0)).coreDone 0 .device = false ∧ (hst 7 0 0).coreDone 0 .device = true ∧ (hst 8 0 0).rootFor 8 = none ∧
    ((rst .retired false 0 true []).rootFor 7).isSome = true ∧
    ((rst .retired false 0 true []).rootFor 7).bind (rst .retired false 0 true []).rootInst = none ∧
    (way (rst .queued false 64 false []) = some .hold ∧ ((rst .queued false 64 false []).rootFor 7).map (·.held.length) = some 64) ∧
    way (rst .queued false 63 false []) = some .hold ∧ way (rst .live true 0 false []) = some .send ∧ 0 < 1 ∧
    way ((rst .live true 0 false []).modVf 1 (fun v => { v with st := .saved })) = some .image := by decide +kernel

theorem witness_SinksAndRetirementAreRead :
    ((rst .live true 0 false []).rootFor 7).map (·.retired) = some false ∧
    (((rst .retired true 0 true [3]).rootFor 7).map (fun r => (r.retired, r.before)) = some (true, [3]) ∧
      (rst .retired true 0 true [3]).performed 3 .device 0 = true) ∧
    (let s := rst .retired true 0 true [3]
     let t : State := { s with mm := { s.mm with accesses := [{ s.newAcc .firing (.store 1) 0 8 0 with uid := 3 }] } }
     ∃ u ∈ [3], t.performed u .device 0 = false) ∧
    (hst 8 0 0).rootFor ((hst 8 0 0).g 1) = none := by decide +kernel

/-- Core 0 in a mode, with a packet of queue interface q, function 1's, in intake slot 2, popped or not. -/
def qst (host popped : Bool) (a cfg : Double) (gen : Nat) : State :=
  let s := (hst a 0 0).modHost (fun h => { h with qis := Map.put h.qis 3 { cfg := cfg } })
  s.modCore 0 (fun k => { k with status := if host then 5 else 0, pktq := if popped then [] else [(3, 2)],
                                 slots := [(2, { qi := 3, vf := 1, number := 9, gen := gen, popped := popped })] })

/-- What a unit's access gives: its address, if it goes on. -/
def uoutIs (o : UOut) (p : Nat → State → Bool) : Bool := match o with | .ok pa t => p pa t | .wait _ => false | .fail _ _ _ => false

theorem uoutIs_spec {o : UOut} {p : Nat → State → Bool} (h : uoutIs o p = true) : ∃ pa t, o = .ok pa t ∧ p pa t = true := by
  cases o with
  | ok pa t => exact ⟨pa, t, rfl, h⟩
  | wait _ => exact absurd h (by simp [uoutIs])
  | fail _ _ _ => exact absurd h (by simp [uoutIs])

theorem uout_waits {o : UOut} (h : (match o with | .ok _ _ => false | .wait _ => true | .fail _ _ _ => false) = true) :
    ∃ t, o = .wait t := by
  cases o with
  | ok pa u => exact absurd h (by simp)
  | wait t => exact ⟨t, rfl⟩
  | fail c a t => exact absurd h (by simp)

theorem uout_fails {o : UOut} (h : (match o with | .ok _ _ => false | .wait _ => false | .fail _ _ _ => true) = true) :
    ∃ c a t, o = .fail c a t := by
  cases o with
  | ok pa u => exact absurd h (by simp)
  | wait t => exact absurd h (by simp)
  | fail c a t => exact ⟨c, a, t, rfl⟩

/-- The address of the completion record of qst's popped packet, for a configuration and a base of the records. -/
def complet (cfg base : Double) : UOut :=
  let s := (qst false true 0xC080 cfg 0).modHost (fun h => { h with qis := Map.put h.qis 3 { cfg := cfg, cplbase := base } })
  let x := s.qi 3
  s.unitAccess (coreDie x.core) x.owner (x.cplbase.toNat + 16 * (9 % x.ring)) true (some x.pasid) (.completion 3)

/-- A core in partition mode for function 1 that names interrupt handle a; entry 3 of the remap table is function 1's, and the Simiow
ports are up or down. -/
def irqst (up : Bool) (a : Double) : State :=
  let s := (pst a 0 0 false).modHost (fun h =>
    { h with irqremap := 0x8000000000000000, ports := h.ports.map (fun p => { p with width := if up then 16 else 0, training := false }) })
  { s with mm := { s.mm with mem := Mem.write s.mm.mem (2 ^ 51 + 48) 16 (0x100 * 2 ^ 64 + 0x55 * 2 ^ 32 + 0x10001) } }

theorem witness_PacketsAreTakenAndCompleted :
    (qst true false 0x103 9 0).cc.mode = true ∧ ((qst true false 0x103 9 0).g 1).getLsbD 8 = true ∧
    (((qst true false 3 11 0).g 1).getLsbD 8 = false ∧
      ((qst true false 3 11 0).qi (((qst true false 3 11 0).g 1).toNat % 256)).core ≠ 0) ∧
    (qst true false 2 9 0).cc.pktq = [(3, 2)] ∧
    (let s := qst true false 3 9 0
     (s.g 1).getLsbD 8 = false ∧ (s.qi ((s.g 1).toNat % 256)).core = s.sched.curCore ∧ s.cc.pktq = [] ++ (3, 2) :: [] ∧
      3 = (s.g 1).toNat % 256) ∧
    (qst true false 0xC080 9 0).cc.popped 0xC080 = none ∧
    (qst true true 0xC080 9 0).cc.popped 0xC080 = some (2, { qi := 3, vf := 1, number := 9, gen := 0, popped := true }) ∧
    (let s := qst false true 0xC080 17 0
     ¬ (s.cc.mode = true ∨ some (s.qi 3).owner = s.cc.curVf)) ∧
    (let s := qst false true 0xC080 9 1
     (s.cc.mode = true ∨ some (s.qi 3).owner = s.cc.curVf) ∧ s.coreDone 0 .system = true ∧ 1 ≠ (s.vf (s.qi 3).owner).gen ∧
      0 = (s.vf (s.qi 3).owner).gen) ∧
    (fullSb (qst false true 0xC080 9 0)).coreDone 0 .system = false ∧
    (∃ pa u, complet 9 0 = .ok pa u ∧ u.physOk pa = true) ∧ (∃ pa u, complet 0x409 0 = .ok pa u ∧ u.physOk pa = true) ∧
    (∃ u, complet 9 0x100000 = .wait u) ∧ (∃ c i u, complet 9 (2 ^ 60) = .fail c i u) ∧
    (({ cfg := 9 } : Qi).irqen = false ∧ ({ cfg := 0x409 } : Qi).irqen = true ∧ Memory.wf (qst false true 0xC080 9 0).mm.mem = true) ∧
    2 ^ 16 ≤ ((kst 65536 0 0).g 1).toNat ∧ (((kst 65535 0 0).g 1).toNat < 2 ^ 16 ∧ (kst 65535 0 0).cc.mode = true) ∧
    ((nst 1).cc.mode = false ∧ (nst 1).cc.curVf = none) ∧
    (let s := irqst true 3
     let w := Mem.read s.mm.mem (2 ^ 51 + 48) 16
     s.coreDone s.sched.curCore .system = true ∧ (s.g 1).toNat = 3 ∧ s.cc.mode = false ∧ s.cc.curVf = some 1 ∧
      s.host.irqremap.getLsbD 63 = true ∧ s.portWaits (2 ^ 51 + 48) = false ∧ fld w 0 1 = 1 ∧ fld w 64 2 = 0 ∧ fld w 23 1 = 0 ∧
      fld w 16 7 = 1 ∧ fld w 64 64 = 0x100 ∧ s.portWaits (2 ^ 51 + 0x100) = false ∧ s.physOk (2 ^ 51 + 0x100) = true) ∧
    (irqst false 3).portWaits (2 ^ 51 + 48) = true ∧ fld (Mem.read (irqst true 4).mm.mem (2 ^ 51 + 64) 16) 0 1 ≠ 1 := by
  refine ⟨?_, ?_, ?_, ?_, ?first, ?_, ?_, ?_, ?_, ?fits, uoutIs_spec (p := fun pa u => u.physOk pa) (by decide +kernel),
    uoutIs_spec (p := fun pa u => u.physOk pa) (by decide +kernel), uout_waits (by decide +kernel), uout_fails (by decide +kernel), ?_, ?_, ?_, ?_, ?held, ?_, ?_⟩ <;>
    decide +kernel

theorem witness_CoreTelemetryReadsItsCounters :
    (kst 0 0 0).cc.curVf = none ∧ (hst 0 0 0).cc.curVf = some 1 ∧ ((hst 0 0 0).vf 1).bcastMade = false ∧
    (((hst 0 0 0).modVf 1 (fun v => { v with bcastMade := true })).vf 1).bcastMade = true := by decide +kernel

/-! #### Stations -/

/-- The firing at a compute station where function 1 has Hedgerow rows. -/
def room5 : State := cst.modVf 1 (fun v => { v with shares := 0x10000000000 })

/-- A firing of a root instance that has created no callee and has a row for its frame may trap in place. -/
theorem room_of {s : State} (h : s.fir.calls = [] ∧ s.rowRoom s.sched.curSt s.fir.ctx 1 = true ∧
    s.fInst.all (fun i => decide (i.kind = .root)) = true) : RoomToPark s := by
  refine ⟨h.1, h.2.1, fun i hi c q r hk => ?_⟩
  have := h.2.2
  simp [hi, hk] at this

/-- A firing of instance 5 of which arc 1 is claimed and the exit done. -/
def spent : State := room5.modFir (fun f => { f with claimed := 2, exitDone := true })

theorem witness_EmitsSendOnTheirArcs :
    cst.fInst = some inst5 ∧ cst.fir.isClaimed 1 = false ∧ cst.cx.route? cst.fir.sprig 1 = some 0x0800000000000002 ∧
    (2 : Fin 16) ≠ 1 ∧ cst.fir.isClaimed 2 = false ∧ cst.cx.route? cst.fir.sprig 2 = some 0x1000000000000003 ∧
    (withT cst 1 0 0).sel (.t 0) ≠ 0 ∧ (withT cst 1 0 0).sel (.t 1) = 0 := by decide +kernel

theorem witness_SecondSendsAndTrapsEndTheFiring :
    RoomToPark spent ∧ spent.fir.isClaimed (1 : Fin 16).val = true ∧ spent.fir.exitDone = true := by
  refine ⟨room_of ?_, ?_, ?_⟩ <;> decide +kernel

/-- A firing of a sprig with two exits. -/
def exits5 : State :=
  (cst.modCx (fun c => { c with routes := [[0x8100000060000006, 0x8800000000000007]] })).modFir (fun f => { f with header := 0x2000 })

theorem witness_ExitsAndSinkWritesLeave :
    exits5.fInst = some inst5 ∧ hdrExits exits5.fir.header = 2 ∧ exits5.cx.route? exits5.fir.sprig (16 + 0) = some 0x8100000060000006 ∧
    exits5.cx.route? exits5.fir.sprig (16 + 1) = some 0x8800000000000007 ∧ exits5.fir.exitDone = false := by decide +kernel

theorem witness_LoopGatesCountTheirAllowance : cst.fir.ctx < 8 := by decide +kernel

/-- The slot holds a thinning counter of arc 1's target. -/
def thin5 (place g c : Nat) : State :=
  cst.modCx (fun x => { x with thin := [{ target := rtKey 0x0800000000000002, thread := tagThread fire5.otag, g := g, c := c, place := place, used := 0 }] })

theorem witness_ThinningPassesDenseGroups :
    (let s := withT cst 0 0 0
     s.fInst = some inst5 ∧ s.fir.ctx < 8 ∧ s.fir.isClaimed 1 = false ∧ s.cx.route? s.fir.sprig 1 = some 0x0800000000000002 ∧
      s.sel (.t 0) = 0 ∧ (withT s 1 0 0).sel (.t 0) ≠ 0) ∧
    (let mine := fun (c : ThinCounter) => decide (c.target = rtKey 0x0800000000000002 ∧ c.thread = tagThread cst.fir.otag)
     (((thin5 0 16 5).cx.thin.find? mine).map (fun c => (c.place, c.g, c.c)) = some (0, 16, 5) ∧ 5 + (16 - 5 % 16) % 16 ≤ 2 ^ 20) ∧
     (((thin5 0 16 0xFFFFF).cx.thin.find? mine).isSome = true ∧ 0xFFFFF + (16 - 0xFFFFF % 16) % 16 ≤ 2 ^ 20) ∧
      cst.cx.thin.find? mine = none ∧ (cst.st cst.sched.curSt).thinOnDie.length < 64) := by decide +kernel

theorem witness_StationSystemInstructionsAct :
    cst.fInst = some inst5 ∧ (cst.vf 1).bcastMade = false ∧ ((cst.modVf 1 (fun v => { v with bcastMade := true })).vf 1).bcastMade = true ∧
    (cst.vf 1).sampLog = 0 ∧ cst.fir.ctx < 8 := by decide +kernel

theorem witness_ScalarFloatsComputeAndConvert : cst.fir.ctx < 8 ∧
    (let x := cvtRead .f32 (0xC0200000 : Double)
     x ≠ .nan ∧ x ≠ .inf false ∧ x ≠ .inf true) ∧ cvtRead .f32 (0x7FC00000 : Double) = .nan ∧ cvtRead .f32 (0x7F800000 : Double) = .inf false ∧
    cvtRead .f32 (0xFF800000 : Double) = .inf true := by decide +kernel

theorem witness_FloatCodesRoundBetweenNeighbours :
    f32Spec ∈ [f32Spec, f16Spec, bf16Spec, e5m2Spec, e2m1Spec] ∧ (∃ p nat fin, 1 ≤ p ∧ p ≤ 7 ∧ b8Spec 7 true false = b8Spec p nat fin) ∧
    0 < 1 ∧ f32Spec.maxCode ≤ f32Spec.maxCode ∧ f32Spec.decode (f32Spec.signed true f32Spec.maxCode) ≠ .nan ∧
    f32Spec.decode (f32Spec.signed false 0) ≠ .nan :=
  ⟨List.mem_cons_self, ⟨7, true, false, by decide, by decide, rfl⟩, by decide, le_refl _, by decide +kernel, by decide +kernel⟩

theorem witness_ReciprocalsAreBracketedAndSpecialValuesTabulated : 0 < 1 ∧ |(1000 : ℤ)| ≤ 1000 ∧ |(-1000 : ℤ)| ≤ 1000 := by decide

/-- The firing with the station's format f and tile registers 0 to 2. -/
def tst (f : Nat) (a b c : Tile) : State :=
  cst.modCx (fun x => { x with word := x.word + BitVec.ofNat 128 (f * 2 ^ 85), tiles := ((x.tiles.set 0 a).set 1 b).set 2 c })

theorem witness_VectorArithmeticIsElementwise :
    let s := tst 0 {} { rowBytes := 96, width := .w8 } { rowBytes := 192 }
    let x := s.cx.tile 0
    let y := s.cx.tile 1
    let z := s.cx.tile 2
    s.fir.ctx < 8 ∧ (x.rows ≤ 16 ∧ x.rowBytes ≤ 384) ∧ x.rows = y.rows ∧ x.perRow = y.perRow ∧ x.perRow = 96 ∧
      (z.rows ≤ 16 ∧ z.rowBytes ≤ 384) ∧ x.rows ≤ y.rows ∧ y.width = .w8 ∧ (1 + 1) * z.perRow ≤ x.perRow ∧
      (1 + 1) * z.perRow / 8 ≤ y.perRow := by decide +kernel

theorem witness_VectorsCompareSelectAndMove :
    let s := tst 0 {} {} { rows := 16, rowBytes := 96, width := .w8 }
    let x := s.cx.tile 0
    let y := s.cx.tile 1
    s.fir.ctx < 8 ∧ (x.rows ≤ 16 ∧ x.rowBytes ≤ 384) ∧ x.rows = y.rows ∧ x.perRow = y.perRow ∧ x.rowBytes = y.rowBytes ∧
      x.width = y.width ∧ (s.cx.tile 2).rows = x.rows ∧ (s.cx.tile 2).perRow = x.perRow ∧ 15 < x.rows ∧ 95 < x.perRow := by decide +kernel

theorem witness_VectorReductionsFollowTheLanes :
    let s := tst 0 {} {} {}
    15 < (s.cx.tile 0).rows ∧ 15 < (s.cx.tile 1).rows ∧ (s.cx.tile 0).perRow = (s.cx.tile 1).perRow ∧
      elemFmt s.cx.format .w32 = .fp f32Spec 32 ∧ elemFmt 3 .w8 = .int 8 := by decide +kernel

theorem witness_ConversionsCountWhatSaturates :
    cst.fInst = some inst5 ∧ cst.fir.ctx < 8 ∧ (cst.cx.tile 0).rows ≤ 16 ∧
    32 * (((cst.cx.tile 0).perRow * (fmtOf 0x30).width + 255) / 256) ≤ 384 ∧ cst.cx.route? cst.fir.sprig 9 = none ∧
    cst.cx.route? cst.fir.sprig 1 = some 0x0800000000000002 ∧ cst.fir.isClaimed 1 = false := by decide +kernel

/-- An entry of the matrix queue of the slot. -/
def entry5 (op : MatOp) (started granted : Bool) : MatEntry :=
  { op := op, ctx := 0, inst := 5, acc := 7, tag := 0, fid := 9, sprig := 0, started := started, granted := granted }

/-- The station with a number of entries of a kind queued, under a format. -/
def mst (f : Nat) (l : List MatEntry) : State := (tst f {} {} {}).modSt ⟨0, 0, 0⟩ (fun v => { v with matq := l })

theorem witness_MatrixInstructionsShapeTilesAndQueueWork :
    (let s := mst 5 []
     s.fir.ctx < 8 ∧ s.cx.format = 5 ∧ nativeWidth s.cx.format = .w4 ∧ matFmt s.cx.format = .mx) ∧
    (let s := mst 0 []
     (s.cx.tile 0).rows = 16 ∧ (s.cx.tile 0).perRow % 16 = 0 ∧ (s.cx.tile 0).rowBytes ≤ 384 ∧ s.cx.hstall < 2 ^ 16 ∧
      s.cx.rretry < 2 ^ 8) ∧
    (let s := mst 5 ((List.replicate 7 (entry5 .accclr false false)))
     (∀ e ∈ (s.st s.sched.curSt).matq, e.ctx = s.fir.ctx → e.op.isProduct = false) ∧ (s.st s.sched.curSt).matq.length < 8) ∧
    (let s := mst 1 ((List.replicate 8 (entry5 (.mma 0 1) false false)))
     (∃ e ∈ (s.st s.sched.curSt).matq, e.ctx = s.fir.ctx ∧ e.op.isProduct = true) ∧ 8 ≤ (s.st s.sched.curSt).matq.length ∧
      (s.st s.sched.curSt).matq.length ≤ 8 ∧ matFmt s.cx.format = .fp) ∧
    (let s := tst 5 { width := .w4 } { width := .w4 } { width := .w8, rowBytes := 192 }
     (s.cx.tile 0).width = nativeWidth s.cx.format ∧ (s.cx.tile 1).width = nativeWidth s.cx.format ∧
      (s.cx.tile 2).width = .w8 ∧ 192 ≤ (s.cx.tile 2).rowBytes) ∧
    (let s := tst 3 { width := .w8 } { width := .w8 } { rows := 16, rowBytes := 64, width := .w32 }
     matFmt s.cx.format = .int ∧ (s.cx.tile 0).width = nativeWidth s.cx.format ∧ (s.cx.tile 1).width = nativeWidth s.cx.format ∧
      (s.cx.tile 2).rows = 16 ∧ (s.cx.tile 2).rowBytes = 64 ∧ (s.cx.tile 2).width = .w32 ∧ s.fir.isClaimed 2 = false) ∧
    (let s := (tst 3 { width := .w8 } {} {}).modCx (fun c => { c with wr := { width := .w8 } })
     s.cx.wr.width = nativeWidth s.cx.format) ∧
    (let s := (tst 1 { width := .w4, rows := 8 } {} {}).modVf 1 (fun v => { v with shares := 0x10000000000 })
     RoomToPark s ∧ (s.st s.sched.curSt).matq.length < 8 ∧ (s.cx.tile 0).width ≠ nativeWidth s.cx.format ∧ matFmt s.cx.format ≠ .mx ∧
      (s.cx.tile 0).width ≠ .w32 ∧ (s.cx.tile 0).rows ≠ 16 ∧ s.cx.format ≠ 5 ∧
      (s.modFir (fun f => { f with claimed := 4 })).fir.isClaimed 2 = true) := by
  refine ⟨?_, ?_, ?_, ?_, ?first, ?_, ?_, room_of ?_, ?_⟩ <;> decide +kernel

/-- The matrix step of entry n of the station, or of column n; ok: its residue check passes. -/
def estep (s : State) (n : Nat) (ok : Bool) : State := { s with sched := { s.sched with arg := { n := n, ok := ok } } }

/-- Instance 5 has a Pleach chain of the compute stations (0, 0) and (2, 0), each with its slot; entries are queued at the first. -/
def chain5 (l : List MatEntry) : State :=
  let sta (head : BitVec 64) : StaRec := { head := head, sprigs := [0], words := [], routes := [[]], off := 64, size := 16 }
  let m : Image := { w := 1, h := 1, length := 96, pleach := true, signed := false, entries := [], results := [], sites := [], spawns := [],
                     stas := [sta 0x0000000100000000, sta 0x0800000100000000] }
  let s := (estep (mst 4 l) 0 true).modSt ⟨0, 2, 0⟩ (fun v => { v with ctxs := v.ctxs.set 0 slot5 })
  { s with prick := { s.prick with insts := [{ inst5 with img := some m }] } }

theorem witness_MatrixUnitStartsAndEndsItsEntries :
    (let s := estep (mst 1 [entry5 (.mma 0 1) false true]) 0 true
     let e := entry5 (.mma 0 1) false true
     (s.st s.sched.arg.loc).matq[s.sched.arg.n]? = some e ∧ s.matHead s.sched.arg.loc 0 e = true ∧ s.matRuns e = true ∧
      e.granted = true) ∧
    (let s := estep (mst 1 [entry5 (.mma 0 1) false false]) 0 true
     let e := entry5 (.mma 0 1) false false
     (s.st s.sched.arg.loc).matq[s.sched.arg.n]? = some e ∧ e.op.isProduct = true ∧ e.granted = false ∧
      (∀ k < 160, k ≠ 0 → s.heatAsk (columnStation 0 k) = none) ∧ s.heatAsk (columnStation 0 0) = some (0, e) ∧ e.stalled = false ∧
      matHeat ((s.st (columnStation 0 0)).ctx e.ctx).format ≤ min 4096 (((s.col 0).tokens * 32 + (s.col 0).frac + (s.col 0).grant) / 32)) ∧
    (let s := (estep (mst 1 [entry5 (.mma 0 1) false false]) 0 true).modCol 0 (fun c => { c with tokens := 0, grant := 32 })
     min 4096 (((s.col 0).tokens * 32 + (s.col 0).frac + (s.col 0).grant) / 32) <
      matHeat ((s.st (columnStation 0 0)).ctx 0).format) ∧
    (let e := entry5 (.mma 0 1) true true
     (estep (mst 1 [e]) 0 true).sched.arg.ok = true ∧ e.started = true ∧ e.ctx < 8 ∧ e.acc < 8 ∧
      (estep (mst 1 [e]) 0 false).sched.arg.ok = false ∧ e.op.isProduct = true ∧ e.failed = 0) ∧
    ((entry5 .accclr true false).op = .accclr ∧ (entry5 (.accld 2) true false).op = .accld 2 ∧ (entry5 .acctail true false).op = .acctail ∧
      ({ entry5 (.mma 0 1) false true with kept := true } : MatEntry).kept = true) ∧
    (let s := estep (mst 1 [entry5 (.accrd 0 none .rne 2) true false]) 0 true
     let e := entry5 (.accrd 0 none .rne 2) true false
     ((s.st ⟨0, 0, 0⟩).ctx 0).route? e.sprig 0 = some 1 ∧ rtTarget 1 = 0 ∧ (s.inst? e.inst).map (·.st.ended) = some false) ∧
    (let s := chain5 [entry5 (.afeed 2) true true]
     s.chainNext 5 ⟨0, 2, 0⟩ = none ∧ s.chainNext 5 ⟨0, 0, 0⟩ = some ⟨0, 2, 0⟩ ∧ ((s.st ⟨0, 2, 0⟩).ctx 0).valid = true ∧
      ((s.st ⟨0, 2, 0⟩).ctx 0).inst = 5 ∧ ((s.st ⟨0, 2, 0⟩).ctx 0).draining = false) ∧
    (∀ k < 160, (estep (mst 1 []) 0 true).heatAsk (columnStation 0 k) = none) ∧
    (let s := (estep (mst 1 []) 0 true).modSt ⟨0, 0, 0⟩ (fun v => { v with pleach := [{ ctx := 0, tag := 0, sum := 0, arrived := false }] })
     (s.st s.sched.arg.loc).pleach[s.sched.arg.n]? = some { ctx := 0, tag := 0, sum := 0, arrived := false } ∧
      (((s.st s.sched.arg.loc).pleach.take 0).all (·.arrived)) = true ∧ (((s.st s.sched.arg.loc).pleach.take 1).all (·.arrived)) = false) ∧
    matFmt 3 = .int ∧ matFmt 0x20 = .fp := by decide +kernel

/-- The firing at the bobbin station with t0 and t1, where function 1 has Hedgerow rows. -/
def bst2 (a b : Double) : State := (withT bst a b 0).modVf 1 (fun v => { v with shares := 0x10000000000 })

theorem witness_ScratchpadAccessesReadAndWriteTheirBytes :
    (RoomToPark (bst2 1 0) ∧ ((bst2 1 0).sel (.t 0) + (bst2 1 0).sel .z).toNat % 8 ≠ 0 ∧ (bst2 1 0).fir.ctx < 8) ∧
    (let s := bst2 0x40000 0
     2 ^ 18 < (s.sel (.t 0) + s.sel .z).toNat + 8) ∧
    (let s := (bst2 0x3FFF8 0x3FFF0).modSt ⟨0, 1, 0⟩ (fun v => { v with spFull := [0x3FFF] })
     let e := (s.sel (.t 0) + s.sel .z).toNat
     s.cx.leased = true ∧ e + 8 ≤ 2 ^ 18 ∧ e % 8 = 0 ∧ s.fir.lsids.getLsbD 31 = false ∧ e / 16 ∈ (s.st s.sched.curSt).spFull ∧
      s.releaseMet .plot = true ∧ (s.sel (.t 1)).toNat % 16 = 0 ∧ (s.sel (.t 1)).toNat + 16 ≤ 2 ^ 18 ∧
      (s.sel (.t 1)).toNat / 16 ∈ (s.st s.sched.curSt).spFull) ∧
    (let s := bst2 0x3FFF0 0x10
     (s.sel (.t 0)).toNat / 16 ∉ (s.st s.sched.curSt).spFull ∧ s.rowRoom s.sched.curSt s.fir.ctx 1 = true ∧
      (s.sel (.t 1)).toNat % 16 = 0 ∧ (s.sel (.t 0)).toNat + (s.sel (.t 1)).toNat ≤ 2 ^ 18) ∧
    (let s := (bst2 0 0).modFir (fun f => { f with before := [3] })
     let t : State := { s with mm := { s.mm with accesses := [{ s.newAcc .firing (.store 1) 0 8 0 with uid := 3 }] } }
     t.releaseMet .plot = false ∧ t.fir.lsids.getLsbD 31 = false) ∧
    (RoomToPark (bst2 0x3FFF0 0x20) ∧ (let s := bst2 0x3FFF0 0x20
      (s.sel (.t 0)).toNat % 16 = 0 ∧ (s.sel (.t 1)).toNat ≠ 0 ∧ 2 ^ 18 < (s.sel (.t 0)).toNat + (s.sel (.t 1)).toNat)) ∧
    (RoomToPark (bst2 0x40000 0) ∧ ((bst2 0x40000 0).sel (.t 0)).toNat % 16 = 0 ∧ ((bst2 0x40000 0).sel (.t 1)).toNat = 0 ∧
      2 ^ 18 < ((bst2 0x40000 0).sel (.t 0)).toNat + 16) := by
  refine ⟨⟨room_of ?_, ?_, ?_⟩, ?_, ?first, ?_, ?_, ⟨room_of ?_, ?_⟩, ⟨room_of ?fits, ?_⟩⟩ <;> decide +kernel

/-- The firing at the compute station beside a bobbin station of its instance, whose image is one quad. -/
def nb5 : State :=
  let s := (withT cst 0x20 0x180 0).modSt ⟨0, 1, 0⟩ (fun v => { v with ctxs := v.ctxs.set 0 slot5 })
  let m := img1 0
  { s with prick := { s.prick with insts := [{ inst5 with img := some m }] } }

theorem witness_MemoryAccessesAreIssued :
    (RoomToPark (bst2 1 0) ∧ ((bst2 1 0).sel (.t 0) + (bst2 1 0).sel .z).toNat % 2 ≠ 0 ∧ (bst2 1 0).fir.ctx < 8) ∧
    ((bst2 0 0).modFir (fun f => { f with lsids := 0x80000000 })).fir.lsids.getLsbD 31 = true ∧
    (let s := nb5
     s.fir.lsids.getLsbD 31 = false ∧ (s.sel (.t 0)).toNat % 16 = 0 ∧ (s.sel (.t 1)).toNat % 16 = 0 ∧ (s.sel (.t 1)).toNat ≠ 0 ∧
      s.sel .z = 0 ∧ (∀ r < (s.cx.tile 0).rows, s.rowAddr (.t 0) (.t 1) r % 32 = 0) ∧
      ((s.cx.tile 0).rows ≤ 16 ∧ (s.cx.tile 0).rowBytes ≤ 384) ∧
      (∀ r < (s.cx.tile 0).rows, (s.rowPlace (s.rowAddr (.t 0) (.t 1) r) (s.cx.tile 0).rowBytes).isSome = true)) ∧
    (let s := withT bst 0x3FFF0 0 0x10
     (s.sel (.t 2)).toNat % 16 = 0 ∧ (s.sel (.t 0)).toNat % 16 = 0 ∧ (s.sel (.t 1)).toNat % 16 = 0 ∧ (s.sel (.t 2)).toNat % 2 ^ 32 ≠ 0 ∧
      s.cx.leased = true ∧ (s.sel (.t 0)).toNat + (s.sel (.t 2)).toNat % 2 ^ 32 ≤ 2 ^ 18 ∧
      (s.sel (.t 1)).toNat + (s.sel (.t 2)).toNat % 2 ^ 32 ≤ 2 ^ 18) := by
  refine ⟨⟨room_of ?_, ?_, ?_⟩, ?_, ?first, ?_⟩ <;> decide +kernel

/-- The firing with strand record 0 of its slot. -/
def kst5 (k : Strand) (a : Double) : State := (bst2 a 0).modSt ⟨0, 1, 0⟩ (fun v => { v with strands := v.strands.set 0 k })

/-- A strand record of 8-byte elements that has been defined. -/
def strand5 (tagged store : Bool) (dest : StrandDest) (count : Nat) (st : StrandState) : Strand :=
  { d := { tagged := tagged, store := store, size := .e8, dest := dest, count := count }, st := st, defd := true }

/-- The record of the firing's strand 0 is held by a fault or a pending SGO. -/
def heldStrand (s : State) : Bool := decide ((s.myStrand 0).st = .halted) || (decide ((s.myStrand 0).st = .armed) && (s.myStrand 0).pendGo)

/-- An update of 64 bits for a bin, an element of the firing's strand 0. -/
def upd5 (pa : Nat) : BinUpdate :=
  let s := kst5 (strand5 true true (.arc 1) 4 .armed) 3
  { pa := pa, n := 8, t := .i64, value := 3, strand := 0, seq := 0,
    acc := s.newAcc .strand (.scadd 0 0 .i64 (s.myStrand 0).d 3) 0x20 8 4 }

/-- Element 3 of strand 0, supplied by a firing under lsid 4. -/
def elem5 (fid : Nat) (st : AccState) : Access :=
  { (kst5 (strand5 false true (.q 0) 4 .armed) 3).newAcc .strand (.elemStore 0 3 (strand5 false true (.q 0) 4 .armed).d 7) 0 8 4 with
    fid := fid, st := st }

/-- The firing at an ARMED fed store strand whose element 3 has been supplied. -/
def supply5 (fid : Nat) (st : AccState) : State :=
  (kst5 (strand5 false true (.q 0) 4 .armed) 3).modMm (fun m => { m with accesses := [elem5 fid st] })

theorem witness_StrandInstructionsWorkOnTheirRecord :
    heldStrand (kst5 (strand5 false false .sp 4 .halted) 0) = true ∧
    heldStrand (kst5 { strand5 false false .sp 4 .armed with pendGo := true } 0) = true ∧
    (let c : Copy := { uid := 1, loc := ⟨0, 1, 0⟩, ctx := 0, inst := 5, vf := 1, fid := (bst2 0 0).fir.id, lsid := 2, src := 0, dst := 0, granules := 1, srcSp := true, dstSp := false }
     ((kst5 (strand5 false false .sp 4 .idle) 3).modMm (fun m => { m with copies := [c] })).spCopying = true) ∧
    (let s := kst5 (strand5 false false .sp 4 .idle) 3
     let k := s.myStrand 0
     s.spCopying = false ∧ heldStrand s = false ∧ k.st ≠ .armed ∧ k.defd = true ∧ k.d.dest = .sp ∧ s.cx.leased = true ∧ s.fir.ctx < 8) ∧
    (let s := kst5 (strand5 false false (.arc 1) 4 .finished) 3
     let k := s.myStrand 0
     s.spCopying = false ∧ heldStrand s = false ∧ k.d.dest = .arc 1 ∧ k.d.store = false ∧ s.fir.isClaimed 1 = false) ∧
    (let s := kst5 { strand5 false false .sp 4 .armed with done := 4 } 3
     let k := s.myStrand 0
     heldStrand s = false ∧ k.st = .armed ∧ k.d.tagged = false ∧ (s.sel (.t 0)).toNat < k.d.count ∧ (s.sel (.t 0)).toNat < k.done ∧
      s.spCopying = false ∧ k.defd = true ∧ k.target.dest = .sp ∧ s.cx.leased = true) ∧
    (let s := kst5 (strand5 false false (.arc 1) 4 .armed) 3
     let k := s.myStrand 0
     heldStrand s = false ∧ k.st = .armed ∧ s.spCopying = false ∧ k.defd = true ∧ k.target.dest = .arc 1 ∧ k.target.store = false ∧
      s.fir.isClaimed 1 = false) ∧
    (let s := kst5 { strand5 false false .sp 4 .armed with done := 3 } 3
     (s.myStrand 0).done ≤ (s.sel (.t 0)).toNat ∧ s.rowRoom s.sched.curSt s.fir.ctx 1 = true) ∧
    (RoomToPark (kst5 (strand5 false false .sp 4 .armed) 4) ∧
      ((kst5 (strand5 false false .sp 4 .armed) 4).myStrand 0).d.count ≤ ((kst5 (strand5 false false .sp 4 .armed) 4).sel (.t 0)).toNat) ∧
    (let s := kst5 (strand5 false true (.q 0) 4 .armed) 3
     let k := s.myStrand 0
     s.fir.lsids.getLsbD 31 = false ∧ k.st = .armed ∧ k.d.store = true ∧ k.d.tagged = false ∧ k.d.dest ≠ .sp ∧
      (s.sel (.t 0)).toNat < k.d.count ∧ k.done ≤ (s.sel (.t 0)).toNat ∧ s.supplied 0 3 k.d.id = none) ∧
    ((supply5 9 .issued).supplied 0 3 0 = some (elem5 9 .issued) ∧
      ((supply5 9 .issued).fir.id, 4) ∈ ((elem5 9 .issued).fid, (elem5 9 .issued).lsid) :: (elem5 9 .issued).extra) ∧
    RoomToPark (supply5 9 .issued) ∧
    ((supply5 8 .issued).supplied 0 3 0 = some (elem5 8 .issued) ∧ (supply5 8 .issued).fir.lsids.getLsbD 4 = false ∧
      ((supply5 8 .issued).fir.id, 4) ∉ ((elem5 8 .issued).fid, (elem5 8 .issued).lsid) :: (elem5 8 .issued).extra ∧
      (elem5 8 .issued).isServed = false ∧ (elem5 8 .served).isServed = true ∧
      (supply5 8 .served).supplied 0 3 0 = some (elem5 8 .served)) ∧
    (let s := kst5 (strand5 true true (.arc 1) 4 .armed) 3
     let u := upd5 0
     s.scatStopped s.fVf = false ∧
      (s.modMm (fun m => { m with bins := [{ port := 0, vf := 1, frame := 0, ups := List.replicate 256 u }] })).scatStopped s.fVf = true) ∧
    (let k := (kst5 (strand5 true false (.arc 1) 4 .armed) 3).myStrand 0
     k.st = .armed ∧ k.d.tagged = true ∧ k.d.store = false) ∧
    (let k := (kst5 (strand5 true true (.arc 1) 4 .armed) 3).myStrand 0
     k.st = .armed ∧ k.d.tagged = true ∧ k.d.store = true ∧ elemBytes k.d.size = scBytes .i64) ∧
    (∀ c ∈ (kst5 (strand5 true true .sp 4 .armed) 3).mm.copies, ¬ (c.lsid = 31)) := by
  refine ⟨?_, ?_, ?_, ?_, ?first, ?_, ?_, ?_, ⟨room_of ?_, ?fits⟩, ?_, ?_, room_of ?_, ?_, ?held, ?_, ?_, ?_⟩ <;> decide +kernel

/-- The firing after an access of its own that has not been performed. -/
def open5 : State :=
  let s := room5.modFir (fun f => { f with before := [3], own := [(3, false)] })
  { s with mm := { s.mm with accesses := [{ s.newAcc .firing (.store 1) 0 8 0 with uid := 3 }] } }

theorem witness_FencesStilesAndBarriersOrder :
    room5.fInst = some inst5 ∧ room5.holdMet ⟨.system, 0, room5.fir.before⟩ = true ∧ open5.holdMet ⟨.plot, 0, open5.fir.before⟩ = false ∧
    open5.releaseMet .plot = false ∧ room5.releaseMet .system = true ∧ room5.fir.crossing = [] ∧
    (let s := (room5.modFir (fun f => { f with crossing := [⟨4, 0, .word 1, {}, 0⟩] })).modCx (fun c => { c with routes := [[0x2200000040000005]] })
     s.fir.crossing = [⟨4, 0, .word 1, {}, 0⟩] ∧ s.cx.route? s.fir.sprig 4 = some 0x2200000040000005 ∧
      rtTarget 0x2200000040000005 = 2 ∧ inst5.isCallee = false) ∧
    (room5.modFir (fun f => { f with park := .notified 3 })).fir.park = .notified 3 ∧ (∀ r < 8, room5.fir.park ≠ .notified r) ∧
    room5.rowRoom room5.sched.curSt room5.fir.ctx 1 = true := by decide +kernel

theorem witness_AtomicsOnStationsCombine :
    (let s := bst2 0x20000008 7
     s.fir.ctx < 8 ∧ s.fir.lsids.getLsbD 31 = false ∧ (s.sel (.t 0)).getLsbD 63 = false ∧ (s.sel (.t 0)).toNat % 8 = 0) ∧
    (let s := bst2 0x800000000003FFF8 7
     2 ^ 63 ≤ (s.sel (.t 0)).toNat ∧ (s.sel (.t 0)).toNat < 2 ^ 63 + 2 ^ 18 ∧ s.cx.leased = true ∧ (s.sel (.t 0)).toNat % 8 = 0 ∧
      s.releaseMet .system = true) ∧ open5.releaseMet .plot = false := by decide +kernel

/-- Instance 5 with an image of one quad and one call site, whose function has a knot. -/
def call5 : State :=
  let s := cst.modVf 1 (fun v => { v with ctl := 1, knotcnt := 3 })
  let m : Image := { w := 1, h := 1, length := 64, pleach := false, signed := false, entries := [0x40], results := [],
                     sites := [{ narg := 1, nres := 1, routes := [0x30] }], spawns := [], stas := [] }
  { s with prick := { s.prick with insts := [{ inst5 with img := some m }] } }

theorem witness_CallClassReadsAndQueues :
    call5.fInst.isSome = true ∧ (call5.fInst.bind (·.img)).bind (fun m => m.sites[0]?) = some { narg := 1, nres := 1, routes := [0x30] } ∧
    call5.usedIds.length < 2 ^ 18 ∧
    (call5.fInst.map (fun i => decide (i.id < 2 ^ 18 ∧ i.qx < 16 ∧ i.qy < 32 ∧ 0 < i.w ∧ i.w ≤ 16 ∧ 0 < i.h ∧ i.h ≤ 32))) = some true ∧
    (call5.vf 1).knotcnt.toNat ≤ (3 : BitVec 16).toNat ∧ (2 : BitVec 16).toNat < (call5.vf 1).knotcnt.toNat ∧
    ((withCopy call5).copy? 0 1 2).map (fun k => decide (k.img.entries.length < 32 ∧ k.img.results.length < 8 ∧ 0 < k.img.w ∧
      k.img.w ≤ 16 ∧ 0 < k.img.h ∧ k.img.h ≤ 32)) = some true := by decide +kernel

/-- A request at Thicket engine e. -/
def req5 (op : ThOp) (e : Nat) : ThReq :=
  { uid := 3, op := op, loc := ⟨0, 0, 0⟩, ctx := 0, inst := 5, vf := 1, fid := 9, desc := 0x40, eng := e, route := 0x2000000000000 }

/-- The firing with t0 and t1 and requests queued. -/
def ret5 (a b : Double) (l : List ThReq) : State :=
  let s := (withT cst a b 0).modVf 1 (fun v => { v with shares := 0x10000000000 })
  { s with mm := { s.mm with thq := l } }

theorem witness_RetrievalInstructionsQueueTheirRequests :
    (ret5 0x40 0x80 []).fInst = some inst5 ∧ (RoomToPark (ret5 0x41 0 []) ∧ ((ret5 0x41 0 []).sel (.t 0)).toNat % 64 ≠ 0) ∧
    (let s := ret5 0x7FFFFFFFFFFFFFC0 0x80 []
     (s.sel (.t 0)).toNat < 2 ^ 63 ∧ (s.sel (.t 0)).toNat % 64 = 0 ∧ (s.sel (.t 1)).toNat < 2 ^ 63 ∧
      (s.sel (.t 1)).toNat % ((s.vf 1).families[(0 : Fin 16)]).elemBytes = 0 ∧ s.fir.isClaimed 1 = false ∧ s.fir.lsids.getLsbD 31 = false) ∧
    (let s := ret5 0x40 0x80 (List.replicate 63 (req5 .tstat ((ret5 0x40 0x80 []).descPort 0x40)))
     (s.mm.thq.filter (fun t => decide (t.eng = s.descPort 0x40))).length < 64 ∧
      (s.mm.thq.filter (fun t => decide (t.eng = s.issuePort s.sched.curSt))).length < 64) ∧
    (let s := ret5 0x40 0x80 (List.replicate 64 (req5 .tstat ((ret5 0x40 0x80 []).descPort 0x40)))
     ¬ (s.mm.thq.filter (fun t => decide (t.eng = s.descPort 0x40))).length < 64) ∧
    (ret5 0x40 0 []).ownUpdate ⟨0, 0, 0⟩ 0 5 0x40 4 = false ∧ (ret5 0x40 0 [req5 .tins 0]).ownUpdate ⟨0, 0, 0⟩ 0 5 0x40 4 = true := by
  refine ⟨?_, ⟨room_of ?_, ?_⟩, ?_, ?first, ?_, ?_, ?_⟩ <;> decide +kernel

/-- An engine's step for request 3, under the cached translation of pst for every port of die 0. -/
def thst (r : ThReq) : State :=
  let s := (pst 0 0 0 false).modVf 1 (fun v => { v with shares := 0x10000000000 })
  let s1 : State := { s with prick := { s.prick with insts := [inst5] }, sched := { s.sched with arg := { n := 3 } } }
  { s1 with mm := { s1.mm with thq := [r], tlb1 := (List.range 32).map (fun p =>
      { port := p, vf := 1, va := 0, run := 16, ia := 0, pa := 0x20000, perm := 3, perm2 := 3 }) } }

/-- What an engine's access gives, if it goes on. -/
def thThen {α : Type} (g : Th α) (p : α → State → Bool) : Bool :=
  match g with
  | .ok x a => p x a
  | .fault _ _ _ _ => false
  | .miss _ _ _ _ _ => false
  | .desc _ => false
  | .poison _ _ _ => false
  | .wait _ => false

theorem thThen_spec {α : Type} {g : Th α} {p : α → State → Bool} (h : thThen g p = true) : ∃ x a, g = .ok x a ∧ p x a = true := by
  cases g with
  | ok x a => exact ⟨x, a, rfl, h⟩
  | fault _ _ _ _ => exact absurd h (by simp [thThen])
  | miss _ _ _ _ _ => exact absurd h (by simp [thThen])
  | desc _ => exact absurd h (by simp [thThen])
  | poison _ _ _ => exact absurd h (by simp [thThen])
  | wait _ => exact absurd h (by simp [thThen])

/-- A TOVP request that has started, and the machine with its descriptor in memory. -/
def ovp5 : ThReq × State :=
  let s := thst (req5 .tovp 0)
  ({ req5 .tovp 0 with started := true, fams := (s.vf 1).families.toList },
    { s with mm := { s.mm with mem := Mem.write s.mm.mem 0x20040 64 (2 * 2 ^ 371) }
             fab := { s.fab with stations := cst.fab.stations } })

theorem witness_ThicketEnginesFinishTheirRequests :
    (thst (req5 .tins 0)).th? (thst (req5 .tins 0)).sched.arg.n = some (req5 .tins 0) ∧ (req5 .tins 0).op.isUpdate = true ∧
    (req5 .tprb 0).op.isUpdate = false ∧ ({ req5 .tprb 0 with faulted := true } : ThReq).faulted = true ∧
    (let r : ThReq := { req5 .tprb 0 with started := true }
     (thst r).th? 3 = some r ∧ r.op = .tprb ∧ r.started = true ∧ r.todo = [] ∧ (thst r).inst? r.inst = some inst5 ∧ rtTarget r.route = 0) ∧
    (let r : ThReq := { req5 .tins 0 with applied := true }
     (thst r).probesEnded r = true ∧
      ({ thst r with mm := { (thst r).mm with thq := [{ req5 .tprb 0 with mig := true }, r] } } : State).probesEnded r = false) ∧
    (let s := thst (req5 .tins 0)
     ({ s with mm := { s.mm with thq := [{ req5 .tdel 0 with uid := 2 }, req5 .tins 0] } } : State).thTurn (req5 .tins 0) = false) ∧
    ((thst (req5 .tovp 0)).thTurn (req5 .tovp 0) = true ∧ ovp5.2.updateMay (req5 .tovp 0) = true ∧
      ovp5.2.thBehind (req5 .tovp 0) = false) ∧
    (∃ x a, (ovp5.2.thCharge (req5 .tovp 0)).thRead ovp5.1 0x40 64 = .ok x a ∧ thThen (a.thCheck ovp5.1 x false false false) (fun _ b =>
      thThen (b.thWrite ovp5.1 0x40 64 (setFld x 335 2 0)) (fun _ _ => true)) = true) := by
  refine ⟨?_, ?_, ?_, ?_, ?first, ?_, ?_, ?_, thThen_spec (p := fun x a => thThen (a.thCheck ovp5.1 x false false false)
    (fun _ b => thThen (b.thWrite ovp5.1 0x40 64 (setFld x 335 2 0)) (fun _ _ => true))) (by decide +kernel)⟩ <;> decide +kernel

/-! #### Tokens, messages and engines -/

/-- A state with the operands of a step. -/
def arg5 (s : State) (a : Arg) : State := { s with sched := { s.sched with arg := a } }

/-- Slot 0 of the first station holds live instance 5 with one strict sprig of two slots, a frame of its tag and a token under way. -/
def tok5 (kind : Nat) (frames : List Frame) : State :=
  let s := cst.modSt ⟨0, 0, 0⟩ (fun v => { v with firing := {}, frames := frames, istore := [(0, 0x02000000), (1, 0)] })
  let t : Token := { header := mkHeader ⟨0, 0, 0⟩ 0 1 (kind, false) 9 fire5.tag, tag := fire5.tag, payload := .word 42 }
  { arg5 s { n := 3 } with fab := { s.fab with tokens := [{ tok := t, uid := 3 }] } }

/-- A frame of instance 5 with its first slot present. -/
def frame5 (done : Bool) : Frame :=
  let one : SlotVal := { present := true, value := 7 }
  { inst := 5, tag := fire5.tag, count := 1, slots := if done then #v[one, one, {}, {}] else #v[one, {}, {}, {}],
    completed := if done then some 1 else none }

theorem witness_TokensMeetTheirFrames :
    (let s := tok5 kindWord [frame5 false]
     ∃ f, s.fab.tokens = [f] ∧ s.fab.tokens.find? (fun g => decide (g.uid = s.sched.arg.n)) = some f ∧ s.mayArrive f = true ∧
      f.tok.kind ≠ kindMarker ∧ f.tok.kind = kindWord ∧ f.tok.payload = .word 42 ∧
      let m := f.tok.loc
      let c := tagCtx f.tok.tag
      let x := (s.st m).ctx c
      let h := (s.st m).header c f.tok.sprig
      s.fencedAt m (tagInst f.tok.tag) = false ∧ f.tok.parOk = true ∧ x.valid = true ∧ x.draining = false ∧ x.inst = tagInst f.tok.tag ∧
        x.blockBase ≤ tagBlock f.tok.tag ∧ tagBlock f.tok.tag ≤ x.blockLast ∧ f.tok.sprig < x.nsprig ∧ f.tok.slot < hdrSlots h ∧
        hdrMode h = 0 ∧ f.tok.tl = slotTile h f.tok.slot ∧
        (s.st m).lookup c (tagInst f.tok.tag) f.tok.sprig f.tok.slot f.tok.tag = some 0 ∧
        (s.st m).frames[0]? = some (frame5 false) ∧ (frame5 false).place = .onDie ∧ (frame5 false).completed = none) ∧
    (let s := tok5 kindWord []
     let two : State := { s with fab := { s.fab with tokens := s.fab.tokens.map (fun f => { f with uid := 2 }) ++ s.fab.tokens } }
     ((two.fab.tokens.find? (fun g => decide (g.uid = 3))).map two.mayArrive = some false)) ∧
    (let s := tok5 kindMarker []
     (s.fab.tokens.map (fun f => (s.mayArrive f, decide (f.tok.kind = kindMarker), ((s.st f.tok.loc).ctx (tagCtx f.tok.tag)).valid)) =
      [(true, true, true)])) ∧
    (let s := tok5 kindWord []
     let t : State := { s with prick := { s.prick with fences := [(0, { die := 0, qx := 0, qy := 0, w := 1, h := 1, inst := 5 })] } }
     t.fab.tokens.map (fun f => t.fencedAt f.tok.loc (tagInst f.tok.tag)) = [true]) ∧
    (∀ f ∈ cst.fab.tokens, f.uid ≠ cst.sched.arg.n) ∧ (cst.st ⟨0, 0, 0⟩).firing.active = true ∧
    (let s := tok5 kindWord [frame5 true]
     (s.st ⟨0, 0, 0⟩).firing.active = false ∧ (s.nextFire ⟨0, 0, 0⟩).map (fun c => (c.parked, c.ctx, c.pos)) = some (false, 0, 0) ∧
      (s.st ⟨0, 0, 0⟩).frames[0]? = some (frame5 true) ∧ s.tilesFree ⟨0, 0, 0⟩ (frame5 true) = true ∧
      (s.makeResident ⟨0, 0, 0⟩ 0 0).isSome = true ∧ (s.st ⟨0, 0, 0⟩).entries.all Frame.onDie = true ∧
      frameNullMode ((s.st ⟨0, 0, 0⟩).header 0 0) (frame5 true) = false) ∧
    (let g := { fire5 with park := .cleared }
     let s := (tok5 kindWord []).modSt ⟨0, 0, 0⟩ (fun v => { v with parked := [g] })
     (s.nextFire ⟨0, 0, 0⟩).map (fun c => (c.parked, c.pos)) = some (true, 0) ∧ (s.st ⟨0, 0, 0⟩).parked[0]? = some g ∧ g.discard = false ∧
      g.trapped = false ∧ (s.makeResident ⟨0, 0, 0⟩ g.ctx g.sprig).isSome = true ∧ ∀ r < 8, g.park ≠ .notified r) ∧
    (let s := (tok5 kindWord [frame5 true]).modSt ⟨0, 0, 0⟩ (fun v =>
       { v with istore := [(0, 0x02008000), (1, 0)], ended := [{ fire5 with reserved := 64 }] })
     (s.st ⟨0, 0, 0⟩).firing.active = false ∧ s.nextFire ⟨0, 0, 0⟩ = none ∧ s.cands ⟨0, 0, 0⟩ ≠ []) ∧
    ((tok5 kindWord []).st ⟨0, 0, 0⟩).landing 3 = [] ∧
    (let e := { frame5 false with place := .chosen true true }
     let s := arg5 (tok5 kindWord [e]) { n := 0 }
     let es := (s.st ⟨0, 0, 0⟩).landing (s.sched.arg.n % 8)
     let k := e.returnTok ⟨0, 0, 0⟩
     let x := (s.st k.loc).ctx (tagCtx k.tag)
     es[s.sched.arg.m % es.length]? = some (0, e) ∧ k.kind = kindSpill ∧ k.loc = ⟨0, 0, 0⟩ ∧ k.parOk = true ∧
      x.valid = true ∧ x.inst = tagInst k.tag ∧ x.blockBase ≤ tagBlock k.tag ∧ tagBlock k.tag ≤ x.blockLast ∧
      k.sprig < x.nsprig ∧ k.slot < hdrSlots ((s.st k.loc).header (tagCtx k.tag) k.sprig) ∧
      e.sameKey (tagCtx k.tag) (tagInst k.tag) k.sprig k.tag = true ∧ (s.st ⟨0, 0, 0⟩).frames[0]? = some e) :=
  ⟨⟨_, rfl, by decide +kernel⟩, by decide +kernel⟩

/-- Instance 5 placed as a live root, with a firing of it ended and messages to it. -/
def msg5 (count n : Nat) : State :=
  let s := (tok5 kindWord []).modSt ⟨0, 0, 0⟩ (fun v =>
    { v.modCtx 0 (fun c => { c with bars := c.bars.set 2 { count := count, n := n } }) with ended := [{ fire5 with id := 3 }] })
  let m : Image := { w := 1, h := 1, length := 64, pleach := false, signed := false, entries := [0x40], results := [], sites := [],
                     spawns := [[0x0002000000000001]], stas := [] }
  let j : Join := { inst := 5, b := 2, n := n, j := { st := ⟨0, 0, 0⟩, fid := 3, rank := 0, before := [] } }
  { s with
    sched := { s.sched with arg := { n := 0 } }
    prick := { s.prick with
      insts := [{ inst5 with img := some m }], roots := [{ handle := 7, vf := 1, die := 0, inst := 5, core := 0, lineage := 1 }] }
    fab := { s.fab with
      credits := [⟨5⟩, ⟨6⟩], joins := [j, j]
      sinkMsgs := [{ inst := 5, root := some 7, k := 1, payload := .word 4, src := none, fid := 9, edge := 1, before := [] },
                   { inst := 5, root := none, k := 2, payload := .word 4, src := none, fid := 9, edge := 1, before := [] }]
      requests := [{ die := 0, inst := 5, loc := ⟨0, 0, 0⟩, spawn := none, holds := [], before := [] },
                   { die := 0, inst := 5, loc := ⟨0, 0, 0⟩, spawn := some ⟨0, 9, fire5.tag⟩, holds := [], before := [] }] } }

/-- The instance of msg5 where its function may spawn. -/
def spawn5 : State := (msg5 0 2).modVf 1 (fun v => { v with ctl := 1, knotcnt := 3 })

theorem newId_msg5 : ∃ k id, (withCopy spawn5).copy? 0 1 (sucKidx 0x0002000000000001) = some k ∧
    ((withCopy spawn5).putCopy 0 k).newId.1 = some id := by
  have h : (((withCopy spawn5).copy? 0 1 (sucKidx 0x0002000000000001)).any (fun k =>
      decide (((withCopy spawn5).putCopy 0 k).usedIds.length < 2 ^ 18))) = true := by decide +kernel
  obtain ⟨k, hk, hl⟩ := (Option.any_eq_true _ _).mp h
  exact ⟨k, (newId_some ((withCopy spawn5).putCopy 0 k) (of_decide_eq_true hl)).imp (fun _ h => ⟨hk, h.1⟩)⟩

theorem witness_CommitsAndMessagesReachTheirInstance :
    (let s := msg5 0 2
     (∃ f, (s.st ⟨0, 0, 0⟩).ended.find? (fun g => decide (g.id = 3)) = some f ∧ s.mayCommit ⟨0, 0, 0⟩ f = true ∧
        f.inst = 5 ∧ s.mayCommit ⟨0, 0, 0⟩ { f with header := 0x0000000100000000 } = false) ∧
      (∃ i, s.inst? 5 = some i ∧ i.bound ∧ s.callerLasts i ∧ i.st.ended = false ∧ i.isCallee = false ∧ i.gate = ⟨0, 0, 0⟩ ∧ i.slot = 0) ∧
      s.fab.credits[0]? = some ⟨5⟩ ∧ s.fab.credits[1]? = some ⟨6⟩ ∧ s.inst? 6 = none ∧
      ((s.st ⟨0, 0, 0⟩).ctx 0).valid = true ∧ ((s.st ⟨0, 0, 0⟩).ctx 0).inst = 5 ∧ ((s.st ⟨0, 0, 0⟩).ctx 0).draining = false ∧
      ((s.fab.joins[0]?).map (fun q => decide (q.inst = 5 ∧ q.b < 8)) = some true ∧ 0 + 1 ≠ 2) ∧
      (s.fab.joins.take 1).all (fun p => !decide (p.inst = 5 ∧ p.j.st = ⟨0, 0, 0⟩)) = false ∧
      (s.fab.sinkMsgs.map (fun m => (m.holds.all s.holdMet, decide (m.k < 8), (m.root.bind s.root?).isSome)) =
        [(true, true, true), (true, true, false)]) ∧ (s.eng 0).calls.length < 1024 ∧ s.usedIds.length + 4 ≤ 2 ^ 18 ∧
      s.firstFrom 0 ⟨0, 0, 0⟩ false = true ∧ s.firstFrom 1 ⟨0, 0, 0⟩ true = true) ∧
    (let s := (msg5 0 2).modEng 0 (fun e => { e with calls := List.replicate 1024 6 })
     gotIs (s.callRoom 0 5) 2 (fun _ => true) = true) ∧
    (let w := vget ((((msg5 1 2).st ⟨0, 0, 0⟩).ctx 0).bars) 2 {}
     w.count + 1 = (if w.count = 0 then 2 else w.n)) ∧
    (let s := spawn5
     ((s.inst? 5).bind (·.img)).bind (fun m => m.spawns[0]?) = some [0x0002000000000001] ∧
      [(0x0002000000000001 : BitVec 64)].filter sucValid = [0x0002000000000001] ∧ sucKidx 0x0002000000000001 < (s.vf 1).knotcnt.toNat ∧
      ((withCopy s).fab.requests[1]?).map (·.made) = some 0 ∧ (∃ k id, (withCopy spawn5).copy? 0 1 (sucKidx 0x0002000000000001) = some k ∧
        ((withCopy spawn5).putCopy 0 k).newId.1 = some id) ∧
      (∀ e ∈ sucDies 0x0002000000000001 0, (s.queuedOf e 1).length < 4096)) := by
  refine ⟨⟨⟨_, rfl, ?_⟩, ⟨_, rfl, .inl (by decide +kernel), fun c p r h => absurd (show IKind.root = .callee c p r from h) (by simp), ?_⟩, ?_⟩, ?_, ?first, ?_, ?_, ?_, ?_, newId_msg5, ?fits⟩ <;> decide +kernel

/-- Queued root instance 5 of function 1 for knot 2, admitted at die 0, whose function may hold the die's quads. -/
def eng5 : State :=
  let s := (withCopy (hst 0 0 0)).modVf 1 (fun v => { v with area := 0x000003FF00000200 })
  let s1 : State := { s with prick := { s.prick with
    insts := [{ inst5 with st := .queued, kidx := 2 }], roots := [{ handle := 7, vf := 1, die := 0, inst := 5, core := 0, lineage := 1 }] } }
  s1.modEng 0 (fun e => { e with admitted := [5] })

theorem witness_PendingCallsTakeRoom :
    let s := (eng5.modEng 0 (fun e => { e with calls := List.replicate 1024 6 })).modVf 1 (fun v => { v with savelen := 0x1000000 })
    gotIs (s.callRoom 0 5) 0 (fun _ => true) = true ∧
      gotIs ((s.modVf 1 (fun v => { v with savebase := 0x100000 })).callRoom 0 5) 1 (fun _ => true) = true := by
  constructor <;> decide +kernel

/-- A station record of one sprig-less station with an arc. -/
def rec5 : StaRec := { head := 0, sprigs := [], words := [], routes := [[0x0800000000000002]], off := 0, size := 0 }

/-- The instance of eng5 placed on quad (0, 0), slot 0, or being placed there. -/
def placed5 (st : IState) (f : Inst → Inst) (p : Placement → Placement) : State :=
  let m := img1 0x40
  let i := f { inst5 with st := st, kidx := 2, img := some m }
  let s : State := { eng5 with prick := { eng5.prick with insts := [i] } }
  s.modEng 0 (fun e => { e with admitted := [], placing := some (p
    { inst := 5, qx := 0, qy := 0, slot := 0, folded := false, how := 1, relink := false, phase := .loaded }) })

theorem witness_EnginesPlaceInstances :
    (placed5 .placing id id |>.eng 0).placing.isSome = true ∧ cst.nextToPlace 0 = none ∧
    (∃ i, eng5.nextToPlace 0 = some i ∧ (eng5.eng 0).placing = none ∧ gotIs (eng5.imageFor 0 i) 0 (fun t => decide (i.st ≠ .saved ∧
      t.callFits i (img1 0) = true ∧
      t.scopeBad i (img1 0) = false ∧
      (t.planFor i (img1 0) 0).isSome = true)) = true) ∧
    (let s := eng5.modVf 1 (fun v => { v with area := 0 })
     gotIs (s.imageFor 0 { inst5 with st := .queued, kidx := 2 }) 0 (fun t => (t.planFor { inst5 with st := .queued, kidx := 2 }
      (img1 0) 0).isNone) = true) ∧
    (let i := { inst5 with kind := .callee 5 0 0, nargSite := 2, kidx := 2, st := .queued }
     gotIs (eng5.imageFor 0 i) 0 (fun t => !t.callFits i
      (img1 0)) = true) ∧
    gotIs ((eng5.modVf 1 (fun v => { v with knottab := 0x100000 })).imageFor 0 { inst5 with st := .queued, kidx := 1 }) 1 (fun _ => true) = true ∧
    gotIs (eng5.imageFor 0 { inst5 with st := .queued, kidx := 1 }) 2 (fun _ => true) = true ∧
    (∃ p i, ((placed5 .placing id id).eng 0).placing = some p ∧ (placed5 .placing id id).inst? p.inst = some i ∧ i.img.isSome = true ∧
      p.phase = .loaded ∧ p.abort = none ∧ p.how ≠ 0 ∧ i.save = none ∧ i.st.ended = false ∧
      i.img.map (fun m => (placed5 .placing id id).drainBlocks { i with die := 0 } m p) = some false) ∧
    gotIs ((placed5 .placing id id).rangeTable 0 1) 0 (fun _ => true) = true ∧
    (let s := placed5 .live id (fun p => { p with phase := .committed })
     ∃ p i, (s.eng 0).placing = some p ∧ s.inst? p.inst = some i ∧ p.phase = .committed ∧ i.argRes ≠ 0 ∧ (∀ q ∈ i.held, q.1 < 16) ∧
      (s.root? i.root).map (·.held) = some []) ∧
    (let s := placed5 .placing id (fun p => { p with abort := some 0 })
     ∃ p i, (s.eng 0).placing = some p ∧ s.inst? p.inst = some i ∧ p.phase = .loaded ∧ p.abort = some 0 ∧ i.kind = .root ∧
      p.relink = false) ∧
    (let s := placed5 .placing id (fun p => { p with abort := some codeNoKnot })
     (s.eng 0).placing.bind (·.abort) = some codeNoKnot ∧ codeNoKnot ≠ 0 ∧ codeNoKnot ≠ codeUncorrectable ∧ (s.root? 7).isSome = true) ∧
    (((eng5.eng 0).admitted.filterMap eng5.inst?).any eng5.serves = true ∧ ((cst.eng 0).admitted.filterMap cst.inst?).any cst.serves = false ∧
      cst.blocker 0 = none ∧ cst.entries 0 = []) ∧
    (let s := eng5.modEng 0 (fun e => { e with admitted := [], queue := [5] })
     ((s.eng 0).admitted.filterMap s.inst?).any s.serves = false ∧ s.blocker 0 = none ∧ (s.entries 0).map (·.id) = [5] ∧ (s.fitsNow 0 { inst5 with st := .queued, kidx := 2 }).1 = true) ∧
    (let s := (eng5.modEng 0 (fun e => { e with admitted := [], queue := [4, 5] })).modVf 1 (fun v => { v with knottab := 0x100000 })
     let j := { inst5 with id := 4, st := .queued, kidx := 1 }
     let u : State := { s with prick := { s.prick with insts := j :: s.prick.insts } }
     (u.entries 0).map (·.id) = [4, 5] ∧ (u.fitsNow 0 j).1 = false ∧ ((u.fitsNow 0 j).2.fitsNow 0 { inst5 with st := .queued, kidx := 2 }).1 = true ∧
      u.inst? 4 = some j) := by
  refine ⟨?_, ?_, ⟨_, rfl, ?_⟩, ?_, ?first, ?_, ?_, ⟨_, _, rfl, rfl, ?_⟩, ?_, ⟨_, _, rfl, rfl, ?fits⟩, ⟨_, _, rfl, rfl, ?_⟩,
    ?_, ?_, ?_, ?held⟩ <;> decide +kernel

/-- The room that an eviction of an instance asks for. -/
def roomFor (s : State) (c : Inst) : Got (List Nat) :=
  let n := s.saveDraw c
  n.2.saveRoom 0 c.vf (pagesOf (savedBytes (s.saveStas c) n.1))

/-- The pages into which instance c is saved. -/
def savedTo (s : State) (c : Inst) : Got (List Nat) :=
  let n := s.saveDraw c
  n.2.evictPages c (savedBytes (s.saveStas c) n.1)

theorem witness_EnginesEvictAndFence :
    ((placed5 .live id id).eng 0).placing.isSome = true ∧ (cst.evictFor 0).1 = none ∧
    (let c := { inst5 with st := .live, kidx := 2, img := some { img1 0x40 with stas := [rec5] }, mark := false }
     let s : State := { eng5 with prick := { eng5.prick with insts := [c, { inst5 with id := 6, st := .queued, kidx := 2, kind := .callee 5 0 0 }] } }
     let t := (s.modEng 0 (fun e => { e with admitted := [], calls := [6] })).modVf 1 (fun v => { v with savelen := 0x1000000 })
     (t.eng 0).evicting = [] ∧ (t.eng 0).placing = none ∧ (t.evictFor 0).1.map (·.id) = some 6 ∧
      ((t.evictFor 0).2.evictees 0 1).map (·.id) = [5] ∧
      gotIs (roomFor (t.evictFor 0).2 c) 0 (fun r => decide (r.inst? 5 = some c ∧ c.st.runs = true ∧ (r.vf 1).st = .running ∧ c.die = 0)) = true ∧
      gotIs (roomFor (t.modVf 1 (fun v => { v with savelen := 0 })) c) 2 (fun _ => true) = true ∧
      gotIs (roomFor (t.modVf 1 (fun v => { v with savebase := 0x100000 })) c) 1 (fun _ => true) = true) ∧
    cst.inst? cst.sched.arg.n = none ∧
    (let s := placed5 .evicting (fun i => { i with img := some { img1 0x40 with stas := [rec5] } }) id
     ∃ i, s.inst? 5 = some i ∧ i.st = .evicting ∧ i.mark = false ∧ s.canSave i = true ∧ ¬ i.st = .saved ∧ i.argRes ≠ 0 ∧
      (i.save.getD {}).toks = [] ∧ (i.save.getD {}).msgs = [] ∧
      gotIs (savedTo (s.modVf 1 (fun v => { v with savelen := 0x10000 })) i) 0 (fun t => t.inst? 5 = some i) = true ∧
      (let j := { i with save := some { pages := [0] } }
       gotIs (savedTo (s.modVf 1 (fun v => { v with savebase := 0x100000 })) j) 1 (fun t => t.inst? 5 = some i) = true ∧
        gotIs (savedTo (s.modVf 1 (fun v => { v with savebase := 2 ^ 60 })) j) 2 (fun t => t.inst? 5 = some i) = true)) ∧
    (let s := placed5 .saved id id
     ∃ i, s.inst? 5 = some i ∧ i.st = .saved ∧ i.tested ≤ s.now ∧ i.mark = false ∧ i.fetchPark = false ∧ i.wantLink = false ∧
      s.savedFull 5 = false ∧ ¬ s.now < i.tested) ∧
    (let s := tok5 kindWord []
     let f (u : Nat) : List Flight := s.fab.tokens.map (fun g => { g with uid := u })
     let t : State := { s with fab := { s.fab with fenced := f 2 ++ f 3 } }
     ((f 3).map (fun g => (t.fab.fenced.takeWhile (fun h => decide (h.uid ≠ 3))).any (fun h => h.sameArc g)) = [true]) ∧
      ((f 2).map (fun g => (t.fab.fenced.takeWhile (fun h => decide (h.uid ≠ 2))).any (fun h => h.sameArc g)) = [false]) ∧
      (f 3).map (fun g => tagInst g.tok.tag) = [5] ∧ (t.inst? 5).isSome = true) ∧
    (let s := tok5 kindWord []
     (s.fab.tokens ++ s.fab.fenced).any (fun f => [3].contains f.uid) = true ∧
      (s.fab.tokens ++ s.fab.fenced).any (fun f => [4].contains f.uid) = false) := by
  refine ⟨?_, ?_, ?_, ?_, ⟨_, rfl, ?first⟩, ⟨_, rfl, ?_⟩, ?_, ?_⟩ <;> decide +kernel

/-- What a translation gives: 0 more, 1 an address, 2 a fault, 3 a miss, 4 a poisoned descriptor. -/
def toutIs (o : TOut) : Nat := match o with | .more _ => 0 | .done _ _ => 1 | .fault _ _ => 2 | .miss _ _ => 3 | .poison _ => 4

theorem toutIs_done {o : TOut} (h : toutIs o = 1) : ∃ pa perm, o = .done pa perm := by
  cases o with
  | done p q => exact ⟨p, q, rfl⟩
  | more _ => exact absurd h (by simp [toutIs])
  | fault _ _ => exact absurd h (by simp [toutIs])
  | miss _ _ => exact absurd h (by simp [toutIs])
  | poison _ => exact absurd h (by simp [toutIs])

/-- An access of the firing of instance 5 under the cached translation of its port, in a state, with the step that names it. -/
def acc5 (op : AccOp) (va n : Nat) (st : AccState) : State :=
  let s := thst (req5 .tins 0)
  let t : State := { s with fab := cst.fab, mm := { s.mm with thq := [] }, sched := { cst.sched with arg := { n := 3 } } }
  let port := ((t.treq { t.newAcc .firing op va n 4 with uid := 3 })).port
  { t with mm := { t.mm with
      accesses := [{ t.newAcc .firing op va n 4 with uid := 3, st := st, td := some 2 }]
      tlb1 := [{ port := port, vf := 1, va := 0, run := 16, ia := 0, pa := 0x20000, perm := 15, perm2 := 3 }] } }

/-- The access of acc5. -/
def theAcc (s : State) : Access := (s.acc? 3).getD (s.newAcc .firing .fec 0 0 0)

/-- A walk of acc5. -/
def walk5 : Walk := { lvl1 := 0, ia := 0, pa2 := none, lvl2 := 0, tbl2 := 0, perm := 0, run := 16, byRange := false }

/-- A granule's address translated, with a property of what comes out. -/
def copyIs (r : CopyAt) (p : Nat → State → Bool) : Bool :=
  match r with
  | .ok pa _ t => p pa t
  | .stop _ => false

theorem copyIs_spec {r : CopyAt} {p : Nat → State → Bool} (h : copyIs r p = true) : ∃ pa fe t, r = .ok pa fe t ∧ p pa t = true := by
  cases r with
  | ok pa fe t => exact ⟨pa, fe, t, rfl, h⟩
  | stop t => exact absurd h (by simp [copyIs])

theorem witness_AccessesAreTranslatedServedAndReturned :
    cst.mayIssue ⟨0, 1, 0⟩ 0 = false ∧
    (let s := kst5 { strand5 false false .sp 4 .armed with pend := none } 0
     ({ s with prick := { s.prick with insts := [inst5] } } : State).mayIssue ⟨0, 1, 0⟩ 0 = true) ∧
    (cst.acc? cst.sched.arg.n = none ∧ cst.sched.arg.m = 0) ∧
    (let s := acc5 (.load true) 0x20 8 .issued
     let a := theAcc s
     s.acc? 3 = some a ∧ a.st = .issued ∧ a.op.portless = false ∧ s.canServe a = true ∧ a.elemBad = false ∧ a.prog = 0 ∧ 0 < a.n ∧
      a.va % 2 ^ 64 % 65536 + a.n ≤ 65536 ∧ s.fotPass a.vf 0x20020 (decide (a.op.need = 2)) = true ∧ s.portWaits 0x20020 = false ∧
      homeDie 0x20020 = a.loc.die ∧ s.poisoned 0x20020 a.n = false ∧ a.op.elem = none ∧ a.op ≠ .prefetch) ∧
    (∃ pa perm, (acc5 (.store 7) 0xFFF8 8 .issued).beginWalk ((acc5 (.store 7) 0xFFF8 8 .issued).treq (theAcc (acc5 (.store 7) 0xFFF8 8 .issued))) =
      .done pa perm) ∧
    (let s := acc5 (.loadF true false) 0x20 8 .issued
     ({ s with mm := { s.mm with fe := [0x2002] } } : State).feFull 0x20020 = true ∧ bit (BitVec.ofNat 4 15) 3 = true) ∧
    (let s := acc5 (.load true) 0x10020 8 .issued
     let more := (List.range 64).map (fun k => { theAcc s with uid := 100 + k, va := 65536 * (k + 2), st := .walking walk5 })
     let full : State := { s with mm := { s.mm with accesses := s.mm.accesses ++ more } }
     toutIs (s.beginWalk (s.treq (theAcc s))) = 0 ∧ s.missRoom (theAcc s) = true ∧ full.missRoom (theAcc s) = false) ∧
    (let s := (acc5 (.load true) (2 ^ 60) 8 .issued).modSt ⟨0, 0, 0⟩ (fun v => { v with firing := {} })
     toutIs (s.beginWalk (s.treq (theAcc s))) = 2 ∧ s.elemOwn (theAcc s) = true ∧ (s.st (theAcc s).loc).firing.active = false ∧
      (s.st (theAcc s).loc).parked = []) ∧
    (let s := acc5 (.load true) 0x20 8 .served
     (theAcc s).st ≠ .issued ∧ (theAcc s).st ≠ .syncWait ∧ s.accLive (theAcc s) = true ∧ (theAcc s).rdcLeft = false ∧
      (theAcc s).st = .served ∧ s.handsLater (theAcc s) = false) ∧
    (let s := acc5 (.load true) 0x10020 8 (.walking walk5)
     (theAcc s).st = .walking walk5 ∧ s.accLive (theAcc s) = true ∧ s.portWaits walk5.reads = false ∧
      s.walkerFor (theAcc s) walk5 = true ∧
      toutIs (s.walkStep (s.treq (theAcc s)) walk5).1 = 3) ∧
    (let s := acc5 (.load true) 0x20 8 (.walking { walk5 with lvl1 := 4, lvl2 := 3, perm := 1 })
     let t : State := { s with mm := { s.mm with mem := Mem.write s.mm.mem 0 8 0x2000B, tlb1 := [] } }
     let u : State := { s with mm := { s.mm with mem := Mem.write s.mm.mem 0 8 0x20001 } }
     toutIs (t.walkStep (t.treq (theAcc t)) { walk5 with lvl1 := 4, lvl2 := 3, perm := 1 }).1 = 1 ∧
      (t.walkStep (t.treq (theAcc t)) { walk5 with lvl1 := 4, lvl2 := 3, perm := 1 }).2.canServe { theAcc t with st := .issued } = true ∧
      toutIs (u.walkStep (u.treq (theAcc u)) walk5).1 = 0) ∧
    (let s := (acc5 (.load true) 0x20 8 .served).modFir (fun f => { f with pendT := [(2, 3)] })
     let f := (s.st (theAcc s).loc).firing
     (theAcc s).td = some 2 ∧ f.active = true ∧ f.id = (theAcc s).fid ∧ (2, (theAcc s).uid) ∈ f.pendT) ∧
    ((theAcc (acc5 (.store 7) 0x20 8 .served)).extra = [] ∧
      ({ theAcc (acc5 (.store 7) 0x20 8 .served) with rdcLeft := true } : Access).isServed = true) ∧
    (let s := (kst 0 0 0).modCore 0 (fun k => { k with sb := [{ va := 0, n := 8, value := 5, pa := 0x40000, vf := hostId }] })
     s.canDrain 0 0 = true ∧ (s.core 0).sb[0]? = some { va := 0, n := 8, value := 5, pa := 0x40000, vf := hostId } ∧
      s.fotPass hostId 0x40000 true = true ∧ s.canDrain 1 0 = false) ∧
    (let s := (kst 0 0 0).modCore 0 (fun k => { k with sb := [{ va := 0, n := 8, value := 5, pa := 0x40000, vf := 1 }] })
     s.canDrain 0 0 = true ∧ s.fotPass 1 0x40000 true = false) ∧
    (let u := upd5 0x20020
     let s := acc5 (.load true) 0x20 8 .issued
     ¬ (256 ≤ [u].length ∨ s.flushWants { port := 0, vf := 1, frame := 2, ups := [u] } = true ∨ (s.vf 1).st = .saving ∨ s.tlbBusy 1 = true) ∧
      (256 ≤ (List.replicate 256 u).length) ∧ ((s.modVf 1 (fun v => { v with st := .saving })).vf 1).st = .saving ∧ u.n = scBytes u.t ∧
      s.fotPass 1 u.pa true = true ∧ s.poisoned u.pa u.n = false ∧ s.physOk u.pa = true ∧ s.portWaits u.pa = false ∧
      (cst.modHost (fun h => { h with ports := h.ports.map (fun p => { p with width := 0 }) })).portWaits (2 ^ 51) = true) ∧
    (let c : Copy := { uid := 3, loc := ⟨0, 1, 0⟩, ctx := 0, inst := 5, vf := 1, fid := 9, lsid := 4, src := 0, dst := 0x40, granules := 2,
                       srcSp := true, dstSp := true, got := [(1, 7)], next := 1 }
     let s : State := { bst with mm := { bst.mm with copies := [c] } }
     s.mm.copies.find? (fun x => decide (x.uid = 3)) = some c ∧ ¬ (c.granules ≤ 1 ∨ c.faulted = true ∨ c.paged.isSome = true ∨
      c.holds.all s.holdMet = false ∨ s.slotLive c.inst c.loc c.ctx = false) ∧ (c.next < c.granules ∧ 0 = c.turn c.next) ∧
      1 ≠ c.turn c.next ∧ Map.find c.got 1 = some 7 ∧ c.mayWrite 1 = true ∧ ((s.st c.loc).ctx c.ctx).spValid (c.dstAt 1) 16 = true ∧
      c.moved.length + 1 < c.granules ∧ ({ c with got := [], next := 2 } : Copy).mayWrite 0 = false) ∧
    (let c : Copy := { uid := 3, loc := ⟨0, 0, 0⟩, ctx := 0, inst := 5, vf := 1, fid := 9, lsid := 4, src := 0x20, dst := 0, granules := 1,
                       srcSp := false, dstSp := true }
     let s := acc5 (.load true) 0x20 8 .issued
     copyIs (s.copyAt c (c.srcAt 0) 1) (fun pa t => decide (homeDie pa = c.loc.die) &&
       copyIs (t.copyAt c (c.srcAt 0) 1) (fun pa2 u => decide (pa2 = pa) && !u.poisoned pa 16)) = true) := by
  refine ⟨?_, ?_, ?_, ?_, toutIs_done (by decide +kernel), ?first, ?_, ?_, ?_, ?_, ?fits, ?_, ?_, ?_, ?_, ?held, ?_, ?_⟩ <;> decide +kernel

/-- The window open, with the operands of a step. -/
def win5 (s : State) (a : Arg) : State := arg5 { s with boot := { s.boot with windowOpen := true } } a

/-- A command over frames under way at frame 2. -/
def fot5 (c : FotCmd) (st owner : Nat) : State :=
  let s := (win5 State.reset {}).modHost (fun h => { h with fot := some c })
  { s with mm := { s.mm with fot := [(2, st, owner)] } }

theorem witness_FramesAndTranslationsFollowTheHost :
    State.reset.boot.windowOpen = false ∧
    (let s := fot5 ⟨1, 0, 2, 1⟩ 1 0
     s.boot.windowOpen = true ∧ s.host.fot.isSome = true ∧ s.frameOk 2 = true ∧ (s.fotEntry 2).1 = 1) ∧
    (let s := fot5 ⟨2, 0x7F, 2, 2⟩ 2 0
     s.frameOk 2 = true ∧ 0x7F < 0x80 ∧ (s.fotEntry 2).1 = 2) ∧
    (let s := fot5 ⟨3, 0, 2, 1⟩ 3 1
     s.frameOk 2 = true ∧ (s.fotEntry 2).1 = 3 ∧ (∀ l ∈ s.mm.l2, l.dirty = true → l.addr / 512 ≠ 2)) ∧
    (let s := fot5 ⟨2, 0x80, 2, 1⟩ 2 0
     ¬ ((0x80 < 0x80 ∨ 0x80 = 0xFF) ∧ (s.fotEntry 2).1 = 2)) ∧
    (let s := win5 State.reset { value := 2 }
     s.host.fot = none ∧ bits (dbl s.sched.arg.value) 54 8 = 0 ∧ s.frameOk (bits (dbl s.sched.arg.value) 0 36) = true ∧
      (s.fotEntry 2).1 = 0 ∧ s.host.tlb = []) ∧
    (let s := win5 State.reset { value := 2 ^ 54 }
     bits (dbl s.sched.arg.value) 54 8 ≠ 0) ∧
    (let s := (win5 (pst 0 0 0 false) {}).modHost (fun h => { h with tlb := [⟨1, 1, 0⟩] })
     s.host.tlb = [⟨1, 1, 0⟩] ∧ s.holdsPa 1 = false ∧ (fullSb s).host.tlb = [⟨1, 1, 0⟩] ∧ (fullSb s).holdsPa 1 = true) ∧
    (let q : PageReq := { port := 0, vf := 1, req := 4, gen := 0, ia := 0, va := 0x20, inWalk := false, for_ := .access 3 }
     let w : Nat := 4 * 2 ^ 48 + 1 * 2 ^ 24
     let s := win5 (acc5 (.load true) 0x20 8 (.paged 4)) { value := w }
     let t : State := { s with mm := { s.mm with pageReqs := [q] } }
     t.mm.pageReqs.find? (fun p => decide (p.port = bits (dbl w) 31 1 ∧ p.vf = bits (dbl w) 24 7 ∧ p.req = bits (dbl w) 48 16) && p.failed.isNone) =
        some q ∧ bits (dbl w) 32 16 = (t.vf 1).gen ∧ t.acc? 3 = some (theAcc t) ∧ (theAcc t).st = .paged q.req ∧ (theAcc t).vf = q.vf ∧
      s.mm.pageReqs = [] ∧ bits (dbl (w + 2 ^ 32)) 32 16 ≠ (t.vf 1).gen) ∧
    ((pst 0 0 0 false).modCore 2 (fun k => { k with paged := some 4 }) |>.core 2).paged = some 4 := by decide +kernel

theorem witness_ErrorsAreCountedAndContained :
    ({ State.reset with boot := { State.reset.boot with powered := false } } : State).boot.powered = false ∧
    cst.boot.powered = true ∧ ((cst.st ⟨0, 0, 0⟩).ctx 0).valid = true ∧ (cst.inst? 5).isSome = true ∧
    (cst.prick.insts.filter (fun j => decide (j.id = 5))).length = 1 ∧ (State.reset.st ⟨0, 0, 0⟩ |>.ctx 0).valid = false ∧
    (∀ c < 8, ((State.reset.st ⟨0, 0, 0⟩).ctx c).valid = false) ∧
    (let s := placed5 .placing (fun i => { i with img := some { img1 0 with stas := [{ head := 0, sprigs := [], words := [], routes := [], off := 0, size := 0 }] } }) id
     ∃ i q, s.loading? 0 = some i ∧ (s.eng 0).placing = some q ∧ i.stations.any (fun y => decide (y.1 = ⟨0, 0, 0⟩)) = true) ∧
    cst.loading? 0 = none ∧ ((0xF657FFFFFF : Nat) < 2 ^ 51 ∧ cst.physOk 0xF657FFFFFF = true) ∧ cst.physOk (2 ^ 51 - 1) = false ∧
    (let s := cst.modHost (fun h => { h with ports := h.ports.set 1 { training := true, replays := 7 } })
     (s.port 0).training = false ∧ (s.port 1).training = true ∧ (s.port 1).replays + 1 = 8 ∧ s.host.irqHeld = []) ∧
    (let s : State := { cst with mm := { cst.mm with rdc := [{ die := 0, addr := 1, vf := 1, bytes := 0, fe := 0 }] } }
     0 < s.mm.rdc.length ∧ s.mm.rdc.length ≤ 1 ∧ s.mm.l2.length ≤ 0) ∧
    (let e : Line := { addr := 1, vf := hostId, dirty := true, old := 0, oldFe := 0 }
     let s : State := { cst with mm := { cst.mm with l2 := [e, { e with dirty := false }] } }
     s.mm.l2[0]? = some e ∧ e.dirty = true ∧ e.vf = hostId ∧ s.host.hostfq = 0 ∧ s.mm.l2[1]? = some { e with dirty := false }) := by
  refine ⟨?_, ?_, ?_, ?_, ?first, ?_, ?_, ⟨_, _, rfl, rfl, ?_⟩, ?_⟩ <;> decide +kernel

theorem witness_BringUpGoesPhaseByPhase :
    (State.reset.boot.powered = true ∧ State.reset.boot.err = 0 ∧ State.reset.boot.recovery = false ∧ State.reset.boot.phase + 1 = 1) ∧
    (∀ n < 5, let b : Boot := { State.reset.boot with phase := n }
      b.powered = true ∧ b.err = 0 ∧ b.recovery = false ∧ b.phase + 1 = n + 1) := by decide +kernel

/-- Queue interface 3 of function 1 and core 0, with packets submitted; the operands name it. -/
def qi5 (a : Arg) (submitted : BitVec 32) (slots : Nat) : State :=
  let s := (win5 (pst 0 0 0 false) a).modQi 3 (fun x => { x with cfg := 9 + 2 ^ 36, submitted := submitted })
  s.modCore 0 (fun k => { k with slots := (List.range slots).map (fun n => (n, { qi := 3, vf := 1, number := n, gen := 0, popped := false })) })

theorem witness_HubAndIntakeCountAndDeliver :
    State.reset.boot.windowOpen = false ∧
    (let s := qi5 { addr := 192, size := 4, vf := 1, value := 16 } 0 0
     s.boot.windowOpen = true ∧ 192 / 64 < 256 ∧ (s.sched.arg.size = 4 ∧ s.sched.arg.addr % 64 = 0 ∧ s.sched.arg.vf = (s.qi 3).owner ∧
      (s.qi 3).enable = true) ∧ 0 < (16 % 2 ^ 32 + 2 ^ 32 - (s.qi 3).consumed.toNat) % 2 ^ 32 ∧
      (16 % 2 ^ 32 + 2 ^ 32 - (s.qi 3).consumed.toNat) % 2 ^ 32 ≤ (s.qi 3).ring ∧ (0 % 2 ^ 32 + 2 ^ 32 - (s.qi 3).consumed.toNat) % 2 ^ 32 = 0 ∧
      (s.qi 3).ring < (17 % 2 ^ 32 + 2 ^ 32 - (s.qi 3).consumed.toNat) % 2 ^ 32) ∧
    ((State.reset.qi 3).enable = false ∧ 256 ≤ (0x4000 : Nat) / 64) ∧
    (let x := (qi5 { n := 3 } 1 255).qi 3
     x.enable = true ∧ x.submitted ≠ x.consumed ∧ x.stopped = none ∧ x.pvalid = true ∧ (qi5 { n := 3 } 1 255).slotsOpen 0 ≠ 0 ∧
      ((qi5 { n := 3 } 1 255).core 0).freeSlot = some 255 ∧ fld (Mem.read (qi5 { n := 3 } 1 255).mm.mem 0x20000 64) 0 20 = x.pasid) ∧
    (let x := (qi5 { n := 3 } 1 256).qi 3
     x.granted = false ∧ (qi5 { n := 3 } 1 256).slotsOpen x.core = 0) ∧
    (∃ pa t, (qi5 { n := 3 } 1 255).unitAccess 0 1 0 false (some 0) (.packet 3) = .ok pa t ∧
      decide (t.poisoned pa 64 = false ∧ pa % 64 = 0 ∧ homeDie pa = 0) = true) ∧
    (let s : State := { cst with clk := { cst.clk with cycle := 1600 } }
     s.host.polled < s.now / 1600 ∧ (s.vf 1).polled < s.now / 1600 ∧ cst.now / 1600 ≤ cst.host.polled ∧ cst.now / 1600 ≤ (cst.vf 1).polled ∧
      s.usOver = true ∧ cst.usOver = false ∧ (s.col 0).measured = false ∧ (∃ y ∈ s.fab.cols.toList, y.measured = false) ∧
      (s.col 0).granted < s.now / 1600 ∧ cst.now / 1600 ≤ (cst.col 0).granted ∧
      let t : State := { s with fab := { s.fab with cols := Vector.replicate 32 { measured := true } } }
      (∀ y ∈ t.fab.cols.toList, y.measured = true) ∧ (t.col 0).measured = true) ∧
    (let c := cst.col 0
     (320 ≤ 320 ∧ 320 ≤ max c.req 320) ∧ (160 < 320 ∧ 1 % 2 = 1 ∧ 160 ≤ 160) ∧
      ¬ (159 < 320 ∧ 1 % 2 = 1 ∧ 160 ≤ 159 ∨ 320 ≤ 159)) ∧
    (cst.budgetRoom = true ∧ (cst.modCol 0 (fun c => { c with readings := [2 ^ 60] })).budgetRoom = false ∧
      (320 ≤ 384 ∧ 384 ≤ 448 ∧ (320 < 448 → 384 < 448 ∧ 448 ≤ 384 + 64))) := by
  refine ⟨?_, ?_, ?_, ?_, ?first, uoutIs_spec (p := fun pa t => decide (t.poisoned pa 64 = false ∧ pa % 64 = 0 ∧ homeDie pa
    = 0)) (by decide +kernel), ?_, ?_, ?_⟩ <;> decide +kernel

/-- Function 1 in a state, with the live instance of placed5 whose slot of the first station is being saved or not. -/
def save5 (st : VfState) (draining : Bool) (a : Arg) : State :=
  let s := (placed5 .live (fun i => { i with img := some { img1 0x40 with stas := [rec5] } }) id).modVf 1
    (fun v => { v with st := st, saveAt := some 0, savelen := 0x1000000, due := 1, slice := 4, area := 0x0005000000000000 })
  let t := (s.modEng 0 (fun e => { e with placing := none })).modSt ⟨0, 0, 0⟩ (fun v => v.modCtx 0 (fun _ => { slot5 with draining := draining, markers := [0x40] }))
  win5 { t with clk := { t.clk with cycle := 1600 } } a

theorem witness_SavesAndCommandsOfAPartition :
    (let s := save5 .running false { vf := 1 }
     (s.vf 1).due ≠ 0 ∧ (cst.vf 1).due = 0 ∧ (s.vf 1).st = .running ∧ (s.vf 1).sliceLen ≠ 0 ∧
      s.quadsOf 1 none ≠ 0 ∧ (s.vf 1).sliceLen ≤ (s.vf 1).slice + (s.vf 1).due ∧ s.boot.windowOpen = true ∧
      ∀ r ∈ s.prick.roots, r.vf = 1 → r.held = []) ∧
    (let s := (save5 .running false { vf := 1 }).modVf 1 (fun v => { v with slice := 3 })
     (s.vf 1).slice + (s.vf 1).due < (s.vf 1).sliceLen) ∧
    (let s := save5 .saving false { vf := 1 }
     (s.vf 1).st = .saving ∧ (s.vf 1).saveAt = some 0 ∧ 0 + 64 ≤ s.now ∧ cst.now < 0 + 64 ∧
      (s.prick.insts.filter (fun j => decide (j.vf = 1) && j.st.runs)).map (fun i => (i.id, i.img.isSome, s.strandRoutes i)) = [(5, true, [])]) ∧
    (let s := (save5 .saving false { vf := 1 }).modVf 1 (fun v => { v with saveAt := none })
     ∃ i p, s.inst? ((s.st ⟨0, 0, 0⟩).ctx 0).inst = some i ∧ i.stations.find? (fun y => decide (y.1 = ⟨0, 0, 0⟩)) = some p ∧ i.slot = 0 ∧
      s.maySave i ⟨0, 0, 0⟩ p.2 = true ∧ (save5 .running false {}).maySave i ⟨0, 0, 0⟩ p.2 = false) ∧
    (let s := save5 .saving true { vf := 1 }
     ∃ i, s.inst? ((s.st ⟨0, 0, 0⟩).ctx 0).inst = some i ∧ ((s.st ⟨0, 0, 0⟩).ctx 0).valid = true ∧ ((s.st ⟨0, 0, 0⟩).ctx 0).draining = true ∧
      i.slot = 0 ∧ i.st.runs = true ∧ (∀ p ∈ i.stations, s.holdsSlot i p.1 = true → ((s.st p.1).ctx 0).draining = true)) ∧
    (let s := (save5 .saving false { vf := 1 }).modVf 1 (fun v => { v with saveAt := none, saveCause := 0 })
     let t : State := { s with prick := { s.prick with insts := [] } }
     t.injected 1 = true ∧ t.allSaved 1 = true ∧ t.savedOf 1 = [] ∧ (t.vf 1).saveCause ≠ 1 ∧ (t.vf 1).resumeAsked = false ∧
      (s.injected 1 = false ∨ s.allSaved 1 = false)) ∧
    (let s := (save5 .saving false { vf := 1 }).modVf 1 (fun v => { v with saveAt := none, saveCause := 0 })
     let t : State := { s with prick := { s.prick with insts := [{ inst5 with st := .saved, save := some { pages := [0] } }] } }
     t.injected 1 = true ∧ t.allSaved 1 = true ∧ t.saveFits 1 0 = true ∧ (t.savedOf 1).map (·.die) = [0] ∧
      gotIs (t.imagesPass (t.savedOf 1)) 0 (fun _ => true) = true ∧
      (let w := t.modVf 1 (fun v => { v with savebase := 0x100000 })
       gotIs (w.imagesPass (w.savedOf 1)) 1 (fun _ => true) = true) ∧
      (let w := t.modVf 1 (fun v => { v with savebase := 2 ^ 60 })
       w.saveFits 1 0 = true ∧ gotIs (w.imagesPass (w.savedOf 1)) 2 (fun _ => true) = true) ∧
      (t.modVf 1 (fun v => { v with savelen := 0 })).saveFits 1 0 = false) ∧
    (State.reset.boot.windowOpen = false ∧ ((save5 .saved false {}).vf 1).st = .saved) ∧
    (let s := save5 .running false { vf := 1, value := 5 * 2 ^ 32 }
     (∀ i ∈ s.prick.insts, i.vf = 1 → (s.prick.insts.filter (fun j => decide (j.id = i.id))).length = 1 ∧ s.calleesOf i.id = []) ∧
      (s.liveOf 1 (bits (dbl s.sched.arg.value) 32 18)).isSome = true ∧ s.liveOf 1 6 = none ∧ (s.vf 1).pending 0 = none) ∧
    (let s := placed5 .live (fun i => { i with spillPark := true }) id
     (s.liveOf 1 5).map (·.spillPark) = some true) ∧
    (let s := (acc5 (.load true) 0x20 8 .faulted).modVf 1 (fun v => { v with pendFaults := [(4, .access 3), (6, .firing ⟨0, 0, 0⟩ 9)] })
     let t := s.modSt ⟨0, 0, 0⟩ (fun v => { v with firing := {}, parked := [{ fire5 with park := .fault }] })
     (s.vf 1).pending 4 = some (4, .access 3) ∧ s.acc? 3 = some (theAcc s) ∧ (theAcc s).st = .faulted ∧
      (t.vf 1).pending 6 = some (6, .firing ⟨0, 0, 0⟩ 9) ∧ (t.st ⟨0, 0, 0⟩).firing.active = false ∧
      { fire5 with park := .fault } ∈ (t.st ⟨0, 0, 0⟩).parked ∧ fire5.id = 9) := by
  refine ⟨?_, ?_, ?_, ⟨_, _, rfl, rfl, ?_⟩, ⟨_, rfl, ?first⟩, ?_, ?_, ?_, ?_, ?fits, ?_⟩ <;> decide +kernel

theorem witness_HostWritesReachTheirRegister :
    State.reset.boot.windowOpen = false ∧ (win5 cst {}).boot.windowOpen = true ∧
    (15 % 4 = 3 ∧ (0x10000 + 256 * 127 + 0xA0) % 2 ^ 20 = 0x10000 + 256 * 127 + 0xA0) ∧
    (0x40000 ≤ 0x40000 % 2 ^ 20 / 8 * 8 ∧ 0x7FFF8 % 2 ^ 20 / 8 * 8 < 0x80000) ∧
    (cst.host.attNonce = none ∧ cst.physOk (setBits (dbl 0x200) 0 1 0).toNat = true ∧ cst.physOk ((setBits (dbl 0x200) 0 1 0).toNat + 377) = true ∧
      cst.portWaits (setBits (dbl 0x200) 0 1 0).toNat = false ∧ cst.portWaits (0x200 + 377) = false) ∧
    (setBits (dbl 0x40) 0 6 0 ≠ 0 ∧ setBits (dbl 0x3F) 0 6 0 = 0) ∧
    (¬ (State.reset.boot.err ≠ 0 ∧ State.reset.boot.phase < 6) ∧ (let b : Boot := { State.reset.boot with err := 3, phase := 5 }
      b.err ≠ 0 ∧ b.phase < 6)) ∧
    ((kst 0 0 0).core 0).run = true ∧ (State.reset.core 0).run = false ∧
    (let f := (hst 0 0 0).vf 1
     let g := { f with ctl := f.ctlAfter 0 }
     g.enable = false ∧ f.enable = true ∧ ({ f with ctl := f.ctlAfter 1 } : Vf).enable = true ∧
      ({ f with ctl := f.ctlAfter 1, shares := 0xFF00000000000000 } : Vf).sharesOk = false) ∧
    (let f := { State.reset.vf 1 with shares := 0x0100000001000000 }
     let g := { f with ctl := f.ctlAfter 1 }
     g.enable = true ∧ f.enable = false ∧ g.sharesOk = true ∧
      State.reset.host.vfs.any (fun p => decide (p.1 ≠ 1) && p.2.enable && g.meets p.2) = false) ∧
    ((qi5 {} 0 0).qi 3).enable = true ∧ (State.reset.qi 3).enable = false ∧
    ((128 : Nat) ≠ 0 ∧ 128 ≤ 128 ∧ cst.physOk 0 = true ∧ cst.physOk (0 + 128 - 1) = true ∧ cst.portWaits 0 = false) ∧
    (List.replicate 64 (0 : Byte)).length = 64 ∧ cst.physOk (0x200 + 64) = true := by decide +kernel

theorem witness_AStepRunsTheDecodedInstruction :
    ((State.reset.withFetchWord 32 0x5807C000).nextTurn.1 = .core 0 ∧
      (let t := (State.reset.withFetchWord 32 0x5807C000).nextTurn.2
       (t.core 0).run = true ∧ (t.core 0).interrupted = false ∧ (t.core 0).mode = true ∧ (t.core 0).pc.toNat % 4 = 0 ∧
        (t.core 0).pc.toNat < 0xC000 ∧ (∀ j < 4, Map.find (t.core 0).fetchOld ((t.core 0).pc.toNat + j) = none) ∧
        (decode .core 0x5807C000#32).toOption.isSome = true)) ∧
    ((State.reset.withFetchWord 32 0x46600001).nextTurn.1 = .station ⟨0, 0, 0⟩ ∧
      (let t := (State.reset.withFetchWord 32 0x46600001).nextTurn.2
       (t.st ⟨0, 0, 0⟩).firing.active = true ∧ (t.st ⟨0, 0, 0⟩).firing.pos < hdrLen (t.st ⟨0, 0, 0⟩).firing.header ∧
        (decode (.station .compute) 0x46600001#32).toOption.any (fun i => !t.mustWait ⟨0, 0, 0⟩ i) = true)) ∧
    isEvent .tokenArrival = true ∧ (est 0x10 0x10 |>.core 0).run = true ∧
    ((est 0x10 0x10).modCore 0 (fun k => { k with status := 7 }) |>.core 0).interrupted = true ∧
    (decode .core 0x00000000#32).toOption = none := by decide +kernel

theorem witness_DecodeAndEncodeAgree : (Instr.yield).wf (.station .compute) = true ∧ (decode .core 0x5807C000#32).toOption.isSome = true := by
  decide +kernel

theorem witness_EveryStepKeepsMemoriesCanonical : State.reset.memWf ∧
    (match step (State.reset.withFetchWord 32 0x5807C000) with | .next _ => true | .fault _ => false | .refused _ => false) = true := by
  refine ⟨⟨?_, ?_, ?_⟩, ?_⟩ <;> decide +kernel

theorem witness_IntegerDivisionsAndBranches :
    sOf .w64 (0 : Double) = 0 ∧ sOf .w32 (0x100000000 : Double) = 0 ∧ sOf .w64 (0x100000000 : Double) ≠ 0 ∧ uOf .w32 (1 : Double) ≠ 0 ∧
    (kst 1 1 0).g 1 = (kst 1 1 0).g 2 ∧ (kst 1 2 0).g 1 ≠ (kst 1 2 0).g 2 ∧ (3 : Fin 32) ≠ 0 := by decide +kernel

/-! ### Further forms of the statements -/

theorem witness_CoresWaitBehindTheirStores :
    (kst 0 0 0).cc.barred = false ∧
      ((kst 0 0 0).modCore 0 (fun k => { k with sb := [{ va := 0, n := 8, value := 5, pa := 0x40000, vf := 1, barred := true }] })).cc.barred = true ∧
    ((irqst true 3).portDown 0 = false ∧ (irqst false 3).portDown 0 = true ∧ (irqst true 3).portDown 1 = false) := by decide +kernel

/-- Instance 5, a callee of instance 6 with a result route, in a state; the caller holds reservations or not. -/
def callee5 (st : IState) (route : BitVec 64) (p : Placement → Placement) : State :=
  let s := placed5 st (fun i => { i with kind := .callee 6 0 0x7, nresSite := 1, resRoutes := [route], argRes := 0 }) p
  { s with prick := { s.prick with insts := s.prick.insts ++ [{ inst5 with id := 6, slot := 3, argRes := 0, resRes := [(0, 0)] }] } }

theorem witness_ResultsGoToTheCaller :
    (let s : State := { cst with prick := (callee5 .live 0x30 id).prick }
     s.fInst.map (·.isCallee) = some true ∧ hdrStile s.fir.header = false ∧
      (s.inst? 6).map (fun c => (c.st, c.slot)) = some (.live, 3)) ∧
    rtTarget 0x2200000040000005 = 2 ∧ rtTarget 0x0000000000000001 = 0 ∧ RoomToWait room5 ∧
    (let s := callee5 .placing 0x30 (fun p => { p with abort := some codeNoKnot })
     ∃ p i, (s.eng 0).placing = some p ∧ s.inst? p.inst = some i ∧ p.phase = .loaded ∧ p.abort = some codeNoKnot ∧
      i.kind = .callee 6 0 0x7 ∧ p.relink = false ∧ codeNoKnot ≠ codeResidue ∧ 6 ≠ i.id ∧
      (s.inst? 6).map (fun b => decide (b.st.ended = false ∧ b.resRes ≠ [])) = some true ∧ i.sentRes = [] ∧ ∀ k < i.nresSite, rtDropNull ((i.resRoutes[k]?).getD 0) = false) := by
  refine ⟨?_, ?_, ?_, (room_of ?_ : RoomToPark room5).2, ⟨_, _, rfl, rfl, ?_⟩⟩ <;> decide +kernel

theorem witness_EntriesWaitForTheirRegisters :
    (let e := entry5 (.mma 0 1) false true
     let s := (estep (mst 1 [e]) 0 true).modSt ⟨0, 0, 0⟩ (fun v => { v with resident := e.regs })
     (s.st s.sched.arg.loc).matq[s.sched.arg.n]? = some e ∧ s.matHead s.sched.arg.loc 0 e = true ∧ s.matRuns e = true ∧
      e.granted = true ∧ s.entryReady s.sched.arg.loc e = true ∧ (s.st s.sched.arg.loc).partialFor e = none) ∧
    (let e := entry5 (.mma 0 1) false false
     let s := (estep (mst 1 [e]) 0 true).modSt ⟨0, 0, 0⟩ (fun v => { v with resident := e.regs })
     (∀ k < 160, k ≠ 0 → s.heatAsk (columnStation 0 k) = none) ∧ s.heatAsk (columnStation 0 0) = some (0, e) ∧ e.stalled = false ∧
      s.entryReady (columnStation 0 0) e = true ∧ (s.st (columnStation 0 0)).partialFor e = none) ∧
    (let e := entry5 .accclr false false
     let others := (List.range 8).map (fun k => { entry5 .accclr false false with ctx := 1, acc := k })
     let s := (estep (mst 1 (e :: others)) 0 true).modSt ⟨0, 0, 0⟩ (fun v => { v with resident := (others.map MatEntry.regs).flatten })
     s.matHead s.sched.arg.loc 0 e = true ∧ s.matRuns e = true ∧ s.entryReady s.sched.arg.loc e = false ∧
      (s.bringWhat s.sched.arg.loc e.regs).entryReady s.sched.arg.loc e = false) := by
  refine ⟨?_, ?_, ?_⟩ <;> decide +kernel

/-- What a read of the arena gives: 0 it is read, 1 a page is awaited. -/
def arenaIs (g : ArenaGot) (k : Nat) : Bool := match g with | .ok _ => decide (k = 0) | .wait _ => decide (k = 1) | .gone _ => false

/-- The station of tok5 with a cached translation of the page at 0 for every engine of its die. -/
def arena5 (frames : List Frame) : State :=
  let s := tok5 kindWord frames
  { s.modVf 1 (fun v => { v with ctl := 1 }) with mm := (pst 0 0 0 false).mm }

theorem witness_ArenaRecordsAreReadFirst :
    (let s := arena5 []
     s.fab.tokens.map (fun f => (s.mayArrive f, f.recs, arenaIs (s.tokRead { f with from_ := 5, recs := [(0x100000, 1)] }) 1)) = [(true, [], true)]) ∧
    (let t : SlotVal := { present := true, tile := some {}, tileBank := false, recs := [(0x100000, 128)] }
     let f := { frame5 true with slots := #v[t, t, {}, {}] }
     let s := arena5 [f]
     s.tilesFree ⟨0, 0, 0⟩ f = true ∧ (s.makeResident ⟨0, 0, 0⟩ f.ctx f.sprig).map (fun u => arenaIs (u.tilesRead ⟨0, 0, 0⟩ f) 1) = some true) ∧
    (∀ k : Fin 4, (vget (frame5 true).slots k.val {}).tile.isSome = true → (vget (frame5 true).slots k.val {}).tileBank = true) ∧
    (let f := { frame5 false with place := .chosen false true, recs := [(0, 1)] }
     arenaIs ((arena5 [f]).arenaRead ⟨0, 0, 0⟩ 0 5 0 f.tag [(0x100000, 1)]) 1 = true ∧
      (((arena5 [f]).st ⟨0, 0, 0⟩).frames[0]?).map (·.place) = some (.chosen false true) ∧
      arenaIs ((arena5 [f]).arenaRead ⟨0, 0, 0⟩ 0 5 0 f.tag f.recs) 0 = true) := by
  refine ⟨?_, ?_, ?_, ?_⟩ <;> decide +kernel

theorem witness_DescriptorsWaitForTheirPort :
    (let s := ret5 0x40 0x80 []
     s.descWaits 0x40 = false) ∧
    (let s := (ret5 0x40 0x80 []).modVf 1 (fun v => { v with ctl := 1, stage1root := 2 ^ 51, stage2root := 2 ^ 51 })
     (s.modHost (fun h => { h with ports := h.ports.map (fun p => { p with width := 0 }) })).descWaits 0x40 = true) := by decide +kernel

theorem witness_EnginesWaitAndReport :
    (let s := placed5 .placing id id
     s.onWithdrawn 0 = false ∧ (s.mapOut (quadKey 0 0 0)).onWithdrawn 0 = true ∧
      gotIs ((s.modVf 1 (fun v => { v with rangebase := 0x100000 })).rangeTable 0 1) 1 (fun _ => true) = true ∧
      gotIs ({ s.modVf 1 (fun v => { v with rangebase := 0x100 }) with mm := { s.mm with poison := [0x20100 / 128] } } |>.rangeTable 0 1) 2
        (fun _ => true) = true) ∧
    (codeUncorrectable ≠ 0 ∧ codeResidue ≠ 0) := by
  refine ⟨?_, ?_⟩ <;> decide +kernel

theorem witness_AccessesTakeTheFailureOfTheirPage :
    let q : PageReq := { port := 0, vf := 1, req := 4, gen := 0, ia := 0, va := 0x20, inWalk := false, for_ := .access 3 }
    let s := (acc5 (.load true) 0x20 8 (.paged 4)).modSt ⟨0, 0, 0⟩ (fun v =>
      { v with firing := {}, parked := [{ fire5 with park := .access 3 }] })
    let t : State := { s with mm := { s.mm with pageReqs := [q] } }
    let a := theAcc t
    t.acc? 3 = some a ∧ a.st = .paged q.req ∧ a.vf = q.vf ∧ a.op.elem = none ∧ a.op ≠ .prefetch ∧ t.elemOwn a = true ∧
      (t.st a.loc).firing.active = false ∧ (∀ g ∈ (t.st a.loc).parked, g.id = a.fid → g.park ≠ .fence) ∧
      (∀ b ∈ t.mm.accesses, b.st = .paged q.req → b.vf = q.vf → b = a) ∧
      (t.mm.accesses.filter (fun b => decide (b.uid = 3))).length = 1 ∧ t.mm.copies = [] ∧ t.mm.thq = [] ∧
      (∀ i ∈ t.prick.insts, i.unmapped = []) := by decide +kernel

theorem witness_ShadowErrorsWithdrawTheirQuad :
    let s := placed5 .placing (fun i => { i with img := some { img1 0 with stas := [rec5] } }) id
    ∃ i, s.loading? 0 = some i ∧ i.stations.any (fun y => decide (y.1 = ⟨0, 0, 0⟩)) = true ∧ i.covers 0 0 0 = true :=
  ⟨_, rfl, by decide +kernel⟩

theorem witness_BoundariesCountForTheSlice :
    let s := (save5 .running false { vf := 1 }).modVf 1 (fun v => { v with due := 0 })
    s.boot.powered = true ∧ s.now % 1600 = 0 ∧ (s.vf 1).st = .running ∧ (s.vf 1).sliceLen ≠ 0 ∧ s.quadsOf 1 none ≠ 0 ∧
      (s.sliceMark.vf 1).due = 1 := by decide +kernel
end Sys2Proof.Tests
end

section
/-!
SUPPORT. What a step issues: the decoder's check, the turn of each engine, and the step that follows from it (R11, R86, R122, R143,
R178, R179, R189). The statement of the scope file, O56, is settled from these.
-/

namespace Sys2Proof.Machine

/-! ### The decoder's check (R86) -/

theorem decode_ok_wf {e : Engine} {w : Word} {i : Instr} (h : decode e w = .ok i) : i.wf e = true := by
  unfold decode at h
  cases hraw : rawDecode e w.toNat with
  | error r => simp [hraw, bind, Except.bind] at h
  | ok j =>
    simp only [hraw, bind, Except.bind] at h
    split at h
    case isTrue hwf =>
      cases h
      exact hwf
    case isFalse => cases h

/-! ### The turn (LOG 1) -/

theorem State.nextTurn_of_agenda {s : State} {x : Turn} {rest : List Turn} (h : s.sched.agenda = x :: rest) :
    s.nextTurn = (x, { s with sched := { s.sched with agenda := rest } }) := by
  simp only [State.nextTurn, h]

section
variable {s t : State}

theorem step_of_clock (h : s.nextTurn = (.clock, t)) : step s = .next t.clockTick := by
  simp only [step, h]

theorem step_of_event {i : Instr} {a : Arg} (h : s.nextTurn = (.event i a, t)) (hi : isEvent i = true) :
    step s = exec i (t.withArg a) := by
  simp only [step, h, hi, if_true]

/-- A core's turn that issues nothing. -/
theorem step_of_core_none {c : Fin 4} {u : State} (h : s.nextTurn = (.core c, t)) (hc : t.coreIssue c = (none, u)) :
    step s = .next u := by
  simp only [step, h, hc]

/-- A core's turn that issues an instruction, or a trap's step. -/
theorem step_of_core_some {c : Fin 4} {u : State} {i : Instr} (h : s.nextTurn = (.core c, t))
    (hc : t.coreIssue c = (some i, u)) : step s = exec i u := by
  simp only [step, h, hc]

theorem step_of_station_idle {l : Loc} (h : s.nextTurn = (.station l, t)) (hl : t.stationIssue l = .idle) :
    step s = .next t := by
  simp only [step, h, hl]

theorem step_of_station_bodyEnd {l : Loc} (h : s.nextTurn = (.station l, t)) (hl : t.stationIssue l = .bodyEnd) :
    step s = .next (t.atStation l).bodyEnd := by
  simp only [step, h, hl]

theorem step_of_station_bad {l : Loc} {w : Word} (h : s.nextTurn = (.station l, t)) (hl : t.stationIssue l = .bad w) :
    step s = .refused (.undecodable w) := by
  simp only [step, h, hl]

theorem step_of_station_issue {l : Loc} {i : Instr} (h : s.nextTurn = (.station l, t)) (hl : t.stationIssue l = .issue i) :
    step s = exec i (t.atStation l) := by
  simp only [step, h, hl]

end

/-! ### A fetch from local memory (R179, R189, LOG 50) -/

/-- Where no store of the core stands before a fetch, the fetch sees the bytes as they are. -/
theorem seeOld_read_of_none (old : Map Nat) (m : List Host.Cell) :
    ∀ (n key a : Nat), (∀ j < n, Map.find old (key + j) = none) → seeOld old key (Mem.read m a n) n = Mem.read m a n := by
  intro n
  induction n with
  | zero => intro key a _; rfl
  | succ n ih =>
    intro key a h
    have hrest : ∀ j < n, Map.find old (key + 1 + j) = none := fun j hj => by
      have := h (j + 1) (by omega)
      rwa [Nat.add_comm j 1, ← Nat.add_assoc] at this
    have hbyte : (Mem.get m a).toNat < 256 := (Mem.get m a).isLt
    have hlow : ((Mem.get m a).toNat + 256 * Mem.read m (a + 1) n) % 256 = (Mem.get m a).toNat := by omega
    have hhigh : ((Mem.get m a).toNat + 256 * Mem.read m (a + 1) n) / 256 = Mem.read m (a + 1) n := by omega
    have hfirst : Map.find old key = none := h 0 (by omega)
    simp only [seeOld, Mem.read, hfirst, Option.getD_none, hlow, hhigh, ih (key + 1) (a + 1) hrest]

theorem State.fetchWord_host {s : State} (hmode : s.cc.mode = true) (halign : s.cc.pc.toNat % 4 = 0)
    (hlow : s.cc.pc.toNat < 0xC000) (hold : ∀ j < 4, Map.find s.cc.fetchOld (s.cc.pc.toNat + j) = none) :
    s.fetchWord = (.word (BitVec.ofNat 32 (Mem.read s.cc.lm s.cc.pc.toNat 4)), s) := by
  have hbase : s.cc.pc.toNat < slotBase := hlow
  simp only [State.fetchWord, halign, hmode, hbase, ne_eq, not_true, if_false, if_true,
    seeOld_read_of_none _ _ _ _ _ hold]

/-! ### What a control core issues (R86, R178, R179, R186) -/

/-- The state in which core c is the one whose instruction issues. -/
def State.atCore (s : State) (c : Fin 4) : State := { s with sched := { s.sched with curCore := c } }

@[simp] theorem State.atCore_cc (s : State) (c : Fin 4) : (s.atCore c).cc = s.core c := rfl

/-- What a core that is neither held nor interrupted issues once its fetch has given something. -/
def State.issueFetched (c : Fin 4) (f : Fetched) (v : State) : Option Instr × State :=
  match f with
  | .wait => (none, v)
  | .bad info => (some .fetch, v.withArg { n := c.val, m := info })
  | .word w =>
      match decode .core w with
      | .ok i => (some i, v)
      | .error _ => (some .illegal, v.withArg { n := c.val, value := w.toNat })

theorem State.coreIssue_eq (s : State) (c : Fin 4) :
    s.coreIssue c =
      if !(s.core c).run then (none, s)
      else if (s.core c).interrupted then (some .interrupt, (s.atCore c).withArg { n := c.val })
      else State.issueFetched c (s.atCore c).fetchWord.1 (s.atCore c).fetchWord.2 := by
  rw [← s.atCore_cc c]
  rfl

section
variable {s v : State} {c : Fin 4}

theorem State.coreIssue_of_held (hrun : (s.core c).run = false) : s.coreIssue c = (none, s) := by
  simp [State.coreIssue_eq, hrun]

theorem State.coreIssue_of_interrupted (hrun : (s.core c).run = true) (hint : (s.core c).interrupted = true) :
    s.coreIssue c = (some .interrupt, (s.atCore c).withArg { n := c.val }) := by
  simp [State.coreIssue_eq, hrun, hint]

theorem State.coreIssue_of_fetch {f : Fetched} (hrun : (s.core c).run = true) (hint : (s.core c).interrupted = false)
    (hf : (s.atCore c).fetchWord = (f, v)) : s.coreIssue c = State.issueFetched c f v := by
  simp [State.coreIssue_eq, hrun, hint, hf]

end

@[simp] theorem State.issueFetched_wait (c : Fin 4) (v : State) : State.issueFetched c .wait v = (none, v) := rfl

@[simp] theorem State.issueFetched_bad (c : Fin 4) (info : Nat) (v : State) :
    State.issueFetched c (.bad info) v = (some .fetch, v.withArg { n := c.val, m := info }) := rfl

theorem State.issueFetched_ok {w : Word} {i : Instr} (c : Fin 4) (v : State) (h : decode .core w = .ok i) :
    State.issueFetched c (.word w) v = (some i, v) := by
  simp only [State.issueFetched, h]

theorem State.issueFetched_error {w : Word} {e : Reject} (c : Fin 4) (v : State) (h : decode .core w = .error e) :
    State.issueFetched c (.word w) v = (some .illegal, v.withArg { n := c.val, value := w.toNat }) := by
  simp only [State.issueFetched, h]

/-! ### What a station issues (R11, R122, R143) -/

/-- The word of the instruction store at the position of a station's firing. -/
def Station.fetched (v : Station) : Word := (Map.find v.istore (v.firing.base + v.firing.pos)).getD 0

section
variable {s : State} {l : Loc}

theorem State.stationIssue_of_inactive (h : (s.st l).firing.active = false) : s.stationIssue l = .idle := by
  simp [State.stationIssue, h]

variable (hact : (s.st l).firing.active = true)
include hact

theorem State.stationIssue_of_behindBody (hpos : hdrLen (s.st l).firing.header ≤ (s.st l).firing.pos) :
    s.stationIssue l = .bodyEnd := by
  simp [State.stationIssue, hact, hpos]

variable (hpos : (s.st l).firing.pos < hdrLen (s.st l).firing.header)
include hpos

theorem State.stationIssue_of_ok {i : Instr} (hd : decode (.station (kindOf l)) (s.st l).fetched = .ok i) :
    s.stationIssue l = if s.mustWait l i then .idle else .issue i := by
  rw [Station.fetched] at hd
  simp only [State.stationIssue, hact, Bool.not_true, Bool.false_eq_true, if_false, not_le.2 hpos, hd]

theorem State.stationIssue_of_error {e : Reject} (hd : decode (.station (kindOf l)) (s.st l).fetched = .error e) :
    s.stationIssue l = .bad (s.st l).fetched := by
  rw [Station.fetched] at hd ⊢
  simp only [State.stationIssue, hact, Bool.not_true, Bool.false_eq_true, if_false, not_le.2 hpos, hd]

end

/-! ### The statement -/

/-- Settles O56: each clause is the lemma of the turn, with what its engine issues. -/
theorem aStepRunsTheDecodedInstruction : Obligations.AStepRunsTheDecodedInstruction := by
  unfold Obligations.AStepRunsTheDecodedInstruction
  intro s t
  refine ⟨fun _ _ => State.nextTurn_of_agenda, fun _ _ _ => decode_ok_wf, step_of_clock, fun _ _ => step_of_event, ?core, ?station⟩
  case core =>
    intro c hturn
    refine ⟨fun hrun => ?held, fun hrun hint => ?interrupted, fun hrun hint => ⟨?word, ?illegal, ?bad, ?wait, ?host⟩⟩
    case held => exact step_of_core_none hturn (State.coreIssue_of_held hrun)
    case interrupted => exact step_of_core_some hturn (State.coreIssue_of_interrupted hrun hint)
    case word =>
      intro w v i hf hd
      exact step_of_core_some hturn ((State.coreIssue_of_fetch hrun hint hf).trans (State.issueFetched_ok c v hd))
    case illegal =>
      intro w v e hf hd
      exact step_of_core_some hturn ((State.coreIssue_of_fetch hrun hint hf).trans (State.issueFetched_error c v hd))
    case bad =>
      intro n v hf
      exact step_of_core_some hturn ((State.coreIssue_of_fetch hrun hint hf).trans (State.issueFetched_bad c n v))
    case wait =>
      intro v hf
      exact step_of_core_none hturn ((State.coreIssue_of_fetch hrun hint hf).trans (State.issueFetched_wait c v))
    case host => exact State.fetchWord_host (s := t.atCore c)
  case station =>
    intro l hturn
    refine ⟨fun hoff => ?inactive, fun hact hpos => ?behind, fun hact hpos => ⟨?issue, ?waits, ?refused⟩⟩
    case inactive => exact step_of_station_idle hturn (State.stationIssue_of_inactive hoff)
    case behind => exact step_of_station_bodyEnd hturn (State.stationIssue_of_behindBody hact hpos)
    case issue =>
      intro i hd hfree
      exact step_of_station_issue hturn ((State.stationIssue_of_ok hact hpos hd).trans (by simp [hfree]))
    case waits =>
      intro i hd hwait
      exact step_of_station_idle hturn ((State.stationIssue_of_ok hact hpos hd).trans (by simp [hwait]))
    case refused =>
      intro e hd
      exact step_of_station_bad hturn (State.stationIssue_of_error hact hpos hd)

end Sys2Proof.Machine
end

section

/-!
SUPPORT. The canonical form of the byte memories (R42, R179, R218, R240): the physical space, the local memories and the scratchpads.
One lemma per operation of the model says that the operation keeps it: `memWf_` for a state (for the state that an answer leaves, its
`after`), `mmWf_` for the memory side, `lmWf_` for a control core, `spWf_` for a station, `optWf_` where there may be no state, and
`outWf_` for what an instruction answers. They stand in the order of the model's definitions; a state that differs from another in
fields beside the memories has its form by definition.
-/

namespace Sys2Proof.Machine

/-- The scratchpad of a station has its canonical form. -/
def Station.spWf (v : Station) : Prop := Memory.wf v.sp = true

/-- The local memory of a control core has its canonical form. -/
def Core.lmWf (k : Core) : Prop := Memory.wf k.lm = true

/-- The physical space has its canonical form. -/
def MemSide.memWf (m : MemSide) : Prop := Memory.wf m.mem = true

/-- The scratchpads of a map's stations have their canonical form. -/
def stationsWf (m : Map Station) : Prop := ∀ p ∈ m, p.2.spWf

/-- The scratchpads of a fabric's stations have their canonical form. -/
def Fabric.spWf (b : Fabric) : Prop := stationsWf b.stations

theorem State.memWf_iff {s : State} : s.memWf ↔ s.mm.memWf ∧ (∀ c, (s.core c).lmWf) ∧ s.fab.spWf := Iff.rfl

/-- What an instruction answers has its memories in canonical form, where it goes on. -/
def outWf : Out → Prop
  | .next t => t.memWf
  | .fault _ => True
  | .refused _ => True

/-- The state that an operation may answer has its memories in canonical form. -/
def optWf : Option State → Prop
  | some t => t.memWf
  | none => True

/-- The state that the outcome of an engine's work leaves. -/
def Th.after {α : Type} : Th α → State
  | .ok _ t => t
  | .fault _ _ _ t => t
  | .miss _ _ _ _ t => t
  | .desc t => t
  | .poison _ _ t => t
  | .wait t => t

/-- The state that reading records of an arena leaves. -/
def ArenaGot.after : ArenaGot → State
  | .ok t => t
  | .wait t => t
  | .gone t => t

/-- The state that an access of a copy leaves. -/
def CopyAt.after : CopyAt → State
  | .ok _ _ t => t
  | .stop t => t

/-- The state that an access of a control core leaves. -/
def CoreGot.after : CoreGot → State
  | .ok _ t => t
  | .out t => t

/-! ### Building a state -/

theorem memWf_mk {sched : Sched} {clk : Clock} {mm : MemSide} {fab : Fabric} {prick : Pricking} {cores : Vector Core 4}
    {host : HostSide} {boot : Boot} (hm : mm.memWf) (hc : ∀ c : Fin 4, cores[c].lmWf) (hf : fab.spWf) :
    State.memWf ⟨sched, clk, mm, fab, prick, cores, host, boot⟩ := State.memWf_iff.mpr ⟨hm, hc, hf⟩

/-- A change of anything but the memory side, the fabric and the control cores. -/
theorem memWf_same {s : State} {sched : Sched} {clk : Clock} {prick : Pricking} {host : HostSide} {boot : Boot} (h : s.memWf) :
    State.memWf ⟨sched, clk, s.mm, s.fab, prick, s.cores, host, boot⟩ := h

theorem memWf_mm {s : State} (h : s.memWf) : s.mm.memWf := (State.memWf_iff.mp h).left

theorem memWf_core {s : State} {c : Fin 4} (h : s.memWf) : (s.core c).lmWf := by
  obtain ⟨-, hlm, -⟩ := State.memWf_iff.mp h
  exact hlm c

theorem memWf_fab {s : State} (h : s.memWf) : s.fab.spWf := by
  obtain ⟨-, -, hsp⟩ := State.memWf_iff.mp h
  exact hsp

/-! ### Stations -/

theorem mem_put {α : Type} {m : Map α} {k : Nat} {v : α} {p : Nat × α} (hp : p ∈ Map.put m k v) : p = (k, v) ∨ p ∈ m := by
  induction m with
  | nil => simpa [Map.put] using hp
  | cons q m ih =>
    obtain ⟨j, u⟩ := q
    simp only [Map.put] at hp
    split at hp
    · simpa using hp
    · split at hp
      · simp only [List.mem_cons] at hp ⊢
        tauto
      · simp only [List.mem_cons] at hp ⊢
        tauto

theorem mem_of_find {α : Type} {m : Map α} {k : Nat} {v : α} (h : Map.find m k = some v) : (k, v) ∈ m := by
  induction m with
  | nil => simp at h
  | cons q m ih =>
    obtain ⟨j, u⟩ := q
    simp only [Map.find] at h
    split at h
    · next e => cases h; subst e; exact List.mem_cons_self
    · exact List.mem_cons_of_mem _ (ih h)

/-- A station that the map does not list has an empty scratchpad. -/
theorem spWf_st {s : State} {l : Loc} (h : s.memWf) : (s.st l).spWf := by
  unfold State.st
  cases hf : Map.find s.fab.stations (locKey l) with
  | none => exact rfl
  | some v => exact memWf_fab h _ (mem_of_find hf)

theorem memWf_setSt {s : State} {l : Loc} {v : Station} (w : v.spWf) (h : s.memWf) : (s.setSt l v).memWf := by
  refine memWf_mk (memWf_mm h) (fun _ => memWf_core h) fun p hp => ?_
  rcases mem_put hp with rfl | hp
  · exact w
  · exact memWf_fab h p hp

theorem memWf_modSt {s : State} {l : Loc} {f : Station → Station} (hf : ∀ v, v.spWf → (f v).spWf) (h : s.memWf) :
    (s.modSt l f).memWf := memWf_setSt (hf _ (spWf_st h)) h

/-- Changes of every station. -/
theorem spWf_map {m : Map Station} {f : Nat × Station → Nat × Station} (hf : ∀ p, p.2.spWf → (f p).2.spWf)
    (h : stationsWf m) : stationsWf (m.map f) := by
  intro p hp
  obtain ⟨q, hq, rfl⟩ := List.mem_map.1 hp
  exact hf q (h q hq)

/-! ### Control cores, the memory side, the fabric -/

theorem memWf_modCore {s : State} {c : Fin 4} {f : Core → Core} (hf : ∀ k, k.lmWf → (f k).lmWf) (h : s.memWf) :
    (s.modCore c f).memWf := by
  refine memWf_mk (memWf_mm h) (fun e => ?_) (memWf_fab h)
  by_cases he : e = c
  · subst he
    exact (congrArg Core.lmWf (core_modCore_same s e f)).mpr (hf _ (memWf_core h))
  · exact (congrArg Core.lmWf (core_modCore_other s f he)).mpr (memWf_core h)

theorem memWf_modCc {s : State} {f : Core → Core} (hf : ∀ k, k.lmWf → (f k).lmWf) (h : s.memWf) : (s.modCc f).memWf :=
  memWf_modCore hf h

theorem memWf_modMm {s : State} {f : MemSide → MemSide} (hf : ∀ m, m.memWf → (f m).memWf) (h : s.memWf) : (s.modMm f).memWf :=
  memWf_mk (hf _ (memWf_mm h)) (fun _ => memWf_core h) (memWf_fab h)

theorem memWf_modFab {s : State} {f : Fabric → Fabric} (hf : ∀ b, b.spWf → (f b).spWf) (h : s.memWf) : (s.modFab f).memWf :=
  memWf_mk (memWf_mm h) (fun _ => memWf_core h) (hf _ (memWf_fab h))

theorem memWf_modHost {s : State} {f : HostSide → HostSide} (h : s.memWf) : (s.modHost f).memWf := h
theorem memWf_modInst {s : State} {k : Nat} {f : Inst → Inst} (h : s.memWf) : (s.modInst k f).memWf := h
theorem memWf_modRoot {s : State} {k : Nat} {f : Root → Root} (h : s.memWf) : (s.modRoot k f).memWf := h
theorem memWf_modEng {s : State} {d : Fin 2} {f : DieEng → DieEng} (h : s.memWf) : (s.modEng d f).memWf := h
theorem memWf_modVf {s : State} {v : Nat} {f : Vf → Vf} (h : s.memWf) : (s.modVf v f).memWf := h
theorem memWf_modQi {s : State} {q : Nat} {f : Qi → Qi} (h : s.memWf) : (s.modQi q f).memWf := h
theorem memWf_modQuad {s : State} {k : Nat} {f : Quad → Quad} (h : s.memWf) : (s.modQuad k f).memWf := h
theorem memWf_modCol {s : State} {k : Nat} {f : Column → Column} (h : s.memWf) : (s.modCol k f).memWf := h
theorem memWf_modBoot {s : State} {f : Boot → Boot} (h : s.memWf) : (s.modBoot f).memWf := h

/-! ### Branches, folds and answers -/

theorem memWf_ite {s t : State} {c : Prop} [Decidable c] (h : s.memWf) (h' : t.memWf) : (if c then s else t).memWf := by
  split
  · exact h
  · exact h'

theorem spWf_ite {v w : Station} {c : Prop} [Decidable c] (h : v.spWf) (h' : w.spWf) : (if c then v else w).spWf := by
  split
  · exact h
  · exact h'

theorem memWf_foldl {α : Type} {f : State → α → State} {l : List α} {s : State} (hf : ∀ t a, t.memWf → (f t a).memWf)
    (h : s.memWf) : (l.foldl f s).memWf :=
  List.foldlRecOn (motive := State.memWf) l f h fun t w a _ => hf t a w

/-- A fold that carries a state and something else. -/
theorem memWf_foldl_snd {α β : Type} {f : β × State → α → β × State} {l : List α} {b : β × State}
    (hf : ∀ p a, p.2.memWf → (f p a).2.memWf) (h : b.2.memWf) : (l.foldl f b).2.memWf :=
  List.foldlRecOn (motive := fun p => p.2.memWf) l f h fun t w a _ => hf t a w

theorem memWf_foldl_snd_snd {α β γ : Type} {f : β × γ × State → α → β × γ × State} {l : List α} {b : β × γ × State}
    (hf : ∀ p a, p.2.2.memWf → (f p a).2.2.memWf) (h : b.2.2.memWf) : (l.foldl f b).2.2.memWf :=
  List.foldlRecOn (motive := fun p => p.2.2.memWf) l f h fun t w a _ => hf t a w

theorem spWf_foldl {α : Type} {f : Station → α → Station} {l : List α} {v : Station} (hf : ∀ t a, t.spWf → (f t a).spWf)
    (h : v.spWf) : (l.foldl f v).spWf :=
  List.foldlRecOn (motive := Station.spWf) l f h fun t w a _ => hf t a w

theorem mmWf_foldl {α : Type} {f : MemSide → α → MemSide} {l : List α} {m : MemSide} (hf : ∀ m a, m.memWf → (f m a).memWf)
    (h : m.memWf) : (l.foldl f m).memWf :=
  List.foldlRecOn (motive := MemSide.memWf) l f h fun t w a _ => hf t a w

theorem memWf_getD {o : Option State} {s : State} (h : optWf o) (h' : s.memWf) : (o.getD s).memWf := by
  cases o with
  | none => exact h'
  | some t => exact h

theorem optWf_map {α : Type} {o : Option α} {f : α → State} (hf : ∀ a, (f a).memWf) : optWf (o.map f) := by
  cases o with
  | none => exact trivial
  | some a => exact hf a

/-! ### The state that an answer hands on -/

theorem memWf_of_some {o : Option State} {t : State} (e : o = some t) (h : optWf o) : t.memWf := by
  subst e; exact h

theorem UOut.memWf_of_ok {o : UOut} {a : Nat} {t : State} (e : o = .ok a t) (h : o.after.memWf) : t.memWf := by
  subst e; exact h

theorem UOut.memWf_of_fail {o : UOut} {a b : Nat} {t : State} (e : o = .fail a b t) (h : o.after.memWf) : t.memWf := by
  subst e; exact h

theorem UOut.memWf_of_wait {o : UOut} {t : State} (e : o = .wait t) (h : o.after.memWf) : t.memWf := by
  subst e; exact h

theorem Got.memWf_of_ok {α : Type} {o : Got α} {a : α} {t : State} (e : o = .ok a t) (h : o.after.memWf) : t.memWf := by
  subst e; exact h

theorem Got.memWf_of_wait {α : Type} {o : Got α} {t : State} (e : o = .wait t) (h : o.after.memWf) : t.memWf := by
  subst e; exact h

theorem Got.memWf_of_fail {α : Type} {o : Got α} {a b : Nat} {t : State} (e : o = .fail a b t) (h : o.after.memWf) : t.memWf := by
  subst e; exact h

theorem ArenaGot.memWf_of_ok {o : ArenaGot} {t : State} (e : o = .ok t) (h : o.after.memWf) : t.memWf := by
  subst e; exact h

theorem ArenaGot.memWf_of_wait {o : ArenaGot} {t : State} (e : o = .wait t) (h : o.after.memWf) : t.memWf := by
  subst e; exact h

theorem ArenaGot.memWf_of_gone {o : ArenaGot} {t : State} (e : o = .gone t) (h : o.after.memWf) : t.memWf := by
  subst e; exact h

theorem Th.memWf_of_ok {α : Type} {o : Th α} {a : α} {t : State} (e : o = .ok a t) (h : o.after.memWf) : t.memWf := by
  subst e; exact h

theorem Th.memWf_of_miss {α : Type} {o : Th α} {a d : Bool} {b c : Nat} {t : State} (e : o = .miss a b c d t) (h : o.after.memWf) :
    t.memWf := by
  subst e; exact h

theorem Th.memWf_of_wait {α : Type} {o : Th α} {t : State} (e : o = .wait t) (h : o.after.memWf) : t.memWf := by
  subst e; exact h

theorem CopyAt.memWf_of_ok {o : CopyAt} {a : Nat} {b : Bool} {t : State} (e : o = .ok a b t) (h : o.after.memWf) : t.memWf := by
  subst e; exact h

theorem CopyAt.memWf_of_stop {o : CopyAt} {t : State} (e : o = .stop t) (h : o.after.memWf) : t.memWf := by
  subst e; exact h

theorem CoreGot.memWf_of_ok {o : CoreGot} {a : Nat} {t : State} (e : o = .ok a t) (h : o.after.memWf) : t.memWf := by
  subst e; exact h

theorem CoreGot.memWf_of_out {o : CoreGot} {t : State} (e : o = .out t) (h : o.after.memWf) : t.memWf := by
  subst e; exact h

/-! ### Operations of the state -/

theorem memWf_modFir {s : State} {f : Firing → Firing} (h : s.memWf) : (s.modFir f).memWf := memWf_modSt (fun _ w => w) h

theorem spWf_modCtx {v : Station} {c : Nat} {f : Ctx → Ctx} (h : v.spWf) : (v.modCtx c f).spWf := h

theorem memWf_modCx {s : State} {f : Ctx → Ctx} (h : s.memWf) : (s.modCx f).memWf := memWf_modSt (fun _ w => spWf_modCtx w) h

theorem spWf_modStrand {v : Station} {k : Nat} {f : Strand → Strand} (h : v.spWf) : (v.modStrand k f).spWf := h

theorem memWf_mapOut {s : State} {k : Nat} (h : s.memWf) : (s.mapOut k).memWf := h

theorem memWf_newUid {s : State} (h : s.memWf) : s.newUid.2.memWf := h

theorem memWf_pick {s : State} {n : Nat} (h : s.memWf) : (s.pick n).2.memWf := h

theorem lmWf_trap {k : Core} {c : Cause} {info : Nat} {val : Double} (h : k.lmWf) : (k.trap c info val).lmWf := h

theorem memWf_coreTrap {s : State} {c : Cause} {info : Nat} {val : Double} (h : s.memWf) : (s.coreTrap c info val).memWf :=
  memWf_modCc (fun _ w => lmWf_trap w) h

theorem lmWf_eret {k : Core} (h : k.lmWf) : k.eret.lmWf := h

theorem memWf_charge {s : State} {vf col : Nat} {w : Work} {n : Nat} (h : s.memWf) : (s.charge vf col w n).memWf :=
  memWf_ite h (memWf_modFab (fun _ w1 => w1) h)

theorem memWf_chargeCtx {s : State} {l : Loc} {c : Nat} {w : Work} {n : Nat} (h : s.memWf) : (s.chargeCtx l c w n).memWf :=
  memWf_modSt (fun _ w1 => spWf_modCtx w1) (memWf_charge h)

/-! ### Operands -/

theorem memWf_eat {s : State} {l : List Sel} (h : s.memWf) : (s.eat l).memWf := memWf_ite (memWf_modCx h) h

theorem memWf_wr {s : State} {d : Fin 8} {v : Double} (h : s.memWf) : (s.wr d v).memWf := memWf_modFir h

theorem memWf_adv {s : State} (h : s.memWf) : s.adv.memWf := memWf_chargeCtx (memWf_modFir h)

theorem memWf_result {s : State} {d : Fin 8} {srcs : List Sel} {v : Double} (h : s.memWf) : (s.result d srcs v).memWf :=
  memWf_adv (memWf_wr (memWf_eat h))

theorem lmWf_setReg {k : Core} {r : Fin 32} {v : Double} (h : k.lmWf) : (k.setReg r v).lmWf := by
  unfold Core.setReg
  split <;> exact h

theorem memWf_cnext {s : State} (h : s.memWf) : s.cnext.memWf := memWf_modCc (fun _ w => w) h

theorem memWf_put {s : State} {d : Fin 32} {v : Double} (h : s.memWf) : (s.put d v).memWf :=
  memWf_cnext (memWf_modCc (fun _ w => lmWf_setReg w) h)

/-! ### The memory side -/

theorem memWf_displaceL2 {s : State} {line : Nat} (h : s.memWf) : (s.displaceL2 line).memWf := by
  unfold State.displaceL2
  split
  · exact h
  · dsimp only
    split
    · exact memWf_charge (memWf_modMm (fun _ w => w) h)
    · exact memWf_modMm (fun _ w => w) h

theorem mmWf_touchL2 {m : MemSide} {line vf : Nat} (h : m.memWf) : (m.touchL2 line vf).memWf := h

theorem memWf_fillL2 {s : State} {line vf : Nat} (h : s.memWf) : (s.fillL2 line vf).memWf := by
  unfold State.fillL2
  split
  · exact memWf_modMm (fun _ w => mmWf_touchL2 w) h
  · dsimp only
    refine memWf_displaceL2 ?_
    split <;> exact memWf_charge (memWf_modMm (fun _ w => w) h)

theorem mmWf_touchRdc {m : MemSide} {die line vf : Nat} (h : m.memWf) : (m.touchRdc die line vf).memWf := h

theorem memWf_fillRdc {s : State} {die line vf : Nat} (h : s.memWf) : (s.fillRdc die line vf).memWf := by
  unfold State.fillRdc
  dsimp only
  split
  · exact memWf_modMm (fun _ w => w) h
  · exact memWf_modMm (fun _ w => w) (memWf_modMm (fun _ w => w) h)

theorem memWf_freshRdc {s : State} {die pa : Nat} (h : s.memWf) : (s.freshRdc die pa).memWf := memWf_modMm (fun _ w => w) h

theorem mmWf_markDirty {m : MemSide} {line vf : Nat} (h : m.memWf) : (m.markDirty line vf).memWf := h

theorem memWf_serveRead {s : State} {die : Fin 2} {vf pa n : Nat} (h : s.memWf) : (s.serveRead die vf pa n).2.memWf := by
  unfold State.serveRead
  dsimp only
  refine memWf_foldl_snd_snd (fun _ _ w => ?_) h
  dsimp only
  split
  · exact memWf_fillL2 w
  · split
    · exact memWf_modMm (fun _ w1 => mmWf_touchRdc w1) w
    · exact memWf_fillRdc (memWf_fillL2 w)

theorem memWf_homeRead {s : State} {vf pa n : Nat} (h : s.memWf) : (s.homeRead vf pa n).2.memWf :=
  memWf_foldl (fun _ _ w => memWf_fillL2 w) h

theorem memWf_serveWrite {s : State} {vf pa n v : Nat} (h : s.memWf) : (s.serveWrite vf pa n v).memWf := by
  unfold State.serveWrite
  refine memWf_modMm (fun _ w => Mem.write_wf _ _ _ w) (memWf_foldl (fun _ _ w => ?_) h)
  extract_lets st1 st2
  have hst1 : st1.memWf := memWf_modMm (fun _ w1 => mmWf_markDirty w1) (memWf_fillL2 w)
  have hst2 : st2.memWf := memWf_ite (memWf_charge hst1) hst1
  exact memWf_ite (memWf_modMm (fun _ w1 => w1) hst2) hst2

theorem memWf_dropRdc {s : State} {pa n : Nat} (h : s.memWf) : (s.dropRdc pa n).memWf := memWf_modMm (fun _ w => w) h

theorem memWf_feSet {s : State} {vf pa : Nat} {full : Bool} (h : s.memWf) : (s.feSet vf pa full).memWf :=
  memWf_modMm (fun _ w => w) (memWf_modMm (fun _ w => mmWf_markDirty w) (memWf_fillL2 h))

theorem memWf_pickOf {α : Type} {s : State} {full : Nat} {l : List α} (h : s.memWf) : (s.pickOf full l).2.memWf := by
  unfold State.pickOf
  split
  · exact h
  · dsimp only
    exact memWf_pick h

theorem memWf_addTlb2 {s : State} {e : Tlb2} (h : s.memWf) : (s.addTlb2 e).memWf := memWf_modMm (fun _ w => w) (memWf_pickOf h)

theorem memWf_addTlb1 {s : State} {e : Tlb1} (h : s.memWf) : (s.addTlb1 e).memWf := memWf_modMm (fun _ w => w) (memWf_pickOf h)

theorem memWf_walkStep {s : State} {r : TReq} {w : Walk} (h : s.memWf) : (s.walkStep r w).2.memWf := by
  unfold State.walkStep
  split
  · exact h
  · split
    · dsimp only
      split
      · exact h
      · split
        · exact h
        · split
          · exact h
          · split
            · exact memWf_addTlb2 h
            · split
              · exact memWf_addTlb1 (memWf_addTlb2 h)
              · exact memWf_addTlb2 h
    · split
      · exact h
      · extract_lets g d run w1
        have hg : g.2.memWf := memWf_homeRead h
        split
        · exact hg
        · split
          · exact hg
          · split
            · exact hg
            · split
              · exact memWf_addTlb1 hg
              · exact hg

theorem memWf_walkAll {s : State} {r : TReq} {n : Nat} {o : TOut} (h : s.memWf) : (s.walkAll r n o).2.memWf := by
  induction n generalizing s o with
  | zero => exact h
  | succ n ih =>
    cases o with
    | more w =>
      unfold State.walkAll
      split
      · exact h
      · exact ih (memWf_walkStep h)
    | done _ _ | fault _ _ | miss _ _ | poison _ => exact h

theorem memWf_translate {s : State} {r : TReq} (h : s.memWf) : (s.translate r).2.memWf := memWf_walkAll h

/-! ### Records, interrupts and faults -/

theorem memWf_setEvent {s : State} {c : Fin 4} {b : Nat} (h : s.memWf) : (s.setEvent c b).memWf :=
  memWf_modCore (fun _ w => w) h

theorem memWf_engineWrite {s : State} {vf pa n v : Nat} (h : s.memWf) : (s.engineWrite vf pa n v).memWf :=
  memWf_ite (memWf_dropRdc (memWf_serveWrite h)) h

theorem memWf_sendIrq {s : State} {die : Fin 2} {handle : Nat} {sender : Option Nat} (h : s.memWf) :
    (s.sendIrq die handle sender).memWf := by
  unfold State.sendIrq
  dsimp only
  split
  · exact memWf_modHost h
  · split
    · exact memWf_modHost h
    · split
      all_goals
        split
        · exact memWf_modHost h
        · exact memWf_ite (memWf_modHost h) (memWf_ite h (memWf_engineWrite h))

theorem memWf_flushIrqs {s : State} (h : s.memWf) : s.flushIrqs.memWf :=
  memWf_foldl (fun _ _ w => memWf_sendIrq w) (memWf_modHost h)

theorem memWf_flushHostFaults {s : State} {n : Nat} (h : s.memWf) : (s.flushHostFaults n).memWf := by
  induction n generalizing s with
  | zero =>
    unfold State.flushHostFaults
    exact h
  | succ n ih =>
    unfold State.flushHostFaults
    split
    · exact h
    · dsimp only
      split
      · exact h
      · refine ih ?_
        split
        · exact memWf_sendIrq (memWf_modHost (memWf_engineWrite (memWf_engineWrite h)))
        · exact memWf_modHost (memWf_engineWrite (memWf_engineWrite h))

theorem memWf_hostFault {s : State} {r : BitVec 512} (h : s.memWf) : (s.hostFault r).memWf := by
  unfold State.hostFault
  dsimp only
  split
  · exact memWf_modHost h
  · split
    · exact memWf_modHost (memWf_modHost (memWf_flushHostFaults (memWf_modHost h)))
    · exact memWf_flushHostFaults (memWf_modHost h)

theorem memWf_flushPages {s : State} {n : Nat} (h : s.memWf) : (s.flushPages n).memWf := by
  induction n generalizing s with
  | zero =>
    unfold State.flushPages
    exact h
  | succ n ih =>
    unfold State.flushPages
    split
    · exact h
    · dsimp only
      split
      · exact h
      · split
        · exact h
        · refine ih ?_
          split
          · exact memWf_sendIrq (memWf_modHost (memWf_engineWrite (memWf_engineWrite h)))
          · exact memWf_modHost (memWf_engineWrite (memWf_engineWrite h))

theorem memWf_pageRequest {s : State} {die : Fin 2} {vf va ia : Nat} {inWalk write : Bool} {pasid : Option Nat}
    {for_ : PageFor} (h : s.memWf) : (s.pageRequest die vf va ia inWalk write pasid for_).2.memWf := by
  unfold State.pageRequest
  split
  · exact h
  · split
    · exact h
    · dsimp only
      refine memWf_flushPages (memWf_charge ?_)
      refine memWf_modHost (memWf_modMm (fun _ w => w) ?_)
      split
      · exact h
      · exact memWf_pick h

theorem memWf_unitAccess {s : State} {die : Fin 2} {vf va : Nat} {write : Bool} {pasid : Option Nat} {for_ : PageFor}
    (h : s.memWf) : (s.unitAccess die vf va write pasid for_).after.memWf := by
  unfold State.unitAccess
  extract_lets t
  have ht : t.2.memWf := memWf_translate h
  split
  · split
    · exact ht
    · split <;> exact ht
  · exact ht
  · split
    · split
      · exact memWf_modMm (fun _ w => w) ht
      · exact ht
    · exact memWf_pageRequest ht
  · exact ht
  · exact ht

theorem memWf_sampPut {s : State} {v hdr slot : Nat} {next : Option Nat} {n : Nat} {r : BitVec 256} (h : s.memWf) :
    (s.sampPut v hdr slot next n r).memWf := by
  unfold State.sampPut
  extract_lets w rd e s1 s2 s3 s4 old c
  have hs1 : s1.memWf := memWf_engineWrite h
  have hs2 : s2.memWf := memWf_engineWrite hs1
  have hs3 : s3.memWf := memWf_charge (memWf_modVf hs2)
  have hs4 : s4.memWf := memWf_engineWrite hs3
  split
  · exact hs3
  · split
    · exact hs4
    · exact memWf_engineWrite hs4

theorem memWf_flushSamples {s : State} {v n : Nat} (h : s.memWf) : (s.flushSamples v n).memWf := by
  induction n generalizing s with
  | zero =>
    unfold State.flushSamples
    exact h
  | succ n ih =>
    unfold State.flushSamples
    split
    · exact h
    · dsimp only
      split
      · exact memWf_modVf h
      · split
        · next e => exact ih (memWf_modVf (UOut.memWf_of_fail e (memWf_unitAccess h)))
        · next e => exact UOut.memWf_of_wait e (memWf_unitAccess h)
        · next t e =>
          have ht : t.memWf := UOut.memWf_of_ok e (memWf_unitAccess h)
          split
          · next e1 => exact ih (memWf_modVf (UOut.memWf_of_fail e1 (memWf_unitAccess ht)))
          · next e1 => exact UOut.memWf_of_wait e1 (memWf_unitAccess ht)
          · next t1 e1 =>
            have ht1 : t1.memWf := UOut.memWf_of_ok e1 (memWf_unitAccess ht)
            split
            · exact ih (memWf_sampPut (memWf_modVf ht1))
            · split
              · next e2 => exact ih (memWf_sampPut (memWf_modVf (UOut.memWf_of_fail e2 (memWf_unitAccess ht1))))
              · next e2 => exact UOut.memWf_of_wait e2 (memWf_unitAccess ht1)
              · next e2 => exact ih (memWf_sampPut (memWf_modVf (UOut.memWf_of_ok e2 (memWf_unitAccess ht1))))

theorem memWf_sample {s : State} {v : Nat} {die : Fin 2} {code : Nat} {id : SampId} {value tag : BitVec 64} (h : s.memWf) :
    (s.sample v die code id value tag).memWf := memWf_ite h (memWf_ite h (memWf_flushSamples (memWf_modVf h)))

theorem memWf_loseFaults {s : State} {v n : Nat} (h : s.memWf) : (s.loseFaults v n).memWf := memWf_setEvent (memWf_modVf h)

theorem memWf_flushFaults {s : State} {v n : Nat} (h : s.memWf) : (s.flushFaults v n).memWf := by
  induction n generalizing s with
  | zero =>
    unfold State.flushFaults
    exact h
  | succ n ih =>
    unfold State.flushFaults
    split
    · exact h
    · dsimp only
      split
      · exact memWf_loseFaults (memWf_modVf h)
      · split
        · next e => exact memWf_loseFaults (memWf_modVf (UOut.memWf_of_fail e (memWf_unitAccess h)))
        · next e => exact UOut.memWf_of_wait e (memWf_unitAccess h)
        · next t e =>
          have ht : t.memWf := UOut.memWf_of_ok e (memWf_unitAccess h)
          split
          · next e1 => exact memWf_loseFaults (memWf_modVf (UOut.memWf_of_fail e1 (memWf_unitAccess ht)))
          · next e1 => exact UOut.memWf_of_wait e1 (memWf_unitAccess ht)
          · next t1 e1 =>
            have ht1 : t1.memWf := UOut.memWf_of_ok e1 (memWf_unitAccess ht)
            split
            · exact ht1
            · split
              · next e2 => exact memWf_loseFaults (memWf_modVf (UOut.memWf_of_fail e2 (memWf_unitAccess ht1)))
              · next e2 => exact UOut.memWf_of_wait e2 (memWf_unitAccess ht1)
              · next e2 =>
                exact ih (memWf_setEvent (memWf_charge (memWf_modVf (memWf_engineWrite (memWf_engineWrite
                    (UOut.memWf_of_ok e2 (memWf_unitAccess ht1)))))))

theorem memWf_partFault {s : State} {v : Nat} {f : FaultInfo} {res : Option FaultFor} (h : s.memWf) :
    (s.partFault v f res).2.memWf := by
  unfold State.partFault
  dsimp only
  split
  · exact memWf_loseFaults h
  · split
    · exact memWf_loseFaults (memWf_modVf (memWf_flushFaults (memWf_modVf h)))
    · split
      · exact memWf_flushFaults (memWf_modVf h)
      · dsimp only
        refine memWf_sample ?_
        split
        · exact memWf_modVf (memWf_flushFaults (memWf_modVf h))
        · exact memWf_flushFaults (memWf_modVf h)

theorem memWf_report {s : State} {f : FaultInfo} {toHost : Bool} {res : Option FaultFor} (h : s.memWf) :
    (s.report f toHost res).2.memWf := by
  unfold State.report
  extract_lets p
  have hp : p.2.memWf := by
    dsimp only [p]
    split
    · exact memWf_partFault h
    · exact h
  split
  · exact memWf_hostFault hp
  · exact hp

theorem memWf_reportHost {s : State} {f : FaultInfo} (h : s.memWf) : (s.reportHost f).memWf := memWf_hostFault h

theorem memWf_partitionFault {s : State} {f : FaultInfo} (h : s.memWf) : (s.partitionFault f).memWf := memWf_report h

/-! ### Sending tokens -/

theorem memWf_stowTile {s : State} {f : Flight} (h : s.memWf) : (s.stowTile f).2.memWf := by
  unfold State.stowTile
  split
  · split
    · exact h
    · exact memWf_charge h
  · exact h

theorem memWf_launchTok {s : State} {f : Flight} (h : s.memWf) : (s.launchTok f).memWf := by
  unfold State.launchTok
  extract_lets u g q s1 w
  have hu : u.2.memWf := memWf_newUid h
  have hq : q.2.memWf := by
    dsimp only [q]
    split
    · exact hu
    · exact memWf_stowTile hu
  have hs1 : s1.memWf := memWf_modFab (fun _ w1 => w1) hq
  split
  · exact hs1
  · exact memWf_charge hs1

theorem memWf_sendSink {s : State} {i : Inst} {k : Nat} {p : Payload} {src : Option Loc} {edge fid : Nat} {holds : List Hold}
    {before : List Nat} {pad : Nat} (h : s.memWf) : (s.sendSink i k p src edge fid holds before pad).memWf :=
  memWf_modFab (fun _ w => w) h

theorem memWf_toCallee {s : State} {c e : Nat} {f : Flight} (h : s.memWf) : (s.toCallee c e f).memWf := by
  unfold State.toCallee
  split
  · exact h
  · exact memWf_ite h (memWf_ite (memWf_modInst h) (memWf_launchTok (memWf_modInst h)))

theorem memWf_sendResult {s : State} {i : Inst} {caller site : Nat} {rt : BitVec 64} {k : Nat} {p : Payload} {f : Flight}
    (h : s.memWf) : (s.sendResult i caller site rt k p f).memWf := by
  unfold State.sendResult
  dsimp only
  split
  · exact memWf_modInst h
  · exact memWf_ite (memWf_modInst (memWf_modInst h)) (memWf_launchTok (memWf_modInst h))

theorem memWf_sendRoute {s : State} {i : Inst} {r tag : BitVec 64} {p : Payload} {callee : Option Nat} {f : Flight}
    (h : s.memWf) : (s.sendRoute i r tag p callee f).memWf := by
  unfold State.sendRoute
  split
  · exact h
  · split
    · exact memWf_launchTok h
    · exact memWf_sendSink h
    · split
      · exact memWf_sendResult h
      · exact memWf_sendSink h
      · exact memWf_sendSink h
    · split
      · exact memWf_toCallee h
      · exact h

theorem memWf_keepArg {s : State} {r : BitVec 64} {fl : Flight} (h : s.memWf) : (s.keepArg r fl).memWf :=
  memWf_modFir (memWf_stowTile h)

theorem memWf_emitTok {s : State} {arc : Nat} {tag : BitVec 64} {p : Payload} {rel : Option Scope} (h : s.memWf) :
    (s.emitTok arc tag p rel).memWf := by
  unfold State.emitTok
  split
  · dsimp only
    split
    · exact h
    · split
      · exact memWf_modFir h
      · exact memWf_ite (memWf_keepArg (memWf_modFir h)) (memWf_sendRoute (memWf_modFir h))
  · exact h

theorem memWf_claim {s : State} {arc : Nat} (h : s.memWf) : (s.claim arc).memWf := memWf_modFir h

/-! ### Instances: stations, counts and retirement -/

theorem memWf_staleToken {s : State} {t : Token} {loc : Option Loc} {source stage : Nat} (h : s.memWf) :
    (s.staleToken t loc source stage).memWf := by
  unfold State.staleToken
  split
  · exact h
  · exact memWf_partitionFault h

theorem memWf_engineFault {s : State} {code vf die inst va arg : Nat} (h : s.memWf) :
    (s.engineFault code vf die inst va arg).memWf := memWf_partitionFault h

theorem memWf_rootStatus {s : State} {n : Nat} {code : Option Nat} (h : s.memWf) : (s.rootStatus n code).memWf := by
  unfold State.rootStatus
  split
  · exact h
  · exact memWf_modRoot h

theorem memWf_lowerLineage {s : State} {n : Nat} {code : Option Nat} (h : s.memWf) : (s.lowerLineage n code).memWf := by
  unfold State.lowerLineage
  extract_lets s1
  have hs1 : s1.memWf := memWf_modRoot (memWf_rootStatus h)
  split
  · exact hs1
  · exact memWf_ite (memWf_setEvent (memWf_modRoot hs1)) hs1

theorem memWf_raiseFence {s : State} {i : Inst} (h : s.memWf) : (s.raiseFence i).memWf := h

theorem memWf_modFence {s : State} {n : Nat} {f : Fence → Fence} (h : s.memWf) : (s.modFence n f).memWf := h

theorem memWf_sweepArc {s : State} {n id : Nat} {arc : Nat × Nat} (h : s.memWf) : (s.sweepArc n id arc).memWf :=
  memWf_modFence (memWf_modFab (fun _ w => w) (memWf_newUid h))

theorem memWf_sweepFence {s : State} {n id : Nat} (h : s.memWf) : (s.sweepFence n id).memWf :=
  memWf_foldl (fun _ _ w => memWf_sweepArc w) h

theorem memWf_sweepFences {s : State} {id : Nat} (h : s.memWf) : (s.sweepFences id).memWf :=
  memWf_foldl (fun _ _ w => memWf_sweepFence w) h

theorem memWf_beginEvict {s : State} {id : Nat} (h : s.memWf) : (s.beginEvict id).memWf := by
  unfold State.beginEvict
  split
  · exact h
  · exact memWf_ite (memWf_modEng (memWf_modInst (memWf_raiseFence h))) h

theorem spWf_freeSlot {v : Station} {c id : Nat} (h : v.spWf) : (v.freeSlot c id).spWf := h

theorem memWf_freeSlots {s : State} {i : Inst} (h : s.memWf) : (s.freeSlots i).memWf :=
  memWf_foldl (fun _ _ w => memWf_modSt (fun _ w1 => spWf_ite (spWf_freeSlot w1) w1) w) h

theorem memWf_roomFreed {s : State} {d : Fin 2} (h : s.memWf) : (s.roomFreed d).memWf := memWf_modEng h

theorem memWf_tickEng {s : State} {d : Fin 2} (h : s.memWf) : (s.tickEng d).2.memWf := memWf_modEng h

theorem memWf_nullResults {s : State} {i : Inst} (h : s.memWf) : (s.nullResults i).memWf := by
  unfold State.nullResults
  split
  · exact memWf_foldl (fun _ _ w => memWf_sendResult w) h
  · exact h
  · exact h

theorem memWf_sampleInst {s : State} {i : Inst} {code value : Nat} (h : s.memWf) : (s.sampleInst i code value).memWf :=
  memWf_sample h

theorem memWf_dropShadow {s : State} {id : Nat} (h : s.memWf) : (s.dropShadow id).memWf :=
  memWf_modFab (fun _ w => spWf_map (fun _ w1 => w1) w) h

theorem memWf_dropEntries {s : State} {i : Inst} (h : s.memWf) : (s.dropEntries i).memWf :=
  memWf_modFab (fun _ w => w) (memWf_dropShadow (memWf_modEng (memWf_modEng h)))

theorem memWf_reapInst {s : State} {id : Nat} (h : s.memWf) : (s.reapInst id).memWf := memWf_ite h h

theorem memWf_dropResting {s : State} {id : Nat} (h : s.memWf) : (s.dropResting id).memWf := memWf_modMm (fun _ w => w) h

theorem memWf_dropGateMessages {s : State} {id : Nat} (h : s.memWf) : (s.dropGateMessages id).memWf :=
  memWf_modFab (fun _ w => w) h

theorem memWf_endInst {s : State} {i : Inst} {st : IState} {code : Nat} (h : s.memWf) : (s.endInst i st code).memWf :=
  memWf_reapInst (memWf_roomFreed
      (memWf_roomFreed (memWf_sampleInst
      (memWf_sweepFences (memWf_modInst
      (memWf_dropGateMessages (memWf_dropResting (memWf_dropEntries (memWf_freeSlots (memWf_ite (memWf_raiseFence h) h))))))))))

theorem memWf_settle {s : State} {id : Nat} (h : s.memWf) : (s.settle id).memWf := by
  unfold State.settle
  split
  · exact h
  · extract_lets ret s1
    have hs1 : s1.memWf := memWf_endInst h
    split
    · split
      · exact memWf_modInst hs1
      · exact memWf_lowerLineage hs1
      · exact memWf_lowerLineage hs1
    · exact h

theorem memWf_settleCaller {s : State} {i : Inst} (h : s.memWf) : (s.settleCaller i).memWf := by
  unfold State.settleCaller
  split
  · exact memWf_settle h
  · exact h
  · exact h

theorem memWf_dropMessages {s : State} {id : Nat} (h : s.memWf) : (s.dropMessages id).memWf := memWf_modFab (fun _ w => w) h

theorem memWf_killOne {s : State} {id code : Nat} (h : s.memWf) : (s.killOne id code).memWf := by
  unfold State.killOne
  split
  · exact h
  · split
    · exact h
    · dsimp only
      split
      · exact memWf_settle (memWf_modInst (memWf_nullResults (memWf_dropMessages (memWf_endInst h))))
      · exact memWf_lowerLineage (memWf_modRoot (memWf_dropMessages (memWf_endInst h)))
      · exact memWf_lowerLineage (memWf_dropMessages (memWf_endInst h))

theorem memWf_kill {s : State} {code n : Nat} {l : List Nat} (h : s.memWf) : (s.kill code n l).memWf := by
  induction n generalizing s l with
  | zero => exact h
  | succ n ih =>
    cases l with
    | nil => exact h
    | cons id rest => exact ih (memWf_killOne h)

theorem memWf_killInst {s : State} {id code : Nat} (h : s.memWf) : (s.killInst id code).memWf := memWf_kill h

theorem memWf_poisonInst {s : State} {vf : Nat} {l : Loc} {inst ctx stage : Nat} {tag : BitVec 64} {va pa : Nat} (h : s.memWf) :
    (s.poisonInst vf l inst ctx stage tag va pa).memWf := memWf_killInst (memWf_report h)

theorem memWf_killVf {s : State} {vf code : Nat} (h : s.memWf) : (s.killVf vf code).memWf := memWf_kill h

theorem memWf_withdraw {s : State} {d : Fin 2} {qx qy code : Nat} (h : s.memWf) : (s.withdraw d qx qy code).memWf :=
  memWf_ite (memWf_modEng (memWf_mapOut h)) (memWf_mapOut h)

/-! ### Frame entries and their places -/

theorem memWf_arenaPage {s : State} {d : Fin 2} {vf va : Nat} (h : s.memWf) : (s.arenaPage d vf va).after.memWf :=
  memWf_unitAccess h

theorem memWf_arenaLost {s : State} {l : Loc} {c : Nat} {i : Inst} {stage : Nat} (h : s.memWf) :
    (s.arenaLost l c i stage).memWf := memWf_killInst (memWf_partitionFault h)

theorem memWf_arenaWrite {s : State} {l : Loc} {c : Nat} {i : Inst} {va n stage : Nat} (h : s.memWf) :
    (s.arenaWrite l c i va n stage).2.memWf := by
  unfold State.arenaWrite
  split
  · next e => exact memWf_charge (UOut.memWf_of_ok e (memWf_arenaPage h))
  · next e => exact memWf_charge (memWf_modInst (UOut.memWf_of_wait e (memWf_arenaPage h)))
  · next e => exact memWf_arenaLost (UOut.memWf_of_fail e (memWf_arenaPage h))

theorem memWf_arenaTake_more {s : State} {l : Loc} {c id stage : Nat} {i : Inst} {x : Vf}
    {write : State → Nat → Nat → Bool → Option (List (Nat × Nat)) × State} (h : s.memWf)
    (hf : ∀ (t : State) (n k : Nat) (b : Bool), t.memWf → (write t n k b).2.memWf) :
    (State.arenaTake.more s l c id stage i x write).2.memWf := by
  unfold State.arenaTake.more
  dsimp only
  split
  · exact memWf_arenaLost h
  · split
    · exact hf _ _ _ _ h
    · exact memWf_partitionFault (hf _ _ _ _ h)

theorem memWf_arenaTake {s : State} {l : Loc} {c id n stage : Nat} (h : s.memWf) : (s.arenaTake l c id n stage).2.memWf := by
  unfold State.arenaTake
  split
  · exact h
  · dsimp only
    split
    · split
      · exact memWf_arenaWrite (memWf_modInst h)
      · exact memWf_arenaTake_more h (fun _ _ _ _ w => memWf_arenaWrite (memWf_modInst w))
    · exact memWf_arenaTake_more h (fun _ _ _ _ w => memWf_arenaWrite (memWf_modInst w))

theorem memWf_arenaRead {s : State} {l : Loc} {c id stage : Nat} {tag : BitVec 64} {l1 : List (Nat × Nat)} (h : s.memWf) :
    (s.arenaRead l c id stage tag l1).after.memWf := by
  induction l1 generalizing s with
  | nil =>
    unfold State.arenaRead
    exact h
  | cons a l1 ih =>
    unfold State.arenaRead
    split
    · exact h
    · split
      · next t e =>
        have ht : t.memWf := UOut.memWf_of_ok e (memWf_unitAccess h)
        split
        · exact memWf_poisonInst ht
        · exact ih ht
      · next e => exact UOut.memWf_of_wait e (memWf_unitAccess h)
      · next e => exact memWf_arenaLost (UOut.memWf_of_fail e (memWf_unitAccess h))

theorem memWf_arenaCheck {s : State} {id : Nat} {w : ArenaWait} (h : s.memWf) : (s.arenaCheck id w).memWf := by
  unfold State.arenaCheck
  split
  · exact h
  · dsimp only
    split
    · next e => exact memWf_modInst (UOut.memWf_of_ok e (memWf_arenaPage h))
    · next e => exact UOut.memWf_of_wait e (memWf_arenaPage h)
    · next e => exact memWf_arenaLost (memWf_modInst (UOut.memWf_of_fail e (memWf_arenaPage h)))

theorem memWf_arenaAnswered {s : State} {vf : Nat} (h : s.memWf) : (s.arenaAnswered vf).memWf :=
  memWf_foldl (fun _ _ w => memWf_foldl (fun _ _ w1 => memWf_arenaCheck w1) w) h

theorem memWf_arenaDrop {s : State} {id : Nat} (h : s.memWf) : (s.arenaDrop id).memWf := memWf_ite h (memWf_modInst h)

theorem spWf_modEntry {v : Station} {n : Nat} {f : Frame → Frame} (h : v.spWf) : (v.modEntry n f).spWf := by
  unfold Station.modEntry
  split
  · exact h
  · split <;> exact h

theorem memWf_unbankTok {s : State} {f : Flight} {recs : List (Nat × Nat)} (h : s.memWf) : (s.unbankTok f recs).memWf :=
  memWf_same (memWf_modFab (fun _ w => spWf_map (fun _ w1 => w1) w) h)

theorem memWf_unbank {s : State} {h1 : RowHeld} (h : s.memWf) : (s.unbank h1).memWf := by
  unfold State.unbank
  extract_lets id n t
  have ht : t.2.memWf := memWf_arenaTake h
  split
  · exact ht
  · split
    · exact memWf_modSt (fun _ w => spWf_modEntry w) ht
    · exact memWf_modSt (fun _ w => w) ht
    · exact memWf_unbankTok ht
    · exact memWf_modSt (fun _ w => spWf_modCtx w) ht

theorem memWf_reclaimRows {s : State} {l : Loc} {c n n1 : Nat} (h : s.memWf) : (s.reclaimRows l c n n1).memWf := by
  induction n1 generalizing s with
  | zero =>
    unfold State.reclaimRows
    exact h
  | succ n1 ih =>
    unfold State.reclaimRows
    split
    · split
      · exact h
      · exact ih (memWf_unbank h)
    · exact h

theorem memWf_takeRows {s : State} {l : Loc} {c n : Nat} (h : s.memWf) : (s.takeRows l c n).2.memWf := by
  unfold State.takeRows
  dsimp only
  split
  · exact memWf_charge (memWf_reclaimRows h)
  · exact memWf_reclaimRows h

theorem memWf_overflowPlace {s : State} {l : Loc} {c id stage : Nat} (h : s.memWf) :
    (s.overflowPlace l c id stage).2.memWf := by
  unfold State.overflowPlace
  dsimp only
  split
  · exact memWf_takeRows h
  · exact memWf_arenaTake (memWf_takeRows h)

theorem memWf_writeOut {s : State} {l : Loc} {n : Nat} (h : s.memWf) : (s.writeOut l n).memWf := by
  unfold State.writeOut
  split
  · exact h
  · dsimp only
    split
    · exact memWf_modSt (fun _ w => spWf_modEntry w) (memWf_overflowPlace h)
    · exact memWf_overflowPlace h

theorem memWf_reclaim {s : State} {l : Loc} {c : Nat} (h : s.memWf) : (s.reclaim l c).memWf := by
  unfold State.reclaim
  dsimp only
  split
  · split
    · exact memWf_writeOut h
    · exact h
  · exact h

theorem memWf_takeWay {s : State} {l : Loc} {n : Nat} (h : s.memWf) : (s.takeWay l n).memWf := by
  unfold State.takeWay
  split
  · split
    · dsimp only
      split
      · exact memWf_modSt (fun _ w => spWf_modEntry w) h
      · split
        · exact h
        · split
          · exact memWf_modSt (fun _ w => spWf_modEntry w) (memWf_writeOut h)
          · exact memWf_writeOut h
    · exact h
    · exact h
    · exact h
    · exact h
  · exact h

theorem memWf_chooseBack {s : State} {l : Loc} {n : Nat} {f : Frame} (h : s.memWf) : (s.chooseBack l n f).memWf :=
  memWf_takeWay (memWf_modSt (fun _ w => spWf_modEntry w) h)

theorem memWf_takeWays {s : State} {l : Loc} (h : s.memWf) : (s.takeWays l).memWf :=
  memWf_foldl (fun _ _ w => memWf_takeWay w) h

theorem memWf_freedEntry {s : State} {l : Loc} {c : Nat} (h : s.memWf) : (s.freedEntry l c).memWf := by
  unfold State.freedEntry
  dsimp only
  split
  · split
    · exact memWf_chooseBack (memWf_takeWays h)
    · exact memWf_takeWays h
  · exact memWf_takeWays h

theorem memWf_swapIn {s : State} {l : Loc} {c : Nat} (h : s.memWf) : (s.swapIn l c).memWf := by
  unfold State.swapIn
  dsimp only
  split
  · split
    · exact h
    · split
      · exact memWf_chooseBack h
      · split
        · exact h
        · exact memWf_ite (memWf_chooseBack (memWf_writeOut h)) (memWf_writeOut h)
  · exact h
  · exact h

theorem memWf_returns {s : State} {l : Loc} (h : s.memWf) : (s.returns l).memWf :=
  memWf_ite h (memWf_foldl (fun _ _ w => memWf_swapIn w) (memWf_takeWays h))

theorem memWf_landEntry {s : State} {l : Loc} {n : Nat} (h : s.memWf) : (s.landEntry l n).memWf := by
  unfold State.landEntry
  split
  · exact h
  · dsimp only
    split
    · exact memWf_charge (memWf_modSt (fun _ w => spWf_modEntry w) h)
    · split
      · next e =>
        exact memWf_arenaDrop (memWf_charge (memWf_modSt (fun _ w => spWf_modEntry w) (ArenaGot.memWf_of_ok e
            (memWf_arenaRead h))))
      · next e => exact ArenaGot.memWf_of_wait e (memWf_arenaRead h)
      · next e => exact ArenaGot.memWf_of_gone e (memWf_arenaRead h)
    · exact h
    · exact h
    · exact h
    · exact h

theorem memWf_rejoin {s : State} {t : Token} (h : s.memWf) : (s.rejoin t).memWf := by
  unfold State.rejoin
  dsimp only
  split
  · exact memWf_landEntry h
  · exact h

theorem memWf_newPlace {s : State} {l : Loc} {f : Frame} (h : s.memWf) : (s.newPlace l f).2.memWf := by
  unfold State.newPlace
  dsimp only
  split
  · exact memWf_reclaim h
  · exact memWf_overflowPlace (memWf_reclaim h)

theorem memWf_tilePlace {s : State} {l : Loc} {c id stage : Nat} {t : Tile} (h : s.memWf) :
    (s.tilePlace l c id stage t).2.memWf := by
  unfold State.tilePlace
  dsimp only
  split
  · exact memWf_takeRows h
  · exact memWf_arenaTake (memWf_takeRows h)

/-! ### Ending a firing -/

theorem memWf_dropCalls {s : State} {l : List (Nat × Nat)} (h : s.memWf) : (s.dropCalls l).memWf := h

theorem memWf_callerOf {s : State} {id : Nat} (h : s.memWf) : (s.callerOf id).memWf := by
  unfold State.callerOf
  split
  · exact memWf_settleCaller h
  · exact h

theorem memWf_parkFiring {s : State} {l : Loc} {p : Park} (h : s.memWf) : (s.parkFiring l p).memWf := by
  unfold State.parkFiring
  dsimp only
  refine memWf_callerOf ?_
  split
  · exact memWf_modSt (fun _ w => w) (memWf_overflowPlace h)
  · exact memWf_modSt (fun _ w => spWf_modCtx w) (memWf_overflowPlace h)

theorem memWf_passLate {s : State} {l : Loc} {fid : Nat} {l1 : List Hold} {cov : List Nat} (h : s.memWf) :
    (s.passLate l fid l1 cov).memWf := memWf_modMm (fun _ w => w) (memWf_modSt (fun _ w => w) h)

theorem memWf_frameTrap {s : State} {code detail va : Nat} (h : s.memWf) : (s.frameTrap code detail va).memWf :=
  memWf_parkFiring (memWf_modFir (memWf_dropCalls (memWf_ite (memWf_passLate (memWf_report h)) (memWf_report h))))

theorem memWf_trapIns {s : State} {code detail : Nat} (h : s.memWf) : (s.trapIns code detail).memWf :=
  memWf_frameTrap (memWf_chargeCtx h)

theorem memWf_trapAcc {s : State} {code detail va : Nat} (h : s.memWf) : (s.trapAcc code detail va).memWf :=
  memWf_frameTrap (memWf_chargeCtx h)

theorem outWf_claiming {s : State} {l : List Nat} {x : State → Out} (h : s.memWf) (hf : ∀ t : State, t.memWf → outWf (x t)) :
    outWf (s.claiming l x) := by
  induction l generalizing s with
  | nil =>
    unfold State.claiming
    exact hf _ h
  | cons a l ih =>
    unfold State.claiming
    split
    · exact memWf_trapIns h
    · exact ih (memWf_claim h)

theorem spWf_modFiring {v : Station} {fid : Nat} {f : Firing → Firing} (h : v.spWf) : (v.modFiring fid f).spWf := h

theorem memWf_lateSend {s : State} {l : Loc} {fid id : Nat} {r tag : BitVec 64} {p : Payload} {rel : TokRel} (h : s.memWf) :
    (s.lateSend l fid id r tag p rel).memWf := by
  unfold State.lateSend
  split
  · exact h
  · dsimp only
    split
    · exact h
    · split
      · exact memWf_modSt (fun _ w => spWf_modFiring w) h
      · split
        · split
          · exact memWf_modSt (fun _ w => spWf_modFiring w) (memWf_stowTile h)
          · exact memWf_sendRoute h
        · exact memWf_sendRoute (memWf_modSt (fun _ w => spWf_modFiring w) h)

theorem memWf_flushCrossing {s : State} {l : List Hold} {cov : List Nat} (h : s.memWf) : (s.flushCrossing l cov).memWf := by
  unfold State.flushCrossing
  dsimp only
  refine memWf_foldl (fun _ _ w => ?_) (memWf_passLate (memWf_modFir h))
  split
  · exact memWf_ite (memWf_keepArg (memWf_modFir w)) (memWf_sendRoute (memWf_modFir w))
  · exact w

theorem memWf_sendCalls {s : State} {l : Loc} {f : Firing} (h : s.memWf) : (s.sendCalls l f).memWf := by
  unfold State.sendCalls
  refine memWf_foldl (fun _ _ w => ?_) h
  split
  · exact w
  · exact memWf_modFab (fun _ w1 => w1) (memWf_modInst (memWf_foldl (fun _ _ w1 => memWf_toCallee w1) w))

theorem memWf_sendSpawns {s : State} {l : Loc} {f : Firing} (h : s.memWf) : (s.sendSpawns l f).memWf :=
  memWf_foldl (fun _ _ w => memWf_modFab (fun _ w1 => w1) w) h

theorem memWf_bodyEnd {s : State} (h : s.memWf) : s.bodyEnd.memWf := by
  unfold State.bodyEnd
  dsimp only
  split
  · exact memWf_frameTrap h
  · split
    · exact memWf_frameTrap h
    · exact memWf_callerOf (memWf_modSt (fun _ w => spWf_modCtx w) (memWf_sendSpawns (memWf_sendCalls (memWf_ite
          (memWf_flushCrossing h) h))))

/-! ### The knot cache -/

theorem memWf_putCopy {s : State} {d : Fin 2} {k : KnotCopy} (h : s.memWf) : (s.putCopy d k).memWf :=
  memWf_modEng (memWf_tickEng h)

theorem memWf_dropCopies {s : State} {vf idx : Nat} (h : s.memWf) : (s.dropCopies vf idx).memWf := memWf_modEng (memWf_modEng h)

theorem memWf_fetchFail {α : Type} {code pa : Nat} {s : State} (h : s.memWf) :
    (fetchFail code pa s : Got α).after.memWf := by
  unfold fetchFail
  split <;> exact h

theorem memWf_poisonRead {s : State} {d : Fin 2} {i : Inst} {pa : Nat} (h : s.memWf) : (s.poisonRead d i pa).memWf :=
  memWf_killInst (memWf_report h)

theorem memWf_knotEntry {s : State} {d : Fin 2} {vf idx : Nat} (h : s.memWf) : (s.knotEntry d vf idx).after.memWf := by
  unfold State.knotEntry
  split
  · next e => exact memWf_fetchFail (UOut.memWf_of_fail e (memWf_unitAccess h))
  · next e => exact UOut.memWf_of_wait e (memWf_unitAccess h)
  · next t e =>
    have ht : t.memWf := UOut.memWf_of_ok e (memWf_unitAccess h)
    split
    · exact ht
    · exact memWf_homeRead ht

theorem memWf_pagesAt {s : State} {d : Fin 2} {vf n n1 : Nat} (h : s.memWf) : (s.pagesAt d vf n n1).after.memWf := by
  induction n generalizing s d vf n1 with
  | zero =>
    unfold State.pagesAt
    exact h
  | succ n ih =>
    unfold State.pagesAt
    split
    · next e => exact memWf_fetchFail (UOut.memWf_of_fail e (memWf_unitAccess h))
    · next e => exact UOut.memWf_of_wait e (memWf_unitAccess h)
    · next t e =>
      have ht : t.memWf := UOut.memWf_of_ok e (memWf_unitAccess h)
      split
      · next e1 => exact Got.memWf_of_ok e1 (ih ht)
      · next e1 => exact Got.memWf_of_wait e1 (ih ht)
      · next e1 => exact Got.memWf_of_fail e1 (ih ht)

theorem memWf_fetchImage {s : State} {d : Fin 2} {vf va : Nat} (h : s.memWf) : (s.fetchImage d vf va).after.memWf := by
  unfold State.fetchImage
  -- variables for the functions that the matches look at: the kernel need not evaluate them
  obtain ⟨pagesAt, hpa, hpages⟩ : ∃ f, f = State.pagesAt ∧
      ∀ {t : State} {n va : Nat}, t.memWf → (f t d vf n va).after.memWf :=
    ⟨_, rfl, memWf_pagesAt⟩
  obtain ⟨poisonAt, hpo⟩ : ∃ f, f = State.poisonAt := ⟨_, rfl⟩
  rw [← hpa, ← hpo]
  split
  · next e => exact Got.memWf_of_fail e (hpages h)
  · next e => exact Got.memWf_of_wait e (hpages h)
  · next t e =>
    have ht : t.memWf := Got.memWf_of_ok e (hpages h)
    split
    · exact ht
    · dsimp only
      split
      · next e1 => exact Got.memWf_of_fail e1 (hpages ht)
      · next e1 => exact Got.memWf_of_wait e1 (hpages ht)
      · next u e1 =>
        have hu : u.memWf := Got.memWf_of_ok e1 (hpages ht)
        split
        · exact hu
        · split <;> exact memWf_same (memWf_charge hu)

theorem memWf_keepBad {s : State} {d : Fin 2} {vf idx code arg : Nat} (h : s.memWf) : (s.keepBad d vf idx code arg).memWf :=
  memWf_ite h (memWf_modEng h)

theorem memWf_firstUse {s : State} {d : Fin 2} {vf idx : Nat} {e : Nat × Bool} (h : s.memWf) :
    (s.firstUse d vf idx e).after.memWf := by
  unfold State.firstUse
  split
  · exact memWf_keepBad h
  · split
    · next e1 => exact memWf_keepBad (Got.memWf_of_fail e1 (memWf_fetchImage h))
    · next e1 => exact Got.memWf_of_wait e1 (memWf_fetchImage h)
    · next e1 => exact memWf_putCopy (Got.memWf_of_ok e1 (memWf_fetchImage h))

theorem memWf_needImage {s : State} {d : Fin 2} {vf idx : Nat} (h : s.memWf) : (s.needImage d vf idx).after.memWf := by
  unfold State.needImage
  split
  · exact h
  · split
    · exact memWf_putCopy h
    · exact h
    · split
      · next e => exact Got.memWf_of_fail e (memWf_knotEntry h)
      · next e => exact Got.memWf_of_wait e (memWf_knotEntry h)
      · next e => exact memWf_firstUse (Got.memWf_of_ok e (memWf_knotEntry h))

theorem memWf_newId {s : State} (h : s.memWf) : s.newId.2.memWf := by
  unfold State.newId
  dsimp only
  exact memWf_pick h

theorem memWf_addInst {s : State} {i : Inst} (h : s.memWf) : (s.addInst i).memWf := h

theorem outWf_callSite {s : State} {n idx : Nat} {foldOnly : Bool} (h : s.memWf) : outWf (s.callSite n idx foldOnly) := by
  unfold State.callSite
  split
  · exact memWf_adv h
  · split
    · exact memWf_adv h
    · dsimp only
      split
      · exact h
      · exact memWf_adv (memWf_modFir (memWf_addInst (memWf_newUid (memWf_newId h))))

theorem outWf_execKnotq {d : Fin 8} {i : BitVec 16} {s : State} (h : s.memWf) : outWf (execKnotq d i s) := by
  unfold execKnotq
  split
  · exact memWf_adv (memWf_wr h)
  · dsimp only
    split
    · next e => exact Got.memWf_of_wait e (memWf_needImage h)
    · next e => exact memWf_adv (memWf_wr (Got.memWf_of_ok e (memWf_needImage h)))
    · next t e =>
      have ht : t.memWf := Got.memWf_of_fail e (memWf_needImage h)
      split
      · exact memWf_poisonRead ht
      · exact memWf_adv (memWf_wr ht)

/-! ### Arrival and matching -/

theorem memWf_completeFrame {s : State} {f : Frame} {done : Bool} (h : s.memWf) : (s.completeFrame f done).2.memWf := by
  unfold State.completeFrame
  split
  · exact memWf_newUid h
  · exact h

theorem memWf_deliver {s : State} {l : Loc} {c sprig slot : Nat} {tag : BitVec 64} {p : Payload} {edge : Nat}
    {before : List Nat} (h : s.memWf) : (s.deliver l c sprig slot tag p edge before).memWf := by
  unfold State.deliver
  -- with the lookup a variable, the kernel does not evaluate it when it compares the branches
  obtain ⟨lookup, hlookup⟩ : ∃ f, f = Station.lookup := ⟨_, rfl⟩
  rw [← hlookup]
  extract_lets v hdr id countN t s1 vf f pl
  have ht : t.2.memWf := by
    dsimp only [t]
    split
    · exact memWf_tilePlace h
    · exact h
    · exact h
  have hpl : pl.2.memWf := memWf_newPlace ht
  split
  · exact ht
  · extract_lets q
    split
    · split
      · exact ht
      · extract_lets a
        have ha : a.2.memWf := by
          dsimp only [a]
          split
          · exact memWf_arenaTake ht
          · exact memWf_charge ht
          · exact ht
          · exact ht
        split
        · extract_lets w d
          exact memWf_modSt (fun _ w => w) (memWf_completeFrame ha)
        · exact ha
    · split
      · exact hpl
      · extract_lets w d
        exact memWf_modSt (fun _ w => w) (memWf_completeFrame hpl)

theorem optWf_refuseToken {s : State} {t : Token} (h : s.memWf) : optWf (s.refuseToken t) := by
  unfold State.refuseToken
  extract_lets l v c x id vf s1 s2 s3
  have hs1 : s1.memWf := memWf_modSt (fun _ w => spWf_modCtx w) h
  have hs2 : s2.memWf := memWf_modVf hs1
  have hs3 : s3.memWf := memWf_ite hs2 (memWf_partitionFault hs2)
  split
  · exact memWf_settle (memWf_reportHost h)
  · split
    · exact memWf_settle (memWf_staleToken h)
    · split
      · exact memWf_settle hs3
      · split
        · exact memWf_settle (memWf_staleToken h)
        · exact trivial

theorem memWf_arrive {s : State} {t : Token} {before : List Nat} (h : s.memWf) : (s.arrive t before).memWf := by
  unfold State.arrive
  split
  · next e => exact memWf_of_some e (optWf_refuseToken h)
  · dsimp only
    split
    · exact memWf_deliver (memWf_partitionFault (memWf_modInst h))
    · exact memWf_deliver (memWf_modInst h)

theorem memWf_freeTemps {s : State} {old : Vector Double 8} (h : s.memWf) : (s.freeTemps old).2.memWf := h

theorem memWf_startFiring {s : State} {f : Frame} {need : Nat} (h : s.memWf) : (s.startFiring f need).memWf :=
  memWf_modSt (fun _ w => spWf_modCtx w) (memWf_newUid (memWf_freeTemps h))

theorem memWf_restartFiring {s : State} {g : Firing} {need : Nat} (h : s.memWf) : (s.restartFiring g need).memWf :=
  memWf_startFiring h

theorem memWf_nullArc {s : State} {arc : Nat} (h : s.memWf) : (s.nullArc arc).memWf := by
  unfold State.nullArc
  split
  · exact memWf_ite h (memWf_sendRoute h)
  · exact h

theorem memWf_nullSite {s : State} {n : Nat} (h : s.memWf) : (s.nullSite n).memWf := by
  unfold State.nullSite
  split
  · exact h
  · split
    · exact h
    · exact memWf_foldl (fun _ _ w => memWf_ite w (memWf_launchTok w)) h

theorem memWf_nullEnd {s : State} (h : s.memWf) : s.nullEnd.memWf :=
  memWf_modSt (fun _ w => w) (memWf_dropCalls
      (memWf_foldl (fun _ _ w => memWf_nullSite w)
      (memWf_foldl (fun _ _ w => memWf_nullArc w) (memWf_foldl (fun _ _ w => memWf_nullArc w) h))))

/-! ### Memory as a control core sees it -/

theorem memWf_coreRef {s : State} {va need : Nat} (h : s.memWf) : (s.coreRef va need).2.memWf := by
  unfold State.coreRef
  extract_lets k v d t
  have ht : t.2.memWf := memWf_translate h
  split
  · split
    · exact h
    · split
      · exact h
      · split
        · exact h
        · split <;> exact h
  · split
    · exact h
    · split
      · exact memWf_modCc (fun _ w => w) h
      · split
        · exact h
        · split
          · split
            · exact ht
            · split <;> exact ht
          · exact ht
          · exact memWf_modCc (fun _ w => w) (memWf_pageRequest ht)
          · exact ht
          · exact ht

theorem lmWf_l1Drop {k : Core} {pa : Nat} (h : k.lmWf) : (k.l1Drop pa).lmWf := h

theorem lmWf_l1Put {k : Core} {pa n v : Nat} (h : k.lmWf) : (k.l1Put pa n v).lmWf := h

theorem memWf_l1Read {s : State} {vf pa n : Nat} (h : s.memWf) : (s.l1Read vf pa n).2.memWf := by
  unfold State.l1Read
  split
  · exact h
  · extract_lets g b s1 v
    have hs1 : s1.memWf := memWf_modCc (fun _ w => w) (memWf_serveRead h)
    split
    · exact hs1
    · extract_lets p
      have hp : p.2.memWf := memWf_pick hs1
      split
      · exact hp
      · dsimp only
        exact memWf_modCc (fun _ w => w) hp

theorem memWf_bufferStore {s : State} {t : Stored} (h : s.memWf) : (s.bufferStore t).memWf := memWf_modCc (fun _ w => w) h

theorem memWf_coreWritten {s : State} {c : Fin 4} {vf pa n : Nat} {rdc sys amo : Bool} (h : s.memWf) :
    (s.coreWritten c vf pa n rdc sys amo).memWf := memWf_ite h (memWf_modMm (fun _ w => w) (memWf_newUid h))

theorem lmWf_bar {k : Core} (h : k.lmWf) : k.bar.lmWf := h

theorem memWf_drainStore {s : State} {c : Fin 4} {n : Nat} (h : s.memWf) : (s.drainStore c n).memWf := by
  unfold State.drainStore
  split
  · exact h
  · extract_lets s0 rdc s1 r old s2
    have hs0 : s0.memWf := memWf_modCore (fun _ w => w) h
    have hs1 : s1.memWf := memWf_modCore (fun _ w => lmWf_l1Put w) (memWf_serveWrite hs0)
    have hs2 : s2.memWf := memWf_ite (memWf_modMm (fun _ w => w) (memWf_feSet hs1)) hs1
    exact memWf_ite (memWf_modCore (fun _ w => w) hs0) (memWf_coreWritten hs2)

theorem memWf_fetchWord {s : State} (h : s.memWf) : s.fetchWord.2.memWf := by
  unfold State.fetchWord
  extract_lets k a r
  have hr : r.2.memWf := memWf_coreRef h
  split
  · exact h
  · split
    · split <;> exact h
    · split
      · split
        · exact hr
        · exact memWf_l1Read hr
      · exact hr
      · exact hr
      · exact hr
      · exact hr

/-! ### The turn -/

theorem memWf_nextTurn {s : State} (h : s.memWf) : s.nextTurn.2.memWf := by
  unfold State.nextTurn
  split <;> exact h

theorem spWf_noteReady {s : State} {key : Nat} {v : Station} (h : v.spWf) : (s.noteReady key v).spWf := h

theorem memWf_chargeCore {s : State} {c : Fin 4} (h : s.memWf) : (s.chargeCore c).memWf :=
  memWf_ite (memWf_modCore (fun _ w => w) (memWf_charge h)) (memWf_charge h)

theorem memWf_sliceMark {s : State} (h : s.memWf) : s.sliceMark.memWf := memWf_ite h (memWf_modHost h)

theorem memWf_clockTick {s : State} (h : s.memWf) : s.clockTick.memWf := by
  unfold State.clockTick
  split
  · exact h
  · extract_lets m lo p pace _ s1 s2 s3
    have hp : p.2.memWf := memWf_pick h
    have hpace : pace.2.memWf := by
      dsimp only [pace]
      split
      · exact hp
      · exact h
    have hs1 : s1.memWf := memWf_same hpace
    have hs2 : s2.memWf := memWf_foldl (fun _ _ w => memWf_returns w) hs1
    have hs3 : s3.memWf := memWf_modFab (fun _ w => spWf_map (fun _ w' => spWf_noteReady w') w) hs2
    exact memWf_sliceMark (memWf_foldl (fun _ _ w => memWf_chargeCore w) hs3)

theorem memWf_withArg {s : State} {a : Arg} (h : s.memWf) : (s.withArg a).memWf := h

theorem memWf_coreIssue {s : State} {c : Fin 4} (h : s.memWf) : (s.coreIssue c).2.memWf := by
  unfold State.coreIssue
  dsimp only
  split
  · exact h
  · split
    · exact memWf_withArg h
    · split
      · exact memWf_fetchWord h
      · exact memWf_withArg (memWf_fetchWord h)
      · split
        · exact memWf_fetchWord h
        · exact memWf_withArg (memWf_fetchWord h)

theorem memWf_atStation {s : State} {l : Loc} (h : s.memWf) : (s.atStation l).memWf := h

/-! ### Steps of a station -/

theorem memWf_saveToken {s : State} {id : Nat} {f : Flight} (h : s.memWf) : (s.saveToken id f).memWf := memWf_modInst h

theorem memWf_saveMsg {s : State} {id : Nat} {q : SavedMsg} (h : s.memWf) : (s.saveMsg id q).memWf := memWf_modInst h

theorem memWf_markArc {s : State} {t : Token} (h : s.memWf) : (s.markArc t).memWf := memWf_modSt (fun _ w => spWf_modCtx w) h

theorem memWf_landToken {s : State} {f : Flight} (h : s.memWf) : (s.landToken f).memWf := by
  unfold State.landToken
  dsimp only
  split
  · exact memWf_ite h (memWf_getD (optWf_refuseToken h) (memWf_markArc h))
  · split
    · exact memWf_getD (optWf_refuseToken h) (memWf_rejoin h)
    · split
      · exact memWf_modFab (fun _ w => w) h
      · exact memWf_ite (memWf_saveToken h) (memWf_arrive h)

theorem memWf_tokRead {s : State} {f : Flight} (h : s.memWf) : (s.tokRead f).after.memWf := memWf_arenaRead h

theorem outWf_execTokenArrival {s : State} (h : s.memWf) : outWf (execTokenArrival s) := by
  unfold execTokenArrival
  split
  · exact h
  · dsimp only
    split
    · split
      · next e => exact memWf_landToken (memWf_modFab (fun _ w => w) (ArenaGot.memWf_of_ok e (memWf_tokRead h)))
      · next e => exact ArenaGot.memWf_of_wait e (memWf_tokRead h)
      · next e => exact memWf_modFab (fun _ w => w) (ArenaGot.memWf_of_gone e (memWf_tokRead h))
    · exact h

theorem spWf_bring {v : Station} {r : SlotReg} {l : List SlotReg} {p : Station × Nat} (h : v.spWf) (e : v.bring r l = some p) :
    p.1.spWf := by
  unfold Station.bring at e
  dsimp only at e
  split at e
  · cases e; exact h
  · obtain ⟨q, _, rfl⟩ := Option.map_eq_some_iff.1 e
    exact h

theorem spWf_bringAll {v : Station} {needs l : List SlotReg} {p : Station × Nat} (h : v.spWf)
    (e : v.bringAll needs l = some p) : p.1.spWf := by
  induction l generalizing v p with
  | nil => cases e; exact h
  | cons r rs ih =>
    unfold Station.bringAll at e
    split at e
    · cases e
    · next hb =>
      obtain ⟨q, hq, rfl⟩ := Option.map_eq_some_iff.1 e
      show q.1.spWf
      exact ih (spWf_bring h hb) hq

theorem optWf_makeResident {s : State} {l : Loc} {c n : Nat} (h : s.memWf) : optWf (s.makeResident l c n) := by
  unfold State.makeResident
  dsimp only
  cases hb : (s.st l).bringAll ((s.st l).sprigRegs (kindOf l) c n) ((s.st l).sprigRegs (kindOf l) c n) with
  | none => exact trivial
  | some p => exact memWf_charge (memWf_setSt (spWf_bringAll (spWf_st h) hb) h)

theorem memWf_chargeTiles {s : State} {l : Loc} {f : Frame} (h : s.memWf) : (s.chargeTiles l f).memWf := by
  unfold State.chargeTiles
  dsimp only
  refine memWf_foldl (fun _ _ w => ?_) h
  split
  · exact w
  · exact memWf_ite (memWf_charge w) (memWf_charge w)

theorem memWf_bringWhat {s : State} {l : Loc} {needs : List SlotReg} (h : s.memWf) : (s.bringWhat l needs).memWf := by
  refine memWf_foldl (fun _ _ w => ?_) h
  split
  · next e => exact memWf_charge (memWf_setSt (spWf_bring (spWf_st w) e) w)
  · exact w

theorem memWf_tilesRead {s : State} {l : Loc} {f : Frame} (h : s.memWf) : (s.tilesRead l f).after.memWf := memWf_arenaRead h

theorem memWf_stowArg {s : State} {l : Loc} (h : s.memWf) : (s.stowArg l).memWf := by
  unfold State.stowArg
  dsimp only
  split
  · split
    · exact h
    · exact memWf_ite (memWf_modInst (memWf_takeRows h)) (memWf_takeRows h)
  · split
    · exact h
    · split
      · exact memWf_modSt (fun _ w => spWf_modFiring w) (memWf_takeRows h)
      · exact memWf_takeRows h

theorem outWf_execFrameFire {s : State} (h : s.memWf) : outWf (execFrameFire s) := by
  unfold execFrameFire
  extract_lets l v
  split
  · exact h
  · split
    · exact memWf_ite h (memWf_stowArg h)
    · split
      · exact h
      · split
        · exact h
        · split
          · exact h
          · next t e =>
            have ht : t.memWf := memWf_of_some e (optWf_makeResident h)
            split
            · next e1 => exact ArenaGot.memWf_of_wait e1 (memWf_tilesRead ht)
            · next e1 => exact ArenaGot.memWf_of_gone e1 (memWf_tilesRead ht)
            · next e1 =>
              extract_lets s1 s2
              have hs1 : s1.memWf :=
                memWf_chargeTiles (memWf_modSt (fun _ w => w)
                    (ArenaGot.memWf_of_ok e1 (memWf_tilesRead ht)))
              have hs2 : s2.memWf := memWf_arenaDrop (memWf_startFiring (memWf_atStation hs1))
              exact memWf_freedEntry (memWf_ite (memWf_nullEnd hs2) hs2)

theorem outWf_execFrameResume {s : State} (h : s.memWf) : outWf (execFrameResume s) := by
  unfold execFrameResume
  dsimp only
  split
  · exact h
  · split
    · exact h
    · split
      · exact h
      · split
        · exact h
        · split
          · exact memWf_freedEntry (memWf_arenaDrop (memWf_nullEnd (memWf_atStation (memWf_modSt (fun _ w => w) h))))
          · split
            · exact h
            · next t e =>
              have ht : t.memWf := memWf_of_some e (optWf_makeResident h)
              split
              · split
                · exact h
                · split
                  · next e1 => exact ArenaGot.memWf_of_wait e1 (memWf_tilesRead ht)
                  · next e1 => exact ArenaGot.memWf_of_gone e1 (memWf_tilesRead ht)
                  · next e1 =>
                    exact memWf_freedEntry (memWf_restartFiring (memWf_atStation (memWf_chargeTiles (memWf_modSt
                        (fun _ w => w) (ArenaGot.memWf_of_ok e1 (memWf_tilesRead ht))))))
              · dsimp only [outWf]
                split
                · exact memWf_modSt (fun _ w => w) ht
                · exact memWf_freedEntry (memWf_modSt (fun _ w => w) ht)

theorem memWf_setPrio {s : State} {id p : Nat} (h : s.memWf) : (s.setPrio id p).memWf := by
  unfold State.setPrio
  split
  · exact h
  · exact memWf_modInst (memWf_foldl (fun _ _ w => memWf_modSt (fun _ w1 => spWf_ite (spWf_modCtx w1) w1) w) h)

theorem memWf_noteRoot {s : State} {id : Nat} {l : List Nat} (h : s.memWf) : (s.noteRoot id l).memWf := by
  unfold State.noteRoot
  split
  · exact h
  · exact memWf_modRoot h

theorem memWf_commitFiring {s : State} {f : Firing} (h : s.memWf) : (s.commitFiring f).memWf := by
  unfold State.commitFiring
  extract_lets s1 s2 die t s3 s4
  have hs1 : s1.memWf := memWf_modFab (fun _ w => w) h
  have hs2 : s2.memWf := by
    dsimp only [s2]
    split
    · exact memWf_setPrio hs1
    · exact hs1
  have ht : t.2.memWf := memWf_tickEng hs2
  have hs3 : s3.memWf := memWf_modInst ht
  have hs4 : s4.memWf := memWf_settle (memWf_arenaDrop (memWf_noteRoot hs3))
  split
  · exact memWf_settleCaller hs4
  · exact hs4

theorem outWf_execFiringCommit {s : State} (h : s.memWf) : outWf (execFiringCommit s) := by
  unfold execFiringCommit
  dsimp only
  split
  · exact h
  · split
    · exact memWf_commitFiring (memWf_charge (memWf_modSt (fun _ w => w) h))
    · exact h

theorem outWf_execEntryReturn {s : State} (h : s.memWf) : outWf (execEntryReturn s) := by
  unfold execEntryReturn
  dsimp only
  split
  · exact h
  · exact memWf_landToken h

theorem outWf_execLoopCredit {s : State} (h : s.memWf) : outWf (execLoopCredit s) := by
  unfold execLoopCredit
  split
  · exact h
  · dsimp only
    split
    · exact memWf_modFab (fun _ w => w) h
    · exact memWf_saveMsg (memWf_modFab (fun _ w => w) h)
    · exact memWf_modSt (fun _ w => spWf_modCtx w) (memWf_modFab (fun _ w => w) h)

theorem memWf_notifyJoiner {s : State} {id rank fid : Nat} {before : List Nat} (h : s.memWf) :
    (s.notifyJoiner id rank fid before).memWf := memWf_modInst (memWf_modFab (fun _ w => spWf_map (fun _ w1 => w1) w) h)

theorem memWf_joinAt {s : State} {id : Nat} {l : Loc} {c b n : Nat} {j : Joiner} (h : s.memWf) :
    (s.joinAt id l c b n j).memWf := by
  unfold State.joinAt
  extract_lets w goal js put all
  split
  · exact memWf_foldl (fun _ _ w1 => memWf_notifyJoiner w1) (memWf_modSt (fun _ w1 => spWf_modCtx w1) h)
  · exact memWf_modSt (fun _ w1 => spWf_modCtx w1) h

theorem outWf_execBarrierJoin {s : State} (h : s.memWf) : outWf (execBarrierJoin s) := by
  unfold execBarrierJoin
  split
  · exact h
  · split
    · exact h
    · dsimp only
      split
      · exact memWf_modFab (fun _ w => w) h
      · exact memWf_saveMsg (memWf_modFab (fun _ w => w) h)
      · exact memWf_joinAt (memWf_modFab (fun _ w => w) h)

theorem outWf_execSinkWrite {s : State} (h : s.memWf) : outWf (execSinkWrite s) := by
  unfold execSinkWrite
  split
  · exact h
  · dsimp only
    split
    · exact h
    · dsimp only [outWf]
      refine memWf_settle ?_
      split
      · exact memWf_modRoot (memWf_modFab (fun _ w => w) h)
      · exact memWf_modInst (memWf_modFab (fun _ w => w) h)

/-! ### Requests to a Pricking engine -/

theorem memWf_arenaPages {s : State} {d : Fin 2} {vf bytes : Nat} {l : List Nat} (h : s.memWf) :
    (s.arenaPages d vf bytes l).after.memWf := by
  induction l generalizing s d vf bytes with
  | nil =>
    unfold State.arenaPages
    exact h
  | cons a l ih =>
    unfold State.arenaPages
    split
    · next e => exact ih (memWf_modMm (fun _ w => w) (UOut.memWf_of_ok e (memWf_arenaPage h)))
    · next e => exact UOut.memWf_of_wait e (memWf_arenaPage h)
    · next e => exact UOut.memWf_of_fail e (memWf_arenaPage h)

theorem memWf_saveRoom {s : State} {d : Fin 2} {vf n : Nat} (h : s.memWf) : (s.saveRoom d vf n).after.memWf := by
  unfold State.saveRoom
  split
  · split
    · next e => exact Got.memWf_of_ok e (memWf_arenaPages h)
    · next e => exact Got.memWf_of_wait e (memWf_arenaPages h)
    · next e => exact Got.memWf_of_fail e (memWf_arenaPages h)
  · exact h

theorem memWf_dropRequest {s : State} {n : Nat} (h : s.memWf) : (s.dropRequest n).memWf := memWf_modFab (fun _ w => w) h

theorem memWf_callRoom {s : State} {d : Fin 2} {id : Nat} (h : s.memWf) : (s.callRoom d id).after.memWf := by
  unfold State.callRoom
  split
  · exact h
  · split
    · exact memWf_saveRoom h
    · exact h

theorem memWf_callFull {s : State} {n : Nat} {q : EngReq} (h : s.memWf) : (s.callFull n q).memWf :=
  memWf_ite h (memWf_engineFault (memWf_modFab (fun _ w => w) h))

theorem outWf_execCallRequest {s : State} (h : s.memWf) : outWf (execCallRequest s) := by
  unfold execCallRequest
  dsimp only
  split
  · exact h
  · split
    · exact h
    · split
      · next e => exact Got.memWf_of_wait e (memWf_callRoom h)
      · next e => exact memWf_callFull (Got.memWf_of_fail e (memWf_callRoom h))
      · next e => exact memWf_modEng (memWf_dropRequest (Got.memWf_of_ok e (memWf_callRoom h)))

theorem memWf_queueLaunch {s : State} {id : Nat} {dies : List (Fin 2)} (h : s.memWf) : (s.queueLaunch id dies).memWf :=
  memWf_foldl (fun _ _ w => memWf_modEng w) h

theorem memWf_launchRoom {s : State} {d : Fin 2} {vf : Nat} {dies : List (Fin 2)} (h : s.memWf) :
    (s.launchRoom d vf dies).after.memWf := by
  unfold State.launchRoom
  dsimp only
  split
  · exact memWf_saveRoom h
  · exact h

theorem memWf_spawnOne {s : State} {i : Inst} {q : SpawnReq} {before : List Nat} {x : BitVec 64} (h : s.memWf) :
    (s.spawnOne i q before x).memWf := by
  unfold State.spawnOne
  dsimp only
  split
  · exact memWf_newId h
  · exact memWf_sampleInst (memWf_queueLaunch (memWf_modRoot (memWf_addInst (memWf_newUid (memWf_newId h)))))

theorem memWf_spawnImage {s : State} {d : Fin 2} {vf idx : Nat} (h : s.memWf) : (s.spawnImage d vf idx).after.memWf := by
  unfold State.spawnImage
  split
  · next e => exact Got.memWf_of_ok e (memWf_needImage h)
  · next e => exact Got.memWf_of_wait e (memWf_needImage h)
  · next e =>
    split <;> exact Got.memWf_of_fail e (memWf_needImage h)

theorem memWf_spawnFrom {s : State} {n : Nat} {i : Inst} {q : SpawnReq} {before : List Nat} {l : List (BitVec 64)}
    (h : s.memWf) : (s.spawnFrom n i q before l).memWf := by
  induction l generalizing s with
  | nil =>
    unfold State.spawnFrom
    exact memWf_settle (memWf_dropRequest h)
  | cons a l ih =>
    unfold State.spawnFrom
    dsimp only
    split
    · next e => exact Got.memWf_of_wait e (memWf_spawnImage h)
    · next e => exact ih (memWf_modFab (fun _ w => w) (memWf_engineFault (Got.memWf_of_fail e (memWf_spawnImage h))))
    · next t e =>
      have ht : t.memWf := Got.memWf_of_ok e (memWf_spawnImage h)
      split
      · next e1 => exact Got.memWf_of_wait e1 (memWf_launchRoom ht)
      · next e1 => exact ih (memWf_modFab (fun _ w => w) (memWf_engineFault (Got.memWf_of_fail e1 (memWf_launchRoom ht))))
      · next e1 => exact ih (memWf_modFab (fun _ w => w) (memWf_spawnOne (Got.memWf_of_ok e1 (memWf_launchRoom ht))))

theorem outWf_execSpawnRequest {s : State} (h : s.memWf) : outWf (execSpawnRequest s) := by
  unfold execSpawnRequest
  dsimp only
  split
  · exact h
  · split
    · split
      · exact h
      · exact memWf_spawnFrom h
    · exact h

/-! ### Placements -/

theorem memWf_takeUp {s : State} {d : Fin 2} {id : Nat} (h : s.memWf) : (s.takeUp d id).memWf := memWf_modEng h

theorem memWf_failPlacing {s : State} {d : Fin 2} {i : Inst} {code arg : Nat} (h : s.memWf) :
    (s.failPlacing d i code arg).memWf := memWf_modEng (memWf_modInst (memWf_takeUp h))

theorem memWf_noRoom {s : State} {d : Fin 2} {i : Inst} (h : s.memWf) : (s.noRoom d i).memWf := memWf_modEng (memWf_takeUp h)

theorem memWf_loadSta {s : State} {i : Inst} {m : Image} {p : Plan} {x : Loc × StaRec} (h : s.memWf) :
    (s.loadSta i m p x).memWf := memWf_modSt (fun _ w => w) h

theorem memWf_loadStas {s : State} {i : Inst} {m : Image} {p : Plan} {l : List (Loc × StaRec)} (h : s.memWf) :
    (s.loadStas i m p l).memWf := by
  induction l generalizing s with
  | nil =>
    unfold State.loadStas
    exact h
  | cons a l ih =>
    unfold State.loadStas
    exact ih (memWf_loadSta h)

theorem memWf_loadPlacing {s : State} {d : Fin 2} {i : Inst} {m : Image} {p : Plan} (h : s.memWf) :
    (s.loadPlacing d i m p).memWf := memWf_modEng (memWf_modInst (memWf_loadStas (memWf_takeUp h)))

theorem memWf_readPages {s : State} {d : Fin 2} {vf bytes : Nat} {l : List Nat} (h : s.memWf) :
    (s.readPages d vf bytes l).after.memWf := by
  induction l generalizing s d vf bytes with
  | nil =>
    unfold State.readPages
    exact h
  | cons a l ih =>
    unfold State.readPages
    split
    · next e => exact UOut.memWf_of_wait e (memWf_unitAccess h)
    · next e => exact memWf_fetchFail (UOut.memWf_of_fail e (memWf_unitAccess h))
    · next t e =>
      have ht : t.memWf := UOut.memWf_of_ok e (memWf_unitAccess h)
      split
      · exact ht
      · exact ih ht

theorem memWf_imageFor {s : State} {d : Fin 2} {i : Inst} (h : s.memWf) : (s.imageFor d i).after.memWf := by
  unfold State.imageFor
  split
  · split
    · next e => exact Got.memWf_of_ok e (memWf_readPages h)
    · next e => exact Got.memWf_of_wait e (memWf_readPages h)
    · next e => exact Got.memWf_of_fail e (memWf_readPages h)
  · exact memWf_needImage h

theorem outWf_execPlacementStart {s : State} (h : s.memWf) : outWf (execPlacementStart s) := by
  unfold execPlacementStart
  dsimp only
  split
  · exact h
  · split
    · exact h
    · split
      · next e => exact Got.memWf_of_wait e (memWf_imageFor h)
      · next t e =>
        have ht : t.memWf := Got.memWf_of_fail e (memWf_imageFor h)
        dsimp only [outWf]
        split
        · exact memWf_poisonRead ht
        · exact memWf_failPlacing ht
      · next t e =>
        have ht : t.memWf := Got.memWf_of_ok e (memWf_imageFor h)
        split
        · exact memWf_failPlacing ht
        · split
          · exact memWf_failPlacing ht
          · split
            · exact memWf_noRoom ht
            · exact memWf_loadPlacing ht

theorem memWf_rangesFrom {s : State} {d : Fin 2} {vf base n : Nat} (h : s.memWf) : (s.rangesFrom d vf base n).after.memWf := by
  induction n generalizing s with
  | zero =>
    unfold State.rangesFrom
    exact h
  | succ n ih =>
    unfold State.rangesFrom
    dsimp only
    split
    · next e => exact UOut.memWf_of_wait e (memWf_unitAccess h)
    · next t e =>
      have ht : t.memWf := UOut.memWf_of_fail e (memWf_unitAccess h)
      split
      · exact ht
      · split
        · next e1 => exact Got.memWf_of_ok e1 (ih ht)
        · next e1 => exact Got.memWf_of_wait e1 (ih ht)
        · next e1 => exact Got.memWf_of_fail e1 (ih ht)
    · next t e =>
      have ht : t.memWf := UOut.memWf_of_ok e (memWf_unitAccess h)
      split
      · exact ht
      · split
        · next e1 => exact Got.memWf_of_ok e1 (ih (memWf_homeRead ht))
        · next e1 => exact Got.memWf_of_wait e1 (ih (memWf_homeRead ht))
        · next e1 => exact Got.memWf_of_fail e1 (ih (memWf_homeRead ht))

theorem memWf_rangeTable {s : State} {d : Fin 2} {vf : Nat} (h : s.memWf) : (s.rangeTable d vf).after.memWf := by
  unfold State.rangeTable
  split
  · exact h
  · exact memWf_rangesFrom h

theorem memWf_deliverEdge {s : State} {i : Inst} {f : Flight} (h : s.memWf) : (s.deliverEdge i f).memWf := by
  unfold State.deliverEdge
  split
  · exact memWf_settle (memWf_staleToken h)
  · exact memWf_ite (memWf_saveToken h) (memWf_arrive h)

theorem memWf_replaceTiles {s : State} {l : Loc} {c id : Nat} {f : Frame} (h : s.memWf) :
    (s.replaceTiles l c id f).2.memWf := by
  unfold State.replaceTiles
  refine memWf_foldl_snd (fun _ _ w => ?_) h
  dsimp only
  split
  · exact w
  · split
    · exact w
    · split <;> exact memWf_tilePlace w

theorem memWf_replaceFrame {s : State} {l : Loc} {c id : Nat} {f : Frame} (h : s.memWf) :
    (s.replaceFrame l c id f).2.memWf := by
  unfold State.replaceFrame
  dsimp only
  split
  · exact memWf_replaceTiles h
  · exact memWf_newPlace (memWf_replaceTiles h)

theorem memWf_restoreFrames {s : State} {l : Loc} {c id : Nat} {fs : List Frame} (h : s.memWf) :
    (s.restoreFrames l c id fs).memWf := by
  unfold State.restoreFrames
  refine memWf_foldl (fun _ _ w => ?_) h
  dsimp only
  split
  · exact memWf_modSt (fun _ w1 => w1) (memWf_replaceFrame w)
  · exact memWf_replaceFrame w

theorem memWf_restoreParked {s : State} {l : Loc} {c id : Nat} {x : Ctx} {fs : List Firing} (h : s.memWf) :
    (s.restoreParked l c id x fs).memWf := by
  unfold State.restoreParked
  refine memWf_foldl (fun _ _ w => ?_) h
  dsimp only
  split
  · exact memWf_modSt (fun _ w1 => w1) (memWf_replaceFrame w)
  · exact memWf_replaceFrame w

theorem memWf_restoreSta {s : State} {i : Inst} {q : SavedStation} (h : s.memWf) : (s.restoreSta i q).memWf :=
  memWf_bringWhat (memWf_modSt (fun _ w => w)
      (memWf_restoreParked (memWf_restoreFrames (memWf_modSt (fun _ w => spWf_modCtx w) h))))

theorem memWf_moveUnits {s : State} {old new : Inst} (h : s.memWf) : (s.moveUnits old new).memWf :=
  memWf_modVf (memWf_modMm (fun _ w => w) h)

theorem memWf_applyMsg {s : State} {i : Inst} {m : SavedMsg} (h : s.memWf) : (s.applyMsg i m).memWf := by
  unfold State.applyMsg
  split
  · exact memWf_modSt (fun _ w => spWf_modCtx w) h
  · exact memWf_joinAt h

theorem memWf_restoreInst {s : State} {old new : Inst} (h : s.memWf) : (s.restoreInst old new).memWf := by
  unfold State.restoreInst
  split
  · exact h
  · exact memWf_foldl (fun _ _ w => memWf_applyMsg w) (memWf_foldl (fun _ _ w => memWf_deliverEdge w) (memWf_foldl
        (fun _ _ w => memWf_restoreSta w) (memWf_moveUnits (memWf_charge h))))

theorem spWf_lease {v : Station} {vf : Nat} (h : v.spWf) : (v.lease vf).spWf := spWf_ite h rfl

theorem spWf_commitSlot {v : Station} {c vf : Nat} (h : v.spWf) : (v.commitSlot c vf).spWf := by
  unfold Station.commitSlot
  split
  · exact h
  · exact spWf_ite (spWf_lease h) h

theorem memWf_commitPlacing {s : State} {d : Fin 2} {p : Placement} {i : Inst} {m : Image} {rs : List Range} (h : s.memWf) :
    (s.commitPlacing d p i m rs).memWf :=
  memWf_sweepFences (memWf_sampleInst
      (memWf_modInst (memWf_restoreInst
      (memWf_modMm (fun _ w => w)
      (memWf_modEng (memWf_modInst (memWf_foldl (fun _ _ w => memWf_modSt (fun _ w1 => spWf_commitSlot w1) w) h)))))))

theorem outWf_execPlacementCommit {s : State} (h : s.memWf) : outWf (execPlacementCommit s) := by
  unfold execPlacementCommit
  dsimp only
  split
  · exact h
  · split
    · exact h
    · split
      · exact h
      · split
        · exact h
        · split
          · next e => exact Got.memWf_of_wait e (memWf_rangeTable h)
          · next e => exact memWf_poisonRead (Got.memWf_of_fail e (memWf_rangeTable h))
          · next e => exact memWf_commitPlacing (Got.memWf_of_ok e (memWf_rangeTable h))

theorem memWf_releaseHeld {s : State} {i : Inst} {q : Nat × Flight} (h : s.memWf) : (s.releaseHeld i q).memWf :=
  memWf_ite (memWf_launchTok h) (memWf_deliverEdge h)

theorem memWf_releaseInj {s : State} {i : Inst} {q : Nat × Flight} (h : s.memWf) : (s.releaseInj i q).memWf :=
  memWf_ite (memWf_launchTok h) (memWf_staleToken h)

theorem memWf_releaseFirst {s : State} {i : Inst} (h : s.memWf) : (s.releaseFirst i).memWf := by
  unfold State.releaseFirst
  split
  · exact h
  · exact memWf_launchTok (memWf_modInst h)

theorem outWf_execCommitAcknowledged {s : State} (h : s.memWf) : outWf (execCommitAcknowledged s) := by
  unfold execCommitAcknowledged
  dsimp only
  split
  · exact h
  · split
    · exact h
    · split
      · exact memWf_modEng h
      · exact memWf_settle (memWf_releaseFirst (memWf_foldl (fun _ _ w => memWf_releaseInj w) (memWf_foldl
            (fun _ _ w => memWf_releaseHeld w) (memWf_modRoot (memWf_modInst (memWf_modEng h))))))

theorem memWf_backToQueue {s : State} {d : Fin 2} {i : Inst} {relink : Bool} (h : s.memWf) : (s.backToQueue d i relink).memWf :=
  memWf_modEng (memWf_modInst h)

theorem memWf_dropDiverted {s : State} {i : Inst} (h : s.memWf) : (s.dropDiverted i).memWf :=
  memWf_foldl (fun _ _ w => memWf_staleToken w) h

theorem memWf_refuse {s : State} {i : Inst} {code arg : Nat} (h : s.memWf) : (s.refuse i code arg).memWf := by
  unfold State.refuse
  dsimp only
  split
  · exact memWf_settle (memWf_same (memWf_modInst (memWf_nullResults (memWf_dropEntries (memWf_dropDiverted
        (memWf_engineFault h))))))
  · exact memWf_same (memWf_lowerLineage (memWf_modRoot (memWf_dropEntries (memWf_dropDiverted (memWf_engineFault h)))))
  · exact memWf_same (memWf_lowerLineage (memWf_dropEntries (memWf_dropDiverted (memWf_engineFault h))))

theorem memWf_abortPlacing {s : State} {d : Fin 2} {p : Placement} {i : Inst} {code : Nat} (h : s.memWf) :
    (s.abortPlacing d p i code).memWf := by
  unfold State.abortPlacing
  extract_lets s1
  have hs1 : s1.memWf := memWf_sampleInst (memWf_dropShadow (memWf_modEng h))
  split
  · exact memWf_backToQueue hs1
  · exact memWf_ite (memWf_modInst (memWf_engineFault hs1)) (memWf_refuse hs1)

theorem outWf_execPlacementAbort {s : State} (h : s.memWf) : outWf (execPlacementAbort s) := by
  unfold execPlacementAbort
  dsimp only
  split
  · exact h
  · split
    · split
      · exact memWf_abortPlacing h
      · exact h
    · exact h

/-! ### Accesses of the fabric -/

theorem spWf_fill {v : Station} {g : Nat} (h : v.spWf) : (v.fill g).spWf := h

theorem spWf_empty {v : Station} {g : Nat} (h : v.spWf) : (v.empty g).spWf := h

theorem spWf_spWrite {v : Station} {a n x : Nat} (h : v.spWf) : (v.spWrite a n x).spWf := Mem.write_wf _ _ _ h

theorem spWf_spWriteMod {v : Station} {a n x : Nat} (h : v.spWf) : (v.spWriteMod a n x).spWf :=
  spWf_ite (spWf_spWrite (spWf_spWrite h)) (spWf_spWrite h)

theorem memWf_lsidNow {s : State} {n : Nat} (h : s.memWf) : (s.lsidNow n).memWf := memWf_modFir h

theorem memWf_ownAcc {s : State} {uid : Nat} {load : Bool} (h : s.memWf) : (s.ownAcc uid load).memWf := memWf_modFir h

theorem memWf_issueAcc {s : State} {a : Access} (h : s.memWf) : (s.issueAcc a).memWf :=
  memWf_ownAcc (memWf_modMm (fun _ w => w) (memWf_newUid h))

theorem memWf_pend {s : State} {d : Fin 8} {uid : Nat} (h : s.memWf) : (s.pend d uid).memWf := memWf_modFir h

theorem memWf_stallOn {s : State} {uid : Nat} (h : s.memWf) : (s.stallOn uid).memWf := memWf_modFir h

theorem memWf_onFiring {s : State} {l : Loc} {id fid : Nat} {f : Firing → Firing} (h : s.memWf) :
    (s.onFiring l id fid f).memWf := memWf_modInst (memWf_modSt (fun _ w => w) h)

theorem memWf_parkAside {s : State} {l : Loc} {f : Firing} {p : Park} (h : s.memWf) : (s.parkAside l f p).memWf := by
  unfold State.parkAside
  dsimp only
  split <;> exact memWf_modSt (fun _ w => w) (memWf_overflowPlace h)

theorem memWf_parkIf {s : State} {l : Loc} {fid : Nat} {p : Park} (h : s.memWf) : (s.parkIf l fid p).memWf := by
  unfold State.parkIf
  split
  · exact memWf_parkFiring h
  · split
    · exact memWf_parkAside h
    · exact h

theorem memWf_modAcc {s : State} {uid : Nat} {f : Access → Access} (h : s.memWf) : (s.modAcc uid f).memWf :=
  memWf_modMm (fun _ w => w) h

theorem memWf_dropAcc {s : State} {uid : Nat} (h : s.memWf) : (s.dropAcc uid).memWf := memWf_modMm (fun _ w => w) h

theorem memWf_onStrand {s : State} {id : Nat} {l : Loc} {r : Nat} {f : Strand → Strand} (h : s.memWf) :
    (s.onStrand id l r f).memWf := memWf_ite (memWf_modSt (fun _ w => spWf_modStrand w) h) (memWf_modInst h)

theorem memWf_rowsBack {s : State} {a : Access} (h : s.memWf) : (s.rowsBack a).memWf := by
  unfold State.rowsBack
  split
  · exact memWf_ite (memWf_modSt (fun _ w => spWf_modCtx w) h) h
  · exact h

theorem memWf_portFault {s : State} {a : Access} {code va addr2 : Nat} (h : s.memWf) : (s.portFault a code va addr2).memWf := by
  unfold State.portFault
  split
  · exact memWf_dropAcc h
  · split
    · exact memWf_modAcc h
    · extract_lets info ordered res t s1
      have ht : t.2.memWf := by
        dsimp only [t]
        split
        · exact memWf_reportHost h
        · exact memWf_report h
      have hs1 : s1.memWf := memWf_modAcc (memWf_rowsBack ht)
      clear_value s1 t res ordered
      split
      · exact memWf_dropAcc ht
      · split
        · exact memWf_onStrand hs1
        · split
          · exact hs1
          · exact memWf_parkIf hs1

theorem memWf_poisonKill {s : State} {a : Access} {va pa : Nat} (h : s.memWf) : (s.poisonKill a va pa).memWf :=
  memWf_poisonInst (memWf_dropAcc h)

theorem memWf_homeWrite {s : State} {a : Access} {pa k v : Nat} (h : s.memWf) : (s.homeWrite a pa k v).memWf :=
  memWf_modAcc (memWf_serveWrite h)

theorem memWf_served {s : State} {uid k : Nat} (h : s.memWf) : (s.served uid k).memWf := memWf_modAcc h

theorem memWf_serveAmo {s : State} {a : Access} {pa : Nat} {op : AmoOp} {v : Double} (h : s.memWf) :
    (s.serveAmo a pa op v).memWf := by
  unfold State.serveAmo
  dsimp only
  refine memWf_served (memWf_modAcc (memWf_freshRdc ?_))
  split
  · split
    · exact memWf_homeWrite (memWf_homeRead h)
    · exact memWf_modMm (fun _ w => w) (memWf_homeWrite (memWf_homeRead h))
  · exact memWf_homeRead h

theorem memWf_serveSync {s : State} {a : Access} {pa : Nat} {clear : Bool} (h : s.memWf) : (s.serveSync a pa clear).memWf := by
  unfold State.serveSync
  split
  · exact memWf_served (memWf_modAcc (memWf_ite (memWf_feSet (memWf_homeRead h)) (memWf_freshRdc (memWf_homeRead h))))
  · exact memWf_parkIf (memWf_modAcc h)

theorem memWf_serveStoreF {s : State} {a : Access} {pa v : Nat} (h : s.memWf) : (s.serveStoreF a pa v).memWf := by
  unfold State.serveStoreF
  dsimp only
  refine memWf_served ?_
  split
  · exact memWf_modMm (fun _ w => w) (memWf_feSet (memWf_homeWrite h))
  · exact memWf_feSet (memWf_homeWrite h)

theorem memWf_clearFe {s : State} {vf pa k : Nat} (h : s.memWf) : (s.clearFe vf pa k).memWf :=
  memWf_dropRdc (memWf_foldl (fun _ _ w => memWf_feSet w) h)

theorem memWf_elemDone {s : State} {l : Loc} {r : Nat} {d : StrandDef} {uid : Nat} (h : s.memWf) :
    (s.elemDone l r d uid).memWf := memWf_modSt (fun _ w => spWf_modStrand w) h

theorem memWf_serveScadd {s : State} {a : Access} {pa r i : Nat} {t : ScType} {d : StrandDef} {v : Double} (h : s.memWf) :
    (s.serveScadd a pa r i t d v).memWf := by
  unfold State.serveScadd
  split
  · exact memWf_elemDone (memWf_served (memWf_modAcc (memWf_modMm (fun _ w => w) h)))
  · exact h

theorem memWf_prefetchFill {s : State} {a : Access} {pa k : Nat} (h : s.memWf) : (s.prefetchFill a pa k).memWf :=
  memWf_foldl (fun _ _ w => memWf_ite (memWf_fillRdc (memWf_fillL2 w)) (memWf_fillL2 w)) h

theorem memWf_serveAt {s : State} {a : Access} {pa perm : Nat} (h : s.memWf) : (s.serveAt a pa perm).memWf := by
  unfold State.serveAt
  dsimp only
  split
  · exact memWf_portFault h
  · split
    · exact memWf_portFault h
    · split
      · exact memWf_modAcc h
      · split
        · exact memWf_poisonKill h
        · split
          · exact memWf_served (memWf_modAcc (memWf_serveRead h))
          · exact memWf_served (memWf_modAcc (memWf_serveRead h))
          · exact memWf_served (memWf_modAcc (memWf_serveRead h))
          · exact memWf_served (memWf_homeWrite h)
          · exact memWf_served (memWf_homeWrite h)
          · split
            · exact memWf_served (memWf_homeWrite h)
            · exact memWf_elemDone (memWf_served (memWf_homeWrite h))
          · exact memWf_serveSync h
          · exact memWf_serveStoreF h
          · exact memWf_served (memWf_modAcc (memWf_clearFe h))
          · exact memWf_served (memWf_modAcc (memWf_fillL2 h))
          · exact memWf_serveAmo h
          · exact memWf_serveScadd h
          · split
            · exact memWf_served (memWf_prefetchFill h)
            · exact memWf_dropAcc (memWf_prefetchFill h)
          · exact h
          · exact h

theorem memWf_accMiss {s : State} {a : Access} {inWalk : Bool} {ia : Nat} (h : s.memWf) : (s.accMiss a inWalk ia).memWf := by
  unfold State.accMiss
  split
  · exact memWf_dropAcc h
  · dsimp only
    split
    · split <;> exact memWf_modAcc (memWf_rowsBack (memWf_pageRequest h))
    · refine memWf_parkIf ?_
      split <;> exact memWf_modAcc (memWf_rowsBack (memWf_pageRequest h))

theorem memWf_accOut {s : State} {a : Access} {o : TOut} (h : s.memWf) : (s.accOut a o).memWf := by
  unfold State.accOut
  split
  · exact memWf_ite (memWf_modAcc h) h
  · exact memWf_serveAt h
  · exact memWf_portFault h
  · exact memWf_accMiss h
  · exact memWf_poisonKill h

theorem spWf_deliverSp {v : Station} {d : StrandDef} {i x : Nat} (h : v.spWf) : (v.deliverSp d i x).spWf :=
  spWf_foldl (fun _ _ w => spWf_fill w) (spWf_spWriteMod h)

theorem spWf_wakeElement {v : Station} {c r n : Nat} (h : v.spWf) : (v.wakeElement c r n).spWf := h

theorem memWf_deliverElem {s : State} {a : Access} {i : Nat} {d : StrandDef} (h : s.memWf) : (s.deliverElem a i d).memWf := by
  unfold State.deliverElem
  split
  · exact memWf_modSt (fun _ w => spWf_deliverSp w) h
  · exact memWf_modSt (fun _ w => spWf_modCtx w) h
  · exact memWf_lateSend h

theorem memWf_elemBack {s : State} {a : Access} {r i : Nat} {d : StrandDef} (h : s.memWf) : (s.elemBack a r i d).memWf := by
  unfold State.elemBack
  split
  · exact h
  · exact memWf_modSt (fun _ w => spWf_wakeElement w) (memWf_elemDone (memWf_deliverElem h))

theorem memWf_lsidsBack {s : State} {a : Access} (h : s.memWf) : (s.lsidsBack a).memWf :=
  memWf_foldl (fun _ _ w => memWf_onFiring w) h

theorem memWf_accBack {s0 : State} {a : Access} (h : s0.memWf) : (s0.accBack a).memWf := by
  unfold State.accBack
  extract_lets s val
  have hs : s.memWf := memWf_onFiring h
  have hval : ∀ (st : State), st.memWf → (val st).memWf := fun _ w => memWf_onFiring w
  split
  · exact hval _ hs
  · exact hval _ hs
  · exact hval _ hs
  · exact hval _ (memWf_lsidsBack hs)
  · exact memWf_lsidsBack hs
  · exact memWf_lsidsBack hs
  · exact memWf_lsidsBack hs
  · exact memWf_rowsBack hs
  · exact memWf_elemBack hs
  · exact memWf_ite hs (memWf_lsidsBack hs)
  · exact memWf_lsidsBack hs
  · exact hs
  · exact hs
  · exact hs
  · exact hs

theorem memWf_accReturned {s : State} {a : Access} (h : s.memWf) : (s.accReturned a).memWf :=
  memWf_ite (memWf_modAcc h) (memWf_dropAcc h)

theorem memWf_modCopy {s : State} {uid : Nat} {f : Copy → Copy} (h : s.memWf) : (s.modCopy uid f).memWf :=
  memWf_modMm (fun _ w => w) h

theorem memWf_copyFault {s : State} {c : Copy} {code va addr2 : Nat} (h : s.memWf) : (s.copyFault c code va addr2).memWf := by
  unfold State.copyFault
  extract_lets g f t
  have ht : t.2.memWf := by
    dsimp only [t]
    split
    · exact memWf_reportHost h
    · exact memWf_report h
  exact memWf_ite (memWf_modCopy ht) (memWf_modMm (fun _ w => w) ht)

/-! ### The vector class -/

theorem outWf_mismatch {s : State} (h : s.memWf) : outWf s.mismatch := memWf_trapIns h

theorem memWf_setTile {s : State} {d : Fin 16} {t : Tile} (h : s.memWf) : (s.setTile d t).memWf := memWf_modCx h

theorem memWf_vecOut {s : State} {d : Fin 16} {shape : Tile} {rm : Rm} {f : Nat → Nat → Num} (h : s.memWf) :
    (s.vecOut d shape rm f).memWf := memWf_modCx h

theorem outWf_vec2 {s : State} {d a b : Fin 16} {rm : Rm} {f : Num → Num → Num} (h : s.memWf) : outWf (s.vec2 d a b rm f) := by
  unfold State.vec2
  dsimp only
  split
  · exact outWf_mismatch h
  · exact memWf_adv (memWf_vecOut h)

/-- The body of VSUB stands unfolded once: the unifier does not find the operation by itself. -/
theorem outWf_execVsub {d a b : Fin 16} {r : Rm} {s : State} (h : s.memWf) : outWf (execVsub d a b r s) := by
  unfold execVsub
  exact outWf_vec2 h

theorem outWf_vec1 {s : State} {d a : Fin 16} {rm : Rm} {f : Num → Num} (h : s.memWf) : outWf (s.vec1 d a rm f) :=
  memWf_adv (memWf_vecOut h)

theorem outWf_execVfma {d a b : Fin 16} {r : Rm} {s : State} (h : s.memWf) : outWf (execVfma d a b r s) := by
  unfold execVfma
  dsimp only
  split
  · exact outWf_mismatch h
  · exact memWf_adv (memWf_vecOut h)

theorem outWf_execVcvt {d a b : Fin 16} {f : BitVec 6} {r : Rm} {s : State} (h : s.memWf) : outWf (execVcvt d a b f r s) := by
  unfold execVcvt
  dsimp only
  split
  · exact outWf_mismatch h
  · exact outWf_claiming h (fun _ w => memWf_adv (memWf_ite (memWf_emitTok (memWf_modCx w)) (memWf_modCx w)))

theorem memWf_vsclInPlace {s : State} {d : Fin 16} {x z : Tile} {k : Nat} {r : Rm} (h : s.memWf) :
    (s.vsclInPlace d x z k r).memWf := memWf_modCx h

theorem outWf_execVscl {d a b k : Fin 16} {r : Rm} {s : State} (h : s.memWf) : outWf (execVscl d a b k r s) := by
  unfold execVscl
  dsimp only
  split
  · exact outWf_mismatch h
  · split
    · exact memWf_adv (memWf_vsclInPlace h)
    · exact memWf_adv (memWf_vecOut h)

theorem outWf_execVreds {d : Fin 8} {a b : Fin 16} {s : State} (h : s.memWf) : outWf (execVreds d a b s) := by
  unfold execVreds
  dsimp only
  split
  · exact outWf_mismatch h
  · exact memWf_adv (memWf_wr h)

theorem outWf_execVredx {d : Fin 8} {a b : Fin 16} {s : State} (h : s.memWf) : outWf (execVredx d a b s) := by
  unfold execVredx
  dsimp only
  split
  · exact outWf_mismatch h
  · split
    · exact memWf_adv (memWf_wr h)
    · split <;> exact memWf_adv (memWf_wr h)

theorem outWf_execVdot {d : Fin 8} {a b r : Fin 16} {s : State} (h : s.memWf) : outWf (execVdot d a b r s) := by
  unfold execVdot
  dsimp only
  split
  · exact outWf_mismatch h
  · exact memWf_adv (memWf_wr h)

theorem outWf_execVcmp {d a b : Fin 16} {p : Pred} {s : State} (h : s.memWf) : outWf (execVcmp d a b p s) := by
  unfold execVcmp
  dsimp only
  split
  · exact outWf_mismatch h
  · exact memWf_adv (memWf_setTile h)

theorem outWf_execVsel {d a b m : Fin 16} {s : State} (h : s.memWf) : outWf (execVsel d a b m s) := by
  unfold execVsel
  dsimp only
  split
  · exact outWf_mismatch h
  · exact memWf_adv (memWf_setTile h)

theorem outWf_execVext {d : Fin 8} {a b : Fin 16} {c : BitVec 12} {s : State} (h : s.memWf) : outWf (execVext d a b c s) := by
  unfold execVext
  dsimp only
  split
  · exact outWf_mismatch h
  · exact memWf_adv (memWf_wr h)

theorem outWf_execVshf {d a b : Fin 16} {s : State} (h : s.memWf) : outWf (execVshf d a b s) := by
  unfold execVshf
  dsimp only
  split
  · exact outWf_mismatch h
  · exact memWf_adv (memWf_setTile h)

/-! ### The matrix class and unit -/

theorem memWf_enqueueE {s : State} {e : MatEntry} (h : s.memWf) : (s.enqueueE e).memWf := memWf_modSt (fun _ w => w) h

theorem memWf_enqueue {s : State} {op : MatOp} {acc : Nat} (h : s.memWf) : (s.enqueue op acc).memWf := memWf_enqueueE h

theorem outWf_matIssue {s : State} {good : Bool} {op : MatOp} {acc : Nat} (h : s.memWf) : outWf (s.matIssue good op acc) := by
  unfold State.matIssue
  split
  · exact h
  · split
    · exact memWf_adv (memWf_enqueue h)
    · exact outWf_mismatch h

theorem outWf_execTcfg {d a : Fin 16} {w : TWidth} {b : Fin 12} {s : State} (h : s.memWf) : outWf (execTcfg d a w b s) := by
  unfold execTcfg
  split
  · exact memWf_adv (memWf_setTile h)
  · exact outWf_mismatch h

theorem outWf_execTxp {d a : Fin 16} {s : State} (h : s.memWf) : outWf (execTxp d a s) := by
  unfold execTxp
  dsimp only
  split
  · exact outWf_mismatch h
  · exact memWf_adv (memWf_setTile h)

theorem outWf_accclr {s : State} {k : Nat} (h : s.memWf) : outWf (s.accclr k) := outWf_matIssue h

theorem outWf_execAccrd {n : Fin 16} {a : Sel} {c : Fin 8} {r : Rm} {f : BitVec 6} {s : State} (h : s.memWf) :
    outWf (execAccrd n a c r f s) := by
  unfold execAccrd
  split
  · exact h
  · exact outWf_claiming h (fun _ w => memWf_adv (memWf_modCx (memWf_enqueueE (memWf_modFir (memWf_eat w)))))

theorem outWf_execWpre {a : Fin 16} {s : State} (h : s.memWf) : outWf (execWpre a s) := by
  unfold execWpre
  split
  · exact h
  · exact memWf_adv (memWf_modCx h)

theorem outWf_execAfeed {a : Fin 16} {s : State} (h : s.memWf) : outWf (execAfeed a s) := by
  unfold execAfeed
  dsimp only
  split
  · exact h
  · split
    · exact memWf_adv (memWf_enqueueE h)
    · exact outWf_mismatch h

theorem spWf_setMat {v : Station} {n : Nat} {e : MatEntry} (h : v.spWf) : (v.setMat n e).spWf := h

theorem memWf_pairPartial {s : State} {l : Loc} {e : MatEntry} (h : s.memWf) : (s.pairPartial l e).2.memWf := by
  unfold State.pairPartial
  split
  · exact h
  · split
    · exact h
    · split
      · exact h
      · dsimp only
        split
        · exact memWf_arenaDrop (memWf_charge (memWf_modSt (fun _ w => w) h))
        · split
          · exact memWf_charge (memWf_modSt (fun _ w => w) h)
          · split
            · exact memWf_charge (memWf_modSt (fun _ w => w) h)
            · exact memWf_modSt (fun _ w => w) h

theorem memWf_startMat {s : State} {l : Loc} {n : Nat} {e : MatEntry} (h : s.memWf) : (s.startMat l n e).memWf := by
  unfold State.startMat
  extract_lets p f s1
  have hp : p.2.memWf := memWf_pairPartial h
  have hs1 : s1.memWf := memWf_ite hp (memWf_ite (memWf_chargeCtx hp) (memWf_charge hp))
  exact memWf_modSt (fun _ w => spWf_setMat w) hs1

theorem memWf_prepMat {s : State} {l : Loc} {e : MatEntry} (h : s.memWf) : (s.prepMat l e).after.memWf := by
  unfold State.prepMat
  extract_lets s1
  have hs1 : s1.memWf := memWf_ite h (memWf_bringWhat h)
  split
  · exact hs1
  · split
    · split
      · exact memWf_arenaRead hs1
      · exact hs1
    · exact hs1

theorem outWf_execMatrixEntryStart {s : State} (h : s.memWf) : outWf (execMatrixEntryStart s) := by
  unfold execMatrixEntryStart
  dsimp only
  split
  · exact h
  · split
    · split
      · next e => exact memWf_startMat (ArenaGot.memWf_of_ok e (memWf_prepMat h))
      · next e => exact ArenaGot.memWf_of_wait e (memWf_prepMat h)
      · next e => exact ArenaGot.memWf_of_gone e (memWf_prepMat h)
    · exact h

theorem memWf_savePartial {s : State} {m : Loc} {e : MatEntry} {sum : BitVec 8192} (h : s.memWf) :
    (s.savePartial m e sum).memWf := memWf_modInst h

theorem memWf_sendPartial {s : State} {l m : Loc} {e : MatEntry} {sum : BitVec 8192} (h : s.memWf) :
    (s.sendPartial l m e sum).memWf := by
  unfold State.sendPartial
  extract_lets x bank s1
  have hs1 : s1.memWf := memWf_modSt (fun _ w => w) h
  exact memWf_ite (memWf_savePartial h) (memWf_ite (memWf_charge hs1) hs1)

theorem memWf_setAcc {s : State} {l : Loc} {c k : Nat} {a : BitVec 8192} (h : s.memWf) : (s.setAcc l c k a).memWf :=
  memWf_modSt (fun _ w => spWf_modCtx w) h

theorem memWf_dropMat {s : State} {l : Loc} {n : Nat} (h : s.memWf) : (s.dropMat l n).memWf := memWf_modSt (fun _ w => w) h

theorem memWf_endMat {s : State} {l : Loc} {n : Nat} {e : MatEntry} (h : s.memWf) : (s.endMat l n e).memWf := by
  unfold State.endMat
  dsimp only
  split
  · exact memWf_setAcc (memWf_dropMat h)
  · exact memWf_setAcc (memWf_dropMat h)
  · split
    · exact memWf_sendPartial (memWf_dropMat h)
    · exact memWf_modSt (fun _ w => spWf_setMat w) h
  · exact memWf_setAcc (memWf_dropMat h)
  · exact memWf_setAcc (memWf_dropMat h)
  · exact memWf_setAcc (memWf_dropMat h)
  · split
    · exact memWf_lateSend (memWf_dropMat h)
    · exact memWf_dropMat h

theorem memWf_residue {s : State} {l : Loc} {n : Nat} {e : MatEntry} (h : s.memWf) : (s.residue l n e).memWf :=
  memWf_foldl (fun _ _ w => memWf_beginEvict w) (memWf_withdraw (memWf_report (memWf_modSt (fun _ w => w) (memWf_dropMat h))))

theorem outWf_execMatrixEntryEnd {s : State} (h : s.memWf) : outWf (execMatrixEntryEnd s) := by
  unfold execMatrixEntryEnd
  dsimp only
  split
  · exact h
  · split
    · exact h
    · split
      · exact memWf_endMat h
      · split
        · exact memWf_modSt (fun _ w => spWf_modCtx (spWf_setMat w)) h
        · exact memWf_residue h

theorem outWf_execPartialArrival {s : State} (h : s.memWf) : outWf (execPartialArrival s) := by
  unfold execPartialArrival
  dsimp only [outWf]
  refine memWf_modSt (fun _ w => ?_) h
  split
  · exact spWf_ite w w
  · exact w

theorem memWf_heatGrant {s : State} {col k : Nat} {l : Loc} {n : Nat} {e : MatEntry} (h : s.memWf) :
    (s.heatGrant col k l n e).memWf := by
  unfold State.heatGrant
  dsimp only
  split
  · exact memWf_sample (memWf_startMat (memWf_modCol h))
  · exact memWf_startMat (memWf_modCol h)

theorem memWf_heatGrants {s : State} {col : Nat} {l : List Nat} (h : s.memWf) : (s.heatGrants col l).memWf := by
  induction l generalizing s with
  | nil =>
    unfold State.heatGrants
    exact h
  | cons a l ih =>
    unfold State.heatGrants
    split
    · exact ih h
    · split
      · split
        · next e => exact ih (memWf_heatGrant (ArenaGot.memWf_of_ok e (memWf_prepMat h)))
        · next e => exact ih (ArenaGot.memWf_of_wait e (memWf_prepMat h))
        · next e => exact ih (ArenaGot.memWf_of_gone e (memWf_prepMat h))
      · exact h

theorem memWf_heatStall {s : State} {l : Loc} (h : s.memWf) : (s.heatStall l).memWf := by
  unfold State.heatStall
  split
  · exact h
  · exact memWf_ite h (memWf_modSt (fun _ w => spWf_modCtx (spWf_setMat w)) h)

/-! ### Eviction and relinking -/

theorem memWf_saveDraw {s : State} {i : Inst} (h : s.memWf) : (s.saveDraw i).2.memWf := by
  unfold State.saveDraw
  split
  · exact h
  · split
    · exact memWf_pick h
    · exact h

theorem memWf_queueRelink {s : State} {id : Nat} (h : s.memWf) : (s.queueRelink id).memWf := by
  unfold State.queueRelink
  split
  · exact h
  · exact memWf_ite (memWf_modEng (memWf_modInst h)) h

theorem memWf_relinkIfAsked {s : State} {id : Nat} (h : s.memWf) : (s.relinkIfAsked id).memWf := by
  unfold State.relinkIfAsked
  split
  · exact h
  · exact memWf_ite (memWf_queueRelink h) h

theorem memWf_skipEvictee {s : State} {d : Fin 2} {i : Inst} (h : s.memWf) : (s.skipEvictee d i).memWf :=
  memWf_ite h (memWf_engineFault (memWf_modEng h))

theorem memWf_evictOne {s : State} {i : Inst} {others : Nat} {pages : List Nat} (h : s.memWf) :
    (s.evictOne i others pages).memWf := memWf_beginEvict (memWf_modInst h)

theorem memWf_evictFirst {s : State} {d : Fin 2} {l : List Inst} (h : s.memWf) : (s.evictFirst d l).memWf := by
  induction l generalizing s with
  | nil => exact h
  | cons i l ih =>
    rw [State.evictFirst]
    split
    · next e => exact memWf_evictOne (Got.memWf_of_ok e (memWf_saveRoom (memWf_saveDraw h)))
    · next e => exact Got.memWf_of_wait e (memWf_saveRoom (memWf_saveDraw h))
    · next e => exact ih (memWf_skipEvictee (Got.memWf_of_fail e (memWf_saveRoom (memWf_saveDraw h))))

theorem memWf_evictPages {s : State} {i : Inst} {bytes : Nat} (h : s.memWf) : (s.evictPages i bytes).after.memWf := by
  unfold State.evictPages
  -- a variable for the function that the inner match looks at: the kernel need not evaluate it
  obtain ⟨arena, hdef, harena⟩ : ∃ f, f = State.arenaPages ∧
      ∀ {t : State} {n : Nat} {l : List Nat}, t.memWf → (f t i.die i.vf n l).after.memWf :=
    ⟨_, rfl, memWf_arenaPages⟩
  rw [← hdef]
  extract_lets had n more
  have hmore : more.after.memWf := by
    dsimp only [more]
    split
    · exact h
    · exact memWf_saveRoom h
  clear_value more
  cases more with
  | ok l t =>
    dsimp only
    split
    · next e => exact Got.memWf_of_ok e (harena hmore)
    · next e => exact Got.memWf_of_wait e (harena hmore)
    · next e => exact Got.memWf_of_fail e (harena hmore)
  | wait t => exact hmore
  | fail _ _ t => exact hmore

theorem memWf_keepEvictee {s : State} {i : Inst} (h : s.memWf) : (s.keepEvictee i).memWf :=
  memWf_settle (memWf_sweepFences
      (memWf_foldl (fun _ _ w => memWf_applyMsg w)
      (memWf_foldl (fun _ _ w => memWf_deliverEdge w) (memWf_modEng (memWf_modInst (memWf_skipEvictee h))))))

theorem memWf_evicted {s : State} {i : Inst} {m : SaveImage} (h : s.memWf) : (s.evicted i m).memWf :=
  memWf_relinkIfAsked (memWf_roomFreed (memWf_sampleInst (memWf_charge (memWf_modEng (memWf_modInst (memWf_freeSlots h))))))

theorem outWf_execEvictionComplete {s : State} (h : s.memWf) : outWf (execEvictionComplete s) := by
  unfold execEvictionComplete
  split
  · exact h
  · split
    · exact h
    · dsimp only
      split
      · next e => exact memWf_evicted (Got.memWf_of_ok e (memWf_evictPages (memWf_saveDraw h)))
      · next e => exact memWf_modInst (Got.memWf_of_wait e (memWf_evictPages (memWf_saveDraw h)))
      · next e => exact memWf_keepEvictee (Got.memWf_of_fail e (memWf_evictPages (memWf_saveDraw h)))

theorem outWf_execSavedGranuleTest {s : State} (h : s.memWf) : outWf (execSavedGranuleTest s) := by
  unfold execSavedGranuleTest
  extract_lets id waits s1 s2
  have hs1 : s1.memWf := memWf_foldl (fun _ _ w => memWf_fillL2 w) h
  have hs2 : s2.memWf := memWf_modInst hs1
  split
  · exact h
  · split
    · exact h
    · exact memWf_ite (memWf_queueRelink hs2) hs2

theorem memWf_fitsNow {s : State} {d : Fin 2} {i : Inst} (h : s.memWf) : (s.fitsNow d i).2.memWf := by
  unfold State.fitsNow
  split
  · next e => exact Got.memWf_of_wait e (memWf_imageFor h)
  · next e => exact Got.memWf_of_fail e (memWf_imageFor h)
  · next e => exact Got.memWf_of_ok e (memWf_imageFor h)

theorem memWf_noPlace {s : State} {d : Fin 2} {i : Inst} (h : s.memWf) : (s.noPlace d i).2.memWf := by
  unfold State.noPlace
  split
  · next e => exact Got.memWf_of_wait e (memWf_imageFor h)
  · next e => exact Got.memWf_of_fail e (memWf_imageFor h)
  · next e => exact Got.memWf_of_ok e (memWf_imageFor h)

theorem memWf_evictFor {s : State} {d : Fin 2} (h : s.memWf) : (s.evictFor d).2.memWf := by
  unfold State.evictFor
  dsimp only
  split
  · exact h
  · split
    · exact h
    · exact memWf_noPlace h

theorem outWf_execEvictionStart {s : State} (h : s.memWf) : outWf (execEvictionStart s) := by
  unfold execEvictionStart
  dsimp only
  split
  · exact h
  · split
    · exact memWf_evictFor h
    · exact memWf_evictFirst (memWf_evictFor h)

theorem memWf_firstFit {s : State} {d : Fin 2} {n : Nat} {l : List Inst} {above : List Nat} (h : s.memWf) :
    (s.firstFit d n l above).2.memWf := by
  induction n generalizing s l above with
  | zero => exact h
  | succ n ih =>
    cases l with
    | nil => exact h
    | cons i rest =>
      unfold State.firstFit
      dsimp only
      split
      · exact memWf_fitsNow h
      · exact ih (memWf_fitsNow h)

theorem memWf_bypass {s : State} {id : Nat} (h : s.memWf) : (s.bypass id).memWf := memWf_modInst (memWf_newUid h)

theorem outWf_execAreaArbiterPass {s : State} (h : s.memWf) : outWf (execAreaArbiterPass s) := by
  unfold execAreaArbiterPass
  dsimp only
  split
  · exact h
  · split
    · exact memWf_firstFit h
    · exact memWf_modEng (memWf_modEng (memWf_modEng (memWf_foldl (fun _ _ w => memWf_bypass w) (memWf_firstFit h))))

theorem memWf_fencedTok {s : State} {f : Flight} (h : s.memWf) : (s.fencedTok f).memWf := by
  unfold State.fencedTok
  dsimp only
  split
  · exact memWf_staleToken h
  · split
    · exact memWf_saveToken h
    · exact memWf_queueRelink (memWf_saveToken h)
    · exact memWf_saveToken h
    · exact memWf_deliverEdge h
    · exact memWf_deliverEdge h
    · exact memWf_modInst h
    · exact memWf_modInst h
    · exact memWf_staleToken h
    · exact memWf_staleToken h

theorem outWf_execFencedToken {s : State} (h : s.memWf) : outWf (execFencedToken s) := by
  unfold execFencedToken
  split
  · exact h
  · split
    · exact h
    · exact memWf_fencedTok (memWf_modFab (fun _ w => w) h)

theorem memWf_lowerFences {s : State} (h : s.memWf) : s.lowerFences.memWf := memWf_foldl (fun _ _ w => memWf_reapInst w) h

theorem outWf_execSweepArrival {s : State} (h : s.memWf) : outWf (execSweepArrival s) := by
  unfold execSweepArrival
  split
  · exact h
  · split
    · exact h
    · exact memWf_lowerFences (memWf_modFence (memWf_modFab (fun _ w => w) h))

/-! ### The memory class -/

theorem outWf_waits {s : State} (h : s.memWf) : outWf s.waits := h

theorem outWf_storing {s : State} {lsid : Fin 32} {k : Out} (h : s.memWf) (h' : outWf k) : outWf (s.storing lsid k) := by
  unfold State.storing
  split
  · exact memWf_trapIns h
  · exact h'

theorem outWf_aligned {s : State} {addr n lsid va : Nat} {k : Out} (h : s.memWf) (h' : outWf k) :
    outWf (s.aligned addr n lsid va k) := by
  unfold State.aligned
  split
  · exact memWf_trapAcc h
  · exact h'

theorem outWf_valid {s : State} {addr n lsid : Nat} {k : Out} (h : s.memWf) (h' : outWf k) : outWf (s.valid addr n lsid k) := by
  unfold State.valid
  split
  · exact h'
  · exact memWf_trapAcc h

theorem memWf_refuseStrand {s : State} {b : Nat} (h : s.memWf) : (s.refuseStrand b).memWf := memWf_trapAcc h

theorem memWf_modCur {s : State} {f : Station → Station} (h : s.memWf) (hf : ∀ (a : Station), a.spWf → (f a).spWf) :
    (s.modCur f).memWf := memWf_modSt (fun _ w => hf _ w) h

theorem memWf_acquire {s : State} {l : List Nat} (h : s.memWf) : (s.acquire l).memWf := memWf_modFir h

theorem outWf_execStsp {v a b : Sel} {i : Fin 32} {z : Size} {s : State} (h : s.memWf) : outWf (execStsp v a b i z s) :=
  outWf_storing h (outWf_aligned h
      (outWf_valid h (memWf_adv (memWf_lsidNow (memWf_modCur (memWf_eat h) (fun _ w => spWf_spWrite w))))))

theorem outWf_execLdf {d : Fin 8} {a b : Sel} {i : Fin 32} {c x : Bool} {z : Size} {s : State} (h : s.memWf) :
    outWf (execLdf d a b i c x z s) := by
  unfold execLdf
  dsimp only
  refine outWf_aligned h (outWf_valid h ?_)
  split
  · dsimp only [outWf]
    refine memWf_result ?_
    split
    · exact memWf_modCur (memWf_acquire h) (fun _ w => spWf_empty w)
    · exact memWf_acquire h
  · exact memWf_parkFiring h

theorem outWf_execStf {v a b : Sel} {i : Fin 32} {z : Size} {s : State} (h : s.memWf) : outWf (execStf v a b i z s) := by
  unfold execStf
  extract_lets n addr put
  have hput : ∀ q : Station, q.spWf → (put q).spWf := fun _ w => spWf_spWrite w
  refine outWf_storing h (outWf_aligned h (outWf_valid h ?_))
  split
  · exact memWf_adv (memWf_lsidNow (memWf_modCur (memWf_eat h) hput))
  · exact outWf_waits h

theorem outWf_execFec {a b : Sel} {i : Fin 32} {m : Bool} {s : State} (h : s.memWf) : outWf (execFec a b i m s) := by
  unfold execFec
  dsimp only
  refine outWf_aligned h (outWf_aligned h ?_)
  split
  · exact memWf_adv (memWf_eat h)
  · split
    · exact memWf_adv (memWf_issueAcc (memWf_eat h))
    · exact outWf_valid h (memWf_adv (memWf_modCur (memWf_eat h) (fun _ w => w)))

theorem outWf_execFeq {d : Fin 8} {a : Sel} {i : Fin 32} {m : Bool} {s : State} (h : s.memWf) : outWf (execFeq d a i m s) := by
  unfold execFeq
  dsimp only
  refine outWf_aligned h ?_
  split
  · exact memWf_adv (memWf_pend (memWf_issueAcc (memWf_eat h)))
  · exact outWf_valid h (memWf_result h)

theorem memWf_modMine {s : State} {v : Nat} {f : Strand → Strand} (h : s.memWf) : (s.modMine v f).memWf :=
  memWf_modCur h (fun _ w => spWf_modStrand w)

theorem outWf_execSdef {v : Fin 8} {a b : Sel} {y : StrandDest} {t w : Bool} {z : ESize} {s : State} (h : s.memWf) :
    outWf (execSdef v a b y t w z s) := by
  unfold execSdef
  dsimp only
  split
  · exact outWf_waits h
  · exact memWf_adv (memWf_modMine (memWf_eat h))

theorem outWf_execSlen {v : Fin 8} {a : Sel} {s : State} (h : s.memWf) : outWf (execSlen v a s) := by
  unfold execSlen
  dsimp only
  split
  · exact outWf_waits h
  · exact memWf_adv (memWf_modMine (memWf_eat h))

theorem memWf_goNow {s : State} {v : Nat} {a : Sel} {r : BitVec 64} (h : s.memWf) : (s.goNow v a r).memWf :=
  memWf_adv (memWf_modMine (memWf_eat (memWf_newUid h)))

theorem outWf_execSgo {v : Fin 8} {a : Sel} {s : State} (h : s.memWf) : outWf (execSgo v a s) := by
  unfold execSgo
  dsimp only
  split
  · exact outWf_waits h
  · split
    · exact memWf_adv (memWf_modMine (memWf_eat h))
    · split
      · split
        · exact memWf_goNow h
        · exact memWf_refuseStrand h
      · exact memWf_goNow h
      · split
        · exact memWf_goNow h
        · exact outWf_claiming h (fun _ w => memWf_goNow w)

theorem outWf_execLds {d : Fin 8} {a : Sel} {b : Fin 8} {s : State} (i : Fin 32) (h : s.memWf) : outWf (execLds d a b i s) := by
  unfold execLds
  dsimp only
  split
  · exact memWf_refuseStrand h
  · split
    · exact memWf_parkFiring h
    · exact memWf_result h

theorem memWf_issueElem {s : State} {a : Access} (h : s.memWf) : (s.issueElem a).memWf :=
  memWf_modMm (fun _ w => w) (memWf_newUid h)

theorem outWf_execSts {v a : Sel} {b : Fin 8} {n : Fin 32} {s : State} (h : s.memWf) : outWf (execSts v a b n s) := by
  unfold execSts
  dsimp only
  split
  · exact memWf_refuseStrand h
  · refine outWf_storing h ?_
    split
    · split
      · exact memWf_adv (memWf_lsidNow (memWf_eat h))
      · exact memWf_adv (memWf_issueAcc (memWf_eat h))
    · split
      · exact memWf_trapIns h
      · split
        · exact memWf_adv (memWf_lsidNow (memWf_eat h))
        · exact memWf_adv (memWf_ownAcc (memWf_modAcc (memWf_eat h)))

theorem outWf_execGath {v : Sel} {b : Fin 8} {s : State} (h : s.memWf) : outWf (execGath v b s) := by
  unfold execGath
  dsimp only
  split
  · exact memWf_refuseStrand h
  · exact memWf_adv (memWf_issueAcc (memWf_eat h))

theorem outWf_execScat {v a : Sel} {b : Fin 8} {n : Fin 32} {s : State} (h : s.memWf) : outWf (execScat v a b n s) := by
  unfold execScat
  dsimp only
  split
  · exact memWf_refuseStrand h
  · exact outWf_storing h (memWf_adv (memWf_issueAcc (memWf_eat h)))

theorem outWf_execScadd {v a : Sel} {b : Fin 8} {n : Fin 32} {t : ScType} {s : State} (h : s.memWf) :
    outWf (execScadd v a b n t s) := by
  unfold execScadd
  dsimp only
  split
  · exact memWf_refuseStrand h
  · refine outWf_storing h ?_
    split
    · exact outWf_waits h
    · exact memWf_adv (memWf_issueAcc (memWf_eat h))

theorem outWf_execCopy {v a b : Sel} {n : Fin 32} {y x : Bool} {s : State} (h : s.memWf) : outWf (execCopy v a b n y x s) := by
  unfold execCopy
  dsimp only
  refine outWf_storing h (outWf_aligned h ?_)
  refine outWf_aligned h (outWf_aligned h ?_)
  split
  · exact memWf_adv (memWf_lsidNow (memWf_eat h))
  · split
    · exact memWf_trapAcc h
    · split
      · exact memWf_trapAcc h
      · exact memWf_adv (memWf_modFir (memWf_modMm (fun _ w => w) (memWf_newUid (memWf_eat h))))

theorem outWf_execPref {a b : Sel} {s : State} (h : s.memWf) : outWf (execPref a b s) := by
  unfold execPref
  dsimp only
  split
  · exact memWf_adv (memWf_eat h)
  · exact memWf_adv (memWf_issueElem (memWf_eat h))

theorem outWf_tileChecks {s : State} {t : Fin 16} {a b : Sel} {lsid : Nat} {p : Bool} {k : Out} (h : s.memWf) (h' : outWf k) :
    outWf (s.tileChecks t a b lsid p k) := by
  unfold State.tileChecks
  split
  · exact memWf_trapAcc h
  · split
    · exact memWf_trapAcc h
    · exact h'

theorem outWf_execTld {t : Fin 16} {a b : Sel} {i : Fin 32} {p : Bool} {s : State} (h : s.memWf) :
    outWf (execTld t a b i p s) := by
  unfold execTld
  dsimp only
  refine outWf_tileChecks h ?_
  split
  · exact memWf_adv (memWf_modCx (memWf_eat h))
  · exact memWf_adv (memWf_issueAcc (memWf_eat h))

theorem outWf_execTst {t : Fin 16} {a b : Sel} {i : Fin 32} {p : Bool} {s : State} (h : s.memWf) :
    outWf (execTst t a b i p s) := by
  unfold execTst
  dsimp only
  refine outWf_storing h (outWf_tileChecks h ?_)
  split
  · dsimp only [outWf]
    refine memWf_adv (memWf_lsidNow ?_)
    refine memWf_foldl (fun _ _ w => ?_) (memWf_eat h)
    split
    · exact memWf_modSt (fun _ w1 => spWf_spWrite w1) w
    · exact w
  · exact memWf_adv (memWf_issueAcc (memWf_eat h))

/-! ### Steps of the memory side -/

theorem outWf_execStrandElementIssue {s : State} (h : s.memWf) : outWf (execStrandElementIssue s) := by
  unfold execStrandElementIssue
  dsimp only
  split
  · exact h
  · exact memWf_modSt (fun _ w => spWf_modStrand w) (memWf_issueElem h)

theorem memWf_coreRequest {s : State} {c : Fin 4} {n : Nat} (h : s.memWf) : (s.coreRequest c n).memWf :=
  memWf_ite (memWf_drainStore h) h

theorem outWf_portRequest {s : State} {uid : Nat} (h : s.memWf) : outWf (s.portRequest uid) := by
  unfold State.portRequest
  split
  · exact h
  · extract_lets ready
    split
    · exact h
    · split
      · exact memWf_ite (memWf_modAcc h) h
      · split
        · exact h
        · split
          · exact memWf_portFault h
          · exact memWf_accOut h

theorem outWf_execMemoryRequest {s : State} (h : s.memWf) : outWf (execMemoryRequest s) := by
  unfold execMemoryRequest
  split
  · exact outWf_portRequest h
  · exact memWf_coreRequest h

theorem outWf_execWalkReadComplete {s : State} (h : s.memWf) : outWf (execWalkReadComplete s) := by
  unfold execWalkReadComplete
  split
  · exact h
  · split
    · split
      · exact h
      · extract_lets t
        have ht : t.2.memWf := memWf_walkStep h
        split
        · split
          · exact memWf_serveAt ht
          · exact memWf_modAcc ht
        · exact memWf_accOut ht
        · exact memWf_accOut ht
        · exact memWf_accOut ht
        · exact memWf_accOut ht
    · exact h

theorem outWf_execAccessReturn {s : State} (h : s.memWf) : outWf (execAccessReturn s) := by
  unfold execAccessReturn
  split
  · exact h
  · split
    · exact h
    · exact memWf_accReturned (memWf_accBack h)

theorem outWf_execRdcInvalidation {s : State} (h : s.memWf) : outWf (execRdcInvalidation s) := by
  unfold execRdcInvalidation
  split
  · exact h
  · split
    · exact h
    · dsimp only
      dsimp only [outWf]
      split
      · exact memWf_dropAcc (memWf_foldl (fun _ _ w => memWf_dropRdc w) h)
      · exact memWf_modAcc (memWf_foldl (fun _ _ w => memWf_dropRdc w) h)

theorem memWf_updateFault {s : State} {u : BinUpdate} (h : s.memWf) : (s.updateFault u).memWf := by
  unfold State.updateFault
  dsimp only
  split
  · exact memWf_modMm (fun _ w => w) (memWf_report (memWf_newUid h))
  · exact memWf_report (memWf_newUid h)

theorem memWf_applyUpdate {s : State} {vf : Nat} {u : BinUpdate} (h : s.memWf) : (s.applyUpdate vf u).memWf := by
  unfold State.applyUpdate
  split
  · exact memWf_updateFault h
  · exact memWf_ite (memWf_poisonInst h) (memWf_engineWrite (memWf_homeRead h))

theorem outWf_execBinApply {s : State} (h : s.memWf) : outWf (execBinApply s) := by
  unfold execBinApply
  split
  · exact h
  · split
    · exact h
    · split
      · exact memWf_foldl (fun _ _ w => memWf_applyUpdate w) (memWf_modMm (fun _ w => w) h)
      · exact h

theorem memWf_copyPoison {s : State} {c : Copy} {va pa : Nat} (h : s.memWf) : (s.copyPoison c va pa).memWf :=
  memWf_poisonInst (memWf_modMm (fun _ w => w) h)

theorem memWf_copyAt {s : State} {c : Copy} {va need : Nat} (h : s.memWf) : (s.copyAt c va need).after.memWf := by
  unfold State.copyAt
  extract_lets r t
  have ht : t.2.memWf := memWf_translate h
  split
  · split
    · exact ht
    · split
      · exact ht
      · exact memWf_copyFault ht
  · exact memWf_copyFault ht
  · extract_lets p
    have hp : p.2.memWf := memWf_pageRequest ht
    exact memWf_modCopy hp
  · dsimp only [CopyAt.after]
    exact memWf_copyPoison ht
  · exact ht

theorem memWf_copyGot {s : State} {c : Copy} {i x : Nat} (h : s.memWf) : (s.copyGot c i x).memWf := memWf_modCopy h

theorem memWf_copyRead {s : State} {c : Copy} {i : Nat} (h : s.memWf) : (s.copyRead c i).memWf := by
  unfold State.copyRead
  split
  · exact memWf_copyGot h
  · split
    · next e => exact CopyAt.memWf_of_stop e (memWf_copyAt h)
    · next t e =>
      have ht : t.memWf := CopyAt.memWf_of_ok e (memWf_copyAt h)
      split
      · exact memWf_copyPoison ht
      · exact memWf_copyGot (memWf_serveRead ht)

theorem memWf_copyIssue {s : State} {c : Copy} {i : Nat} (h : s.memWf) : (s.copyIssue c i).memWf := by
  unfold State.copyIssue
  extract_lets at_
  have hat : ∀ st sp va need, st.memWf → (at_ st sp va need).after.memWf := by
    intro st sp va need w
    dsimp only [at_]
    split
    · exact w
    · exact memWf_copyAt w
  split
  · next e => exact CopyAt.memWf_of_stop e (hat _ _ _ _ h)
  · next e =>
    have ht := CopyAt.memWf_of_ok e (hat _ _ _ _ h)
    split
    · next e' => exact CopyAt.memWf_of_stop e' (hat _ _ _ _ ht)
    · next e' => exact memWf_copyRead (CopyAt.memWf_of_ok e' (hat _ _ _ _ ht))

theorem memWf_copyPut {s : State} {c : Copy} {i : Nat} (h : s.memWf) : (s.copyPut c i).memWf := by
  unfold State.copyPut
  dsimp only
  split
  · exact memWf_modCopy h
  · exact memWf_onFiring (memWf_modMm (fun _ w => w) (memWf_modCopy h))

theorem memWf_copyWritten {s : State} {c : Copy} {pa : Nat} {rdc : Bool} (h : s.memWf) : (s.copyWritten c pa rdc).memWf := by
  unfold State.copyWritten
  split
  · exact h
  · dsimp only
    split
    · exact memWf_modAcc h
    · exact memWf_modMm (fun _ w => w) h

theorem memWf_copyWrite {s : State} {c : Copy} {i x : Nat} (h : s.memWf) : (s.copyWrite c i x).memWf := by
  unfold State.copyWrite
  split
  · split
    · exact memWf_copyPut (memWf_modSt (fun _ w => spWf_fill (spWf_spWrite w)) h)
    · exact memWf_modMm (fun _ w => w) h
  · split
    · next e => exact CopyAt.memWf_of_stop e (memWf_copyAt h)
    · next t e =>
      have ht : t.memWf := CopyAt.memWf_of_ok e (memWf_copyAt h)
      split
      · exact memWf_copyPut (memWf_feSet (memWf_engineWrite ht))
      · exact memWf_copyPut (memWf_copyWritten (memWf_serveWrite ht))

theorem outWf_execCopyGranule {s : State} (h : s.memWf) : outWf (execCopyGranule s) := by
  unfold execCopyGranule
  split
  · exact h
  · dsimp only
    split
    · exact h
    · split
      · exact memWf_copyIssue h
      · split
        · exact memWf_copyWrite h
        · exact h

/-! ### The ordering class -/

theorem memWf_setAside {s : State} {h1 : Hold} (h : s.memWf) : (s.setAside h1).memWf :=
  memWf_callerOf (memWf_modCur h (fun _ w => w))

theorem outWf_execFence {k : FenceKind} {sc : Scope} {s : State} (h : s.memWf) : outWf (execFence k sc s) := by
  unfold execFence
  dsimp only
  split
  · exact memWf_adv (memWf_modFir h)
  · exact memWf_setAside h

theorem outWf_stile {s : State} {sc : Scope} (h : s.memWf) : outWf (s.stile sc) := by
  unfold State.stile
  split
  · exact memWf_adv (memWf_flushCrossing h)
  · exact outWf_waits h

theorem outWf_execBarj {d : Fin 8} {a : Sel} {sc : Scope} {s : State} (h : s.memWf) : outWf (execBarj d a sc s) := by
  unfold execBarj
  split
  · exact memWf_adv (memWf_wr (memWf_modFir h))
  · split
    · exact memWf_parkFiring (memWf_modFab (fun _ w => w) (memWf_eat h))
    · exact outWf_waits h

theorem memWf_atomSp {s : State} {d : Fin 8} {a b : Sel} {i : Fin 32} {o : AtomOrder} {n : Nat} {sx : Bool} {op : AmoOp}
    (h : s.memWf) : (s.atomSp d a b i o n sx op).memWf := by
  unfold State.atomSp
  dsimp only
  refine memWf_adv (memWf_lsidNow ?_)
  refine memWf_wr (memWf_acquire ?_)
  refine memWf_modCur (memWf_eat h) (fun _ w => ?_)
  split
  · exact spWf_ite (spWf_spWrite w) (spWf_spWrite w)
  · exact w

theorem memWf_atomMem {s : State} {d : Fin 8} {a b : Sel} {i : Fin 32} {o : AtomOrder} {n : Nat} {sx : Bool} {op : AmoOp}
    (h : s.memWf) : (s.atomMem d a b i o n sx op).memWf := memWf_adv (memWf_stallOn (memWf_pend (memWf_issueAcc (memWf_eat h))))

theorem outWf_atomic {s : State} {d : Fin 8} {a b : Sel} {i : Fin 32} {o : AtomOrder} {n : Nat} {sx : Bool} {op : AmoOp}
    (h : s.memWf) : outWf (s.atomic d a b i o n sx op) := by
  unfold State.atomic
  dsimp only
  refine outWf_storing h ?_
  split
  · split
    · exact memWf_trapAcc h
    · refine outWf_valid h (outWf_aligned h ?_)
      split
      · exact outWf_waits h
      · exact memWf_atomSp h
  · exact outWf_aligned h (memWf_atomMem h)

/-! ### Tables of the Thicket engines -/

theorem memWf_bind {α β : Type} {x : Th α} {f : α → State → Th β} (h : x.after.memWf)
    (hf : ∀ (a : α) (t : State), t.memWf → (f a t).after.memWf) : (x.bind f).after.memWf := by
  unfold Th.bind
  split
  · exact hf _ _ h
  · exact h
  · exact h
  · exact h
  · exact h
  · exact h

theorem memWf_check {b : Bool} {s : State} (h : s.memWf) : (Th.check b s).after.memWf := by
  unfold Th.check
  split <;> exact h

theorem memWf_thPa {s : State} {t : ThReq} {va : Nat} {write : Bool} (h : s.memWf) : (s.thPa t va write).after.memWf := by
  unfold State.thPa
  extract_lets o
  have ho : o.2.memWf := memWf_translate h
  split
  · split
    · exact ho
    · split <;> exact ho
  · exact ho
  · exact ho
  · exact ho
  · exact ho

theorem memWf_thRead {s : State} {t : ThReq} {va n : Nat} (h : s.memWf) : (s.thRead t va n).after.memWf := by
  unfold State.thRead
  split
  · exact h
  · refine memWf_bind (memWf_thPa h) (fun _ _ w => ?_)
    split
    · exact w
    · exact memWf_homeRead w

theorem memWf_thWrite {s : State} {t : ThReq} {va n x : Nat} (h : s.memWf) : (s.thWrite t va n x).after.memWf := by
  unfold State.thWrite
  dsimp only
  split
  · dsimp only [Th.after]
    exact memWf_modSt (fun _ w => spWf_foldl (fun _ _ w1 => spWf_fill w1) (spWf_spWrite w)) h
  · refine memWf_bind (memWf_thPa h) (fun _ _ w => ?_)
    exact memWf_ite (memWf_foldl (fun _ _ w1 => memWf_feSet w1) (memWf_engineWrite w)) (memWf_engineWrite w)

theorem memWf_thBytes {s : State} {t : ThReq} {va n n1 : Nat} (h : s.memWf) : (s.thBytes t va n n1).after.memWf := by
  induction n generalizing s t va n1 with
  | zero =>
    unfold State.thBytes
    exact h
  | succ n ih =>
    unfold State.thBytes
    split
    · exact h
    · split
      · exact h
      · dsimp only
        refine memWf_bind (memWf_thPa h) (fun _ _ w => ?_)
        split
        · exact w
        · exact memWf_bind (ih (memWf_serveRead w)) (fun _ _ w1 => w1)

theorem memWf_thBlock {s : State} {t : ThReq} {va n : Nat} (h : s.memWf) : (s.thBlock t va n).after.memWf := memWf_thBytes h

theorem memWf_thHash {s : State} {t : ThReq} {f : Family} {va : Nat} (h : s.memWf) : (s.thHash t f va).after.memWf := by
  unfold State.thHash
  split
  · exact h
  · refine memWf_bind (memWf_thBlock h) (fun _ _ w => ?_)
    split
    · exact w
    · exact memWf_bind (memWf_thBlock w) (fun _ _ w1 => w1)

theorem memWf_thOwn {s : State} {t : ThReq} {va : Nat} (h : s.memWf) : (s.thOwn t va).after.memWf := by
  unfold State.thOwn
  split
  · exact h
  · refine memWf_bind (memWf_thPa h) (fun _ _ w => ?_)
    split <;> exact w

theorem memWf_thOwnAll {s : State} {t : ThReq} {l : List ThLine} (h : s.memWf) : (s.thOwnAll t l).after.memWf := by
  induction l generalizing s with
  | nil =>
    unfold State.thOwnAll
    exact h
  | cons a l ih =>
    unfold State.thOwnAll
    exact memWf_bind (memWf_thOwn h) (fun _ _ w => ih w)

theorem memWf_thPages {s : State} {t : ThReq} {n n1 : Nat} (h : s.memWf) : (s.thPages t n n1).after.memWf := by
  induction n generalizing s t n1 with
  | zero =>
    unfold State.thPages
    exact h
  | succ n ih =>
    unfold State.thPages
    extract_lets o
    have ho : o.2.memWf := memWf_translate h
    split
    · split
      · exact ho
      · exact ih ho
    · exact ho
    · exact ih ho
    · exact ih ho
    · exact ih ho

theorem memWf_thWhole {s : State} {t : ThReq} {va n : Nat} (h : s.memWf) : (s.thWhole t va n).after.memWf := memWf_thPages h

theorem memWf_thArea {s : State} {t : ThReq} {va : Nat} (h : s.memWf) : (s.thArea t va).after.memWf :=
  memWf_bind (memWf_thPa h) (fun _ _ w => memWf_check w)

theorem memWf_thCheck {s : State} {t : ThReq} {d : Nat} {named cur old : Bool} (h : s.memWf) :
    (s.thCheck t d named cur old).after.memWf := by
  unfold State.thCheck
  refine memWf_bind (memWf_check h) (fun _ _ w => ?_)
  refine memWf_bind (memWf_thWhole w) (fun _ _ w1 => ?_)
  refine memWf_bind ?_ (fun _ _ w2 => memWf_thWhole w2)
  split
  · exact memWf_thWhole w1
  · exact w1

theorem memWf_thLine {s : State} {t : ThReq} {d va g : Nat} (h : s.memWf) : (s.thLine t d va g).after.memWf := by
  unfold State.thLine
  refine memWf_bind (memWf_thArea h) (fun _ _ w => ?_)
  refine memWf_bind (memWf_thRead w) (fun _ _ w1 => ?_)
  dsimp only
  split
  · exact w1
  · exact memWf_bind (memWf_check w1) (fun _ _ w2 => w2)

theorem memWf_thChain {s : State} {t : ThReq} {d g va n : Nat} (h : s.memWf) : (s.thChain t d g va n).after.memWf := by
  induction n generalizing s t d g va with
  | zero =>
    unfold State.thChain
    exact h
  | succ n ih =>
    unfold State.thChain
    refine memWf_bind (memWf_thLine h) (fun _ _ w => ?_)
    split
    · exact w
    · exact memWf_bind (ih w) (fun _ _ w1 => w1)

theorem memWf_thPut {s : State} {t : ThReq} {l : List (ThLine × ThLine)} (h : s.memWf) : (s.thPut t l).after.memWf := by
  induction l generalizing s with
  | nil =>
    unfold State.thPut
    exact h
  | cons a l ih =>
    unfold State.thPut
    refine memWf_bind ?_ (fun _ _ w => ih w)
    split
    · exact h
    · exact memWf_thWrite h

theorem memWf_thInsert {s : State} {t : ThReq} {d r va g : Nat} (h : s.memWf) : (s.thInsert t d r va g).after.memWf := by
  unfold State.thInsert
  refine memWf_bind (memWf_thChain h) (fun _ _ w => ?_)
  refine memWf_bind (memWf_thOwnAll w) (fun _ _ w1 => ?_)
  dsimp only
  refine memWf_bind ?_ (fun _ _ w2 => ?_)
  · split
    · exact memWf_thArea w1
    · exact w1
  · refine memWf_bind ?_ (fun _ _ w3 => ?_)
    · split
      · exact w2
      · exact memWf_thWrite w2
    · refine memWf_bind ?_ (fun _ _ w4 => memWf_bind (memWf_thPut w4) (fun _ _ w5 => w5))
      split
      · exact memWf_thWrite w3
      · exact w3

theorem memWf_thDelete {s : State} {t : ThReq} {d r va g : Nat} (h : s.memWf) : (s.thDelete t d r va g).after.memWf :=
  memWf_bind (memWf_thChain h) (fun _ _ w => memWf_bind (memWf_thOwnAll w) (fun _ _ w1 => memWf_thPut w1))

/-! ### The retrieval class and the Thicket engines -/

theorem outWf_thDesc {s : State} {va lsid : Nat} {k : Out} (h : s.memWf) (h' : outWf k) : outWf (s.thDesc va lsid k) := by
  unfold State.thDesc
  refine outWf_aligned h ?_
  split
  · exact memWf_trapAcc h
  · exact h'

theorem outWf_thVec {s : State} {va lsid : Nat} {f : Fin 16} {k : Out} (h : s.memWf) (h' : outWf k) :
    outWf (s.thVec va lsid f k) := by
  unfold State.thVec
  dsimp only
  split
  · split
    · exact h'
    · exact memWf_trapAcc h
  · exact outWf_aligned h h'

theorem memWf_issueTh {s : State} {t : ThReq} (h : s.memWf) : (s.issueTh t).memWf := memWf_modMm (fun _ w => w) (memWf_newUid h)

theorem outWf_probeIns {s : State} {op : ThOp} {n : Fin 16} {a b : Sel} {f : Fin 16} (h : s.memWf) :
    outWf (s.probeIns op n a b f) := by
  unfold State.probeIns
  dsimp only
  refine outWf_thDesc h (outWf_thVec h ?_)
  split
  · exact outWf_waits h
  · exact outWf_claiming h (fun _ w => memWf_adv (memWf_issueTh (memWf_eat w)))

theorem outWf_rowIns {s : State} {op : ThOp} {v a b : Sel} {i : Fin 32} {f : Fin 16} (h : s.memWf) :
    outWf (s.rowIns op v a b i f) := by
  unfold State.rowIns
  dsimp only
  refine outWf_storing h (outWf_thDesc h (outWf_thVec h ?_))
  split
  · exact outWf_waits h
  · exact memWf_adv (memWf_issueTh (memWf_eat h))

theorem outWf_execTrhs {v a : Sel} {i : Fin 32} {s : State} (h : s.memWf) : outWf (execTrhs v a i s) := by
  unfold execTrhs
  dsimp only
  refine outWf_storing h (outWf_thDesc h ?_)
  split
  · exact outWf_waits h
  · exact memWf_adv (memWf_issueTh (memWf_eat h))

theorem outWf_execTovp {a : Sel} {i : Fin 32} {p : OvPolicy} {s : State} (h : s.memWf) : outWf (execTovp a i p s) := by
  unfold execTovp
  dsimp only
  refine outWf_storing h (outWf_thDesc h ?_)
  split
  · exact outWf_waits h
  · exact memWf_adv (memWf_issueTh (memWf_eat h))

theorem outWf_execTfen {a : Sel} {s : State} (sc : Scope) (h : s.memWf) : outWf (execTfen a sc s) := by
  unfold execTfen
  dsimp only
  refine outWf_thDesc h ?_
  split
  · exact outWf_waits h
  · exact memWf_adv (memWf_eat h)

theorem outWf_execTstat {d : Fin 8} {a : Sel} {s : State} (h : s.memWf) : outWf (execTstat d a s) := by
  unfold execTstat
  dsimp only
  refine outWf_thDesc h ?_
  split
  · exact outWf_waits h
  · exact memWf_adv (memWf_pend (memWf_issueTh (memWf_eat h)))

theorem memWf_setTh {s : State} {t : ThReq} (h : s.memWf) : (s.setTh t).memWf := memWf_modMm (fun _ w => w) h

theorem memWf_dropTh {s : State} {t : ThReq} (h : s.memWf) : (s.dropTh t).memWf := memWf_modMm (fun _ w => w) h

theorem memWf_thDescFault {s : State} {t : ThReq} (h : s.memWf) : (s.thDescFault t).memWf := memWf_partitionFault h

theorem memWf_thFull {s : State} {t : ThReq} {mask row : Nat} (h : s.memWf) : (s.thFull t mask row).memWf :=
  memWf_ite h (memWf_partitionFault h)

theorem memWf_thHalt {s : State} {t : ThReq} {code va addr2 : Nat} (h : s.memWf) : (s.thHalt t code va addr2).memWf := by
  unfold State.thHalt
  extract_lets _ info r s1
  have hr : r.2.memWf := by
    dsimp only [r]
    split
    · exact memWf_reportHost h
    · exact memWf_report h
  have hs1 : s1.memWf := memWf_setTh hr
  split
  · exact memWf_dropTh hr
  · split
    · exact memWf_parkIf hs1
    · exact hs1

theorem memWf_thMiss {s : State} {t : ThReq} {inWalk : Bool} {ia va : Nat} {write : Bool} (h : s.memWf) :
    (s.thMiss t inWalk ia va write).memWf := by
  unfold State.thMiss
  dsimp only
  split
  · exact memWf_parkIf (memWf_setTh (memWf_pageRequest h))
  · exact memWf_setTh (memWf_pageRequest h)

theorem memWf_thPoison {s : State} {t : ThReq} {va pa : Nat} (h : s.memWf) : (s.thPoison t va pa).memWf :=
  memWf_poisonInst (memWf_dropTh h)

theorem memWf_thSend {s : State} {t : ThReq} {tag : BitVec 64} {v : Nat} (h : s.memWf) : (s.thSend t tag v).memWf :=
  memWf_lateSend h

theorem memWf_thEnd {s : State} {t : ThReq} {status : Nat} (h : s.memWf) : (s.thEnd t status).memWf :=
  memWf_thSend (memWf_dropTh h)

theorem memWf_hashSend {s : State} {t : ThReq} {idx : List Nat} {nan : Bool} (h : s.memWf) : (s.hashSend t idx nan).memWf :=
  memWf_foldl (fun _ _ w => memWf_thSend w) h

theorem memWf_rowSend {x : ThReq × State} {table r : Nat} (h : x.2.memWf) : (State.rowSend x table r).2.memWf := by
  unfold State.rowSend
  dsimp only
  split
  · exact h
  · exact memWf_thSend h

theorem memWf_statBack {s : State} {t : ThReq} {v : Double} (h : s.memWf) : (s.statBack t v).memWf :=
  memWf_onFiring (memWf_dropTh h)

theorem memWf_probeDesc {s : State} {t : ThReq} {tables : Nat} (h : s.memWf) : (s.probeDesc t tables).memWf := by
  unfold State.probeDesc
  dsimp only
  split
  · exact memWf_statBack (memWf_thDescFault h)
  · exact memWf_thEnd (memWf_hashSend (memWf_thDescFault h))
  · exact memWf_thEnd (memWf_thDescFault h)

theorem memWf_probeFail {α : Type} {s : State} {t : ThReq} {tables : Nat} {x : Th α} (h : s.memWf) (h' : x.after.memWf) :
    (s.probeFail t tables x).memWf := by
  unfold State.probeFail
  split
  · exact h
  · split
    · exact memWf_thHalt h'
    · exact memWf_thEnd (memWf_ite (memWf_reportHost h') (memWf_partitionFault h'))
  · exact memWf_thMiss h'
  · exact memWf_probeDesc h'
  · exact memWf_thPoison h'
  · exact h'

theorem memWf_probeHash {s : State} {t : ThReq} {d : Nat} (h : s.memWf) : (s.probeHash t d).after.memWf := by
  unfold State.probeHash
  dsimp only
  refine memWf_bind (memWf_thCheck h) (fun _ _ w => ?_)
  refine memWf_bind (memWf_thHash w) (fun _ _ w1 => ?_)
  refine memWf_bind ?_ (fun _ _ w2 => ?_)
  · split
    · exact memWf_thHash w1
    · exact w1
  · split <;> exact w2

theorem memWf_probeStart {s : State} {t0 : ThReq} (h : s.memWf) : (s.probeStart t0).memWf := by
  unfold State.probeStart
  dsimp only
  split
  · next t e =>
    have ht : t.memWf := Th.memWf_of_ok e (memWf_thRead h)
    split
    · split
      · next e1 => exact memWf_statBack (Th.memWf_of_ok e1 (memWf_thCheck ht))
      · exact memWf_probeFail ht (memWf_thCheck ht)
    · split
      · next t1 e1 =>
        have ht1 : t1.memWf := Th.memWf_of_ok e1 (memWf_probeHash ht)
        split
        · exact memWf_hashSend (memWf_dropTh ht1)
        · exact memWf_setTh ht1
      · next t1 e1 =>
        have ht1 : t1.memWf := Th.memWf_of_ok e1 (memWf_probeHash ht)
        split
        · exact memWf_hashSend (memWf_dropTh ht1)
        · exact memWf_thEnd ht1
      · exact memWf_probeFail ht (memWf_probeHash ht)
  · exact memWf_probeFail h (memWf_thRead h)

theorem memWf_probeStep {s : State} {t : ThReq} (h : s.memWf) : (s.probeStep t).memWf := by
  unfold State.probeStep
  split
  · exact memWf_thEnd h
  · split
    · next e => exact memWf_setTh (Th.memWf_of_ok e (memWf_thLine h))
    · next e =>
      extract_lets x _
      have hx : x.2.memWf := memWf_foldl_snd (fun _ _ w => memWf_rowSend w) (Th.memWf_of_ok e (memWf_thLine h))
      exact memWf_ite (memWf_setTh hx) (memWf_ite (memWf_probeDesc hx) (memWf_setTh hx))
    · next e => exact memWf_thMiss (Th.memWf_of_miss e (memWf_thLine h))
    · exact memWf_probeFail h (memWf_thLine h)

theorem memWf_thCharge {s : State} {t : ThReq} (h : s.memWf) : (s.thCharge t).memWf := memWf_charge h

theorem outWf_execThicketProbe {s : State} (h : s.memWf) : outWf (execThicketProbe s) := by
  unfold execThicketProbe
  split
  · exact h
  · split
    · exact h
    · split
      · exact memWf_probeStep (memWf_thCharge h)
      · split
        · exact h
        · exact memWf_probeStart (memWf_thCharge h)

theorem memWf_thDone {s : State} {t : ThReq} (h : s.memWf) : (s.thDone t).memWf := memWf_onFiring (memWf_dropTh h)

theorem memWf_updateFail {α : Type} {s : State} {t : ThReq} {x : Th α} (h : s.memWf) (h' : x.after.memWf) :
    (s.updateFail t x).memWf := by
  unfold State.updateFail
  split
  · exact h
  · exact memWf_thHalt h'
  · exact memWf_thMiss h'
  · exact memWf_thDone (memWf_thDescFault h')
  · exact memWf_thPoison h'
  · exact h'

theorem memWf_rowTodo {s : State} {t : ThReq} {d : Nat} (h : s.memWf) : (s.rowTodo t d).after.memWf := by
  unfold State.rowTodo
  dsimp only
  refine memWf_bind (memWf_thCheck h) (fun _ _ w => ?_)
  refine memWf_bind (memWf_check w) (fun _ _ w1 => ?_)
  refine memWf_bind (memWf_thHash w1) (fun _ _ w2 => ?_)
  refine memWf_bind ?_ (fun _ _ w3 => ?_)
  · split
    · exact memWf_thHash w2
    · exact w2
  · split <;> exact w3

theorem memWf_rowStart {s : State} {t : ThReq} {d : Nat} (h : s.memWf) : (s.rowStart t d).memWf := by
  unfold State.rowStart
  split
  · next e => exact memWf_setTh (Th.memWf_of_ok e (memWf_rowTodo h))
  · next e => exact memWf_thDone (Th.memWf_of_ok e (memWf_rowTodo h))
  · exact memWf_updateFail h (memWf_rowTodo h)

theorem memWf_rowStep {s : State} {t : ThReq} {d : Nat} (h : s.memWf) : (s.rowStep t d).memWf := by
  unfold State.rowStep
  split
  · exact memWf_thDone (memWf_thFull h)
  · split
    · split
      · next e => exact memWf_setTh (Th.memWf_of_ok e (memWf_thDelete h))
      · exact memWf_updateFail h (memWf_thDelete h)
    · split
      · next e => exact memWf_setTh (Th.memWf_of_ok e (memWf_thInsert h))
      · exact memWf_updateFail h (memWf_thInsert h)

theorem memWf_rehashStart {s : State} {t : ThReq} {d : Nat} (h : s.memWf) : (s.rehashStart t d).memWf := by
  unfold State.rehashStart
  split
  · split
    · next e => exact memWf_setTh (Th.memWf_of_ok e (memWf_thCheck h))
    · exact memWf_updateFail h (memWf_thCheck h)
  · dsimp only
    split
    · next e =>
      exact memWf_setTh (Th.memWf_of_ok e (memWf_bind (memWf_thCheck h) (fun _ _ w => memWf_bind (memWf_check w)
          (fun _ _ w1 => memWf_bind (memWf_thWhole w1) (fun _ _ w2 => memWf_thWrite w2)))))
    · exact memWf_updateFail h (memWf_bind (memWf_thCheck h) (fun _ _ w => memWf_bind (memWf_check w)
          (fun _ _ w1 => memWf_bind (memWf_thWhole w1) (fun _ _ w2 => memWf_thWrite w2))))

theorem memWf_oldRows {s : State} {t : ThReq} {d i : Nat} {l : List Nat} (h : s.memWf) : (s.oldRows t d i l).after.memWf := by
  induction l generalizing s with
  | nil =>
    unfold State.oldRows
    exact h
  | cons a l ih =>
    unfold State.oldRows
    exact memWf_bind (memWf_thChain h) (fun _ _ w => memWf_bind (ih w) (fun _ _ w1 => w1))

theorem memWf_insertAll {s : State} {t : ThReq} {r : Nat} {l : List (Nat × Nat)} (h : s.memWf) :
    (s.insertAll t r l).after.memWf := by
  induction l generalizing s with
  | nil =>
    unfold State.insertAll
    exact h
  | cons a l ih =>
    unfold State.insertAll
    exact memWf_bind (memWf_thRead h) (fun _ _ w => memWf_bind (memWf_thInsert w) (fun _ _ w1 => memWf_bind (ih w1)
        (fun _ _ w2 => w2)))

theorem memWf_moveRows {s : State} {t : ThReq} {d : Nat} {l : List Nat} (h : s.memWf) : (s.moveRows t d l).after.memWf := by
  induction l generalizing s with
  | nil =>
    unfold State.moveRows
    exact h
  | cons a l ih =>
    unfold State.moveRows
    refine memWf_bind (memWf_thHash h) (fun _ _ w => ?_)
    refine memWf_bind ?_ (fun _ _ w1 => ih (memWf_thFull w1))
    split
    · exact w
    · exact memWf_insertAll w

theorem memWf_rehashIndex {s : State} {t : ThReq} {d : Nat} (h : s.memWf) : (s.rehashIndex t d).after.memWf :=
  memWf_bind (memWf_oldRows h) (fun _ _ w => memWf_bind (memWf_moveRows w)
      (fun _ _ w1 => memWf_bind (memWf_thRead w1) (fun _ _ w2 => memWf_bind (memWf_thWrite w2) (fun _ _ w3 => w3))))

theorem memWf_rehashStep {s : State} {t : ThReq} {d : Nat} (h : s.memWf) : (s.rehashStep t d).memWf := by
  unfold State.rehashStep
  split
  · exact memWf_thDone h
  · split
    · next e => exact memWf_setTh (Th.memWf_of_ok e (memWf_rehashIndex h))
    · next e => exact memWf_setTh (Th.memWf_of_ok e (memWf_rehashIndex h))
    · exact memWf_updateFail h (memWf_rehashIndex h)

theorem memWf_policySet {s : State} {t : ThReq} {d : Nat} (h : s.memWf) : (s.policySet t d).memWf := by
  unfold State.policySet
  split
  · next e => exact memWf_thDone (Th.memWf_of_ok e (memWf_bind (memWf_thCheck h) (fun _ _ w => memWf_thWrite w)))
  · exact memWf_updateFail h (memWf_bind (memWf_thCheck h) (fun _ _ w => memWf_thWrite w))

theorem memWf_updateStep {s : State} {t0 : ThReq} (h : s.memWf) : (s.updateStep t0).memWf := by
  unfold State.updateStep
  extract_lets t own
  have hown : ∀ (d : Nat) (s1 : State), s1.memWf → (own d s1).after.memWf := by
    intro _ _ w
    dsimp only [own]
    split
    · exact w
    · exact memWf_bind (memWf_thOwn w) (fun _ _ w1 => w1)
  split
  · next t e =>
    have ht : t.memWf := Th.memWf_of_ok e (memWf_bind (memWf_thRead h) (fun _ _ w => hown _ _ w))
    split
    · split
      · exact memWf_rowStep ht
      · exact memWf_rowStart ht
    · split
      · exact memWf_rowStep ht
      · exact memWf_rowStart ht
    · split
      · exact memWf_rehashStep ht
      · exact memWf_rehashStart ht
    · exact memWf_policySet ht
    · exact ht
    · exact ht
    · exact ht
  · exact memWf_updateFail h (memWf_bind (memWf_thRead h) (fun _ _ w => hown _ _ w))

theorem outWf_execThicketUpdate {s : State} (h : s.memWf) : outWf (execThicketUpdate s) := by
  unfold execThicketUpdate
  split
  · exact h
  · split
    · exact h
    · split
      · exact memWf_ite (memWf_thDone h) h
      · split
        · exact h
        · exact memWf_updateStep (memWf_setTh (memWf_thCharge h))

/-! ### The system class -/

theorem memWf_broadcast {s : State} {v : Nat} (h : s.memWf) : (s.broadcast v).memWf := memWf_modVf h

theorem memWf_armWarn {s : State} {v : Nat} {x : Double} (h : s.memWf) : (s.armWarn v x).memWf :=
  memWf_broadcast (memWf_modVf h)

theorem memWf_coreScalar {s : State} (h : s.memWf) : s.coreScalar.memWf := by
  unfold State.coreScalar
  dsimp only
  split
  · exact memWf_modCc (fun _ w => w) (memWf_charge h)
  · exact memWf_charge h

theorem outWf_execQarmCi {a : Fin 32} {s : State} (h : s.memWf) : outWf (execQarmCi a s) := by
  unfold execQarmCi
  dsimp only [outWf]
  refine memWf_cnext ?_
  split
  · exact memWf_armWarn (memWf_coreScalar h)
  · exact memWf_coreScalar h

theorem outWf_execTrcCi {a : Fin 32} {c : BitVec 14} {s : State} (h : s.memWf) : outWf (execTrcCi a c s) := by
  unfold execTrcCi
  dsimp only
  dsimp only [outWf]
  refine memWf_cnext ?_
  split
  · exact memWf_sample (memWf_coreScalar h)
  · exact memWf_coreScalar h

theorem outWf_prio {s : State} {p : Nat} (h : s.memWf) : outWf (s.prio p) := memWf_adv (memWf_modFir h)

theorem outWf_execHeatqCi {d : Fin 32} {s : State} (h : s.memWf) : outWf (execHeatqCi d s) := by
  unfold execHeatqCi
  dsimp only
  dsimp only [outWf]
  refine memWf_put ?_
  split
  · exact memWf_coreScalar h
  · exact memWf_pick (memWf_coreScalar h)

/-! ### Partition saves and resumes -/

theorem memWf_abortFor {s : State} {vf : Nat} {d : Fin 2} (h : s.memWf) : (s.abortFor vf d).memWf := by
  unfold State.abortFor
  split
  · exact h
  · exact memWf_ite (memWf_modEng h) h

theorem memWf_heldToImage {s : State} {r : Root} (h : s.memWf) : (s.heldToImage r).memWf := by
  unfold State.heldToImage
  split
  · exact h
  · split
    · exact h
    · split
      · exact h
      · exact memWf_foldl (fun _ _ w => memWf_ite (memWf_saveToken w) (memWf_staleToken w)) (memWf_modRoot h)

theorem memWf_startSave {s : State} {vf cause : Nat} (h : s.memWf) : (s.startSave vf cause).memWf := by
  unfold State.startSave
  split
  · exact h
  · exact memWf_foldl (fun _ _ w => memWf_heldToImage w) (memWf_abortFor (memWf_abortFor (memWf_modVf h)))

theorem outWf_execSliceTick {s : State} (h : s.memWf) : outWf (execSliceTick s) := by
  unfold execSliceTick
  extract_lets v f s1 s2
  have hs1 : s1.memWf := memWf_modVf h
  have hs2 : s2.memWf := memWf_modVf hs1
  split
  · exact h
  · split
    · exact hs1
    · exact memWf_ite (memWf_startSave hs2) hs2

theorem memWf_sendMarker {s : State} {i : Inst} {r : BitVec 64} {src : Option Loc} (h : s.memWf) :
    (s.sendMarker i r src).memWf := memWf_launchTok h

theorem memWf_injectInst {s : State} {i : Inst} (h : s.memWf) : (s.injectInst i).memWf :=
  memWf_foldl (fun _ _ w => memWf_sendMarker w) (memWf_foldl (fun _ _ w => memWf_sendMarker w) h)

theorem outWf_execMarkerInjection {s : State} (h : s.memWf) : outWf (execMarkerInjection s) := by
  unfold execMarkerInjection
  dsimp only
  split
  · split
    · exact h
    · exact memWf_foldl (fun _ _ w => memWf_injectInst w) (memWf_modVf h)
  · exact h

theorem memWf_staBytes {s : State} {q : SavedStation} {r : StaRec} (h : s.memWf) : (s.staBytes q r).2.memWf := by
  unfold State.staBytes
  split
  · dsimp only
    exact memWf_pick h
  · exact h

theorem memWf_saveSlot {s : State} {i : Inst} {l : Loc} {rec_ : StaRec} (h : s.memWf) : (s.saveSlot i l rec_).memWf :=
  memWf_foldl (fun _ _ w => memWf_sendMarker w)
      (memWf_charge (memWf_charge (memWf_modSt (fun _ w => spWf_modCtx w) (memWf_modInst (memWf_staBytes h)))))

theorem outWf_execStationSave {s : State} (h : s.memWf) : outWf (execStationSave s) := by
  unfold execStationSave
  dsimp only
  split
  · exact h
  · split
    · exact h
    · split
      · exact memWf_saveSlot h
      · exact h

theorem memWf_savedInst {s : State} {i : Inst} (h : s.memWf) : (s.savedInst i).memWf :=
  memWf_ite h (memWf_roomFreed (memWf_modInst h))

theorem outWf_execHedgerowDrainComplete {s : State} (h : s.memWf) : outWf (execHedgerowDrainComplete s) := by
  unfold execHedgerowDrainComplete
  dsimp only
  split
  · exact h
  · split
    · exact h
    · split
      · exact h
      · exact memWf_savedInst (memWf_modSt (fun _ w => spWf_freeSlot w) (memWf_ite (memWf_modInst (memWf_raiseFence h)) h))

theorem memWf_resumeInst {s : State} {slice : Bool} {i : Inst} (h : s.memWf) : (s.resumeInst slice i).memWf :=
  memWf_queueRelink (memWf_sampleInst (memWf_modInst (memWf_newUid h)))

theorem memWf_resumeVf {s : State} {v : Nat} {slice : Bool} (h : s.memWf) : (s.resumeVf v slice).memWf :=
  memWf_roomFreed (memWf_roomFreed (memWf_foldl (fun _ _ w => memWf_resumeInst w) (memWf_modVf h)))

theorem memWf_askResume {s : State} {v : Nat} (h : s.memWf) : (s.askResume v).memWf := by
  unfold State.askResume
  split
  · exact h
  · exact memWf_modVf h
  · exact memWf_resumeVf h

theorem memWf_quotaRecord {s : State} {v : Nat} (h : s.memWf) : (s.quotaRecord v).memWf := memWf_partitionFault (memWf_pick h)

theorem memWf_completeSave {s : State} {v : Nat} (h : s.memWf) : (s.completeSave v).memWf := by
  unfold State.completeSave
  extract_lets f l s1 cut s2 s3
  have hs1 : s1.memWf := memWf_modVf h
  have hcut : ∀ (st : State) (d : Fin 2) (id : Nat), st.memWf → (cut st d id).memWf := fun _ _ _ w => memWf_modEng w
  have hs2 : s2.memWf := memWf_foldl (fun _ _ w => memWf_sampleInst (memWf_modInst (hcut _ _ _ (hcut _ _ _ w)))) hs1
  have hs3 : s3.memWf := memWf_ite (memWf_quotaRecord hs2) hs2
  exact memWf_ite (memWf_resumeVf hs3) (memWf_ite (memWf_resumeVf hs3) hs3)

theorem memWf_imagesPass {s : State} {l : List Inst} (h : s.memWf) : (s.imagesPass l).after.memWf := by
  induction l generalizing s with
  | nil =>
    unfold State.imagesPass
    exact h
  | cons a l ih =>
    unfold State.imagesPass
    dsimp only
    split
    · next e => exact ih (Got.memWf_of_ok e (memWf_arenaPages h))
    · exact memWf_arenaPages h

theorem outWf_execPartitionSaveComplete {s : State} (h : s.memWf) : outWf (execPartitionSaveComplete s) := by
  unfold execPartitionSaveComplete
  extract_lets v
  generalize hg : (if s.saveFits v 0 = true then s.imagesPass (s.savedOf v) else Got.fail codeArena 0 s) = g
  have hgw : g.after.memWf := by
    subst hg
    split
    · exact memWf_imagesPass h
    · exact h
  generalize s.savedOf v = l
  split
  · exact h
  · match l, g, hgw with
    | [], _, _ => exact memWf_completeSave h
    | _ :: _, .ok _ _, hgw => exact memWf_completeSave hgw
    | _ :: _, .wait _, hgw => exact hgw
    | _ :: _, .fail _ _ _, hgw => exact memWf_skipEvictee hgw

/-! ### Frames, translations and pages -/

theorem memWf_setFot {s : State} {n st owner : Nat} (h : s.memWf) : (s.setFot n st owner).memWf := memWf_modMm (fun _ w => w) h

theorem memWf_fotTake {s : State} {c : FotCmd} (h : s.memWf) : (s.fotTake c).memWf :=
  memWf_ite (memWf_setFot (memWf_modHost h)) (memWf_modHost h)

theorem memWf_fotWrite {s : State} {w : Double} {op : Nat} (h : s.memWf) : (s.fotWrite w op).memWf :=
  memWf_ite h (memWf_fotTake (memWf_modHost h))

theorem mmWf_dropFrame {m : MemSide} {n : Nat} (h : m.memWf) : (m.dropFrame n).memWf := h

theorem mmWf_zeroFrame {m : MemSide} {n : Nat} (h : m.memWf) : (m.zeroFrame n).memWf := Mem.filter_wf _ h

theorem mmWf_revertLine {m : MemSide} {l : Line} (h : m.memWf) : (m.revertLine l).memWf := Mem.write_wf _ _ _ h

theorem mmWf_revertFrame {m : MemSide} {n : Nat} (h : m.memWf) : (m.revertFrame n).memWf :=
  mmWf_foldl (fun _ _ w => mmWf_revertLine w) h

theorem optWf_fotFrame {s : State} {c : FotCmd} (h : s.memWf) : optWf (s.fotFrame c) := by
  unfold State.fotFrame
  dsimp only
  split
  · exact trivial
  · split
    · exact memWf_setFot (memWf_charge (memWf_modMm (fun _ w => mmWf_dropFrame (mmWf_zeroFrame w)) h))
    · split
      · exact memWf_setFot h
      · split
        · exact memWf_setFot (memWf_modMm (fun _ w => mmWf_dropFrame (mmWf_revertFrame w)) h)
        · exact trivial

theorem outWf_execFotFrameComplete {s : State} (h : s.memWf) : outWf (execFotFrameComplete s) := by
  unfold execFotFrameComplete
  split
  · exact h
  · split
    · exact memWf_modHost h
    · next t e =>
      have ht : t.memWf := memWf_of_some e (optWf_fotFrame h)
      split
      · exact memWf_modHost ht
      · exact memWf_fotTake ht

theorem memWf_tlbWrite {s : State} {w : Double} {kind : Nat} (h : s.memWf) : (s.tlbWrite w kind).memWf :=
  memWf_ite h (memWf_modHost h)

theorem mmWf_invalidate {m : MemSide} {c : TlbCmd} (h : m.memWf) : (m.invalidate c).memWf := h

theorem outWf_execTlbinvComplete {s : State} (h : s.memWf) : outWf (execTlbinvComplete s) := by
  unfold execTlbinvComplete
  split
  · exact h
  · exact memWf_ite h (memWf_modHost (memWf_modMm (fun _ w => mmWf_invalidate w) h))

theorem memWf_pageAccess {s : State} {p : PageReq} {fail : Option Bool} {a : Access} (h : s.memWf) :
    (s.pageAccess p fail a).memWf := by
  unfold State.pageAccess
  split
  · split
    · exact h
    · split
      · exact memWf_queueRelink (memWf_onFiring (memWf_modAcc h))
      · exact memWf_portFault h
  · exact h

theorem memWf_pageCopy {s : State} {p : PageReq} {fail : Option Bool} {c : Copy} (h : s.memWf) :
    (s.pageCopy p fail c).memWf := by
  unfold State.pageCopy
  split
  · exact h
  · dsimp only
    split
    · exact memWf_modCopy h
    · exact memWf_copyFault (memWf_modCopy h)

theorem memWf_pageThicket {s : State} {p : PageReq} {fail : Option Bool} {t : ThReq} (h : s.memWf) :
    (s.pageThicket p fail t).memWf := by
  unfold State.pageThicket
  split
  · exact h
  · extract_lets t1 s1
    have hs1 : s1.memWf := memWf_setTh h
    split
    · exact hs1
    · exact memWf_ite (memWf_thHalt hs1) (memWf_probeFail hs1 hs1)

theorem memWf_pageCore {s : State} {p : PageReq} {fail : Option Bool} {c : Fin 4} (h : s.memWf) : (s.pageCore p fail c).memWf :=
  memWf_ite h (memWf_modCore (fun _ w => w) h)

theorem memWf_pageRing {s : State} {f : PageFor} (h : s.memWf) : (s.pageRing f).memWf := by
  unfold State.pageRing
  split
  · exact memWf_flushFaults h
  · exact memWf_flushSamples h
  · exact h

theorem memWf_pageAnswer {s : State} {p : PageReq} {fail : Option Bool} (h : s.memWf) : (s.pageAnswer p fail).memWf :=
  memWf_arenaAnswered (memWf_pageRing
      (memWf_foldl (fun _ _ w => memWf_pageCore w)
      (memWf_foldl (fun _ _ w => memWf_pageThicket w)
      (memWf_foldl (fun _ _ w => memWf_pageCopy w)
      (memWf_foldl (fun _ _ w => memWf_pageAccess w) (memWf_modMm (fun _ w => w) h))))))

theorem memWf_pageResponse {s : State} {w : Double} {fail : Option Bool} (h : s.memWf) : (s.pageResponse w fail).memWf := by
  unfold State.pageResponse
  dsimp only
  split
  · exact memWf_modHost h
  · exact memWf_ite (memWf_modHost h) (memWf_pageAnswer h)

theorem memWf_abandonPages {s : State} {v : Nat} (h : s.memWf) : (s.abandonPages v).memWf := by
  unfold State.abandonPages
  dsimp only
  refine memWf_foldl (fun _ _ w => ?_) (memWf_modMm (fun _ w => w) h)
  split
  · exact memWf_ite (memWf_modCore (fun _ w1 => w1) w) w
  · exact w

/-! ### Errors in storage and on links -/

theorem memWf_corrected {s : State} (h : s.memWf) : s.corrected.memWf := memWf_modHost h

theorem memWf_uncorrected {s : State} (h : s.memWf) : s.uncorrected.memWf := memWf_modHost h

theorem memWf_killSram {s : State} {l : Loc} {c : Nat} (h : s.memWf) : (s.killSram l c).memWf := by
  unfold State.killSram
  dsimp only
  split
  · exact h
  · exact memWf_ite h (memWf_killInst (memWf_report h))

theorem memWf_shadowError {s : State} {l : Loc} (h : s.memWf) : (s.shadowError l).memWf := by
  unfold State.shadowError
  split
  · exact h
  · exact memWf_ite h (memWf_withdraw (memWf_reportHost h))

theorem outWf_execSramUncorrectable {s : State} (h : s.memWf) : outWf (execSramUncorrectable s) := by
  unfold execSramUncorrectable
  dsimp only
  split
  · exact h
  · split
    · exact memWf_killSram (memWf_uncorrected h)
    · exact memWf_foldl (fun _ _ w => memWf_killSram w) (memWf_uncorrected h)
    · exact memWf_shadowError (memWf_uncorrected h)

theorem memWf_dataLoss {s : State} {d : Fin 2} {pa v : Nat} (h : s.memWf) : (s.dataLoss d pa v).memWf :=
  memWf_killVf (memWf_report h)

theorem memWf_lossToHost {s : State} {d : Fin 2} {pa : Nat} (h : s.memWf) : (s.lossToHost d pa).memWf := memWf_reportHost h

theorem memWf_loseLine {s : State} {l : Line} (h : s.memWf) : (s.loseLine l).memWf :=
  memWf_modMm (fun _ w => mmWf_revertLine w) h

theorem memWf_tagError {s : State} {l : Line} {address : Bool} (h : s.memWf) : (s.tagError l address).memWf := by
  unfold State.tagError
  dsimp only
  split
  · exact memWf_modMm (fun _ w => w) h
  · split
    · exact memWf_lossToHost (memWf_loseLine h)
    · split
      · exact memWf_foldl (fun _ _ w => memWf_killVf w) (memWf_lossToHost (memWf_loseLine h))
      · split
        · exact memWf_dataLoss (memWf_loseLine h)
        · exact memWf_lossToHost (memWf_loseLine h)

theorem outWf_execTagUncorrectable {s : State} (h : s.memWf) : outWf (execTagUncorrectable s) := by
  unfold execTagUncorrectable
  split
  · split
    · exact h
    · exact memWf_modMm (fun _ w => w) (memWf_uncorrected h)
  · split
    · exact h
    · exact memWf_tagError (memWf_uncorrected h)

theorem outWf_execHbmPoison {s : State} (h : s.memWf) : outWf (execHbmPoison s) := by
  unfold execHbmPoison
  dsimp only
  split
  · exact memWf_modMm (fun _ w => w) (memWf_uncorrected h)
  · exact h

theorem memWf_bankLost {s : State} {l : Loc} (h : s.memWf) : (s.bankLost l).memWf := by
  unfold State.bankLost
  refine memWf_foldl (fun _ _ w => ?_) h
  dsimp only
  split
  · exact w
  · exact memWf_ite (memWf_killInst (memWf_partitionFault w)) w

theorem outWf_execRemapTableLoss {s : State} (h : s.memWf) : outWf (execRemapTableLoss s) := by
  unfold execRemapTableLoss
  dsimp only
  split
  · exact h
  · split
    · exact memWf_uncorrected h
    · exact memWf_foldl (fun _ _ w => memWf_bankLost w) (memWf_modQuad (memWf_reportHost (memWf_uncorrected h)))

theorem memWf_modPort {s : State} {n : Nat} {f : Port → Port} (h : s.memWf) : (s.modPort n f).memWf := memWf_modHost h

theorem outWf_execFlitCrcFail {s : State} (h : s.memWf) : outWf (execFlitCrcFail s) := by
  unfold execFlitCrcFail
  dsimp only
  split
  · exact h
  · exact memWf_modPort (memWf_corrected h)

theorem outWf_execPortRetrain {s : State} (h : s.memWf) : outWf (execPortRetrain s) := by
  unfold execPortRetrain
  dsimp only
  split
  · exact memWf_flushIrqs (memWf_modPort h)
  · exact h

/-! ### Commands of a partition -/

theorem memWf_cmdErr {s : State} {v : Nat} {e : Bool} (h : s.memWf) : (s.cmdErr v e).memWf := memWf_modVf h

theorem memWf_cmdOut {s : State} {v : Nat} {o : Option State} (h : s.memWf) (h' : optWf o) : (s.cmdOut v o).memWf := by
  cases o with
  | none => exact memWf_cmdErr h
  | some t => exact memWf_cmdErr h'

theorem memWf_killAll {s : State} {v : Nat} (h : s.memWf) : (s.killAll v).memWf :=
  memWf_killVf (memWf_foldl (fun _ _ w => memWf_killInst w) h)

theorem memWf_resetVf {s : State} {v : Nat} (h : s.memWf) : (s.resetVf v).memWf := by
  unfold State.resetVf
  extract_lets s1 _ s2
  have hs1 : s1.memWf := memWf_abandonPages (memWf_killAll h)
  have hs2 : s2.memWf := memWf_same hs1
  exact memWf_modVf hs2

theorem memWf_resumeParked {s : State} {i : Inst} (h : s.memWf) : (s.resumeParked i).memWf :=
  memWf_ite (memWf_modInst h) (memWf_ite (memWf_queueRelink (memWf_modInst h)) h)

theorem optWf_resumeFor {s : State} {seq : Nat} {r : FaultFor} (h : s.memWf) : optWf (s.resumeFor seq r) := by
  unfold State.resumeFor
  split
  · exact optWf_map (fun _ => memWf_queueRelink (memWf_onFiring h))
  · exact optWf_map (fun _ => memWf_queueRelink (memWf_onFiring (memWf_modAcc h)))
  · exact optWf_map (fun _ => memWf_queueRelink (memWf_modMm (fun _ w => w) (memWf_onStrand h)))
  · exact optWf_map (fun _ => memWf_queueRelink (memWf_modCopy h))
  · exact optWf_map (fun _ => memWf_queueRelink (memWf_setTh h))

theorem memWf_discardFiring {s : State} {l : Loc} {id fid : Nat} (h : s.memWf) : (s.discardFiring l id fid).memWf :=
  memWf_queueRelink (memWf_modMm (fun _ w => w) (memWf_modInst (memWf_modSt (fun _ w => w) h)))

theorem optWf_discardFor {s : State} {r : FaultFor} (h : s.memWf) : optWf (s.discardFor r) := by
  unfold State.discardFor
  split
  · exact optWf_map (fun _ => memWf_discardFiring h)
  · exact optWf_map (fun _ => memWf_discardFiring h)
  · exact h
  · exact optWf_map (fun _ => memWf_discardFiring (memWf_modMm (fun _ w => w) h))
  · refine optWf_map (fun _ => ?_)
    dsimp only
    split
    · exact memWf_discardFiring (memWf_dropTh h)
    · exact memWf_queueRelink (memWf_onFiring (memWf_dropTh h))

theorem memWf_usePending {s : State} {v seq : Nat} (h : s.memWf) : (s.usePending v seq).memWf := memWf_modVf h

theorem optWf_resumeFault {s : State} {v seq : Nat} (h : s.memWf) : optWf (s.resumeFault v seq) := by
  unfold State.resumeFault
  split
  · exact trivial
  · exact optWf_resumeFor (memWf_usePending h)

theorem optWf_discardFault {s : State} {v seq : Nat} (h : s.memWf) : optWf (s.discardFault v seq) := by
  unfold State.discardFault
  split
  · exact trivial
  · split
    · exact optWf_discardFor h
    · exact optWf_discardFor (memWf_usePending h)

theorem memWf_command {s : State} {v op : Nat} {w : Double} (h : s.memWf) : (s.command v op w).memWf := by
  unfold State.command
  dsimp only
  split
  · refine memWf_cmdOut h ?_
    split
    · exact trivial
    · exact memWf_startSave h
  · exact memWf_cmdOut h (memWf_askResume h)
  · exact memWf_cmdOut h (memWf_killAll h)
  · exact memWf_cmdOut h (memWf_resetVf h)
  · exact memWf_cmdOut h (optWf_map (fun _ => memWf_killInst h))
  · exact memWf_cmdOut h (optWf_map (fun _ => memWf_resumeParked h))
  · exact memWf_cmdOut h (optWf_resumeFault h)
  · exact memWf_cmdOut h (optWf_discardFault h)
  · exact h

theorem outWf_hostCmd {s : State} {op : Nat} (h : s.memWf) : outWf (s.hostCmd op) := memWf_ite (memWf_command h) h

/-! ### Energy and time -/

theorem memWf_share {s : State} {vf col n : Nat} (h : s.memWf) : (s.share vf col n).memWf := memWf_charge h

theorem memWf_leakSlot {s : State} {col n : Nat} {l : Loc} {c : Nat} (h : s.memWf) : (s.leakSlot col n l c).memWf := by
  unfold State.leakSlot
  split
  · exact memWf_modSt (fun _ w => spWf_modCtx w) (memWf_share h)
  · exact h

theorem memWf_leakSta {s : State} {col rate : Nat} {l : Loc} (h : s.memWf) : (s.leakSta col rate l).memWf := by
  unfold State.leakSta
  dsimp only
  split
  · split <;> exact memWf_share h
  · exact memWf_share (memWf_foldl (fun _ _ w => memWf_leakSlot w) h)

theorem memWf_leakQuad {s : State} {col die qx qy : Nat} (h : s.memWf) : (s.leakQuad col die qx qy).memWf :=
  memWf_ite (memWf_foldl (fun _ _ w => memWf_leakSta w) h) (memWf_share h)

theorem memWf_rowsSta {s : State} {col die : Nat} {l : Loc} (h : s.memWf) : (s.rowsSta col die l).memWf :=
  memWf_foldl (fun _ _ w => memWf_share w) h

theorem memWf_stackCost {s : State} {col stack : Nat} (h : s.memWf) : (s.stackCost col stack).memWf :=
  memWf_share (memWf_foldl (fun _ _ w => memWf_share w) h)

theorem memWf_sharedCosts {s : State} {col : Nat} (h : s.memWf) : (s.sharedCosts col).memWf :=
  memWf_foldl (fun _ _ w => memWf_stackCost w)
      (memWf_foldl (fun _ _ w => memWf_foldl (fun _ _ w1 => memWf_rowsSta w1) w)
      (memWf_foldl (fun _ _ w => memWf_leakQuad w) h))

theorem memWf_overheadAdd {s : State} {n : Int} (h : s.memWf) : (s.overheadAdd n).memWf := memWf_modHost h

theorem memWf_closeCol {s : State} {col : Nat} (h : s.memWf) : (s.closeCol col).memWf := memWf_modFab (fun _ w => w) h

theorem memWf_splitResid {s : State} {col measured : Nat} (h : s.memWf) : (s.splitResid col measured).memWf :=
  memWf_overheadAdd (memWf_modCol h)

theorem outWf_execColumnMeasurement {s : State} (h : s.memWf) : outWf (execColumnMeasurement s) := by
  unfold execColumnMeasurement
  dsimp only
  split
  · exact h
  · exact memWf_splitResid (memWf_closeCol (memWf_sharedCosts h))

theorem memWf_quotaWarn {s : State} {v : Nat} (h : s.memWf) : (s.quotaWarn v).memWf :=
  memWf_ite (memWf_sample (memWf_setEvent (memWf_modVf h))) h

theorem memWf_quotaOver {s : State} {v : Nat} (h : s.memWf) : (s.quotaOver v).memWf :=
  memWf_ite (memWf_startSave (memWf_sample (memWf_modVf h))) h

theorem memWf_autoResume {s : State} {v : Nat} {old : Int} (h : s.memWf) : (s.autoResume v old).memWf :=
  memWf_ite (memWf_askResume h) h

theorem memWf_debitVf {s : State} {l : List Charge} {v : Nat} (h : s.memWf) : (s.debitVf l v).memWf :=
  memWf_autoResume (memWf_quotaOver (memWf_broadcast (memWf_quotaWarn (memWf_modVf h))))

theorem outWf_execEnergyDebit {s : State} (h : s.memWf) : outWf (execEnergyDebit s) := by
  unfold execEnergyDebit
  split
  · exact h
  · exact memWf_modHost (memWf_modFab (fun _ w => w) (memWf_overheadAdd (memWf_foldl (fun _ _ w => memWf_debitVf w)
        (memWf_modFab (fun _ w => w) h))))

theorem outWf_execGrantUpdate {s : State} (h : s.memWf) : outWf (execGrantUpdate s) := by
  unfold execGrantUpdate
  dsimp only
  split
  · exact h
  · split
    · exact memWf_modCol h
    · exact h

theorem memWf_setQuota {s : State} {v : Nat} {q : Int} (h : s.memWf) : (s.setQuota v q).memWf :=
  memWf_autoResume (memWf_broadcast (memWf_modVf h))

theorem memWf_addQuota {s : State} {v : Nat} {x : Double} (h : s.memWf) : (s.addQuota v x).memWf := memWf_setQuota h

theorem memWf_setWarn {s : State} {v : Nat} {x : Double} (h : s.memWf) : (s.setWarn v x).memWf :=
  memWf_broadcast (memWf_modVf h)

theorem outWf_execTimeMessage {s : State} (h : s.memWf) : outWf (execTimeMessage s) := by
  unfold execTimeMessage
  split <;> exact h

/-! ### Queue interfaces -/

theorem memWf_passGrant {s : State} {c : Fin 4} (h : s.memWf) : (s.passGrant c).memWf := by
  unfold State.passGrant
  split
  · exact memWf_modQi h
  · exact h

theorem memWf_dropGrant {s : State} {q : Nat} (h : s.memWf) : (s.dropGrant q).memWf :=
  memWf_ite (memWf_passGrant (memWf_modQi h)) h

theorem memWf_keepFailed {s t : State} (h : t.memWf) : (s.keepFailed t).memWf := memWf_modMm (fun _ w => w) h

theorem memWf_complete {s : State} {q i status : Nat} (h : s.memWf) : (s.complete q i status).2.memWf := by
  unfold State.complete
  dsimp only
  split
  · next e => exact memWf_engineWrite (UOut.memWf_of_ok e (memWf_unitAccess h))
  · next e => exact memWf_modQi (UOut.memWf_of_fail e (memWf_unitAccess h))
  · next e => exact UOut.memWf_of_wait e (memWf_unitAccess h)

theorem memWf_cplIrq {s : State} {q : Nat} (h : s.memWf) : (s.cplIrq q).memWf := memWf_ite (memWf_sendIrq h) h

theorem memWf_notify {s : State} {q c : Nat} (h : s.memWf) : (s.notify q c).memWf :=
  memWf_ite h (memWf_ite (memWf_modQi h) (memWf_modQi h))

theorem outWf_execNotifyWrite {s : State} (h : s.memWf) : outWf (execNotifyWrite s) := by
  unfold execNotifyWrite
  dsimp only
  split
  · exact h
  · split
    · exact memWf_notify h
    · exact memWf_modQi h

theorem memWf_packetCounted {s : State} {q : Nat} (h : s.memWf) : (s.packetCounted q).memWf :=
  memWf_ite (memWf_dropGrant (memWf_modQi h)) (memWf_modQi h)

theorem memWf_refusePacket {s s0 : State} {q status : Nat} {count : Bool} (h : s.memWf) :
    (s.refusePacket s0 q status count).memWf := by
  unfold State.refusePacket
  extract_lets r s1
  have hr : r.2.memWf := memWf_complete h
  have hs1 : s1.memWf := memWf_packetCounted (memWf_cplIrq hr)
  exact memWf_ite (memWf_keepFailed hr) (memWf_ite (memWf_modQi hs1) hs1)

theorem memWf_accept {s : State} {q slot v : Nat} (h : s.memWf) : (s.accept q slot v).memWf :=
  memWf_packetCounted (memWf_setEvent (memWf_modCore (fun _ w => Mem.write_wf _ _ _ w) (memWf_modQi h)))

theorem outWf_execPacketRead {s : State} (h : s.memWf) : outWf (execPacketRead s) := by
  unfold execPacketRead
  extract_lets q x u
  have hu : u.2.memWf := memWf_newUid h
  split
  · exact h
  · split
    · exact memWf_modQi hu
    · split
      · next e => exact UOut.memWf_of_wait e (memWf_unitAccess h)
      · next e => exact memWf_refusePacket (UOut.memWf_of_fail e (memWf_unitAccess h))
      · next t e =>
        have ht : t.memWf := UOut.memWf_of_ok e (memWf_unitAccess h)
        split
        · exact memWf_refusePacket ht
        · extract_lets g
          have hg : g.2.memWf := memWf_serveRead ht
          split
          · exact memWf_refusePacket hg
          · split
            · exact hg
            · exact memWf_accept hg

theorem memWf_cfgWrite {s : State} {q : Nat} {w : Double} (h : s.memWf) : (s.cfgWrite q w).memWf :=
  memWf_ite (memWf_modQi h) (memWf_modQi (memWf_dropGrant (memWf_modQi h)))

theorem outWf_execHostRingPoll {s : State} (h : s.memWf) : outWf (execHostRingPoll s) := by
  unfold execHostRingPoll
  dsimp only
  split
  · exact h
  · exact memWf_flushPages (memWf_flushHostFaults (memWf_modHost h))

theorem outWf_execFaultRingPoll {s : State} (h : s.memWf) : outWf (execFaultRingPoll s) := by
  unfold execFaultRingPoll
  dsimp only
  split
  · exact h
  · exact memWf_flushFaults (memWf_modVf h)

theorem outWf_execHostWindowAccess {s : State} (h : s.memWf) : outWf (execHostWindowAccess s) := by
  unfold execHostWindowAccess
  dsimp only
  split
  · exact h
  · split
    · exact memWf_engineWrite h
    · exact memWf_homeRead h

/-! ### The register window -/

theorem memWf_sampCut {s : State} {v : Nat} (h : s.memWf) : (s.sampCut v).memWf := memWf_ite (memWf_modVf h) h

theorem memWf_ctlWrite {s : State} {v : Nat} {w : Double} (h : s.memWf) : (s.ctlWrite v w).memWf := by
  unfold State.ctlWrite
  dsimp only
  split
  · exact h
  · split
    · exact memWf_sampCut (memWf_broadcast (memWf_modVf h))
    · exact memWf_sampCut (memWf_modVf h)

theorem memWf_areaWrite {s : State} {v : Nat} {w : Double} (h : s.memWf) : (s.areaWrite v w).memWf := memWf_modVf h

theorem memWf_qiWrite {s : State} {q k : Nat} {w : Double} (h : s.memWf) : (s.qiWrite q k w).memWf := by
  unfold State.qiWrite
  split
  · exact memWf_cfgWrite h
  · exact memWf_modQi h
  · exact memWf_modQi h
  · exact memWf_modQi h
  · exact h

theorem memWf_faultqWrite {s : State} {v : Nat} {w : Double} (h : s.memWf) : (s.faultqWrite v w).memWf :=
  memWf_ite (memWf_flushFaults (memWf_modVf h)) (memWf_modVf h)

theorem memWf_sampqWrite {s : State} {v : Nat} {w : Double} (h : s.memWf) : (s.sampqWrite v w).memWf :=
  memWf_sampCut (memWf_modVf h)

theorem memWf_vfWrite {s : State} {v k : Nat} {w : Double} (h : s.memWf) : (s.vfWrite v k w).memWf := by
  unfold State.vfWrite
  split
  · exact memWf_ctlWrite h
  · exact memWf_setQuota h
  · exact memWf_addQuota h
  · exact memWf_setWarn h
  · exact memWf_modVf h
  · exact memWf_modVf h
  · exact memWf_modVf h
  · exact memWf_faultqWrite h
  · exact memWf_sampqWrite h
  · exact memWf_modVf h
  · exact memWf_roomFreed (memWf_roomFreed (memWf_modVf h))
  · exact memWf_modVf h
  · exact memWf_modVf h
  · exact memWf_modVf h
  · exact memWf_modVf h
  · exact memWf_modVf h
  · exact memWf_areaWrite h
  · exact memWf_command h
  · exact h

theorem memWf_colrateWrite {s : State} {n : Nat} {w : Double} (h : s.memWf) : (s.colrateWrite n w).memWf :=
  memWf_ite (memWf_modCol h) h

theorem memWf_runCore {s : State} {c : Fin 4} (h : s.memWf) : (s.runCore c).memWf :=
  memWf_ite h (memWf_same (memWf_modCore (fun _ w => w) h))

theorem memWf_doorbell {s : State} {c : Fin 4} (h : s.memWf) : (s.doorbell c).memWf := memWf_setEvent h

theorem memWf_corectlWrite {s : State} {c : Fin 4} {w : Double} (h : s.memWf) : (s.corectlWrite c w).memWf := by
  unfold State.corectlWrite
  dsimp only
  split
  · exact memWf_runCore (memWf_ite (memWf_doorbell h) h)
  · exact memWf_ite (memWf_doorbell h) h

theorem memWf_hostfqWrite {s : State} {w : Double} (h : s.memWf) : (s.hostfqWrite w).memWf :=
  memWf_ite (memWf_modHost h) (memWf_modHost (memWf_modHost h))

theorem memWf_attWrite {s : State} {w : Double} (h : s.memWf) : (s.attWrite w).memWf := by
  unfold State.attWrite
  split
  · exact h
  · dsimp only
    split
    · split
      · exact memWf_modHost (memWf_modHost h)
      · exact memWf_modHost (memWf_homeRead (memWf_modHost h))
    · exact memWf_modHost h

theorem memWf_pgrespWrite {s : State} {w : Double} (h : s.memWf) : (s.pgrespWrite w).memWf := by
  unfold State.pgrespWrite
  split
  · exact memWf_pageResponse h
  · exact memWf_pageResponse h
  · exact memWf_pageResponse h
  · exact h

theorem memWf_ceClear {s : State} (h : s.memWf) : s.ceClear.memWf := memWf_modHost h

theorem memWf_ueClear {s : State} (h : s.memWf) : s.ueClear.memWf := memWf_modHost h

theorem memWf_windowWrite {s : State} {off : Nat} {w : Double} (h : s.memWf) : (s.windowWrite off w).memWf := by
  unfold State.windowWrite
  split
  · exact memWf_qiWrite h
  · split
    · exact memWf_colrateWrite h
    · split
      · exact memWf_corectlWrite h
      · split
        · exact memWf_vfWrite h
        · split
          · exact memWf_modCore (fun _ w1 => Mem.write_wf _ _ _ w1) h
          · split
            · exact memWf_fotWrite h
            · exact memWf_tlbWrite h
            · exact memWf_hostfqWrite h
            · exact memWf_attWrite h
            · exact memWf_modHost h
            · exact memWf_ceClear h
            · exact memWf_ueClear h
            · exact memWf_modHost h
            · exact memWf_modHost h
            · exact memWf_pgrespWrite h
            · exact memWf_modHost h
            · exact memWf_modHost h
            · exact h

theorem memWf_windowStore {s : State} {off n v : Nat} (h : s.memWf) : (s.windowStore off n v).memWf := memWf_windowWrite h

theorem outWf_hostOut {s t : State} (h : s.memWf) (h' : t.memWf) : outWf (s.hostOut t) := memWf_ite h' h

theorem outWf_execAttestationReport {s : State} (h : s.memWf) : outWf (execAttestationReport s) := by
  unfold execAttestationReport
  split
  · exact h
  · dsimp only
    split
    · exact h
    · dsimp only [outWf]
      refine memWf_modHost (memWf_engineWrite ?_)
      split
      · exact memWf_homeRead h
      · exact h

/-! ### The control-core class: branches, loads and stores -/

theorem memWf_goTo {s : State} {a : Double} (h : s.memWf) : (s.goTo a).memWf := memWf_modCc (fun _ w => w) h

theorem outWf_branch {s : State} {c : Bool} {o : BitVec 14} (h : s.memWf) : outWf (s.branch c o) :=
  memWf_ite (memWf_goTo h) (memWf_cnext h)

theorem memWf_coreMem {s : State} {va pa vf n : Nat} (h : s.memWf) : (s.coreMem va pa vf n).after.memWf := by
  unfold State.coreMem
  split
  · exact h
  · split
    · exact memWf_coreTrap h
    · exact memWf_l1Read h

theorem memWf_coreRead {s : State} {va n : Nat} (h : s.memWf) : (s.coreRead va n).after.memWf := by
  unfold State.coreRead
  split
  · exact memWf_coreTrap h
  · split
    · exact h
    · extract_lets r
      have hr : r.2.memWf := memWf_coreRef h
      split
      · exact hr
      · exact hr
      · exact memWf_coreMem hr
      · exact memWf_coreTrap hr
      · exact hr

theorem outWf_execLdg {d a : Fin 32} {o : BitVec 12} {z : Size} {s : State} (h : s.memWf) : outWf (execLdg d a o z s) := by
  unfold execLdg
  split
  · next e => exact memWf_put (CoreGot.memWf_of_ok e (memWf_coreRead h))
  · next e => exact CoreGot.memWf_of_out e (memWf_coreRead h)

theorem lmWf_lmWrite {k : Core} {a n v : Nat} (h : k.lmWf) : (k.lmWrite a n v).lmWf := Mem.write_wf _ _ _ h

theorem outWf_execStg {d a : Fin 32} {o : BitVec 12} {z : Size} {s : State} (h : s.memWf) : outWf (execStg d a o z s) := by
  unfold execStg
  extract_lets va n x r
  have hr : r.2.memWf := memWf_coreRef h
  split
  · exact memWf_coreTrap h
  · split
    · exact memWf_coreTrap h
    · split
      · exact memWf_cnext (memWf_modCc (fun _ w => lmWf_lmWrite w) hr)
      · exact memWf_cnext (memWf_windowStore hr)
      · split
        · exact hr
        · exact memWf_cnext (memWf_bufferStore hr)
      · exact memWf_coreTrap hr
      · exact hr

theorem memWf_coreAcquire {s : State} {uids : List Nat} (h : s.memWf) : (s.coreAcquire uids).memWf :=
  memWf_modCc (fun _ w => w) h

theorem memWf_coreSync {s : State} {d : Fin 32} {pa vf : Nat} {clear : Bool} (h : s.memWf) :
    (s.coreSync d pa vf clear).memWf := by
  unfold State.coreSync
  dsimp only
  refine memWf_put (memWf_coreAcquire ?_)
  split
  · exact memWf_coreWritten (memWf_feSet (memWf_homeRead h))
  · exact memWf_freshRdc (memWf_homeRead h)

theorem outWf_execLdgf {d a : Fin 32} {o : BitVec 12} {c : Bool} {s : State} (h : s.memWf) : outWf (execLdgf d a o c s) := by
  unfold execLdgf
  extract_lets va r
  have hr : r.2.memWf := memWf_coreRef h
  split
  · exact memWf_coreTrap h
  · split
    · exact h
    · split
      · exact memWf_coreTrap hr
      · exact memWf_coreTrap hr
      · split
        · exact memWf_coreTrap hr
        · split
          · exact hr
          · split
            · exact memWf_coreTrap hr
            · split
              · exact memWf_coreSync hr
              · exact hr
      · exact memWf_coreTrap hr
      · exact hr

theorem outWf_execStgf {d a : Fin 32} {o : BitVec 12} {s : State} (h : s.memWf) : outWf (execStgf d a o s) := by
  unfold execStgf
  extract_lets va r
  have hr : r.2.memWf := memWf_coreRef h
  split
  · exact memWf_coreTrap h
  · split
    · exact memWf_coreTrap hr
    · exact memWf_coreTrap hr
    · split
      · exact memWf_coreTrap hr
      · split
        · exact hr
        · exact memWf_cnext (memWf_modCc (fun _ w => lmWf_l1Drop w) (memWf_bufferStore (memWf_modCc
              (fun _ w => lmWf_bar w) hr)))
    · exact memWf_coreTrap hr
    · exact hr

theorem outWf_execGfence {k : FenceKind} {sc : Scope} {s : State} (h : s.memWf) : outWf (execGfence k sc s) := by
  unfold execGfence
  split
  · exact h
  · exact memWf_cnext (memWf_modCc (fun _ w => w) h)

theorem memWf_gamoMem {s : State} {pa vf n v : Nat} {r : GOrder} {o : GamoOp} (h : s.memWf) :
    (s.gamoMem pa vf n v r o).2.memWf := by
  unfold State.gamoMem
  extract_lets c g rels rdc covers own s1 s2 s3
  have hg : g.2.memWf := memWf_homeRead h
  have hs1 : s1.memWf := memWf_modCc (fun _ w => w) (memWf_serveWrite hg)
  have hs2 : s2.memWf := memWf_ite hs1 (memWf_modMm (fun _ w => w) hs1)
  have hs3 : s3.memWf := memWf_coreWritten hs2
  dsimp only
  split
  · exact memWf_coreAcquire hs3
  · exact hs3
  · exact hs3

theorem memWf_gamoAt {s : State} {va n v : Nat} {r : GOrder} {o : GamoOp} (h : s.memWf) :
    (s.gamoAt va n v r o).after.memWf := by
  unfold State.gamoAt
  extract_lets x
  have hx : x.2.memWf := memWf_coreRef h
  split
  · exact memWf_modCc (fun _ w => lmWf_lmWrite w) hx
  · exact memWf_windowStore hx
  · split
    · exact hx
    · split
      · exact memWf_coreTrap hx
      · exact memWf_gamoMem hx
  · exact memWf_coreTrap hx
  · exact hx

theorem outWf_execGamo {d a b : Fin 32} {w : Width} {r : GOrder} {o : GamoOp} {s : State} (h : s.memWf) :
    outWf (execGamo d a b w r o s) := by
  unfold execGamo
  dsimp only
  split
  · exact memWf_coreTrap h
  · split
    · exact memWf_coreTrap h
    · split
      all_goals
        split
        · exact h
        · split
          · next e => exact memWf_put (CoreGot.memWf_of_ok e (memWf_gamoAt h))
          · next e => exact CoreGot.memWf_of_out e (memWf_gamoAt h)

/-! ### The control-core class: launches, sinks and system registers -/

theorem memWf_rootId {s : State} {seq : Nat} (h : s.memWf) : (s.rootId seq).2.memWf := by
  unfold State.rootId
  dsimp only
  exact memWf_pick h

theorem memWf_addRoot {s : State} {v idx p id : Nat} (h : s.memWf) : (s.addRoot v idx p id).memWf :=
  memWf_sampleInst (memWf_queueLaunch h)

theorem memWf_launch {s : State} {d : Fin 32} {v idx p : Nat} (h : s.memWf) : (s.launch d v idx p).memWf := by
  unfold State.launch
  split
  · exact memWf_put h
  · dsimp only
    split
    · exact h
    · exact memWf_put (memWf_addRoot (memWf_rootId h))

theorem memWf_launchWith {d : Fin 32} {v idx p : Nat} {g : Got Image} (h : g.after.memWf) :
    (State.launchWith d v idx p g).memWf := by
  unfold State.launchWith
  split
  · exact memWf_launch h
  · exact memWf_launch h
  · exact memWf_ite (memWf_put h) (memWf_launch h)

theorem memWf_launchBlock {s : State} {d : Fin 32} {v idx p : Nat} (h : s.memWf) : (s.launchBlock d v idx p).memWf := by
  unfold State.launchBlock
  dsimp only
  split
  · exact memWf_put h
  · split
    · exact memWf_put h
    · split
      · exact memWf_launchWith (memWf_needImage h)
      · split
        · next e => exact Got.memWf_of_wait e (memWf_knotEntry h)
        · next e => exact memWf_launch (Got.memWf_of_fail e (memWf_knotEntry h))
        · next e => exact memWf_launchWith (memWf_firstUse (Got.memWf_of_ok e (memWf_knotEntry h)))

theorem outWf_execLnch {d a b : Fin 32} {s : State} (h : s.memWf) : outWf (execLnch d a b s) := by
  unfold execLnch
  split
  · exact memWf_put h
  · split
    · exact memWf_put h
    · split
      · next e => exact CoreGot.memWf_of_out e (memWf_coreRead h)
      · next e => exact memWf_launchBlock (CoreGot.memWf_of_ok e (memWf_coreRead h))

theorem memWf_injStale {s : State} {h1 : Double} (h : s.memWf) : (s.injStale h1).memWf := by
  unfold State.injStale
  split
  · exact h
  · exact memWf_partitionFault h

theorem memWf_inject {s : State} {r : Root} {i : Inst} {e : Nat} {h1 v : Double} (h : s.memWf) :
    (s.inject r i e h1 v).memWf := by
  unfold State.inject
  split
  · exact memWf_ite h (memWf_cnext (memWf_queueRelink (memWf_modRoot h)))
  · exact memWf_ite (memWf_cnext (memWf_injStale h)) (memWf_cnext (memWf_saveToken h))
  · exact memWf_ite (memWf_cnext (memWf_injStale h)) (memWf_cnext (memWf_launchTok h))

theorem outWf_execInj {a b : Fin 32} {e : Fin 16} {s : State} (h : s.memWf) : outWf (execInj a b e s) := by
  unfold execInj
  dsimp only
  split
  · exact h
  · split
    · exact memWf_cnext (memWf_injStale h)
    · split
      · exact memWf_cnext (memWf_injStale h)
      · exact memWf_inject h

theorem outWf_execKnwait {d a : Fin 32} {s : State} (h : s.memWf) : outWf (execKnwait d a s) := by
  unfold execKnwait
  split
  · exact memWf_put h
  · split
    · exact h
    · exact memWf_put (memWf_coreAcquire h)

theorem memWf_forCurVf {s : State} {f : State → Nat → State} (h : s.memWf) (hf : ∀ (t : State) (n : Nat), t.memWf →
    (f t n).memWf) : (s.forCurVf f).memWf := by
  unfold State.forCurVf
  split
  · exact hf _ _ h
  · exact h

theorem memWf_knotReg {s : State} {x : Double} (h : s.memWf) : (s.knotReg x).memWf :=
  memWf_forCurVf h (fun _ _ w => memWf_dropCopies w)

theorem memWf_hFree {s : State} {x : Double} (h : s.memWf) : (s.hFree x).memWf := memWf_forCurVf h (fun _ _ w => w)

theorem memWf_clearEvents {s : State} {x : Double} (h : s.memWf) : (s.clearEvents x).memWf := memWf_modCc (fun _ w => w) h

theorem memWf_knotCount {s : State} {v : Nat} {x : Double} (h : s.memWf) : (s.knotCount v x).memWf :=
  memWf_ite (memWf_modVf h) (memWf_modVf (memWf_pick h))

theorem memWf_curvfTo {s : State} {x : Double} (h : s.memWf) : (s.curvfTo x).2.memWf := by
  unfold State.curvfTo
  dsimp only
  split
  · exact memWf_modCc (fun _ w => w) h
  · split
    · next e => exact Got.memWf_of_wait e (memWf_rangeTable h)
    · next e => exact memWf_coreTrap (Got.memWf_of_fail e (memWf_rangeTable h))
    · next e => exact memWf_modCc (fun _ w => w) (Got.memWf_of_ok e (memWf_rangeTable h))

theorem memWf_sysWrite {s : State} {r : SysReg} {x : Double} (h : s.memWf) : (s.sysWrite r x).2.memWf := by
  unfold State.sysWrite
  split
  · exact memWf_modCc (fun _ w => w) h
  · exact memWf_modCc (fun _ w => w) h
  · exact memWf_modCc (fun _ w => w) h
  · exact memWf_modCc (fun _ w => w) h
  · exact memWf_modCc (fun _ w => w) h
  · exact memWf_curvfTo h
  · exact h
  · exact memWf_clearEvents h
  · exact memWf_modCc (fun _ w => w) h
  · exact memWf_modCc (fun _ w => w) h
  · exact memWf_forCurVf h (fun _ _ w => memWf_modVf w)
  · exact memWf_forCurVf h (fun _ _ w => memWf_knotCount w)
  · exact memWf_knotReg h
  · exact memWf_hFree h
  · exact h

theorem outWf_execSrw {d : Fin 32} {r : SysReg} {s : State} (h : s.memWf) : outWf (execSrw d r s) := by
  unfold execSrw
  split
  · exact memWf_coreTrap h
  · exact memWf_ite (memWf_cnext (memWf_sysWrite h)) (memWf_sysWrite h)

theorem outWf_execWfe {s : State} (h : s.memWf) : outWf (execWfe s) := by
  unfold execWfe
  split
  · exact memWf_coreTrap h
  · split
    · exact memWf_cnext (memWf_modCc (fun _ w => w) h)
    · exact memWf_modCc (fun _ w => w) h

theorem outWf_execQpop {d a : Fin 32} {s : State} (h : s.memWf) : outWf (execQpop d a s) := by
  unfold execQpop
  split
  · exact memWf_coreTrap h
  · split
    · exact memWf_put h
    · exact memWf_put (memWf_modCc (fun _ w => w) h)

theorem memWf_slotFreed {s : State} {n : Nat} (h : s.memWf) : (s.slotFreed n).memWf :=
  memWf_passGrant (memWf_modCc (fun _ w => w) h)

theorem memWf_finish {s : State} {n : Nat} {e : IntakeSlot} {status : Nat} (h : s.memWf) : (s.finish n e status).memWf := by
  unfold State.finish
  split
  · exact memWf_cnext (memWf_slotFreed h)
  · dsimp only
    split
    · exact memWf_cnext (memWf_cplIrq (memWf_slotFreed (memWf_complete h)))
    · exact memWf_complete h

theorem outWf_execQdone {a b : Fin 32} {s : State} (h : s.memWf) : outWf (execQdone a b s) := by
  unfold execQdone
  split
  · exact memWf_coreTrap h
  · split
    · exact memWf_coreTrap h
    · split
      · exact h
      · exact memWf_finish h

theorem outWf_execIrq {a : Fin 32} {s : State} (h : s.memWf) : outWf (execIrq a s) := by
  unfold execIrq
  dsimp only
  split
  · exact h
  · split
    · exact memWf_cnext (memWf_modHost h)
    · exact memWf_cnext (memWf_sendIrq h)

theorem outWf_execInterrupt {s : State} (h : s.memWf) : outWf (execInterrupt s) := by
  unfold execInterrupt
  dsimp only [outWf]
  split
  · exact memWf_coreTrap h
  · exact h

theorem memWf_reset : State.reset.memWf := by
  refine memWf_mk rfl (fun c => ?_) (fun p hp => absurd hp (by simp))
  rw [Core.lmWf, Fin.getElem_fin, Vector.getElem_replicate]
  rfl

/-! ### Bring-up -/

theorem memWf_restart {s : State} {powered : Bool} (h : s.memWf) : (s.restart powered).memWf :=
  memWf_mk (Mem.filter_wf _ (memWf_mm h)) (fun _ => memWf_core memWf_reset) (memWf_fab memWf_reset)

theorem outWf_execFaladeVerify {s : State} (h : s.memWf) : outWf (execFaladeVerify s) := by
  unfold execFaladeVerify
  split
  · exact h
  · split <;> exact memWf_modBoot h

theorem outWf_execSupplyRaise {s : State} (h : s.memWf) : outWf (execSupplyRaise s) := by
  unfold execSupplyRaise
  split
  · exact h
  · exact memWf_modBoot (memWf_modFab (fun _ w => w) h)

theorem outWf_execHbmTrain {s : State} (h : s.memWf) : outWf (execHbmTrain s) := by
  unfold execHbmTrain
  split
  · exact h
  · exact memWf_modBoot (memWf_modFab (fun _ w => w) (memWf_modMm (fun _ w => w) h))

theorem outWf_execMicrocodeVerify {s : State} (h : s.memWf) : outWf (execMicrocodeVerify s) := by
  unfold execMicrocodeVerify
  split
  · exact h
  · dsimp only
    split <;> exact memWf_modBoot (memWf_foldl (fun _ _ w => memWf_modQuad w) h)

theorem outWf_execSimiowTrain {s : State} (h : s.memWf) : outWf (execSimiowTrain s) := by
  unfold execSimiowTrain
  split
  · exact h
  · exact memWf_flushIrqs (memWf_modBoot (memWf_modPort (memWf_modPort h)))

/-! ### Scalar floating point -/

theorem outWf_fpOut {s : State} {d : Fin 8} {srcs : List Sel} {f : FpFmt} {rm : Rm} {x : Num} (h : s.memWf) :
    outWf (s.fpOut d srcs f rm x) := memWf_adv (memWf_wr (memWf_modCx (memWf_eat h)))

/-! ### The token class -/

theorem outWf_execSinkw {a : Sel} {k : Fin 8} {s : State} (h : s.memWf) : outWf (execSinkw a k s) := by
  unfold execSinkw
  dsimp only
  split
  · exact memWf_adv (memWf_sendSink (memWf_modFir (memWf_eat h)))
  · exact memWf_adv (memWf_modFir (memWf_eat h))

theorem memWf_noteExit {s : State} {k : Nat} (h : s.memWf) : (s.noteExit k).memWf := memWf_modFir h

theorem memWf_sendExit {s : State} {k : Nat} {p : Payload} (h : s.memWf) : (s.sendExit k p).memWf :=
  memWf_emitTok (memWf_noteExit h)

theorem outWf_execExit {a : Sel} {k : Fin 16} {n : Bool} {s : State} (h : s.memWf) : outWf (execExit a k n s) := by
  unfold execExit
  split
  · exact memWf_trapIns h
  · extract_lets s1 others
    have hs1 : s1.memWf := memWf_sendExit (memWf_eat h)
    exact memWf_adv (memWf_ite (memWf_foldl (fun _ _ w => memWf_sendExit w) hs1) hs1)

theorem outWf_execExits {a : Sel} {k : Fin 16} {i : BitVec 16} {s : State} (h : s.memWf) : outWf (execExits a k i s) := by
  unfold execExits
  split
  · exact memWf_trapIns h
  · exact memWf_adv (memWf_modFir (memWf_sendExit (memWf_eat h)))

theorem outWf_execSteer {a : Sel} {t f : Fin 16} {p : Sel} {s : State} (h : s.memWf) : outWf (execSteer a t f p s) := by
  unfold execSteer
  refine outWf_claiming h (fun _ w => ?_)
  dsimp only
  split <;> exact memWf_adv (memWf_emitTok (memWf_emitTok (memWf_eat w)))

theorem memWf_thinRoom {s : State} {l : Loc} (h : s.memWf) : (s.thinRoom l).memWf := by
  unfold State.thinRoom
  dsimp only
  split
  · exact h
  · split
    · exact h
    · split
      · exact memWf_modSt (fun _ w => spWf_modCtx w) (memWf_takeRows h)
      · split
        · exact memWf_modSt (fun _ w => spWf_modCtx w) (memWf_arenaTake (memWf_takeRows h))
        · exact memWf_arenaTake (memWf_takeRows h)

theorem outWf_thinRead {s : State} {target thread : Nat} {k : State → Out} (h : s.memWf) (hf : ∀ t : State, t.memWf → outWf
    (k t)) : outWf (s.thinRead target thread k) := by
  unfold State.thinRead
  split
  · exact hf _ h
  · split
    · next e => exact hf _ (ArenaGot.memWf_of_ok e (memWf_arenaRead h))
    · next e => exact ArenaGot.memWf_of_wait e (memWf_arenaRead h)
    · next e => exact ArenaGot.memWf_of_gone e (memWf_arenaRead h)

theorem memWf_thinGet {s : State} {target thread : Nat} {g : Option Nat} (h : s.memWf) :
    (s.thinGet target thread g).2.memWf := by
  unfold State.thinGet
  dsimp only
  split
  · split
    · exact h
    · dsimp only
      split
      · exact memWf_arenaDrop (memWf_modCx (memWf_charge (memWf_thinRoom h)))
      · exact memWf_modCx (memWf_charge (memWf_thinRoom h))
  · split
    · exact h
    · exact memWf_modCx (memWf_thinRoom h)

theorem memWf_thinPut {s : State} {t : ThinCounter} (h : s.memWf) : (s.thinPut t).memWf := memWf_modCx (memWf_newUid h)

theorem memWf_thinPad {s : State} {arc n n1 : Nat} (h : s.memWf) : (s.thinPad arc n n1).memWf := by
  induction n generalizing s arc n1 with
  | zero =>
    unfold State.thinPad
    exact h
  | succ n ih =>
    unfold State.thinPad
    exact ih (memWf_emitTok h)

theorem outWf_execThin {a : Sel} {r : Fin 16} {p : Sel} {g : BitVec 8} {s : State} (h : s.memWf) :
    outWf (execThin a r p g s) := by
  unfold execThin
  dsimp only
  split
  · exact outWf_claiming h (fun _ w => memWf_adv (memWf_eat w))
  · refine outWf_claiming h (fun _ w => ?_)
    refine outWf_thinRead h (fun _ w1 => ?_)
    split
    · exact memWf_adv (memWf_thinGet (memWf_eat (memWf_claim w1)))
    · exact memWf_adv (memWf_thinPut (memWf_emitTok (memWf_thinGet (memWf_eat (memWf_claim w1)))))

theorem memWf_padding {s : State} {name : Nat} (h : s.memWf) : (s.padding name).memWf := memWf_modFir h

theorem memWf_oneEntry {s : State} {f : Firing} (h : s.memWf) : (s.oneEntry f).memWf := memWf_modFir h

theorem memWf_padGroup {s : State} {arc n c : Nat} (h : s.memWf) : (s.padGroup arc n c).memWf :=
  memWf_oneEntry (memWf_thinPad (memWf_padding (memWf_newUid h)))

theorem outWf_execThend {r : Fin 16} {s : State} (h : s.memWf) : outWf (execThend r s) := by
  unfold execThend
  dsimp only
  refine outWf_claiming h (fun _ w => ?_)
  refine outWf_thinRead h (fun _ w1 => ?_)
  split
  · exact memWf_adv (memWf_thinGet (memWf_claim w1))
  · exact memWf_adv (memWf_thinPut (memWf_padGroup (memWf_thinGet (memWf_claim w1))))

/-! ### Every instruction and every step -/

/-- Every instruction and every step keeps the canonical form. -/
theorem outWf_exec {i : Instr} {s : State} (h : s.memWf) : outWf (exec i s) := by
  cases i with
  | emit | emitr => exact outWf_claiming h (fun _ w => memWf_adv (memWf_emitTok (memWf_eat w)))
  | emit2 => exact outWf_claiming h (fun _ w => memWf_adv (memWf_emitTok (memWf_emitTok (memWf_eat w))))
  | emitt | emitn => exact outWf_claiming h (fun _ w => memWf_adv (memWf_emitTok w))
  | exit => exact outWf_execExit h
  | exits => exact outWf_execExits h
  | tget | instid | areaq | plstat => exact memWf_adv (memWf_wr h)
  | tset | tadd => exact memWf_adv (memWf_modFir (memWf_eat h))
  | lgate => exact memWf_adv (memWf_wr (memWf_modFir (memWf_modCx h)))
  | steer => exact outWf_execSteer h
  | thin => exact outWf_execThin h
  | thend => exact outWf_execThend h
  | sinkw => exact outWf_execSinkw h
  | drop => exact outWf_claiming h (fun _ w => memWf_adv w)
  | trap => exact memWf_trapIns h
  | add | sub | addi | mul | mulh | mulhn | div | divn | rem | remn | and | or | xor | andn | andi | ori | xori | shl | shr
  | sra | shli | shri | srai | rotl | clz | ctz | popc | min | minn | max | maxn | slt | sltn | slti | seq | sne | csel
  | mov | movi | movk | exts | extz | bfi | adds | subs | abs | neg | lea | cpstat | fcmp | hfr | qrd | emtr | heatq =>
    exact memWf_result h
  | addCr | subCr | addiCi | mulCr | mulhCr | mulhnCr | divCr | divnCr | remCr | remnCr | andCr | orCr | xorCr | andnCr
  | andiCi | oriCi | xoriCi | shlCr | shrCr | sraCr | shliCi | shriCi | sraiCi | rotlCr | clzCr | ctzCr | popcCr | minCr
  | minnCr | maxCr | maxnCr | sltCr | sltnCr | sltiCi | seqCr | sneCr | cselCr | movCr | moviCi | movkCi | extsCr | extzCr
  | bfiCr | addsCr | subsCr | absCr | negCr | leaCr =>
    exact memWf_put h
  | beq | bne | blt | bge | bltn | bgen => exact outWf_branch h
  | jmp => exact memWf_goTo h
  | jal => exact memWf_goTo (memWf_modCc (fun _ w => lmWf_setReg w) h)
  | jr => exact memWf_ite (memWf_coreTrap h) (memWf_goTo h)
  | ldg => exact outWf_execLdg h
  | stg => exact outWf_execStg h
  | ldgf => exact outWf_execLdgf h
  | stgf => exact outWf_execStgf h
  | lnch => exact outWf_execLnch h
  | inj => exact outWf_execInj h
  | snkr => exact memWf_put (memWf_modCc (fun _ w => w) h)
  | knwait => exact outWf_execKnwait h
  | srr => exact memWf_ite (memWf_coreTrap h) (memWf_put h)
  | srw => exact outWf_execSrw h
  | qpop => exact outWf_execQpop h
  | qdone => exact outWf_execQdone h
  | irq => exact outWf_execIrq h
  | gfence => exact outWf_execGfence h
  | gamo => exact outWf_execGamo h
  | sdef => exact outWf_execSdef h
  | slen => exact outWf_execSlen h
  | sgo => exact outWf_execSgo h
  | lds _ _ _ i => exact outWf_execLds i h
  | sts => exact outWf_execSts h
  | ldsp => exact outWf_aligned h (outWf_valid h (memWf_result h))
  | stsp => exact outWf_execStsp h
  | ldf => exact outWf_execLdf h
  | stf => exact outWf_execStf h
  | fec => exact outWf_execFec h
  | feq => exact outWf_execFeq h
  | gath => exact outWf_execGath h
  | scat => exact outWf_execScat h
  | scadd => exact outWf_execScadd h
  | scflush => exact memWf_adv (memWf_issueAcc h)
  | copy => exact outWf_execCopy h
  | pref => exact outWf_execPref h
  | sbar => exact memWf_adv (memWf_foldl (fun _ _ w => memWf_modMine w) h)
  | ldm => exact outWf_aligned h (memWf_adv (memWf_pend (memWf_issueAcc (memWf_eat h))))
  | stm | stmf => exact outWf_storing h (outWf_aligned h (memWf_adv (memWf_issueAcc (memWf_eat h))))
  | ldmf => exact outWf_aligned h (memWf_adv (memWf_stallOn (memWf_pend (memWf_issueAcc (memWf_eat h)))))
  | tld => exact outWf_execTld h
  | tst => exact outWf_execTst h
  | fence => exact outWf_execFence h
  | barj => exact outWf_execBarj h
  | aadd | amin | amax | aminn | amaxn | aand | aor | axor | axchg | acas | afadd => exact outWf_atomic h
  | call | callf => exact outWf_callSite h
  | knotq => exact outWf_execKnotq h
  | vadd | vmul | vmin | vmax => exact outWf_vec2 h
  | vsub => exact outWf_execVsub h
  | vfma => exact outWf_execVfma h
  | vabs | vneg | vrcp | vrsq | vexp2 | vlog2 => exact outWf_vec1 h
  | vcvt => exact outWf_execVcvt h
  | vscl => exact outWf_execVscl h
  | vreds => exact outWf_execVreds h
  | vredx => exact outWf_execVredx h
  | vcmp => exact outWf_execVcmp h
  | vsel => exact outWf_execVsel h
  | vbcast => exact memWf_adv (memWf_setTile (memWf_eat h))
  | vext => exact outWf_execVext h
  | vdot => exact outWf_execVdot h
  | vshf => exact outWf_execVshf h
  | fadd | fsub | fmul | ffma | fmin | fmax => exact outWf_fpOut h
  | fcvt => exact memWf_adv (memWf_wr (memWf_modCx (memWf_eat h)))
  | vseed => exact memWf_adv (memWf_modCx (memWf_eat h))
  | tcfg => exact outWf_execTcfg h
  | tzero | tmov => exact memWf_adv (memWf_setTile h)
  | txp => exact outWf_execTxp h
  | mma | mmas | accld => exact outWf_matIssue h
  | accrd => exact outWf_execAccrd h
  | wpre => exact outWf_execWpre h
  | afeed => exact outWf_execAfeed h
  | hfw => exact memWf_adv (memWf_modVf (memWf_eat h))
  | hash | tprb => exact outWf_probeIns h
  | tins | tdel => exact outWf_rowIns h
  | trhs => exact outWf_execTrhs h
  | tfen _ sc => exact outWf_execTfen sc h
  | tstat => exact outWf_execTstat h
  | tovp => exact outWf_execTovp h
  | qarm => exact memWf_adv (memWf_armWarn (memWf_eat h))
  | trc => exact memWf_adv (memWf_sample (memWf_eat h))
  | time => exact memWf_result (memWf_modFir h)
  | qrdCi | emtrCi => exact memWf_put (memWf_coreScalar h)
  | qarmCi => exact outWf_execQarmCi h
  | trcCi => exact outWf_execTrcCi h
  | timeCi => exact memWf_put (memWf_modCc (fun _ w => w) (memWf_coreScalar h))
  | heatqCi => exact outWf_execHeatqCi h
  | nop => exact memWf_adv h
  | lfree | ret => exact memWf_adv (memWf_modFir h)
  | eret => exact memWf_ite (memWf_modCc (fun _ w => lmWf_eret w) h) (memWf_coreTrap h)
  | wfe => exact outWf_execWfe h
  | stilePlot | stileDie | stileDevice | stileSystem => exact outWf_stile h
  | accclr0 | accclr1 | accclr2 | accclr3 | accclr4 | accclr5 | accclr6 | accclr7 => exact outWf_accclr h
  | prio0 | prio1 | prio2 | prio3 | prio4 | prio5 | prio6 | prio7 => exact outWf_prio h
  | yield => exact memWf_adv (memWf_modCx h)
  | tokenArrival => exact outWf_execTokenArrival h
  | frameFire => exact outWf_execFrameFire h
  | firingCommit => exact outWf_execFiringCommit h
  | frameResume => exact outWf_execFrameResume h
  | entryReturn => exact outWf_execEntryReturn h
  | loopCredit => exact outWf_execLoopCredit h
  | barrierJoin => exact outWf_execBarrierJoin h
  | sinkWrite => exact outWf_execSinkWrite h
  | callRequest => exact outWf_execCallRequest h
  | spawnRequest => exact outWf_execSpawnRequest h
  | placementStart => exact outWf_execPlacementStart h
  | placementCommit => exact outWf_execPlacementCommit h
  | commitAcknowledged => exact outWf_execCommitAcknowledged h
  | placementAbort => exact outWf_execPlacementAbort h
  | evictionStart => exact outWf_execEvictionStart h
  | evictionComplete => exact outWf_execEvictionComplete h
  | savedGranuleTest => exact outWf_execSavedGranuleTest h
  | areaArbiterPass => exact outWf_execAreaArbiterPass h
  | fencedToken => exact outWf_execFencedToken h
  | sweepArrival => exact outWf_execSweepArrival h
  | strandElementIssue => exact outWf_execStrandElementIssue h
  | memoryRequest => exact outWf_execMemoryRequest h
  | walkReadComplete => exact outWf_execWalkReadComplete h
  | accessReturn => exact outWf_execAccessReturn h
  | rdcInvalidation => exact outWf_execRdcInvalidation h
  | binApply => exact outWf_execBinApply h
  | copyGranule => exact outWf_execCopyGranule h
  | heatBucketCycle => exact memWf_foldl (fun _ _ w => memWf_heatStall w) (memWf_heatGrants (memWf_modCol h))
  | matrixEntryStart => exact outWf_execMatrixEntryStart h
  | matrixEntryEnd => exact outWf_execMatrixEntryEnd h
  | partialArrival => exact outWf_execPartialArrival h
  | thicketProbe => exact outWf_execThicketProbe h
  | thicketUpdate => exact outWf_execThicketUpdate h
  | interrupt => exact outWf_execInterrupt h
  | notifyWrite => exact outWf_execNotifyWrite h
  | packetRead => exact outWf_execPacketRead h
  | hostRingPoll => exact outWf_execHostRingPoll h
  | faultRingPoll => exact outWf_execFaultRingPoll h
  | flitCrcFail => exact outWf_execFlitCrcFail h
  | timeMessage => exact outWf_execTimeMessage h
  | columnMeasurement => exact outWf_execColumnMeasurement h
  | energyDebit => exact outWf_execEnergyDebit h
  | grantUpdate => exact outWf_execGrantUpdate h
  | sliceTick => exact outWf_execSliceTick h
  | markerInjection => exact outWf_execMarkerInjection h
  | stationSave => exact outWf_execStationSave h
  | hedgerowDrainComplete => exact outWf_execHedgerowDrainComplete h
  | partitionSaveComplete => exact outWf_execPartitionSaveComplete h
  | correctedError => exact memWf_ite (memWf_corrected h) h
  | sramUncorrectable => exact outWf_execSramUncorrectable h
  | tagUncorrectable => exact outWf_execTagUncorrectable h
  | hbmPoison => exact outWf_execHbmPoison h
  | remapTableLoss => exact outWf_execRemapTableLoss h
  | powerOnReset | powerOff => exact memWf_restart h
  | faladeVerify => exact outWf_execFaladeVerify h
  | supplyRaise => exact outWf_execSupplyRaise h
  | hbmTrain => exact outWf_execHbmTrain h
  | microcodeVerify => exact outWf_execMicrocodeVerify h
  | simiowTrain => exact outWf_execSimiowTrain h
  | powerDieFault | flashRecovery | mapOutListClear => exact memWf_ite (memWf_modBoot h) h
  | registerWrite => exact outWf_hostOut h (memWf_windowStore h)
  | scrub | assign | release => exact memWf_ite (memWf_fotWrite h) h
  | fotFrameComplete => exact outWf_execFotFrameComplete h
  | tlbinvAll | tlbinvStage1 | tlbinvStage2 => exact memWf_ite (memWf_tlbWrite h) h
  | tlbinvComplete => exact outWf_execTlbinvComplete h
  | pageResponseResolved | pageResponseFailedHost | pageResponseFailedTenant => exact memWf_ite (memWf_pageResponse h) h
  | qiCfgWrite => exact memWf_ite (memWf_cfgWrite h) h
  | cecountClear => exact outWf_hostOut h (memWf_ceClear h)
  | uecountClear => exact outWf_hostOut h (memWf_ueClear h)
  | attreq => exact outWf_hostOut h (memWf_attWrite h)
  | attestationReport => exact outWf_execAttestationReport h
  | run => exact outWf_hostOut h (memWf_runCore h)
  | doorbell => exact outWf_hostOut h (memWf_doorbell h)
  | ctlWrite => exact outWf_hostOut h (memWf_ctlWrite h)
  | quotaWrite => exact outWf_hostOut h (memWf_setQuota h)
  | qadd => exact outWf_hostOut h (memWf_addQuota h)
  | warnWrite => exact outWf_hostOut h (memWf_setWarn h)
  | areaWrite => exact outWf_hostOut h (memWf_areaWrite h)
  | save | resume | killall | reset | killinst | resumeinst | resumeFault | discardFault => exact outWf_hostCmd h
  | knotreg => exact memWf_knotReg h
  | hfree => exact memWf_hFree h
  | eventsClear => exact memWf_clearEvents h
  | curvfWrite => exact memWf_curvfTo h
  | illegal | fetch => exact memWf_coreTrap h
  | portRetrain => exact outWf_execPortRetrain h
  | hostWindowAccess => exact outWf_execHostWindowAccess h

/-! ### The step -/

theorem outWf_step {s : State} (h : s.memWf) : outWf (step s) := by
  unfold step
  extract_lets t
  have ht : t.2.memWf := memWf_nextTurn h
  split
  · exact memWf_clockTick ht
  · dsimp only
    split
    · exact memWf_coreIssue ht
    · exact outWf_exec (memWf_coreIssue ht)
  · split
    · exact ht
    · exact memWf_bodyEnd (memWf_atStation ht)
    · exact trivial
    · exact outWf_exec (memWf_atStation ht)
  · split
    · exact outWf_exec (memWf_withArg ht)
    · exact ht

/-- Settles O60: every turn, and every instruction or step that it issues, keeps the canonical form of the byte memories. -/
theorem everyStepKeepsMemoriesCanonical : Obligations.EveryStepKeepsMemoriesCanonical := by
  unfold Obligations.EveryStepKeepsMemoriesCanonical
  intro s t h hs
  exact (congrArg outWf hs).mp (outWf_step h)

end Sys2Proof.Machine
end

section
/-!
SUPPORT. Laws of the encoding (R58 to R74). A word is read by readers of single fields and written by joining fields from the
highest to the lowest. Each reader accepts a value exactly where the bits of its field are the code of the value; with that, a
word that decodes is put together again from its fields, and the fields of an encoded word are the codes of its operands.
The statements of the encoding, O59 and O57, are settled from these.
-/

namespace Sys2Proof.Encoding

/-! ### Codes: the decoder's table is the inverse of the encoder's (R62 to R65, R183, R440) -/

/-- The table f reads the codes c back, and nothing else. -/
def Inverts {α : Type} (f : Nat → Option α) (c : α → Nat) : Prop := ∀ k v, f k = some v ↔ k = c v

theorem Inverts.code_inj {α : Type} {f : Nat → Option α} {c : α → Nat} (h : Inverts f c) (u v : α) :
    c u = c v ↔ u = v := by
  rw [← h (c u) v, (h (c u) u).mpr rfl, Option.some.injEq]

theorem inverts_of {α : Type} {f : Nat → Option α} {c : α → Nat} (hc : ∀ v, f (c v) = some v)
    (hf : ∀ {k v}, f k = some v → k = c v) : Inverts f c := fun _ v => ⟨hf, fun h => h ▸ hc v⟩

theorem scope_inverts : Inverts Scope.ofCode Scope.code :=
  inverts_of (fun v => by cases v <;> rfl) fun h => by unfold Scope.ofCode at h; split at h <;> cases h <;> rfl

theorem rm_inverts : Inverts Rm.ofCode Rm.code :=
  inverts_of (fun v => by cases v <;> rfl) fun h => by unfold Rm.ofCode at h; split at h <;> cases h <;> rfl

theorem fenceKind_inverts : Inverts FenceKind.ofCode FenceKind.code :=
  inverts_of (fun v => by cases v <;> rfl) fun h => by unfold FenceKind.ofCode at h; split at h <;> cases h <;> rfl

theorem size_inverts : Inverts Size.ofCode Size.code :=
  inverts_of (fun v => by cases v <;> rfl) fun h => by unfold Size.ofCode at h; split at h <;> cases h <;> rfl

theorem eSize_inverts : Inverts ESize.ofCode ESize.code :=
  inverts_of (fun v => by cases v <;> rfl) fun h => by unfold ESize.ofCode at h; split at h <;> cases h <;> rfl

theorem gOrder_inverts : Inverts GOrder.ofCode GOrder.code :=
  inverts_of (fun v => by cases v <;> rfl) fun h => by unfold GOrder.ofCode at h; split at h <;> cases h <;> rfl

theorem gamoOp_inverts : Inverts GamoOp.ofCode GamoOp.code :=
  inverts_of (fun v => by cases v <;> rfl) fun h => by unfold GamoOp.ofCode at h; split at h <;> cases h <;> rfl

theorem tagField_inverts : Inverts TagField.ofCode TagField.code :=
  inverts_of (fun v => by cases v <;> rfl) fun h => by unfold TagField.ofCode at h; split at h <;> cases h <;> rfl

theorem fpFmt_inverts : Inverts FpFmt.ofCode FpFmt.code :=
  inverts_of (fun v => by cases v <;> rfl) fun h => by unfold FpFmt.ofCode at h; split at h <;> cases h <;> rfl

theorem cvtFmt_inverts : Inverts CvtFmt.ofCode CvtFmt.code :=
  inverts_of (fun v => by cases v <;> rfl) fun h => by unfold CvtFmt.ofCode at h; split at h <;> cases h <;> rfl

theorem pred_inverts : Inverts Pred.ofCode Pred.code :=
  inverts_of (fun v => by cases v <;> rfl) fun h => by unfold Pred.ofCode at h; split at h <;> cases h <;> rfl

theorem hReg_inverts : Inverts HReg.ofCode HReg.code :=
  inverts_of (fun v => by cases v <;> rfl) fun h => by unfold HReg.ofCode at h; split at h <;> cases h <;> rfl

theorem ovPolicy_inverts : Inverts OvPolicy.ofCode OvPolicy.code :=
  inverts_of (fun v => by cases v <;> rfl) fun h => by unfold OvPolicy.ofCode at h; split at h <;> cases h <;> rfl

theorem meter_inverts : Inverts Meter.ofCode Meter.code :=
  inverts_of (fun v => by cases v <;> rfl) fun h => by unfold Meter.ofCode at h; split at h <;> cases h <;> rfl

theorem scType_inverts : Inverts ScType.ofCode ScType.code :=
  inverts_of (fun v => by cases v <;> rfl) fun h => by unfold ScType.ofCode at h; split at h <;> cases h <;> rfl

theorem tWidth_inverts : Inverts TWidth.ofCode TWidth.code :=
  inverts_of (fun v => by cases v <;> rfl) fun h => by unfold TWidth.ofCode at h; split at h <;> cases h <;> rfl

theorem xWidth_inverts : Inverts XWidth.ofCode XWidth.code :=
  inverts_of (fun v => by cases v <;> rfl) fun h => by unfold XWidth.ofCode at h; split at h <;> cases h <;> rfl

theorem width_inverts : Inverts Width.ofCode Width.code :=
  inverts_of (fun v => by cases v <;> rfl) fun h => by unfold Width.ofCode at h; split at h <;> cases h <;> rfl

theorem sysReg_inverts : Inverts SysReg.ofCode SysReg.code :=
  inverts_of (fun v => by cases v <;> rfl) fun h => by unfold SysReg.ofCode at h; split at h <;> cases h <;> rfl

/-! ### Readers: each accepts a value where the bits of its field are the code of the value -/

section
variable {n lo w : Nat}

theorem fld_lt (n lo w : Nat) : fld n lo w < 2 ^ w := Nat.mod_lt _ (Nat.two_pow_pos w)

theorem unused_eq_ok {u : Unit} : unused n lo w = .ok u ↔ fld n lo w = 0 := by
  unfold unused
  split <;> simp [*]

theorem mustBe_eq_ok {v : Nat} {u : Unit} : mustBe n lo w v = .ok u ↔ fld n lo w = v := by
  unfold mustBe
  split <;> simp [*]

theorem tmpF_eq_ok {d : Fin 8} : tmpF n lo = .ok d ↔ fld n lo 4 = d.val := by
  unfold tmpF
  split
  · simp [Fin.ext_iff]
  · simp
    omega

theorem fin12F_eq_ok {d : Fin 12} : fin12F n lo = .ok d ↔ fld n lo 4 = d.val := by
  unfold fin12F
  split
  · simp [Fin.ext_iff]
  · simp
    omega

theorem selF_eq_ok {s : Sel} : selF n lo = .ok s ↔ fld n lo 4 = s.code := by
  have hlt : fld n lo 4 < 16 := fld_lt n lo 4
  unfold selF
  generalize fld n lo 4 = c at hlt
  dsimp only
  cases s with
  | t k | i k | tg | z | q k => split_ifs <;> simp [Sel.code, Fin.ext_iff] <;> omega

/-- A field of w bits read as a number below 2^w. -/
theorem finF_eq_ok {m : Nat} [NeZero m] (hm : m = 2 ^ w) {v : Fin m} :
    (Except.ok (Fin.ofNat m (fld n lo w)) : Except Reject (Fin m)) = .ok v ↔ fld n lo w = v.val := by
  have hlt : fld n lo w < m := hm ▸ fld_lt n lo w
  simp [Fin.ext_iff, Nat.mod_eq_of_lt hlt]

theorem boolF_eq_ok {b : Bool} : boolF n lo = .ok b ↔ fld n lo 1 = b.toNat := by
  have hlt : fld n lo 1 < 2 := fld_lt n lo 1
  unfold boolF
  cases b with
  | false =>
    simp
    omega
  | true => simp

theorem immF_eq_ok {v : BitVec w} : immF w n lo = .ok v ↔ fld n lo w = v.toNat := by
  unfold immF
  simp [← BitVec.toNat_inj, Nat.mod_eq_of_lt (fld_lt n lo w)]

theorem enumF_eq_ok {α : Type} {f : Nat → Option α} {c : α → Nat} (h : Inverts f c) {v : α} :
    enumF f n lo w = .ok v ↔ fld n lo w = c v := by
  rw [← h]
  unfold enumF
  split <;> simp [*]

end

/-- Bits [10:7] of SDEF: its arc number (R69). -/
def arcBits : StrandDest → Fin 16
  | .arc a => a
  | .sp | .q _ => 0

/-- Bits [4:3] of SDEF: the kind of its destination (R69). -/
def kindBits : StrandDest → Fin 4
  | .sp => 0
  | .q q => ⟨1 + q.val, by omega⟩
  | .arc _ => 3

theorem strandDest_codeBits_eq (y : StrandDest) : y.codeBits = shl (arcBits y).val 7 + shl (kindBits y).val 3 := by
  cases y <;> simp [StrandDest.codeBits, arcBits, kindBits, shl, Nat.add_comm]

theorem sdestF_eq_ok {n : Nat} {y : StrandDest} :
    sdestF n = .ok y ↔ fld n 7 4 = (arcBits y).val ∧ fld n 3 2 = (kindBits y).val := by
  have ha : fld n 7 4 < 16 := fld_lt n 7 4
  have hk : fld n 3 2 < 4 := fld_lt n 3 2
  unfold sdestF
  generalize fld n 7 4 = a at ha
  generalize fld n 3 2 = k at hk
  cases y with
  | sp | q k | arc a => split_ifs <;> simp [arcBits, kindBits, Fin.ext_iff] <;> omega

/-- Bits [2:1] of an atomic (R70, R284). -/
def orderBits : AtomOrder → Fin 4
  | .relaxed => 0
  | .acq _ => 1
  | .rel _ => 2

/-- Bits [5:3] of an atomic; a relaxed one has no scope, and the code 0 there (R70, R284). -/
def scopeBits : AtomOrder → Fin 8
  | .relaxed => 0
  | .acq s | .rel s => ⟨s.code, by have := Laws.scope_code_le s; omega⟩

theorem atomOrder_codeBits_eq (o : AtomOrder) : o.codeBits = shl (scopeBits o).val 3 + shl (orderBits o).val 1 := by
  cases o <;> simp [AtomOrder.codeBits, orderBits, scopeBits, shl, Nat.add_comm]

theorem aordF_eq_ok {n : Nat} {o : AtomOrder} :
    aordF n = .ok o ↔ fld n 3 3 = (scopeBits o).val ∧ fld n 1 2 = (orderBits o).val := by
  unfold aordF
  split
  case h_1 hk hs | h_2 hk hs | h_3 hk hs =>
    rw [scope_inverts] at hs
    rw [hk, hs]
    cases o <;> simp [orderBits, scopeBits, show Scope.firing.code = 0 from rfl, scope_inverts.code_inj, eq_comm]
  case h_4 h0 h1 h2 =>
    refine iff_of_false nofun fun ⟨hc, hk⟩ => ?_
    cases o with
    | relaxed => exact h0 hk ((scope_inverts _ _).mpr hc)
    | acq s => exact h1 s hk ((scope_inverts _ _).mpr hc)
    | rel s => exact h2 s hk ((scope_inverts _ _).mpr hc)

/-- The laws of all readers, as one set of rewriting rules. -/
theorem reader_eq_ok {n : Nat} :
    (∀ lo w u, unused n lo w = .ok u ↔ fld n lo w = 0) ∧
    (∀ lo w v u, mustBe n lo w v = .ok u ↔ fld n lo w = v) ∧
    (∀ lo v, tmpF n lo = .ok v ↔ fld n lo 4 = v.val) ∧
    (∀ lo v, selF n lo = .ok v ↔ fld n lo 4 = v.code) ∧
    (∀ lo v, boolF n lo = .ok v ↔ fld n lo 1 = v.toNat) ∧
    (∀ lo v, fin4F n lo = .ok v ↔ fld n lo 2 = v.val) ∧
    (∀ lo v, fin8F n lo = .ok v ↔ fld n lo 3 = v.val) ∧
    (∀ lo v, fin12F n lo = .ok v ↔ fld n lo 4 = v.val) ∧
    (∀ lo v, fin16F n lo = .ok v ↔ fld n lo 4 = v.val) ∧
    (∀ lo v, fin32F n lo = .ok v ↔ fld n lo 5 = v.val) ∧
    (∀ lo v, fin64F n lo = .ok v ↔ fld n lo 6 = v.val) ∧
    (∀ lo w (v : BitVec w), immF w n lo = .ok v ↔ fld n lo w = v.toNat) ∧
    (∀ v, sdestF n = .ok v ↔ fld n 7 4 = (arcBits v).val ∧ fld n 3 2 = (kindBits v).val) ∧
    (∀ v, aordF n = .ok v ↔ fld n 3 3 = (scopeBits v).val ∧ fld n 1 2 = (orderBits v).val) ∧
    (∀ lo w v, enumF Scope.ofCode n lo w = .ok v ↔ fld n lo w = v.code) ∧
    (∀ lo w v, enumF Rm.ofCode n lo w = .ok v ↔ fld n lo w = v.code) ∧
    (∀ lo w v, enumF FenceKind.ofCode n lo w = .ok v ↔ fld n lo w = v.code) ∧
    (∀ lo w v, enumF Size.ofCode n lo w = .ok v ↔ fld n lo w = v.code) ∧
    (∀ lo w v, enumF ESize.ofCode n lo w = .ok v ↔ fld n lo w = v.code) ∧
    (∀ lo w v, enumF GOrder.ofCode n lo w = .ok v ↔ fld n lo w = v.code) ∧
    (∀ lo w v, enumF GamoOp.ofCode n lo w = .ok v ↔ fld n lo w = v.code) ∧
    (∀ lo w v, enumF TagField.ofCode n lo w = .ok v ↔ fld n lo w = v.code) ∧
    (∀ lo w v, enumF FpFmt.ofCode n lo w = .ok v ↔ fld n lo w = v.code) ∧
    (∀ lo w v, enumF CvtFmt.ofCode n lo w = .ok v ↔ fld n lo w = v.code) ∧
    (∀ lo w v, enumF Pred.ofCode n lo w = .ok v ↔ fld n lo w = v.code) ∧
    (∀ lo w v, enumF HReg.ofCode n lo w = .ok v ↔ fld n lo w = v.code) ∧
    (∀ lo w v, enumF OvPolicy.ofCode n lo w = .ok v ↔ fld n lo w = v.code) ∧
    (∀ lo w v, enumF Meter.ofCode n lo w = .ok v ↔ fld n lo w = v.code) ∧
    (∀ lo w v, enumF ScType.ofCode n lo w = .ok v ↔ fld n lo w = v.code) ∧
    (∀ lo w v, enumF TWidth.ofCode n lo w = .ok v ↔ fld n lo w = v.code) ∧
    (∀ lo w v, enumF XWidth.ofCode n lo w = .ok v ↔ fld n lo w = v.code) ∧
    (∀ lo w v, enumF Width.ofCode n lo w = .ok v ↔ fld n lo w = v.code) ∧
    (∀ lo w v, enumF SysReg.ofCode n lo w = .ok v ↔ fld n lo w = v.code) :=
  ⟨fun _ _ _ => unused_eq_ok, fun _ _ _ _ => mustBe_eq_ok, fun _ _ => tmpF_eq_ok, fun _ _ => selF_eq_ok,
    fun _ _ => boolF_eq_ok, fun _ _ => finF_eq_ok rfl, fun _ _ => finF_eq_ok rfl, fun _ _ => fin12F_eq_ok,
    fun _ _ => finF_eq_ok rfl, fun _ _ => finF_eq_ok rfl, fun _ _ => finF_eq_ok rfl, fun _ _ _ => immF_eq_ok,
    fun _ => sdestF_eq_ok, fun _ => aordF_eq_ok,
    fun _ _ _ => enumF_eq_ok scope_inverts, fun _ _ _ => enumF_eq_ok rm_inverts, fun _ _ _ => enumF_eq_ok fenceKind_inverts,
    fun _ _ _ => enumF_eq_ok size_inverts, fun _ _ _ => enumF_eq_ok eSize_inverts, fun _ _ _ => enumF_eq_ok gOrder_inverts,
    fun _ _ _ => enumF_eq_ok gamoOp_inverts, fun _ _ _ => enumF_eq_ok tagField_inverts,
    fun _ _ _ => enumF_eq_ok fpFmt_inverts, fun _ _ _ => enumF_eq_ok cvtFmt_inverts, fun _ _ _ => enumF_eq_ok pred_inverts,
    fun _ _ _ => enumF_eq_ok hReg_inverts, fun _ _ _ => enumF_eq_ok ovPolicy_inverts,
    fun _ _ _ => enumF_eq_ok meter_inverts, fun _ _ _ => enumF_eq_ok scType_inverts,
    fun _ _ _ => enumF_eq_ok tWidth_inverts, fun _ _ _ => enumF_eq_ok xWidth_inverts,
    fun _ _ _ => enumF_eq_ok width_inverts, fun _ _ _ => enumF_eq_ok sysReg_inverts⟩

theorem bind_eq_ok {α β : Type} {x : Except Reject α} {f : α → Except Reject β} {v : β} :
    (x >>= f) = .ok v ↔ ∃ a, x = .ok a ∧ f a = .ok v := by
  cases x with
  | error r => exact iff_of_false nofun nofun
  | ok a => exact ⟨fun h => ⟨a, rfl, h⟩, fun ⟨_, ha, h⟩ => by cases ha; exact h⟩

theorem pure_eq_ok {i j : Instr} : (pure i : Except Reject Instr) = .ok j ↔ i = j := Except.ok.injEq i j ▸ Iff.rfl

/-! ### Codes tell their values apart, and fit their fields -/

theorem sel_code_inj (s t : Sel) : s.code = t.code ↔ s = t := by
  have read (u : Sel) : selF u.code 0 = .ok u := selF_eq_ok.mpr (by
    simp only [fld, Nat.pow_zero, Nat.div_one]
    exact Nat.mod_eq_of_lt (Laws.sel_code_lt u))
  exact ⟨fun h => Except.ok.inj ((read s).symm.trans (h ▸ read t)), congrArg _⟩

theorem bool_toNat_inj (b c : Bool) : b.toNat = c.toNat ↔ b = c := by
  cases b <;> cases c <;> simp

theorem strandDest_bits_inj (y z : StrandDest) :
    (arcBits y = arcBits z ∧ kindBits y = kindBits z) ↔ y = z := by
  refine ⟨fun ⟨harc, hkind⟩ => ?_, fun h => h ▸ ⟨rfl, rfl⟩⟩
  have read (u : StrandDest) (ha : arcBits y = arcBits u) (hk : kindBits y = kindBits u) :
      sdestF y.codeBits = .ok u := sdestF_eq_ok.mpr (by
    rw [strandDest_codeBits_eq, ← ha, ← hk]
    simp only [fld, shl]
    omega)
  exact Except.ok.inj ((read y rfl rfl).symm.trans (read z harc hkind))

theorem atomOrder_bits_inj (o p : AtomOrder) :
    (scopeBits o = scopeBits p ∧ orderBits o = orderBits p) ↔ o = p := by
  refine ⟨fun h => ?_, fun h => h ▸ ⟨rfl, rfl⟩⟩
  cases o <;> cases p <;> simp [scopeBits, orderBits, scope_inverts.code_inj] at h ⊢ <;> exact h

/-- A code with a bound, as a bounded number: omega knows the bound of a `Fin`. -/
def bits {α : Type} {c : α → Nat} {m : Nat} (h : ∀ v, c v ≤ m) (v : α) : Fin (m + 1) := ⟨c v, Nat.lt_succ_of_le (h v)⟩

theorem Inverts.bits_inj {α : Type} {f : Nat → Option α} {c : α → Nat} {m : Nat} (hf : Inverts f c) (h : ∀ v, c v ≤ m)
    (u v : α) : bits h u = bits h v ↔ u = v := Fin.ext_iff.trans (hf.code_inj u v)

theorem sel_code_le (s : Sel) : s.code ≤ 15 := Nat.le_of_lt_succ (Laws.sel_code_lt s)

/-- Every code is a bounded number, as one set of rewriting rules. -/
theorem code_eq_bits :
    (∀ s : Sel, s.code = (bits sel_code_le s).val) ∧
    (∀ b : Bool, b.toNat = (bits Bool.toNat_le b).val) ∧
    (∀ v : Scope, v.code = (bits Laws.scope_code_le v).val) ∧
    (∀ v : Rm, v.code = (bits Laws.rm_code_le v).val) ∧
    (∀ v : FenceKind, v.code = (bits Laws.fenceKind_code_le v).val) ∧
    (∀ v : Size, v.code = (bits Laws.size_code_le v).val) ∧
    (∀ v : ESize, v.code = (bits Laws.eSize_code_le v).val) ∧
    (∀ v : GOrder, v.code = (bits Laws.gOrder_code_le v).val) ∧
    (∀ v : GamoOp, v.code = (bits Laws.gamoOp_code_le v).val) ∧
    (∀ v : TagField, v.code = (bits Laws.tagField_code_le v).val) ∧
    (∀ v : FpFmt, v.code = (bits Laws.fpFmt_code_le v).val) ∧
    (∀ v : CvtFmt, v.code = (bits Laws.cvtFmt_code_le v).val) ∧
    (∀ v : Pred, v.code = (bits Laws.pred_code_le v).val) ∧
    (∀ v : HReg, v.code = (bits Laws.hReg_code_le v).val) ∧
    (∀ v : OvPolicy, v.code = (bits Laws.ovPolicy_code_le v).val) ∧
    (∀ v : Meter, v.code = (bits Laws.meter_code_le v).val) ∧
    (∀ v : ScType, v.code = (bits Laws.scType_code_le v).val) ∧
    (∀ v : TWidth, v.code = (bits Laws.tWidth_code_le v).val) ∧
    (∀ v : XWidth, v.code = (bits Laws.xWidth_code_le v).val) ∧
    (∀ v : Width, v.code = (bits Laws.width_code_le v).val) ∧
    (∀ v : SysReg, v.code = (bits Laws.sysReg_code_le v).val) :=
  ⟨fun _ => rfl, fun _ => rfl, fun _ => rfl, fun _ => rfl, fun _ => rfl, fun _ => rfl, fun _ => rfl, fun _ => rfl,
    fun _ => rfl, fun _ => rfl, fun _ => rfl,
    fun _ => rfl, fun _ => rfl, fun _ => rfl, fun _ => rfl, fun _ => rfl, fun _ => rfl, fun _ => rfl, fun _ => rfl, fun _ => rfl, fun _ => rfl⟩

/-- Operands with the same bits are the same operand, as one set of rewriting rules. -/
theorem bits_inj :
    (∀ s t : Sel, bits sel_code_le s = bits sel_code_le t ↔ s = t) ∧
    (∀ b c : Bool, bits Bool.toNat_le b = bits Bool.toNat_le c ↔ b = c) ∧
    (∀ y z : StrandDest, (arcBits y = arcBits z ∧ kindBits y = kindBits z) ↔ y = z) ∧
    (∀ o p : AtomOrder, (scopeBits o = scopeBits p ∧ orderBits o = orderBits p) ↔ o = p) ∧
    (∀ u v : Scope, bits Laws.scope_code_le u = bits Laws.scope_code_le v ↔ u = v) ∧
    (∀ u v : Rm, bits Laws.rm_code_le u = bits Laws.rm_code_le v ↔ u = v) ∧
    (∀ u v : FenceKind, bits Laws.fenceKind_code_le u = bits Laws.fenceKind_code_le v ↔ u = v) ∧
    (∀ u v : Size, bits Laws.size_code_le u = bits Laws.size_code_le v ↔ u = v) ∧
    (∀ u v : ESize, bits Laws.eSize_code_le u = bits Laws.eSize_code_le v ↔ u = v) ∧
    (∀ u v : GOrder, bits Laws.gOrder_code_le u = bits Laws.gOrder_code_le v ↔ u = v) ∧
    (∀ u v : GamoOp, bits Laws.gamoOp_code_le u = bits Laws.gamoOp_code_le v ↔ u = v) ∧
    (∀ u v : TagField, bits Laws.tagField_code_le u = bits Laws.tagField_code_le v ↔ u = v) ∧
    (∀ u v : FpFmt, bits Laws.fpFmt_code_le u = bits Laws.fpFmt_code_le v ↔ u = v) ∧
    (∀ u v : CvtFmt, bits Laws.cvtFmt_code_le u = bits Laws.cvtFmt_code_le v ↔ u = v) ∧
    (∀ u v : Pred, bits Laws.pred_code_le u = bits Laws.pred_code_le v ↔ u = v) ∧
    (∀ u v : HReg, bits Laws.hReg_code_le u = bits Laws.hReg_code_le v ↔ u = v) ∧
    (∀ u v : OvPolicy, bits Laws.ovPolicy_code_le u = bits Laws.ovPolicy_code_le v ↔ u = v) ∧
    (∀ u v : Meter, bits Laws.meter_code_le u = bits Laws.meter_code_le v ↔ u = v) ∧
    (∀ u v : ScType, bits Laws.scType_code_le u = bits Laws.scType_code_le v ↔ u = v) ∧
    (∀ u v : TWidth, bits Laws.tWidth_code_le u = bits Laws.tWidth_code_le v ↔ u = v) ∧
    (∀ u v : XWidth, bits Laws.xWidth_code_le u = bits Laws.xWidth_code_le v ↔ u = v) ∧
    (∀ u v : Width, bits Laws.width_code_le u = bits Laws.width_code_le v ↔ u = v) ∧
    (∀ u v : SysReg, bits Laws.sysReg_code_le u = bits Laws.sysReg_code_le v ↔ u = v) :=
  ⟨fun s t => Fin.ext_iff.trans (sel_code_inj s t), fun b c => Fin.ext_iff.trans (bool_toNat_inj b c), strandDest_bits_inj,
    atomOrder_bits_inj,
    scope_inverts.bits_inj _, rm_inverts.bits_inj _, fenceKind_inverts.bits_inj _, size_inverts.bits_inj _,
    eSize_inverts.bits_inj _, gOrder_inverts.bits_inj _, gamoOp_inverts.bits_inj _, tagField_inverts.bits_inj _,
    fpFmt_inverts.bits_inj _, cvtFmt_inverts.bits_inj _, pred_inverts.bits_inj _, hReg_inverts.bits_inj _,
    ovPolicy_inverts.bits_inj _, meter_inverts.bits_inj _, scType_inverts.bits_inj _, tWidth_inverts.bits_inj _,
    xWidth_inverts.bits_inj _, width_inverts.bits_inj _, sysReg_inverts.bits_inj _⟩

/-! ### Fields of a word that is a join of fields -/

section
variable {b v k lo w n : Nat} {l : List Nat}

theorem join_nil (b : Nat) : join b [] = b := by rw [join, List.foldl_nil]

theorem join_cons (b x : Nat) (l : List Nat) : join b (x :: l) = join (b + x) l := by rw [join, List.foldl_cons, ← join]

theorem shl_eq_mul (v k : Nat) : shl v k = 2 ^ k * v := by rw [shl, Nat.mul_comm]

theorem join_eq_add (b : Nat) (l : List Nat) : join b l = b + join 0 l := by
  unfold join
  induction l generalizing b with
  | nil => rfl
  | cons x l ih => rw [List.foldl_cons, ih (b + x), List.foldl_cons, ih (0 + x), Nat.zero_add, Nat.add_assoc]

theorem join_zero_cons (x : Nat) (l : List Nat) : join 0 (x :: l) = x + join 0 l := by
  rw [join_cons, Nat.zero_add, join_eq_add]

theorem join_cons_add (b x y : Nat) (l : List Nat) : join b ((x + y) :: l) = join b (x :: y :: l) := by
  rw [join_cons, join_cons, join_cons, Nat.add_assoc]

/-- The joined values lie below bit t. -/
abbrev Below (t : Nat) (l : List Nat) : Prop := join 0 l < 2 ^ t

theorem below_nil : Below k [] := Nat.two_pow_pos k

theorem below_cons_add {t x y : Nat} : Below t ((x + y) :: l) ↔ Below t (x :: y :: l) := by
  rw [Below, Below, join_cons_add]

/-- The lowest value of a word is written without a shift. -/
theorem last_fin {m : Nat} (x : Fin m) : [x.val] = [shl x.val 0] := by
  rw [shl, Nat.pow_zero, Nat.mul_one]

theorem last_bitVec (x : BitVec w) : [x.toNat] = [shl x.toNat 0] := by
  rw [shl, Nat.pow_zero, Nat.mul_one]

/-- A value at bit k adds nothing to the bits below k. -/
theorem fld_shl_add (h : lo + w ≤ k) (m : Nat) : fld (shl v k + m) lo w = fld m lo w := by
  obtain ⟨d, rfl⟩ := Nat.exists_eq_add_of_le h
  unfold fld shl
  rw [show v * 2 ^ (lo + w + d) + m = m + 2 ^ lo * (2 ^ w * (2 ^ d * v)) by ring,
    Nat.add_mul_div_left _ _ (Nat.two_pow_pos lo), Nat.add_mul_mod_self_left]

/-- The field at the highest value of a join is that value. -/
theorem fld_shl_add_self (h : Below k l) : fld (shl v k + join 0 l) k w = v % 2 ^ w := by
  rw [fld, shl, Nat.add_comm, Nat.add_mul_div_right _ _ (Nat.two_pow_pos k), Nat.div_eq_of_lt h, Nat.zero_add]

theorem fld_join_nil : fld (join 0 []) lo w = 0 := by
  rw [fld, show join 0 [] = 0 from rfl, Nat.zero_div, Nat.zero_mod]

theorem below_cons {t : Nat} : Below t (shl v k :: l) ↔
    if k ≤ t ∧ Below k l then v < 2 ^ (t - k) else shl v k + join 0 l < 2 ^ t := by
  rw [Below, join_zero_cons]
  split_ifs with h
  · obtain ⟨d, rfl⟩ := Nat.exists_eq_add_of_le h.1
    have hl : join 0 l < 2 ^ k := h.2
    rw [shl, Nat.add_sub_cancel_left, Nat.pow_add, Nat.mul_comm (2 ^ k)]
    refine ⟨fun hlt => ?_, fun hv => ?_⟩
    · exact Nat.lt_of_mul_lt_mul_right (Nat.lt_of_le_of_lt (Nat.le_add_right _ _) hlt)
    · calc v * 2 ^ k + join 0 l < v * 2 ^ k + 2 ^ k := Nat.add_lt_add_left hl _
        _ = (v + 1) * 2 ^ k := (Nat.succ_mul _ _).symm
        _ ≤ 2 ^ d * 2 ^ k := Nat.mul_le_mul_right _ hv
  · exact Iff.rfl

/-- Reading a join goes past the values that lie above the field, until the field is at a value or above all that is left. -/
theorem fld_join_cons : fld (join 0 (shl v k :: l)) lo w =
    if lo + w ≤ k then fld (join 0 l) lo w
    else if lo = k ∧ Below k l then v % 2 ^ w
    else if Below lo (shl v k :: l) then 0
    else (shl v k + join 0 l) / 2 ^ lo % 2 ^ w := by
  split_ifs with hpast hat habove
  · rw [join_zero_cons, fld_shl_add hpast]
  · rw [join_zero_cons, hat.1, fld_shl_add_self hat.2]
  · rw [fld, Nat.div_eq_of_lt habove, Nat.zero_mod]
  · rw [join_zero_cons, fld]

theorem fin_lt {m t : Nat} (h : m ≤ t) (x : Fin m) : x.val < t := Nat.lt_of_lt_of_le x.isLt h

theorem bitVec_lt {t : Nat} (h : 2 ^ w ≤ t) (x : BitVec w) : x.toNat < t := Nat.lt_of_lt_of_le x.isLt h

theorem fin_mod {m t : Nat} (h : m ≤ t) (x : Fin m) : x.val % t = x.val := Nat.mod_eq_of_lt (fin_lt h x)

theorem bitVec_mod {t : Nat} (h : 2 ^ w ≤ t) (x : BitVec w) : x.toNat % t = x.toNat := Nat.mod_eq_of_lt (bitVec_lt h x)

/-- Cutting a number to a word leaves the fields of the word. -/
theorem fld_mod_two_pow {k : Nat} (h : lo + w ≤ k) : fld (n % 2 ^ k) lo w = fld n lo w := by
  obtain ⟨d, rfl⟩ := Nat.exists_eq_add_of_le h
  conv_rhs => rw [← Nat.mod_add_div n (2 ^ (lo + w + d)), Nat.add_comm, Nat.mul_comm]
  exact (fld_shl_add h _).symm

/-- What a decoder sees of the word of an opcode with joined fields below it. -/
theorem decoder_of_join {raw : Nat → Except Reject Instr} {i : Instr} (hb : b % 2 ^ 24 = 0) (hl : Below 24 l)
    (h : ∀ n, fld n 28 4 = b / 2 ^ 28 % 2 ^ 4 → fld n 24 4 = b / 2 ^ 24 % 2 ^ 4 →
      (∀ lo w, fld n lo w = if lo + w ≤ 24 then fld (join 0 l) lo w else fld n lo w) → raw n = .ok i) :
    raw (BitVec.ofNat 32 (join b l)).toNat = .ok i := by
  obtain ⟨op, rfl⟩ := Nat.dvd_of_mod_eq_zero hb
  have heq : join (2 ^ 24 * op) l = shl op 24 + join 0 l := by rw [join_eq_add, shl, Nat.mul_comm]
  have hop : (shl op 24 + join 0 l) / 2 ^ 24 = op := by
    rw [shl, Nat.add_comm, Nat.add_mul_div_right _ _ (Nat.two_pow_pos 24), Nat.div_eq_of_lt hl, Nat.zero_add]
  rw [BitVec.toNat_ofNat, heq]
  refine h _ ?_ ?_ fun lo w => ?_
  · rw [fld_mod_two_pow (by decide), fld]
    omega
  · rw [fld_mod_two_pow (by decide), fld]
    omega
  · split_ifs with hlo
    · rw [fld_mod_two_pow (by omega), fld_shl_add hlo]
    · rfl

end

/-! ### The word of an instruction is read back (R58, R59, R66 to R73)

In the word of an instruction the fields descend, so a reader's field is the place of one operand, or has none. The encoder
lists the fields of SDEF and AFADD in another order, so their words are stated with descending fields first.
-/

theorem encode_sdef (v : Fin 8) (a b : Sel) (y : StrandDest) (t w : Bool) (z : ESize) :
    encode (.sdef v a b y t w z) = BitVec.ofNat 32 (join 0x70000000 [shl v.val 20, shl a.code 16, shl b.code 12,
      shl (arcBits y).val 7, shl w.toNat 6, shl t.toNat 5, shl (kindBits y).val 3, z.code]) := by
  refine congrArg _ (Eq.trans (b := join _ _) rfl ?_)
  simp only [join_cons, join_nil, strandDest_codeBits_eq]
  omega

theorem encode_afadd (d : Fin 8) (a b : Sel) (i : Fin 32) (o : AtomOrder) :
    encode (.afadd d a b i o) = BitVec.ofNat 32 (join 0x9D000000 [shl d.val 20, shl a.code 16, shl b.code 12, shl i.val 7,
      shl (scopeBits o).val 3, shl (orderBits o).val 1, shl 1 0]) := by
  refine congrArg _ (Eq.trans (b := join _ _) rfl ?_)
  simp only [join_cons, join_nil, atomOrder_codeBits_eq, shl_eq_mul]
  omega

/-- The instructions of both kinds of station. -/
theorem station_decodes {i : Instr} (h : i.engines = .station) : rawStation (encode i).toNat = .ok i := by
  cases i with
  | nop | lfree | stilePlot | stileDie | stileDevice | stileSystem | ret | prio0 | prio1 | prio2 | prio3 | prio4 | prio5 |
    prio6 | prio7 | yield => rfl
  | emit | emit2 | emitt | emitn | emitr | exit | exits | tget | tset | tadd | lgate | steer | thin | thend | sinkw | drop |
    trap | add | sub | addi | mul | mulh | mulhn | div | divn | rem | remn | and | or | xor | andn | andi | ori | xori |
    shl | shr | sra | shli | shri | srai | rotl | clz | ctz | popc | min | minn | max | maxn | slt | sltn | slti | seq |
    sne | csel | mov | movi | movk | exts | extz | bfi | adds | subs | abs | neg | lea | fence | barj | call | callf |
    instid | areaq | knotq | qrd | qarm | trc | time | emtr | heatq =>
    refine decoder_of_join (by decide) ?_ fun n h28 h24 hlow => ?_
    · simp only [code_eq_bits, last_fin, last_bitVec, below_cons, below_nil, fin_lt, bitVec_lt, Nat.reduceSub,
        Nat.reducePow, Nat.reduceLeDiff, and_self, ↓reduceIte]
    · simp only [rawStation, h28, rawStation0, rawStation1, rawStation2, rawStation3, rawStation4, rawStation9,
        rawStationA, rawStationF, h24, Nat.reducePow, Nat.reduceDiv, Nat.reduceMod]
      simp only [bind_eq_ok, reader_eq_ok, pure_eq_ok, hlow, code_eq_bits, last_fin, last_bitVec, fld_join_cons,
        fld_join_nil, below_cons, below_nil, fin_lt, bitVec_lt, fin_mod, bitVec_mod, Nat.reduceEqDiff, Nat.reduceAdd,
        Nat.reduceSub, Nat.reducePow, Nat.reduceLeDiff, and_self, and_true, ↓reduceIte, exists_const, bits_inj,
        Fin.val_inj, BitVec.toNat_inj, exists_eq_left']
  | _ => nomatch h

/-- The instructions of compute stations. -/
theorem compute_decodes {i : Instr} (h : i.engines = .compute) : rawStation (encode i).toNat = .ok i := by
  cases i with
  | accclr0 | accclr1 | accclr2 | accclr3 | accclr4 | accclr5 | accclr6 | accclr7 => rfl
  | tld | tst | vadd | vsub | vmul | vfma | vmin | vmax | vabs | vneg | vrcp | vrsq | vexp2 | vlog2 | vcvt | vscl | vreds |
    vredx | vcmp | vsel | vbcast | vext | vdot | vshf | fadd | fsub | fmul | ffma | fcvt | fcmp | fmin | fmax | vseed |
    tcfg | tzero | tmov | txp | mma | mmas | accrd | accld | wpre | afeed | plstat =>
    refine decoder_of_join (by decide) ?_ fun n h28 h24 hlow => ?_
    · simp only [code_eq_bits, last_fin, last_bitVec, below_cons, below_nil, fin_lt, bitVec_lt, Nat.reduceSub,
        Nat.reducePow, Nat.reduceLeDiff, and_self, ↓reduceIte]
    · simp only [rawStation, h28, rawStation8, rawStationB, rawStationC, rawStationD, h24, Nat.reducePow, Nat.reduceDiv,
        Nat.reduceMod]
      simp only [bind_eq_ok, reader_eq_ok, pure_eq_ok, hlow, code_eq_bits, last_fin, last_bitVec, fld_join_cons,
        fld_join_nil, below_cons, below_nil, fin_lt, bitVec_lt, fin_mod, bitVec_mod, Nat.reduceEqDiff, Nat.reduceAdd,
        Nat.reduceSub, Nat.reducePow, Nat.reduceLeDiff, and_self, and_true, ↓reduceIte, exists_const, bits_inj,
        Fin.val_inj, BitVec.toNat_inj, exists_eq_left']
  | _ => nomatch h

/-- The instructions of bobbin stations. -/
theorem bobbin_decodes {i : Instr} (h : i.engines = .bobbin) : rawStation (encode i).toNat = .ok i := by
  cases i with
  | sdef | slen | sgo | lds | sts | ldsp | stsp | ldf | stf | fec | feq | gath | scat | scadd | scflush | copy | cpstat |
    pref | sbar | ldm | stm | ldmf | stmf | aadd | amin | amax | aminn | amaxn | aand | aor | axor | axchg | acas | afadd |
    hfw | hfr | hash | tins | tdel | tprb | trhs | tfen | tstat | tovp => ?_
  | _ => nomatch h
  case' sdef => rw [encode_sdef]
  case' afadd => rw [encode_afadd]
  all_goals
    refine decoder_of_join (by decide) ?_ fun n h28 h24 hlow => ?_
    · simp only [code_eq_bits, below_cons_add, atomOrder_codeBits_eq, last_fin, below_cons, below_nil, fin_lt,
        bitVec_lt, Nat.reduceSub, Nat.reducePow, Nat.reduceLeDiff, Nat.reduceLT, and_self, ↓reduceIte]
    · simp only [rawStation, h28, rawStation7, rawStation8, rawStation9, rawStationE, h24, Nat.reducePow, Nat.reduceDiv,
        Nat.reduceMod]
      simp only [bind_eq_ok, reader_eq_ok, pure_eq_ok, hlow, code_eq_bits, join_cons_add, below_cons_add,
        atomOrder_codeBits_eq, last_fin, fld_join_cons, fld_join_nil, below_cons, below_nil, fin_lt, bitVec_lt, fin_mod,
        bitVec_mod, Nat.reduceEqDiff, Nat.reduceAdd, Nat.reduceSub, Nat.reducePow, Nat.reduceLeDiff, Nat.reduceLT,
        Nat.reduceMod, and_self, and_true, ↓reduceIte, exists_const, bits_inj, Fin.val_inj, BitVec.toNat_inj,
        exists_eq_left']

/-- The instructions of control cores. -/
theorem core_decodes {i : Instr} (h : i.engines = .core) : rawCore (encode i).toNat = .ok i := by
  cases i with
  | eret | wfe => rfl
  | addCr | subCr | addiCi | mulCr | mulhCr | mulhnCr | divCr | divnCr | remCr | remnCr | andCr | orCr | xorCr | andnCr |
    andiCi | oriCi | xoriCi | shlCr | shrCr | sraCr | shliCi | shriCi | sraiCi | rotlCr | clzCr | ctzCr | popcCr | minCr |
    minnCr | maxCr | maxnCr | sltCr | sltnCr | sltiCi | seqCr | sneCr | cselCr | movCr | moviCi | movkCi | extsCr | extzCr |
    bfiCr | addsCr | subsCr | absCr | negCr | leaCr | beq | bne | blt | bge | bltn | bgen | jmp | jal | jr | ldg | stg |
    ldgf | stgf | lnch | inj | snkr | knwait | srr | srw | qpop | qdone | irq | gfence | gamo | qrdCi | qarmCi | trcCi |
    timeCi | emtrCi | heatqCi =>
    refine decoder_of_join (by decide) ?_ fun n h28 h24 hlow => ?_
    · simp only [code_eq_bits, last_fin, last_bitVec, below_cons, below_nil, fin_lt, bitVec_lt, Nat.reduceSub,
        Nat.reducePow, Nat.reduceLeDiff, and_self, ↓reduceIte]
    · simp only [rawCore, h28, rawCore2, rawCore3, rawCore4, rawCore5, rawCore6, rawCoreF, h24, Nat.reducePow,
        Nat.reduceDiv, Nat.reduceMod]
      simp only [bind_eq_ok, reader_eq_ok, pure_eq_ok, hlow, code_eq_bits, last_fin, last_bitVec, fld_join_cons,
        fld_join_nil, below_cons, below_nil, fin_lt, bitVec_lt, fin_mod, bitVec_mod, Nat.reduceEqDiff, Nat.reduceAdd,
        Nat.reduceSub, Nat.reducePow, Nat.reduceLeDiff, and_self, and_true, ↓reduceIte, exists_const, bits_inj,
        Fin.val_inj, BitVec.toNat_inj, exists_eq_left']
  | _ => nomatch h

/-! ### A word that is read is the word of its instruction (R61)

Each reader fixes one field, and the fields that an opcode reads cover the word: what lies above bit 0 is cut at the lowest
field, what is left at the next one, up to the opcode. These equations add up to the join that the encoder writes.
-/

/-- The instruction that is read, if one is, has the property P. -/
def Yields (x : Except Reject Instr) (P : Instr → Prop) : Prop := ∀ i, x = .ok i → P i

section
variable {P : Instr → Prop}

theorem yields_bind {α : Type} {x : Except Reject α} {f : α → Except Reject Instr} :
    Yields (x >>= f) P ↔ ∀ a, x = .ok a → Yields (f a) P := by
  unfold Yields
  simp only [bind_eq_ok, forall_exists_index, and_imp]
  exact forall_comm.trans (forall_congr' fun _ => forall_comm)

theorem yields_pure {i : Instr} : Yields (pure i) P ↔ P i :=
  ⟨fun h => h i rfl, fun h _ hj => Except.ok.inj hj ▸ h⟩

theorem yields_error {r : Reject} : Yields (.error r) P ↔ True := iff_of_true (fun _ h => absurd h (by simp)) trivial

theorem yields_split_nil {n lo w : Nat} : Yields (splitF n lo w []) P ↔ True :=
  iff_of_true (fun _ h => absurd h (by simp [splitF])) trivial

theorem yields_split_cons {n lo w c : Nat} {i : Instr} {l : List (Nat × Instr)} :
    Yields (splitF n lo w ((c, i) :: l)) P ↔
      (fld n lo w = c → P i) ∧ (fld n lo w ≠ c → Yields (splitF n lo w l) P) := by
  unfold Yields splitF
  by_cases h : fld n lo w = c
  · simp [h, List.lookup]
  · simp [h, List.lookup, beq_false_of_ne h]

end

/-- What lies at bit k and above. -/
def upper (n k : Nat) : Nat := n / 2 ^ k

theorem upper_eq_of_fld {w : Word} {d : Nat} (h : fld w.toNat 28 4 = d) : upper w.toNat 28 = d := by
  have hlt := w.isLt
  rw [← h, upper, fld]
  omega

theorem upper_zero {n : Nat} : upper n 0 = n := by rw [upper, Nat.pow_zero, Nat.div_one]

/-- A field cuts what lies above its lowest bit into its value and what lies above its highest one. -/
theorem fld_eq_iff {n lo w v : Nat} :
    fld n lo w = v ↔ upper n lo = v + 2 ^ w * upper n (lo + w) ∧ v < 2 ^ w := by
  have hstep : upper n (lo + w) = upper n lo / 2 ^ w := by rw [upper, upper, Nat.pow_add, Nat.div_div_eq_div_mul]
  rw [hstep, fld, ← upper]
  refine ⟨fun h => ⟨h ▸ (Nat.mod_add_div _ _).symm, h ▸ Nat.mod_lt _ (Nat.two_pow_pos w)⟩, fun ⟨h, hv⟩ => ?_⟩
  rw [h, Nat.add_mul_mod_self_left, Nat.mod_eq_of_lt hv]

/-- The instructions without operands have their opcode and fixed bits for a word. -/
theorem encodeNat_nullary :
    encodeNat .nop = join 0x01000000 [] ∧ encodeNat .lfree = join 0x0D000000 [] ∧ encodeNat .ret = join 0xA2000000 [] ∧
    encodeNat .yield = join 0xF5000000 [] ∧ encodeNat .eret = join 0x63000000 [] ∧ encodeNat .wfe = join 0x64000000 [] ∧
    encodeNat .stilePlot = join 0x91000001 [] ∧ encodeNat .stileDie = join 0x91000002 [] ∧
    encodeNat .stileDevice = join 0x91000003 [] ∧ encodeNat .stileSystem = join 0x91000004 [] ∧
    encodeNat .accclr0 = join 0xD7000000 [] ∧ encodeNat .accclr1 = join 0xD7000200 [] ∧
    encodeNat .accclr2 = join 0xD7000400 [] ∧ encodeNat .accclr3 = join 0xD7000600 [] ∧
    encodeNat .accclr4 = join 0xD7000800 [] ∧ encodeNat .accclr5 = join 0xD7000A00 [] ∧
    encodeNat .accclr6 = join 0xD7000C00 [] ∧ encodeNat .accclr7 = join 0xD7000E00 [] ∧
    encodeNat .prio0 = join 0xF4000000 [] ∧ encodeNat .prio1 = join 0xF4000001 [] ∧ encodeNat .prio2 = join 0xF4000002 [] ∧
    encodeNat .prio3 = join 0xF4000003 [] ∧ encodeNat .prio4 = join 0xF4000004 [] ∧ encodeNat .prio5 = join 0xF4000005 [] ∧
    encodeNat .prio6 = join 0xF4000006 [] ∧ encodeNat .prio7 = join 0xF4000007 [] := by
  and_intros <;> rfl

/-- Every instruction that a block of sixteen opcodes reads has the word that was read. -/
def BlockSound (d : Nat) (raw : Nat → Except Reject Instr) : Prop :=
  ∀ n, upper n 28 = d → Yields (raw n) (encodeNat · = n)

/-- Station opcodes 0x00 to 0x4F. -/
theorem station_blocks_0_to_4_sound :
    BlockSound 0x0 rawStation0 ∧ BlockSound 0x1 rawStation1 ∧ BlockSound 0x2 rawStation2 ∧ BlockSound 0x3 rawStation3 ∧
    BlockSound 0x4 rawStation4 := by
  unfold BlockSound rawStation0 rawStation1 rawStation2 rawStation3 rawStation4
  refine ⟨?_, ?_, ?_, ?_, ?_⟩
  all_goals
    intro n hd
    split
  -- one goal for each opcode: its readers become the equations that cut the word at its fields
  all_goals
    rename_i hop
    simp only [yields_bind, yields_pure, yields_error, reader_eq_ok, fld_eq_iff, hd, upper_zero,
      Nat.reduceAdd, Nat.reducePow, forall_const, and_imp, encodeNat_nullary] at hop ⊢
  -- with its operands named, the word of the instruction is a join of terms of those equations
  all_goals
    intros
    refine Eq.trans (b := join _ _) rfl ?_
    simp only [join_cons, join_nil, shl_eq_mul, Nat.reducePow]
    omega

/-- Station opcodes 0x70 to 0xAF. -/
theorem station_blocks_7_to_A_sound :
    BlockSound 0x7 rawStation7 ∧ BlockSound 0x8 rawStation8 ∧ BlockSound 0x9 rawStation9 ∧ BlockSound 0xA rawStationA := by
  unfold BlockSound rawStation7 rawStation8 rawStation9 rawStationA
  refine ⟨?_, ?_, ?_, ?_⟩
  all_goals
    intro n hd
    split
  -- one goal for each opcode: its readers become the equations that cut the word at its fields
  all_goals
    rename_i hop
    simp only [yields_bind, yields_pure, yields_error, yields_split_cons, yields_split_nil, imp_and, implies_true, and_true,
      reader_eq_ok, fld_eq_iff, hd, upper_zero, Nat.reduceAdd, Nat.reducePow,
      forall_const, and_imp, encodeNat_nullary] at hop ⊢
  all_goals and_intros
  -- with its operands named, the word of the instruction is a join of terms of those equations
  all_goals
    intros
    refine Eq.trans (b := join _ _) rfl ?_
    simp only [join_cons, join_nil, shl_eq_mul, Nat.reducePow, strandDest_codeBits_eq, atomOrder_codeBits_eq]
    omega

/-- Station opcodes 0xB0 to 0xFF. -/
theorem station_blocks_B_to_F_sound :
    BlockSound 0xB rawStationB ∧ BlockSound 0xC rawStationC ∧ BlockSound 0xD rawStationD ∧ BlockSound 0xE rawStationE ∧
    BlockSound 0xF rawStationF := by
  unfold BlockSound rawStationB rawStationC rawStationD rawStationE rawStationF
  refine ⟨?_, ?_, ?_, ?_, ?_⟩
  all_goals
    intro n hd
    split
  -- one goal for each opcode: its readers become the equations that cut the word at its fields
  all_goals
    rename_i hop
    simp only [yields_bind, yields_pure, yields_error, yields_split_cons, yields_split_nil, imp_and, implies_true, and_true,
      reader_eq_ok, fld_eq_iff, hd, upper_zero, Nat.reduceAdd, Nat.reducePow,
      forall_const, and_imp, encodeNat_nullary] at hop ⊢
  all_goals and_intros
  -- with its operands named, the word of the instruction is a join of terms of those equations
  all_goals
    intros
    refine Eq.trans (b := join _ _) rfl ?_
    simp only [join_cons, join_nil, shl_eq_mul, Nat.reducePow]
    omega

/-- The opcodes of control cores, 0x20 to 0x6F and 0xF0 to 0xFF. -/
theorem core_blocks_sound :
    BlockSound 0x2 rawCore2 ∧ BlockSound 0x3 rawCore3 ∧ BlockSound 0x4 rawCore4 ∧ BlockSound 0x5 rawCore5 ∧
    BlockSound 0x6 rawCore6 ∧ BlockSound 0xF rawCoreF := by
  unfold BlockSound rawCore2 rawCore3 rawCore4 rawCore5 rawCore6 rawCoreF
  refine ⟨?_, ?_, ?_, ?_, ?_, ?_⟩
  all_goals
    intro n hd
    split
  -- one goal for each opcode: its readers become the equations that cut the word at its fields
  all_goals
    rename_i hop
    simp only [yields_bind, yields_pure, yields_error, reader_eq_ok, fld_eq_iff, hd, upper_zero,
      Nat.reduceAdd, Nat.reducePow, forall_const, and_imp, encodeNat_nullary] at hop ⊢
  -- with its operands named, the word of the instruction is a join of terms of those equations
  all_goals
    intros
    refine Eq.trans (b := join _ _) rfl ?_
    simp only [join_cons, join_nil, shl_eq_mul, Nat.reducePow]
    omega

theorem rawStation_sound (w : Word) : Yields (rawStation w.toNat) (encodeNat · = w.toNat) := by
  obtain ⟨b0, b1, b2, b3, b4⟩ := station_blocks_0_to_4_sound
  obtain ⟨b7, b8, b9, bA⟩ := station_blocks_7_to_A_sound
  obtain ⟨bB, bC, bD, bE, bF⟩ := station_blocks_B_to_F_sound
  unfold rawStation
  split
  all_goals rename_i h
  exacts [b0 _ (upper_eq_of_fld h), b1 _ (upper_eq_of_fld h), b2 _ (upper_eq_of_fld h), b3 _ (upper_eq_of_fld h),
    b4 _ (upper_eq_of_fld h), b7 _ (upper_eq_of_fld h), b8 _ (upper_eq_of_fld h), b9 _ (upper_eq_of_fld h),
    bA _ (upper_eq_of_fld h), bB _ (upper_eq_of_fld h), bC _ (upper_eq_of_fld h), bD _ (upper_eq_of_fld h),
    bE _ (upper_eq_of_fld h), bF _ (upper_eq_of_fld h), yields_error.mpr trivial]

theorem rawCore_sound (w : Word) : Yields (rawCore w.toNat) (encodeNat · = w.toNat) := by
  obtain ⟨b2, b3, b4, b5, b6, bF⟩ := core_blocks_sound
  unfold rawCore
  split
  all_goals rename_i h
  exacts [b2 _ (upper_eq_of_fld h), b3 _ (upper_eq_of_fld h), b4 _ (upper_eq_of_fld h), b5 _ (upper_eq_of_fld h),
    b6 _ (upper_eq_of_fld h), bF _ (upper_eq_of_fld h), yields_error.mpr trivial]

/-! ### The decoder with its check (R84, R86) -/

theorem decode_eq_ok {e : Engine} {w : Word} {i : Instr} :
    decode e w = .ok i ↔ rawDecode e w.toNat = .ok i ∧ i.wf e = true := by
  refine ⟨fun h => ⟨?_, Machine.decode_ok_wf h⟩, fun ⟨hraw, hwf⟩ => ?_⟩
  · obtain ⟨j, hraw, hj⟩ := bind_eq_ok.mp h
    split at hj
    · cases hj
      exact hraw
    · cases hj
  · exact bind_eq_ok.mpr ⟨i, hraw, if_pos hwf⟩

/-- An engine reads back the word of each instruction that has an encoding on it. -/
theorem rawDecode_encode {e : Engine} {i : Instr} (h : i.engines.has e = true) : rawDecode e (encode i).toNat = .ok i := by
  cases e with
  | station k =>
    cases hi : i.engines with
    | station => exact station_decodes hi
    | compute => exact compute_decodes hi
    | bobbin => exact bobbin_decodes hi
    | core | step => rw [hi] at h; cases h
  | core =>
    cases hi : i.engines with
    | core => exact core_decodes hi
    | station | compute | bobbin | step => rw [hi] at h; cases h

/-- A word that an engine reads is put together again from its fields. -/
theorem encode_of_rawDecode {e : Engine} {w : Word} {i : Instr} (h : rawDecode e w.toNat = .ok i) : encode i = w := by
  have hnat : encodeNat i = w.toNat := by
    cases e with
    | station k => exact rawStation_sound w i h
    | core => exact rawCore_sound w i h
  rw [encode, hnat, BitVec.ofNat_toNat, BitVec.setWidth_eq]

theorem has_of_wf {e : Engine} {i : Instr} (h : i.wf e = true) : i.engines.has e = true := by
  simp only [Instr.wf, Bool.and_eq_true] at h
  obtain ⟨⟨hhas, _⟩, _⟩ := h
  exact hhas

theorem decode_encode {e : Engine} {i : Instr} (h : i.wf e = true) : decode e (encode i) = .ok i :=
  decode_eq_ok.mpr ⟨rawDecode_encode (has_of_wf h), h⟩

theorem encode_of_decode {e : Engine} {w : Word} {i : Instr} (h : decode e w = .ok i) : encode i = w :=
  encode_of_rawDecode (decode_eq_ok.mp h).1

/-- Settles O59: each field of an encoded word reads back as the code of its operand, and a word whose fields are all read is
the join of those fields. -/
theorem decodeAndEncodeAgree : Obligations.DecodeAndEncodeAgree := by
  unfold Obligations.DecodeAndEncodeAgree
  exact fun e => ⟨fun i hwf => decode_encode hwf, fun w i h => ⟨Machine.decode_ok_wf h, encode_of_decode h⟩⟩

theorem decode_of_encode_eq {e : Engine} {w : Word} {i : Instr} (hwf : i.wf e = true) (hw : encode i = w) :
    decode e w = .ok i := hw ▸ decode_encode hwf

theorem decode_toOption_eq_none {e : Engine} {w : Word} {r : Reject} (h : rawDecode e w.toNat = .error r) :
    (decode e w).toOption = none := by
  rw [decode, h]
  rfl

/-- Settles O57: the words are those of the named instructions, and no engine has a block entry for opcodes 0x00 and 0xFF. -/
theorem theWordsOfTheSpecDecode : Obligations.TheWordsOfTheSpecDecode := by
  unfold Obligations.TheWordsOfTheSpecDecode
  refine ⟨decode_of_encode_eq rfl rfl, decode_of_encode_eq rfl rfl, decode_of_encode_eq rfl rfl, decode_of_encode_eq rfl rfl,
    decode_of_encode_eq rfl rfl, decode_of_encode_eq rfl rfl, decode_of_encode_eq rfl rfl, decode_of_encode_eq rfl rfl,
    decode_of_encode_eq rfl rfl, decode_of_encode_eq rfl rfl, decode_of_encode_eq rfl rfl, decode_of_encode_eq rfl rfl,
    decode_of_encode_eq rfl rfl, fun e => ?_⟩
  cases e with
  | station k => exact ⟨decode_toOption_eq_none rfl, decode_toOption_eq_none rfl⟩
  | core => exact ⟨decode_toOption_eq_none rfl, decode_toOption_eq_none rfl⟩

end Sys2Proof.Encoding
end

section
/-!
Rounding to the floating formats (R90, R96, R101, R103): the code of a magnitude is the lower of its two neighbours on the grid of
the format, or the upper where the mode says so, and a value that a format represents keeps its code.
-/

namespace Sys2Proof.Machine

/-! ### Rounding to a multiple of a power of two -/

/-- Whether a mode takes the upper of two neighbours for a value that lies the fraction t of their distance above the lower one
(R101, R103); odd: the code of the lower one is odd. -/
def roundsUp (rm : Rm) (r : Nat) (neg : Bool) (t : ℚ) (odd : Bool) : Bool :=
  match rm with
  | .rne => decide (1 / 2 < t) || (decide (t = 1 / 2) && odd)
  | .rz => false
  | .ru => !neg
  | .rd => neg
  | .sr => decide (2 ^ 24 ≤ ⌊t * 2 ^ 24⌋ + (r % 2 ^ 24 : Nat))

/-- The increment of a rounding: one where the value is not the lower neighbour and the mode takes the upper. -/
def roundStep (rm : Rm) (r : Nat) (neg : Bool) (t : ℚ) (odd : Bool) : Nat :=
  if t ≠ 0 ∧ roundsUp rm r neg t odd = true then 1 else 0

@[simp] theorem roundStep_zero (rm : Rm) (r : Nat) (neg odd : Bool) : roundStep rm r neg 0 odd = 0 := by
  simp [roundStep]

@[simp] theorem roundStep_rz (r : Nat) (neg odd : Bool) (t : ℚ) : roundStep .rz r neg t odd = 0 := by
  simp [roundStep, roundsUp]

theorem roundStep_of_ne_zero {rm : Rm} {r : Nat} {neg odd : Bool} {t : ℚ} (ht : t ≠ 0) :
    roundStep rm r neg t odd = if roundsUp rm r neg t odd = true then 1 else 0 := by
  simp [roundStep, ht]

theorem half_lt_div_two_pow_iff (n h : Nat) : 1 / 2 < (n : ℚ) / 2 ^ h ↔ 2 ^ h < 2 * n := by
  rw [div_lt_div_iff₀ two_pos (by positivity), one_mul, mul_comm]
  norm_cast

theorem div_two_pow_eq_half_iff (n h : Nat) : (n : ℚ) / 2 ^ h = 1 / 2 ↔ 2 * n = 2 ^ h := by
  rw [div_eq_div_iff (by positivity) two_ne_zero, one_mul, mul_comm]
  norm_cast

theorem floor_div_two_pow_mul (n h : Nat) : ⌊(n : ℚ) / 2 ^ h * 2 ^ 24⌋ = ((n * 2 ^ 24 / 2 ^ h : Nat) : ℤ) := by
  have hcast : (n : ℚ) / 2 ^ h * 2 ^ 24 = ((n * 2 ^ 24 : Nat) : ℚ) / ((2 ^ h : Nat) : ℚ) := by
    push_cast
    ring
  rw [hcast, Rat.floor_natCast_div_natCast]
  rfl

/-- Below the unit, `roundAt` cuts h bits off, and the fraction they are of the unit decides. -/
theorem roundAt_of_lt {q e : Int} {h : Nat} (hqe : e < q) (hh : q - e = h) (rm : Rm) (r : Nat) (neg : Bool) (m : Nat)
    (odd : Nat → Bool) :
    roundAt q rm r neg m e odd = m / 2 ^ h + roundStep rm r neg ((m % 2 ^ h : Nat) / 2 ^ h) (odd (m / 2 ^ h)) := by
  rw [roundAt, if_neg hqe.not_ge, hh, Int.toNat_natCast]
  by_cases hrest : m % 2 ^ h = 0
  · simp [hrest]
  · have hfraction : ((m % 2 ^ h : Nat) : ℚ) / 2 ^ h ≠ 0 := div_ne_zero (Nat.cast_ne_zero.mpr hrest) (by positivity)
    simp only [roundStep_of_ne_zero hfraction, if_neg hrest, add_ite, add_zero]
    cases rm with
    | rz => rfl
    | ru => rfl
    | rd => rfl
    | rne => simp only [roundsUp, half_lt_div_two_pow_iff, div_two_pow_eq_half_iff]
    | sr =>
      simp only [roundsUp, floor_div_two_pow_mul]
      norm_cast

/-- `roundAt` takes the floor of the scaled magnitude, and one more where the mode rounds its fraction up. -/
theorem roundAt_eq (q : Int) (rm : Rm) (r : Nat) (neg : Bool) (m : Nat) (e : Int) (odd : Nat → Bool) {x : ℚ}
    (hx : x = m * 2 ^ (e - q)) :
    roundAt q rm r neg m e odd = ⌊x⌋₊ + roundStep rm r neg (Int.fract x) (odd ⌊x⌋₊) := by
  rcases le_or_gt q e with hqe | hqe
  · have hint : x = (m * 2 ^ (e - q).toNat : Nat) := by
      rw [hx, Nat.cast_mul, Nat.cast_pow, Nat.cast_ofNat, ← zpow_natCast, Int.toNat_of_nonneg (sub_nonneg.mpr hqe)]
    rw [roundAt, if_pos hqe, hint, Nat.floor_natCast, Int.fract_natCast, roundStep_zero, add_zero]
  · obtain ⟨h, hh⟩ : ∃ h : Nat, q - e = h := ⟨(q - e).toNat, by omega⟩
    have hdiv : x = (m : ℚ) / (2 ^ h : Nat) := by
      rw [hx, ← neg_sub, hh, zpow_neg, zpow_natCast, div_eq_mul_inv, Nat.cast_pow, Nat.cast_ofNat]
    rw [roundAt_of_lt hqe hh, hdiv, Int.fract_div_natCast_eq_div_natCast_mod, Nat.floor_div_natCast, Nat.floor_natCast,
      Nat.cast_pow, Nat.cast_ofNat]

/-! ### The grid of a format -/

/-- The value of a magnitude's code, continued above the largest (R90, R96, R101). -/
def FpSpec.grid (s : FpSpec) (c : Nat) : ℚ :=
  if c < 2 ^ s.mb then (c : ℚ) * 2 ^ (s.emin - s.mb)
  else ((c % 2 ^ s.mb + 2 ^ s.mb : Nat) : ℚ) * 2 ^ ((c / 2 ^ s.mb : Nat) - 1 + s.emin - s.mb)

/-- The exponent of the distance between the neighbours of m · 2^e. -/
def FpSpec.ulpExp (s : FpSpec) (m : Nat) (e : Int) : Int := max ((Nat.log2 m : Int) + e) s.emin - s.mb

/-- How many binades the neighbours of m · 2^e lie above the lowest. -/
def FpSpec.binade (s : FpSpec) (m : Nat) (e : Int) : Nat := (s.ulpExp m e + s.mb - s.emin).toNat

theorem FpSpec.ulpExp_eq (s : FpSpec) (m : Nat) (e : Int) : s.ulpExp m e = s.binade m e + s.emin - s.mb := by
  simp only [ulpExp, binade]
  omega

theorem FpSpec.magCode_eq (s : FpSpec) (rm : Rm) (r : Nat) (neg : Bool) {m : Nat} (e : Int) (hm : m ≠ 0) :
    s.magCode rm r neg m e = s.binade m e * 2 ^ s.mb +
      roundAt (s.ulpExp m e) rm r neg m e (fun lo => decide ((s.binade m e * 2 ^ s.mb + lo) % 2 = 1)) := if_neg hm

/-- The code k of the b-th binade, whose ends are 2^mb and 2^(mb + 1), stands for k units; the lowest binade also holds the
subnormal codes. -/
theorem FpSpec.grid_binade (s : FpSpec) {b k : Nat} (hhi : k ≤ 2 ^ (s.mb + 1)) (hlo : b ≠ 0 → 2 ^ s.mb ≤ k) :
    s.grid (b * 2 ^ s.mb + k) = k * 2 ^ (b + s.emin - s.mb) := by
  have hpos : 0 < 2 ^ s.mb := by positivity
  rw [pow_succ] at hhi
  rcases lt_or_ge k (2 ^ s.mb) with hk | hk
  · obtain rfl : b = 0 := by
      by_contra hb
      exact absurd (hlo hb) hk.not_ge
    simp [grid, hk]
  · rw [grid, if_neg (by omega)]
    rcases hhi.lt_or_eq with hlt | rfl
    · have hmod : (b * 2 ^ s.mb + k) % 2 ^ s.mb + 2 ^ s.mb = k := by
        rw [Nat.mul_add_mod_self_right, Nat.mod_eq_sub_mod hk, Nat.mod_eq_of_lt (by omega)]
        omega
      have hdiv : (b * 2 ^ s.mb + k) / 2 ^ s.mb = b + 1 := by
        have hone : k / 2 ^ s.mb = 1 := Nat.div_eq_of_lt_le (by omega) (by omega)
        rw [add_comm, Nat.add_mul_div_right _ _ hpos, hone, add_comm]
      rw [hmod, hdiv]
      congr 2
      push_cast
      ring
    · have hsum : b * 2 ^ s.mb + 2 ^ s.mb * 2 = (b + 2) * 2 ^ s.mb := by ring
      rw [hsum, Nat.mul_mod_left, zero_add, Nat.mul_div_cancel _ hpos]
      have hexp : ((b + 2 : Nat) : ℤ) - 1 + s.emin - s.mb = b + s.emin - s.mb + 1 := by
        push_cast
        ring
      rw [hexp, zpow_add_one₀ two_ne_zero]
      push_cast
      ring

/-- A magnitude is less than 2^(mb + 1) of its units, and at least 2^mb above the lowest binade. -/
theorem FpSpec.floor_bounds (s : FpSpec) {m : Nat} (e : Int) (hm : m ≠ 0) :
    ⌊(m : ℚ) * 2 ^ (e - s.ulpExp m e)⌋₊ < 2 ^ (s.mb + 1) ∧
      (s.binade m e ≠ 0 → 2 ^ s.mb ≤ ⌊(m : ℚ) * 2 ^ (e - s.ulpExp m e)⌋₊) := by
  have hp : ∀ k : ℤ, (0 : ℚ) < 2 ^ k := fun k => zpow_pos two_pos k
  constructor
  · have hlog : (m : ℚ) < 2 ^ ((Nat.log2 m + 1 : Nat) : ℤ) := by
      rw [zpow_natCast]
      exact_mod_cast Nat.lt_log2_self
    have hexp : ((Nat.log2 m + 1 : Nat) : ℤ) + (e - s.ulpExp m e) ≤ ((s.mb + 1 : Nat) : ℤ) := by
      simp only [ulpExp]
      omega
    rw [Nat.floor_lt (mul_nonneg m.cast_nonneg (hp _).le)]
    calc (m : ℚ) * 2 ^ (e - s.ulpExp m e) < 2 ^ ((Nat.log2 m + 1 : Nat) : ℤ) * 2 ^ (e - s.ulpExp m e) :=
          mul_lt_mul_of_pos_right hlog (hp _)
      _ = 2 ^ (((Nat.log2 m + 1 : Nat) : ℤ) + (e - s.ulpExp m e)) := (zpow_add₀ two_ne_zero _ _).symm
      _ ≤ 2 ^ ((s.mb + 1 : Nat) : ℤ) := zpow_le_zpow_right₀ one_le_two hexp
      _ = ((2 ^ (s.mb + 1) : Nat) : ℚ) := by rw [zpow_natCast, Nat.cast_pow, Nat.cast_ofNat]
  · intro hb
    have hlog : (2 : ℚ) ^ (Nat.log2 m : ℤ) ≤ m := by
      rw [zpow_natCast]
      exact_mod_cast Nat.log2_self_le hm
    have hexp : (s.mb : ℤ) = Nat.log2 m + (e - s.ulpExp m e) := by
      simp only [binade, ulpExp] at hb ⊢
      omega
    rw [Nat.le_floor_iff (mul_nonneg m.cast_nonneg (hp _).le)]
    calc ((2 ^ s.mb : Nat) : ℚ) = 2 ^ (s.mb : ℤ) := by rw [zpow_natCast, Nat.cast_pow, Nat.cast_ofNat]
      _ = 2 ^ (Nat.log2 m : ℤ) * 2 ^ (e - s.ulpExp m e) := by rw [hexp, zpow_add₀ two_ne_zero]
      _ ≤ m * 2 ^ (e - s.ulpExp m e) := mul_le_mul_of_nonneg_right hlog (hp _).le

/-- A magnitude lies the fraction t of a unit u above the code lo, whose upper neighbour lies u above it; every mode gives lo or
that neighbour, as the mode rounds t. -/
theorem FpSpec.magCode_between (s : FpSpec) {m : Nat} (e : Int) (hm : m ≠ 0) :
    ∃ (lo : Nat) (t u : ℚ), 0 ≤ t ∧ t < 1 ∧ 0 < u ∧ (m : ℚ) * 2 ^ e = s.grid lo + t * u ∧ s.grid (lo + 1) = s.grid lo + u ∧
      ∀ rm r neg, s.magCode rm r neg m e = lo + roundStep rm r neg t (decide (lo % 2 = 1)) := by
  set x : ℚ := (m : ℚ) * 2 ^ (e - s.ulpExp m e) with hx
  obtain ⟨hhi, hlo⟩ := s.floor_bounds e hm
  have hgrid := s.grid_binade hhi.le hlo
  have hnext := s.grid_binade (Nat.succ_le_of_lt hhi) fun hb => (hlo hb).trans (Nat.le_succ _)
  rw [← s.ulpExp_eq, ← hx] at hgrid hnext
  refine ⟨s.binade m e * 2 ^ s.mb + ⌊x⌋₊, Int.fract x, 2 ^ s.ulpExp m e, Int.fract_nonneg x, Int.fract_lt_one x,
    zpow_pos two_pos _, ?_, ?_, fun rm r neg => ?_⟩
  · have hnonneg : 0 ≤ x := mul_nonneg m.cast_nonneg (zpow_pos two_pos _).le
    have hsplit : (⌊x⌋₊ : ℚ) + Int.fract x = x := by rw [natCast_floor_eq_intCast_floor hnonneg, Int.floor_add_fract]
    rw [hgrid, ← add_mul, hsplit, hx, mul_assoc, ← zpow_add₀ two_ne_zero, sub_add_cancel]
  · rw [add_assoc, hnext, hgrid]
    push_cast
    ring
  · rw [s.magCode_eq rm r neg e hm, roundAt_eq _ _ _ _ _ _ _ hx, add_assoc]

/-- Where a magnitude lies strictly between two codes, each mode chooses as R101 and R103 say. -/
theorem lo_add_roundStep {lo r : Nat} {rm : Rm} {neg : Bool} {t a b u x : ℚ} (ht : t ≠ 0) (hu : 0 < u) (hx : x = a + t * u)
    (hb : b = a + u) :
    let c := lo + roundStep rm r neg t (decide (lo % 2 = 1))
    (rm = .rz → c = lo) ∧ (rm = .ru → c = if neg then lo else lo + 1) ∧ (rm = .rd → c = if neg then lo + 1 else lo) ∧
    (rm = .rne → (x - a < b - x → c = lo) ∧ (b - x < x - a → c = lo + 1) ∧
      (x - a = b - x → c = if lo % 2 = 0 then lo else lo + 1)) ∧
    (rm = .sr → c = if 2 ^ 24 ≤ ⌊(x - a) / (b - a) * 2 ^ 24⌋ + (r % 2 ^ 24 : Nat) then lo + 1 else lo) := by
  have hbelow : x - a = t * u := by rw [hx]; ring
  have habove : b - x = (1 - t) * u := by rw [hx, hb]; ring
  have hfraction : (x - a) / (b - a) = t := by rw [hbelow, hb, add_sub_cancel_left, mul_div_cancel_right₀ _ hu.ne']
  simp only [roundStep_of_ne_zero ht]
  refine ⟨?_, ?_, ?_, ?_, ?_⟩
  · rintro rfl
    rfl
  · rintro rfl
    cases neg <;> rfl
  · rintro rfl
    cases neg <;> rfl
  · rintro rfl
    rw [hbelow, habove, mul_lt_mul_iff_left₀ hu, mul_lt_mul_iff_left₀ hu, mul_left_inj' hu.ne']
    refine ⟨fun h => ?_, fun h => ?_, fun h => ?_⟩
    · have hhalf : t < 1 / 2 := by linarith
      simp only [roundsUp, hhalf.not_gt, hhalf.ne, decide_false, Bool.false_and, Bool.or_self, Bool.false_eq_true, if_false,
        add_zero]
    · have hhalf : 1 / 2 < t := by linarith
      simp only [roundsUp, hhalf, decide_true, Bool.true_or, if_true]
    · obtain rfl : t = 1 / 2 := by linarith
      rcases Nat.mod_two_eq_zero_or_one lo with hlo | hlo <;> simp [roundsUp, hlo]
  · rintro rfl
    rw [hfraction]
    simp only [roundsUp, decide_eq_true_eq, add_ite, add_zero]

/-! ### A value that a format represents -/

/-- The sign that a code of a format keeps: none in a natural format, and of zero only where there is −0. -/
def FpSpec.keptSign (s : FpSpec) (neg : Bool) (v : Nat) : Bool := s.signBit.isSome && (neg && (s.ieee || decide (v ≠ 0)))

/-- The significand of a magnitude's code, in units of the code's binade. -/
def FpSpec.significand (s : FpSpec) (v : Nat) : Nat := if v < 2 ^ s.mb then v else v % 2 ^ s.mb + 2 ^ s.mb

/-- The exponent of that unit. -/
def FpSpec.unitExp (s : FpSpec) (v : Nat) : Int :=
  if v < 2 ^ s.mb then s.emin - s.mb else ((v / 2 ^ s.mb : Nat) : Int) - 1 + s.emin - s.mb

theorem FpSpec.signed_keptSign (s : FpSpec) (neg : Bool) (v : Nat) : s.signed (s.keptSign neg v) v = s.signed neg v := by
  cases h : s.signBit <;> simp [signed, keptSign, h]

theorem FpSpec.keptSign_and_isNone {s : FpSpec} {neg : Bool} {v : Nat} : (s.keptSign neg v && s.signBit.isNone) = false := by
  cases h : s.signBit <;> simp [keptSign, h]

/-- The sign bit of a code of the magnitude v, and the rest of the code. -/
theorem FpSpec.signed_parts {s : FpSpec} {k v : Nat} (neg : Bool) (hk : s.signBit = some k) (hv : v < 2 ^ k) :
    (s.signed neg v).testBit k = s.keptSign neg v ∧ s.signed neg v % 2 ^ k = v := by
  have hsign : s.signed neg v = if s.keptSign neg v = true then v + 2 ^ k else v := by simp [signed, keptSign, hk]
  rw [hsign]
  cases s.keptSign neg v with
  | false => simp [Nat.testBit_lt_two_pow hv, Nat.mod_eq_of_lt hv]
  | true => simp [add_comm v, Nat.testBit_two_pow_add_eq, Nat.testBit_lt_two_pow hv, Nat.mod_eq_of_lt hv]

/-- A code of a finite magnitude that is not the format's NaN decodes to its sign, significand and exponent. -/
theorem FpSpec.decode_signed {s : FpSpec} {v : Nat} {neg : Bool} (hfit : ∀ k, s.signBit = some k → s.maxCode < 2 ^ k)
    (hv : v ≤ s.maxCode) (hnan : s.decode (s.signed neg v) ≠ .nan) :
    s.decode (s.signed neg v) = .fin (s.keptSign neg v) (s.significand v) (s.unitExp v) := by
  have hcode : ¬ (!s.ieee && !s.noNan && decide (s.signed neg v = s.nan)) = true := fun h => hnan (by rw [decode, if_pos h])
  have hkept : (s.keptSign neg v && (s.ieee || decide (v ≠ 0))) = s.keptSign neg v := by
    rw [keptSign, Bool.and_assoc, Bool.and_assoc, Bool.and_self]
  rw [decode, if_neg hcode]
  cases hk : s.signBit with
  | none =>
    have hcodeEq : s.signed neg v = v := by simp [signed, hk]
    have hsign : s.keptSign neg v = false := by simp [keptSign, hk]
    by_cases hlt : v < 2 ^ s.mb <;> simp [hcodeEq, hsign, hv.not_gt, hlt, significand, unitExp]
  | some k =>
    obtain ⟨hsign, hmag⟩ := signed_parts neg hk (hv.trans_lt (hfit k hk))
    simp only [hsign, hmag, hv.not_gt, if_false, hkept]
    by_cases hlt : v < 2 ^ s.mb <;> simp [hlt, significand, unitExp]

/-- The code that the decoded significand and exponent round to, exactly, is the code they came from. -/
theorem FpSpec.magCode_significand (s : FpSpec) (rm : Rm) (r : Nat) (neg : Bool) (v : Nat) :
    s.magCode rm r neg (s.significand v) (s.unitExp v) = v := by
  have hpos : 0 < 2 ^ s.mb := by positivity
  by_cases hzero : s.significand v = 0
  · have hv : v = 0 := by
      simp only [significand] at hzero
      split at hzero <;> omega
    rw [hzero, hv]
    rfl
  · rw [s.magCode_eq rm r neg _ hzero]
    by_cases hlt : v < 2 ^ s.mb
    · have hsig : s.significand v = v := if_pos hlt
      have hlog : Nat.log2 v < s.mb := (Nat.log2_lt (hsig ▸ hzero)).mpr hlt
      have hunit : s.ulpExp (s.significand v) (s.unitExp v) = s.unitExp v := by
        simp only [ulpExp, unitExp, if_pos hlt, hsig]
        omega
      have hbin : s.binade (s.significand v) (s.unitExp v) = 0 := by
        rw [binade, hunit, unitExp, if_pos hlt]
        omega
      rw [hbin, hunit, roundAt, if_pos le_rfl, hsig]
      simp
    · have hsig : s.significand v = v % 2 ^ s.mb + 2 ^ s.mb := if_neg hlt
      have hmod := Nat.mod_lt v hpos
      have hlog : Nat.log2 (v % 2 ^ s.mb + 2 ^ s.mb) = s.mb := by
        rw [Nat.log2_eq_iff (by omega), pow_succ]
        omega
      have hdiv : 1 ≤ v / 2 ^ s.mb := Nat.div_pos (not_lt.mp hlt) hpos
      have hunit : s.ulpExp (s.significand v) (s.unitExp v) = s.unitExp v := by
        simp only [ulpExp, unitExp, if_neg hlt, hsig, hlog]
        omega
      have hbin : s.binade (s.significand v) (s.unitExp v) = v / 2 ^ s.mb - 1 := by
        rw [binade, hunit, unitExp, if_neg hlt]
        omega
      rw [hbin, hunit, roundAt, if_pos le_rfl, hsig, sub_self, Int.toNat_zero, pow_zero, mul_one]
      calc (v / 2 ^ s.mb - 1) * 2 ^ s.mb + (v % 2 ^ s.mb + 2 ^ s.mb)
          = (v / 2 ^ s.mb - 1 + 1) * 2 ^ s.mb + v % 2 ^ s.mb := by ring
        _ = v := by rw [Nat.sub_add_cancel hdiv, mul_comm, Nat.div_add_mod]

theorem FpSpec.arith_decode_signed {s : FpSpec} {v : Nat} {neg : Bool} (hfit : ∀ k, s.signBit = some k → s.maxCode < 2 ^ k)
    (rm : Rm) (r : Nat) (hv : v ≤ s.maxCode) (hnan : s.decode (s.signed neg v) ≠ .nan) :
    s.arith rm r (s.decode (s.signed neg v)) = s.signed neg v := by
  rw [decode_signed hfit hv hnan]
  simp only [arith, keptSign_and_isNone, Bool.false_eq_true, if_false, magCode_significand, if_pos hv, signed_keptSign]

theorem b8Spec_maxCode_lt {p : Nat} {nat fin : Bool} {k : Nat} (hk : (b8Spec p nat fin).signBit = some k) :
    (b8Spec p nat fin).maxCode < 2 ^ k := by
  cases nat with
  | true => exact absurd hk (by simp [b8Spec])
  | false =>
    obtain rfl : 7 = k := Option.some.inj hk
    cases fin <;> simp [b8Spec]

/-- In every element format the sign lies above all magnitudes. -/
theorem maxCode_lt_of_elementFormat {f : FpSpec}
    (hf : f ∈ [f32Spec, f16Spec, bf16Spec, e5m2Spec, e2m1Spec] ∨ ∃ p nat fin, 1 ≤ p ∧ p ≤ 7 ∧ f = b8Spec p nat fin) (k : Nat)
    (hk : f.signBit = some k) : f.maxCode < 2 ^ k := by
  rcases hf with hf | ⟨p, nat, fin, -, -, rfl⟩
  · have hall : ∀ g ∈ [f32Spec, f16Spec, bf16Spec, e5m2Spec, e2m1Spec], ∀ j ∈ g.signBit, g.maxCode < 2 ^ j := by decide
    exact hall f hf k hk
  · exact b8Spec_maxCode_lt hk

/-- Settles O29: a magnitude is its lower neighbour plus a fraction of the distance to the upper one, which the mode rounds; of a
decoded code the fraction is zero. -/
theorem floatCodesRoundBetweenNeighbours : Obligations.FloatCodesRoundBetweenNeighbours := by
  unfold Obligations.FloatCodesRoundBetweenNeighbours
  intro f hf grid
  refine ⟨fun r draw neg m e hm => ?_, fun r draw v hv neg hnan =>
    FpSpec.arith_decode_signed (maxCode_lt_of_elementFormat hf) r draw hv hnan⟩
  obtain ⟨lo, t, u, ht0, ht1, hu, hx, hnext, hcode⟩ := f.magCode_between e hm.ne'
  have hgrid : grid = f.grid := rfl
  have hexact : (m : ℚ) * 2 ^ e = f.grid lo ↔ t = 0 := by rw [hx, add_eq_left, mul_eq_zero, or_iff_left hu.ne']
  simp only [hgrid, hcode, roundStep_rz, add_zero, ne_eq, hexact]
  refine ⟨?_, ?_, ?_, fun ht => lo_add_roundStep ht hu hx hnext⟩
  · exact hx ▸ le_add_of_nonneg_right (mul_nonneg ht0 hu.le)
  · rw [hx, hnext]
    exact add_lt_add_right (mul_lt_of_lt_one_left hu ht1) _
  · rintro rfl
    rw [roundStep_zero, add_zero]

end Sys2Proof.Machine
end

section

/-!
SUPPORT. The token class, what its instructions read and amend of the firing itself (R118, R146, R156, R157): fields of a word, a change
of the firing with its charge, the outgoing tag and the loop allowance. The statements O24 and O25 are settled from these.
-/

namespace Sys2Proof.Machine

/-! ### Fields of words (R6) -/

theorem dbl_bits {n : Nat} (x : BitVec n) (lo w : Nat) : dbl (bits x lo w) = (x.extractLsb' lo w).zeroExtend 64 := by
  exact BitVec.ofNat_toNat _ _

/-- A bit of a word with a field replaced: the field's own bits are those of the value. -/
theorem getLsbD_setBits {n : Nat} (x : BitVec n) (lo w v i : Nat) (hi : i < n) :
    (setBits x lo w v).getLsbD i = if lo ≤ i ∧ i < lo + w then v.testBit (i - lo) else x.getLsbD i := by
  have hmask : ((2 ^ w - 1) * 2 ^ lo).testBit i = decide (lo ≤ i ∧ i < lo + w) := by
    rw [Nat.testBit_mul_two_pow, Nat.testBit_two_pow_sub_one]
    by_cases h : lo ≤ i <;> simp [h]; omega
  have hval : (v % 2 ^ w * 2 ^ lo).testBit i = (decide (lo ≤ i ∧ i < lo + w) && v.testBit (i - lo)) := by
    rw [Nat.testBit_mul_two_pow, Nat.testBit_mod_two_pow]
    by_cases h : lo ≤ i <;> simp [h]; congr 1; simp; omega
  simp only [setBits, BitVec.getLsbD_or, BitVec.getLsbD_and, BitVec.getLsbD_not, BitVec.getLsbD_ofNat, hi, decide_true,
    Bool.true_and, hmask, hval]
  by_cases h : lo ≤ i ∧ i < lo + w <;> simp [h]

/-- A field that has been set reads as the value, modulo its width. -/
theorem bits_setBits_same {n : Nat} (x : BitVec n) {lo w : Nat} (v : Nat) (h : lo + w ≤ n) :
    bits (setBits x lo w v) lo w = v % 2 ^ w := by
  refine Nat.eq_of_testBit_eq fun i => ?_
  rw [bits, BitVec.testBit_toNat, BitVec.getLsbD_extractLsb', Nat.testBit_mod_two_pow]
  by_cases hi : i < w
  · rw [getLsbD_setBits x lo w v _ (by omega)]
    simp [hi]
  · simp [hi]

/-- A field that does not overlap the one that has been set reads as before. -/
theorem bits_setBits_other {n : Nat} (x : BitVec n) {lo w k m : Nat} (v : Nat) (h : k + m ≤ lo ∨ lo + w ≤ k) :
    bits (setBits x lo w v) k m = bits x k m := by
  refine Nat.eq_of_testBit_eq fun i => ?_
  simp only [bits, BitVec.testBit_toNat, BitVec.getLsbD_extractLsb']
  by_cases hi : i < m
  · by_cases hn : k + i < n
    · rw [getLsbD_setBits x lo w v _ hn, if_neg (by omega)]
    · rw [BitVec.getLsbD_of_ge _ _ (by omega), BitVec.getLsbD_of_ge _ _ (by omega)]
  · simp [hi]

/-- Setting a field reads no more of the value than its width. -/
theorem setBits_mod {n : Nat} (x : BitVec n) (lo w v : Nat) : setBits x lo w (v % 2 ^ w) = setBits x lo w v := by
  simp [setBits]

/-! ### The outgoing tag (R118, R156) -/

/-- A tag with another ITER and THREAD, and no other field changed. -/
structure TagAmended (o g : BitVec 64) (iter thread : Nat) : Prop where
  iter : tagIter g = iter
  thread : tagThread g = thread
  ctx : tagCtx g = tagCtx o
  inst : tagInst g = tagInst o
  block : tagBlock g = tagBlock o

theorem withIter_amends (o : BitVec 64) (v : Nat) : TagAmended o (withIter o v) (v % 2 ^ 20) (tagThread o) where
  iter := bits_setBits_same o v (by omega)
  thread := bits_setBits_other o v (by omega)
  ctx := bits_setBits_other o v (by omega)
  inst := bits_setBits_other o v (by omega)
  block := bits_setBits_other o v (by omega)

theorem tagWrite_iter_amends (o : BitVec 64) (v : Nat) : TagAmended o (tagWrite o .iter v) (v % 2 ^ 20) (tagThread o) :=
  withIter_amends o v

theorem tagWrite_thread_amends (o : BitVec 64) (v : Nat) : TagAmended o (tagWrite o .thread v) (tagIter o) (v % 2 ^ 12) where
  iter := bits_setBits_other o v (by omega)
  thread := bits_setBits_same o v (by omega)
  ctx := bits_setBits_other o v (by omega)
  inst := bits_setBits_other o v (by omega)
  block := bits_setBits_other o v (by omega)

/-- A field of a tag is a small number, which the value of TGET holds exactly. -/
theorem tagRead_iter_toNat (f : Firing) : (tagRead f .iter).toNat = tagIter f.otag :=
  (BitVec.toNat_ofNat _ _).trans (Nat.mod_eq_of_lt (lt_trans (f.otag.extractLsb' 0 20).isLt (by norm_num)))

theorem tagRead_thread_toNat (f : Firing) : (tagRead f .thread).toNat = tagThread f.otag :=
  (BitVec.toNat_ofNat _ _).trans (Nat.mod_eq_of_lt (lt_trans (f.otag.extractLsb' 23 12).isLt (by norm_num)))

/-! ### Changes one behind the other -/

theorem Map.put_put_same {α : Type} (m : Map α) (k : Nat) (v w : α) : Map.put (Map.put m k v) k w = Map.put m k w := by
  induction m with
  | nil => simp [Map.put]
  | cons p m ih =>
    obtain ⟨j, u⟩ := p
    rcases lt_trichotomy k j with h | h | h
    · simp [Map.put, h]
    · simp [Map.put, h]
    · simp [Map.put, h.not_gt, h.ne, ih]

theorem modSt_modSt (s : State) (l : Loc) (f g : Station → Station) : (s.modSt l f).modSt l g = s.modSt l (g ∘ f) := by
  simp only [State.modSt, st_setSt_same, Function.comp_apply]
  simp only [State.setSt, Map.put_put_same]

theorem modFir_modFir (s : State) (f g : Firing → Firing) : (s.modFir f).modFir g = s.modFir (g ∘ f) :=
  modSt_modSt s _ _ _

/-! ### A change of the firing, with its charge -/

@[simp] theorem eat_nil (s : State) : s.eat [] = s := rfl

/-- Everything that an instruction does that reads its sources, changes its firing and goes on. -/
theorem plain_modFir_adv (s : State) (l : List Sel) (f : Firing → Firing) (hc : (f s.fir).ctx = s.fir.ctx) :
    Plain s ((s.eat l).modFir f).adv l { f s.fir with pos := (f s.fir).pos + 1 } := by
  obtain ⟨eatSched, eatFir, eatNet, eatFab, eatSt⟩ := slotOnly_eat s l
  have hc' : (f (s.eat l).fir).ctx = (s.eat l).fir.ctx := by rw [eatFir, hc]
  obtain ⟨modFirEq, modNet, modFab, modSt, modSched⟩ := modFir_leaves (s.eat l) f
  obtain ⟨advFir, advCx, advNet, advFab, advSt, advSched⟩ := adv_leaves ((s.eat l).modFir f)
  have hctx : ((s.eat l).modFir f).fir.ctx = s.fir.ctx := by rw [modFirEq, hc', eatFir]
  refine ⟨by rw [advFir, modFirEq, eatFir], ?_, ?_, ?_, ?_, ?_⟩
  · unfold Consumed
    rw [advCx, cx_modFir _ _ hc', cx_eat]
  · exact onlyFiring_trans (modSched.trans eatSched) hctx (onlyFiring_trans eatSched (by rw [eatFir]) eatSt modSt) advSt
  · exact sameNetworks_trans (sameNetworks_trans eatNet modNet) advNet
  · exact onlyFabric_trans (onlyFabric_trans eatFab modFab) advFab
  · exact advSched.trans (modSched.trans eatSched)

/-- TSET and TADD: the outgoing tag is written from the firing, and the instruction goes on. -/
theorem otag_written (s : State) (a : Sel) (w : Firing → BitVec 64) {iter thread : Nat}
    (h : TagAmended s.fir.otag (w s.fir) iter thread) :
    ∃ g, Plain s ((s.eat [a]).modFir (fun f => { f with otag := w f })).adv [a] { s.fir with otag := g, pos := s.fir.pos + 1 } ∧
      tagIter g = iter ∧ tagThread g = thread ∧ tagCtx g = tagCtx s.fir.otag ∧ tagInst g = tagInst s.fir.otag ∧
      tagBlock g = tagBlock s.fir.otag :=
  ⟨w s.fir, plain_modFir_adv s [a] (fun f => { f with otag := w f }) rfl, h.iter, h.thread, h.ctx, h.inst, h.block⟩

/-- TGET writes what it reads to its temporary. -/
theorem tget_writes (s : State) (d : Fin 8) (f : TagField) {v : Double} (h : tagRead s.fir f = v) :
    Yields (.tget d f) s (WritesTemp s · d [] v) :=
  ⟨_, rfl, h ▸ result_writesTemp s d [] _⟩

/-- Settles O24: TGET is one write of a temporary; TSET and TADD set one field of the outgoing tag. -/
theorem theOutgoingTagIsReadAndAmended : Obligations.TheOutgoingTagIsReadAndAmended := by
  unfold Obligations.TheOutgoingTagIsReadAndAmended
  intro s d a o x amends
  refine ⟨tget_writes s d .iter (dbl_bits _ _ _), tget_writes s d .thread (dbl_bits _ _ _), tget_writes s d .ctx (dbl_bits _ _ _),
    tget_writes s d .inst (dbl_bits _ _ _), tget_writes s d .block (dbl_bits _ _ _), tget_writes s d .tag rfl,
    tget_writes s d .nulls rfl, ?setIter, ?setThread, ?addIter, ?addThread⟩
  case setIter => exact ⟨_, rfl, otag_written s a (fun f => tagWrite f.otag .iter x) (tagWrite_iter_amends o x)⟩
  case setThread => exact ⟨_, rfl, otag_written s a (fun f => tagWrite f.otag .thread x) (tagWrite_thread_amends o x)⟩
  case addIter =>
    refine ⟨_, rfl, otag_written s a (fun f => tagWrite f.otag .iter ((tagRead f .iter).toNat + x)) ?_⟩
    rw [tagRead_iter_toNat]
    exact tagWrite_iter_amends o _
  case addThread =>
    refine ⟨_, rfl, otag_written s a (fun f => tagWrite f.otag .thread ((tagRead f .thread).toNat + x)) ?_⟩
    rw [tagRead_thread_toNat]
    exact tagWrite_thread_amends o _

/-! ### Loops (R146, R157) -/

/-- A change of the slot in use is a frame of the firing. -/
theorem lgate_leaves (s : State) (d : Fin 8) (h : s.fir.ctx < 8) :
    let n := (s.cx.loopBase + s.cx.admitted) % 2 ^ 20
    ∃ t, exec (.lgate d) s = .next t ∧
      t.fir = { s.fir with t := s.fir.t.set d (dbl n), otag := withIter s.fir.otag n, pos := s.fir.pos + 1 } ∧
      t.cx = { s.cx with allow := s.cx.allow - 1, admitted := s.cx.admitted + 1, site := t.cx.site } ∧
      OnlyFiring s t ∧ SameNetworks s t ∧ OnlyFabric s t ∧ t.sched = s.sched := by
  intro n
  obtain ⟨gateSched, gateFir, gateNet, gateFab, gateSt⟩ :=
    slotOnly_modCx s (fun c => { c with allow := c.allow - 1, admitted := c.admitted + 1 })
  have gateCx := cx_modCx s (fun c => { c with allow := c.allow - 1, admitted := c.admitted + 1 })
  obtain ⟨fir, cons, st, net, fab, sched⟩ :=
    plain_modFir_adv (s.modCx (fun c => { c with allow := c.allow - 1, admitted := c.admitted + 1 })) []
      (fun f => { f with otag := withIter f.otag n, t := f.t.set d (dbl n) }) rfl
  rw [gateFir] at fir
  refine ⟨_, ?_, fir, ?_, ?_, sameNetworks_trans gateNet net, onlyFabric_trans gateFab fab, sched.trans gateSched⟩
  · change execLgate d s = _
    simp only [execLgate, State.wr, modFir_modFir]
    rfl
  · rw [cons, gateCx, if_pos h]
    simp
  · exact onlyFiring_trans gateSched (by rw [gateFir]) gateSt st

/-- Settles O25: the allowance and the count of the slot, then the firing; a credit and a NOP are changes of the firing alone. -/
theorem loopGatesCountTheirAllowance : Obligations.LoopGatesCountTheirAllowance := by
  unfold Obligations.LoopGatesCountTheirAllowance
  intro s d h n
  refine ⟨?lgate, ⟨_, rfl, plain_modFir_adv s [] (fun f => { f with credits := f.credits + 1 }) rfl⟩,
    ⟨_, rfl, ?nop⟩⟩
  case lgate =>
    obtain ⟨t, ht, fir, cx, frame⟩ := lgate_leaves s d h
    obtain ⟨hiter, hthread, hctx, hinst, hblock⟩ := withIter_amends s.fir.otag n
    rw [Nat.mod_mod] at hiter
    exact ⟨t, ht, withIter s.fir.otag n, fir, hiter, hthread, hctx, hinst, hblock, cx, frame⟩
  case nop =>
    obtain ⟨fir, cx, net, fab, st, sched⟩ := adv_leaves s
    exact ⟨fir, by simpa [Consumed] using cx, st, net, fab, sched⟩

end Sys2Proof.Machine
end

section

/-!
SUPPORT. Sending tokens (R50, R53, R77, R121, R276, R277, R318): what entering the network, a routing word and emit_token change, and what
they leave. The statements O21 and O23 are settled from these.
-/

namespace Sys2Proof.Machine

/-! ### Records of instances -/

theorem inst_modInst_other (s : State) {id k : Nat} (f : Inst → Inst) (h : ∀ i, (f i).id = i.id) (hk : k ≠ id) :
    (s.modInst id f).inst? k = s.inst? k := by
  simp only [State.inst?, State.modInst]
  refine find_modFirst_other _ _ _ _ (fun i hi => ?_) (fun i hi => ?_)
  · simp only [decide_eq_true_eq] at hi
    simp [hi, hk.symm]
  · simp only [decide_eq_true_eq] at hi
    simp [h, hi, hk.symm]

theorem inst_id {s : State} {id : Nat} {i : Inst} (h : s.inst? id = some i) : i.id = id := by
  simpa using List.find?_some h

/-- A record differs from another in no more than the results sent and the result reservations. -/
def Inst.SameRoutes (i j : Inst) : Prop := j = { i with sentRes := j.sentRes, resRes := j.resRes }

/-- Every record stays, but for the results sent and the result reservations. -/
def KeepsInsts (s t : State) : Prop := ∀ id i, s.inst? id = some i → ∃ j, t.inst? id = some j ∧ i.SameRoutes j

theorem keepsInsts_of_eq {s t : State} (h : t.prick.insts = s.prick.insts) : KeepsInsts s t :=
  fun id i hi => ⟨i, by rw [← hi]; simp only [State.inst?, h], rfl⟩

theorem keepsInsts_trans {s t u : State} (h : KeepsInsts s t) (k : KeepsInsts t u) : KeepsInsts s u := by
  intro id i hi
  obtain ⟨j, hj, ej⟩ := h id i hi
  obtain ⟨m, hm, em⟩ := k id j hj
  refine ⟨m, hm, ?_⟩
  unfold Inst.SameRoutes at *
  rw [em, ej]

theorem keepsInsts_modInst (s : State) (id : Nat) (f : Inst → Inst) (h : ∀ i : Inst, i.SameRoutes (f i)) :
    KeepsInsts s (s.modInst id f) := by
  have hid : ∀ i, (f i).id = i.id := fun i => by rw [h i]
  intro k i hi
  by_cases hk : k = id
  · subst hk
    exact ⟨f i, by rw [inst_modInst s k f hid, hi]; rfl, h i⟩
  · exact ⟨i, by rw [inst_modInst_other s f hid hk, hi], rfl⟩

/-! ### What the network takes in -/

/-- Tokens, messages to sinks and charges have been added, and records of instances note what has been sent; nothing else differs. -/
def Posts (s t : State) : Prop :=
  t = { s with
    sched := { s.sched with uid := t.sched.uid }
    prick := { s.prick with insts := t.prick.insts }
    fab := { s.fab with tokens := t.fab.tokens, sinkMsgs := t.fab.sinkMsgs, charges := t.fab.charges } }

theorem posts_trans {s t u : State} (h : Posts s t) (k : Posts t u) : Posts s u := by
  unfold Posts at *
  rw [k, h]

/-- A flight as it enters the network: under its own name, with its place in the out-buffer. -/
def Flight.SameToken (f g : Flight) : Prop := g = { f with uid := g.uid, inBank := g.inBank, payBank := g.payBank }

/-- Only the list of charged work differs. -/
def Charges (s t : State) : Prop := t = { s with fab := { s.fab with charges := t.fab.charges } }

theorem charges_charge (s : State) (vf col : Nat) (w : Work) (n : Nat) : Charges s (s.charge vf col w n) := by
  unfold State.charge
  split <;> rfl

/-- The tile payload of a waiting token finds its place: the token is the same, and no more than charges differ. -/
theorem stowTile_charges (s : State) (f : Flight) :
    f.SameToken (s.stowTile f).1 ∧ Charges s (s.stowTile f).2 := by
  unfold State.stowTile
  split
  · split
    · exact ⟨rfl, rfl⟩
    · exact ⟨rfl, charges_charge _ _ _ _ _⟩
  · exact ⟨rfl, rfl⟩

/-- A token of a flight has entered the network behind those under way. -/
def Launches (f : Flight) (s t : State) : Prop :=
  ∃ g, f.SameToken g ∧
    t = { s with sched := { s.sched with uid := t.sched.uid }
                 fab := { s.fab with tokens := s.fab.tokens ++ [g], charges := t.fab.charges } }

theorem launches_charges {f : Flight} {s t u : State} (h : Launches f s t) (k : Charges t u) : Launches f s u := by
  obtain ⟨g, hg, ht⟩ := h
  refine ⟨g, hg, ?_⟩
  unfold Charges at k
  rw [k, ht]

theorem launchTok_launches (s : State) (f : Flight) : Launches f s (s.launchTok f) := by
  let g : Flight := { f with uid := s.newUid.1, inBank := false, payBank := false }
  have stowed : ∀ q : Flight × State, g.SameToken q.1 → Charges s.newUid.2 q.2 →
      Launches f s (q.2.modFab (fun b => { b with tokens := b.tokens ++ [q.1] })) := by
    intro q hq hs
    refine ⟨q.1, ?_, ?_⟩
    · unfold Flight.SameToken at *
      rw [hq]
    · unfold Charges at hs
      rw [hs]
      rfl
  have entered : Launches f s ((if f.holds.all s.holdMet then (g, s.newUid.2) else s.newUid.2.stowTile g).2.modFab
      (fun b => { b with tokens := b.tokens ++
        [(if f.holds.all s.holdMet then (g, s.newUid.2) else s.newUid.2.stowTile g).1] })) := by
    split
    · exact stowed (g, s.newUid.2) rfl rfl
    · exact stowed _ (stowTile_charges _ g).1 (stowTile_charges _ g).2
  unfold State.launchTok
  dsimp only
  split
  · exact entered
  · exact launches_charges entered (charges_charge _ _ _ _ _)

theorem posts_launches {f : Flight} {s t : State} (h : Launches f s t) : Posts s t := by
  obtain ⟨g, -, ht⟩ := h
  unfold Posts
  rw [ht]

theorem posts_launchTok (s : State) (f : Flight) : Posts s (s.launchTok f) := posts_launches (launchTok_launches s f)

/-! ### Routing words (R77, R121, R318, R325) -/

section
variable {s t : State} (h : Posts s t)
include h

theorem posts_st (l : Loc) : t.st l = s.st l := by
  rw [h]
  rfl

theorem posts_sched : t.sched = { s.sched with uid := t.sched.uid } := by
  rw [h]

theorem posts_fir : t.fir = s.fir := by
  rw [State.fir, posts_st h, posts_sched h]
  rfl

theorem posts_cx : t.cx = s.cx := by
  rw [State.cx, posts_st h, posts_fir h, posts_sched h]
  rfl

end

/-- The token that a routing word of TARGET 0 asks for. -/
def Inst.slotTok (i : Inst) (r tag : BitVec 64) (p : Payload) : Token :=
  ⟨mkHeader (i.target r) (rtSprig r) (rtSlot r) p.kindTl (rtEdge r) tag, tag, p⟩

/-- The token of a result, for the caller at its present place. -/
def Inst.resultTok (i c : Inst) (rt : BitVec 64) (k : Nat) (p : Payload) : Token :=
  let q := (i.resRoutes[k]?).getD 0
  let g := setBits rt 35 3 c.slot
  ⟨mkHeader (c.target q) (rtSprig q) (rtSlot q) (p.crossTl kindResult) (rtEdge q) g, g, p⟩

section
variable {r tag : BitVec 64} {p : Payload} (s : State) (i : Inst) (fl : Flight) (hd : ¬ (p = .null ∧ rtDropNull r = true))
include hd

theorem sendRoute_slot (h : rtTarget r = 0) :
    s.sendRoute i r tag p none fl = s.launchTok { fl with tok := i.slotTok r tag p } := by
  simp only [State.sendRoute, if_neg hd, h, Inst.slotTok]

theorem sendRoute_sink (h : rtTarget r = 1 ∨ rtTarget r = 2 ∧ i.isCallee = false) :
    s.sendRoute i r tag p none fl =
      s.sendSink i (rtNum r) p fl.src (rtEdge r) fl.fid fl.holds (fl.before.getD []) fl.pad := by
  rcases h with h | ⟨h, hk⟩
  · simp only [State.sendRoute, if_neg hd, h]
  · cases hi : i.kind with
    | root => simp only [State.sendRoute, if_neg hd, h, hi]
    | callee c n rt => simp [Inst.isCallee, hi] at hk
    | spawned => simp only [State.sendRoute, if_neg hd, h, hi]

theorem sendRoute_result (h : rtTarget r = 2) {caller site : Nat} {rt : BitVec 64} (hk : i.kind = .callee caller site rt) :
    s.sendRoute i r tag p none fl = s.sendResult i caller site rt (rtNum r) p fl := by
  simp only [State.sendRoute, if_neg hd, h, hk]

/-- A word of a reserved TARGET, and an argument without a callee, send nothing. -/
theorem sendRoute_none (h : 2 < rtTarget r) : s.sendRoute i r tag p none fl = s := by
  unfold State.sendRoute
  rw [if_neg hd]
  split
  · next h0 => omega
  · next h1 => omega
  · next h2 => omega
  · rfl

end

/-- The callee's record notes that a result has been sent. -/
def State.noteSent (s : State) (id k : Nat) : State := s.modInst id (fun j => { j with sentRes := nput j.sentRes k })

section
variable (s : State) (i : Inst) {caller : Nat} (site : Nat) (rt : BitVec 64) (k : Nat) (p : Payload) (f : Flight)

/-- Once the caller has ended, the result goes nowhere. -/
theorem sendResult_ended (h : ∀ c, s.inst? caller = some c → c.st = .retired ∨ c.st = .killed) :
    s.sendResult i caller site rt k p f = s.noteSent i.id k := by
  have hf : (s.inst? caller).filter (fun c => decide (c.st ≠ .retired ∧ c.st ≠ .killed)) = none := by
    rw [Option.filter_eq_none_iff]
    intro c hc
    have := h c hc
    simp only [decide_eq_true_eq]
    tauto
  simp only [State.sendResult, hf, State.noteSent]

variable {c : Inst} (hc : s.inst? caller = some c) (hst : c.st ≠ .retired ∧ c.st ≠ .killed)
include hc hst

theorem sendResult_dropped (hp : p = .null ∧ rtDropNull ((i.resRoutes[k]?).getD 0) = true) :
    s.sendResult i caller site rt k p f =
      (s.noteSent i.id k).modInst caller (fun j => { j with resRes := j.resRes.erase (site, k) }) := by
  have hf : (s.inst? caller).filter (fun c => decide (c.st ≠ .retired ∧ c.st ≠ .killed)) = some c := by simp [hc, hst]
  simp only [State.sendResult, hf, if_pos hp, State.noteSent]

theorem sendResult_token (hp : ¬ (p = .null ∧ rtDropNull ((i.resRoutes[k]?).getD 0) = true)) :
    s.sendResult i caller site rt k p f = (s.noteSent i.id k).launchTok { f with tok := i.resultTok c rt k p } := by
  have hf : (s.inst? caller).filter (fun c => decide (c.st ≠ .retired ∧ c.st ≠ .killed)) = some c := by simp [hc, hst]
  simp only [State.sendResult, hf, if_neg hp, State.noteSent, Inst.resultTok]

end

/-- What a step that sends may change of the networks and the records: it posts, and every record keeps its routes. -/
structure Sends (s t : State) : Prop where
  posts : Posts s t
  insts : KeepsInsts s t

theorem sends_refl (s : State) : Sends s s := ⟨rfl, keepsInsts_of_eq rfl⟩

theorem sends_trans {s t u : State} (h : Sends s t) (k : Sends t u) : Sends s u :=
  ⟨posts_trans h.posts k.posts, keepsInsts_trans h.insts k.insts⟩

theorem sends_launchTok (s : State) (f : Flight) : Sends s (s.launchTok f) := by
  refine ⟨posts_launchTok s f, keepsInsts_of_eq ?_⟩
  obtain ⟨g, -, ht⟩ := launchTok_launches s f
  rw [ht]

theorem sends_modInst (s : State) (id : Nat) (f : Inst → Inst) (h : ∀ i : Inst, i.SameRoutes (f i)) : Sends s (s.modInst id f) :=
  ⟨rfl, keepsInsts_modInst s id f h⟩

theorem sends_noteSent (s : State) (id k : Nat) : Sends s (s.noteSent id k) := sends_modInst _ _ _ (fun _ => rfl)

/-- The record of the callee that sends holds the result as sent. -/
def State.hasSent (s : State) (id k : Nat) : Prop := ∀ j, s.inst? id = some j → k ∈ j.sentRes

theorem hasSent_noteSent (s : State) (id k : Nat) : (s.noteSent id k).hasSent id k := by
  intro j hj
  rw [State.noteSent, inst_modInst s id (fun j => { j with sentRes := nput j.sentRes k }) (fun _ => rfl)] at hj
  obtain ⟨j', -, rfl⟩ := Option.map_eq_some_iff.1 hj
  exact mem_nput.2 (.inl rfl)

theorem hasSent_of_insts {s t : State} {id k : Nat} (h : t.prick.insts = s.prick.insts) (hs : s.hasSent id k) : t.hasSent id k := by
  intro j hj
  refine hs j ?_
  rw [← hj]
  simp only [State.inst?, h]

theorem hasSent_dropped {s : State} {id k caller : Nat} (site : Nat) (hs : s.hasSent id k) :
    (s.modInst caller (fun j => { j with resRes := j.resRes.erase (site, k) })).hasSent id k := by
  intro j hj
  by_cases hid : id = caller
  · subst hid
    rw [inst_modInst s id (fun j => { j with resRes := j.resRes.erase (site, k) }) (fun _ => rfl)] at hj
    obtain ⟨j', hj', rfl⟩ := Option.map_eq_some_iff.1 hj
    exact hs j' hj'
  · rw [inst_modInst_other s (fun j => { j with resRes := j.resRes.erase (site, k) }) (fun _ => rfl) hid] at hj
    exact hs j hj

/-- A result's dispatch posts no more than a token, keeps every record's routes, and notes the result. -/
theorem sendResult_sends (s : State) (i : Inst) (caller site : Nat) (rt : BitVec 64) (k : Nat) (p : Payload) (f : Flight) :
    Sends s (s.sendResult i caller site rt k p f) ∧ (s.sendResult i caller site rt k p f).hasSent i.id k ∧
      (s.sendResult i caller site rt k p f).fab.sinkMsgs = s.fab.sinkMsgs := by
  have noted := hasSent_noteSent s i.id k
  have sent := sends_noteSent s i.id k
  by_cases hlive : ∃ c, s.inst? caller = some c ∧ c.st ≠ .retired ∧ c.st ≠ .killed
  · obtain ⟨c, hc, hst⟩ := hlive
    by_cases hp : p = .null ∧ rtDropNull ((i.resRoutes[k]?).getD 0) = true
    · rw [sendResult_dropped s i site rt k p f hc hst hp]
      exact ⟨sends_trans sent (sends_modInst _ _ _ (fun _ => rfl)), hasSent_dropped site noted, rfl⟩
    · rw [sendResult_token s i site rt k p f hc hst hp]
      obtain ⟨g, -, ht⟩ := launchTok_launches (s.noteSent i.id k) { f with tok := i.resultTok c rt k p }
      exact ⟨sends_trans sent (sends_launchTok _ _), hasSent_of_insts (by rw [ht]) noted, by rw [ht]; rfl⟩
  · rw [sendResult_ended s i site rt k p f (fun c hc => by by_contra hst; exact hlive ⟨c, hc, by tauto⟩)]
    exact ⟨sent, noted, rfl⟩

/-- A routing word without a callee: no more is posted than it asks for. -/
theorem sendRoute_sends (s : State) (i : Inst) (r tag : BitVec 64) (p : Payload) (fl : Flight) :
    Sends s (s.sendRoute i r tag p none fl) := by
  by_cases hd : p = .null ∧ rtDropNull r = true
  · rw [State.sendRoute, if_pos hd]
    exact sends_refl s
  · have hsink : Sends s (s.sendSink i (rtNum r) p fl.src (rtEdge r) fl.fid fl.holds (fl.before.getD []) fl.pad) :=
      ⟨rfl, keepsInsts_of_eq rfl⟩
    rcases Nat.lt_or_ge 2 (rtTarget r) with h | h
    · rw [sendRoute_none s i fl hd h]
      exact sends_refl s
    · interval_cases ht : rtTarget r
      · rw [sendRoute_slot s i fl hd ht]
        exact sends_launchTok _ _
      · rw [sendRoute_sink s i fl hd (.inl ht)]
        exact hsink
      · cases hk : i.kind with
        | callee caller site rt =>
          rw [sendRoute_result s i fl hd ht hk]
          exact (sendResult_sends s i caller site rt _ p fl).1
        | root =>
          rw [sendRoute_sink s i fl hd (.inr ⟨ht, by simp [Inst.isCallee, hk]⟩)]
          exact hsink
        | spawned =>
          rw [sendRoute_sink s i fl hd (.inr ⟨ht, by simp [Inst.isCallee, hk]⟩)]
          exact hsink

/-- An argument goes with its firing; every other word of an arc that is not held sends what it asks for. -/
theorem sendRoute_sent (s : State) (i : Inst) {w : Bool} {r tag : BitVec 64} {p : Payload} {fl : Flight}
    (hsrc : fl.src = some s.sched.curSt) (hfrom : fl.from_ = i.id) (hd : ¬ (p = .null ∧ rtDropNull r = true))
    (hw : (w && isCrossing r) = false) (h3 : rtTarget r ≠ 3) : Sent i w r tag p s (s.sendRoute i r tag p none fl) := by
  have hfir := posts_fir (sendRoute_sends s i r tag p fl).posts
  refine ⟨fun h => absurd h hd, fun _ => ⟨fun hww hc => by simp [hww, hc] at hw, fun h0 => ?slot, fun h1 => ?sink, ?result,
    fun h => absurd h h3⟩⟩
  case slot =>
    rw [sendRoute_slot s i fl hd h0] at hfir ⊢
    obtain ⟨g, hg, ht⟩ := launchTok_launches s { fl with tok := i.slotTok r tag p }
    unfold Flight.SameToken at hg
    exact ⟨g, by rw [ht], by rw [hg]; rfl, by rw [hg, hsrc], by rw [hg, hfrom], by rw [ht], by rw [hfir], by rw [hfir]⟩
  case sink =>
    rw [sendRoute_sink s i fl hd (h1.imp_right fun h => ⟨h.1, h.2.2⟩)] at hfir ⊢
    exact ⟨_, rfl, rfl, rfl, rfl, hsrc, rfl, by rw [hfir], by rw [hfir]⟩
  case result =>
    intro h2 _ caller site rt hk
    rw [sendRoute_result s i fl hd h2 hk] at hfir ⊢
    obtain ⟨-, noted, sinks⟩ := sendResult_sends s i caller site rt (rtNum r) p fl
    refine ⟨noted, sinks, by rw [hfir], by rw [hfir], fun c hc hret hkill => ⟨fun hp hq => ?_, fun hp => ?_⟩⟩
    · rw [sendResult_dropped s i site rt _ p fl hc ⟨hret, hkill⟩ ⟨hp, hq⟩]
      rfl
    · rw [sendResult_token s i site rt _ p fl hc ⟨hret, hkill⟩ hp]
      obtain ⟨g, hg, ht⟩ := launchTok_launches (s.noteSent i.id (rtNum r)) { fl with tok := i.resultTok c rt (rtNum r) p }
      unfold Flight.SameToken at hg
      exact ⟨g, by rw [ht]; rfl, by rw [hg]; rfl, by rw [hg, hsrc], by rw [hg, hfrom]⟩

/-! ### Steps of an instruction that sends (R50, R144, R152) -/

/-- What an instruction of the token class may change before it goes on: the networks, what records of instances say has been sent, and
of its firing the arcs, exits, tokens and spawn requests. -/
structure Emits (s t : State) : Prop where
  sched : t.sched = { s.sched with uid := t.sched.uid }
  clk : t.clk = s.clk
  mm : t.mm = s.mm
  cores : t.cores = s.cores
  host : t.host = s.host
  boot : t.boot = s.boot
  insts : KeepsInsts s t
  fir : t.fir = { s.fir with
    claimed := t.fir.claimed, exitDone := t.fir.exitDone, exitsSent := t.fir.exitsSent, sent := t.fir.sent, args := t.fir.args,
    spawns := t.fir.spawns, crossing := t.fir.crossing, reserved := t.fir.reserved, used := t.fir.used, pad := t.fir.pad }
  cx : t.cx = s.cx
  station : OnlyFiring s t

theorem emits_refl (s : State) : Emits s s where
  sched := rfl
  clk := rfl
  mm := rfl
  cores := rfl
  host := rfl
  boot := rfl
  insts := keepsInsts_of_eq rfl
  fir := rfl
  cx := rfl
  station := (slotOnly_refl s).station

theorem emits_curSt {s t : State} (h : Emits s t) : t.sched.curSt = s.sched.curSt := by rw [h.sched]

theorem onlyFiring_trans_curSt {s t u : State} (hc : t.sched.curSt = s.sched.curSt) (hf : t.fir.ctx = s.fir.ctx) (h : OnlyFiring s t)
    (k : OnlyFiring t u) : OnlyFiring s u := by
  rw [OnlyFiring, hc, hf] at k
  obtain ⟨stations, here, slots, bytes⟩ := h
  obtain ⟨stations', here', slots', bytes'⟩ := k
  exact ⟨fun m away => (stations' m away).trans (stations m away), by rw [here', here],
    fun c away => (slots' c away).trans (slots c away), fun a => (bytes' a).trans (bytes a)⟩

theorem emits_trans {s t u : State} (h : Emits s t) (k : Emits t u) : Emits s u where
  sched := by rw [k.sched, h.sched]
  clk := k.clk.trans h.clk
  mm := k.mm.trans h.mm
  cores := k.cores.trans h.cores
  host := k.host.trans h.host
  boot := k.boot.trans h.boot
  insts := keepsInsts_trans h.insts k.insts
  fir := by rw [k.fir, h.fir]
  cx := k.cx.trans h.cx
  station := onlyFiring_trans_curSt (emits_curSt h) (by rw [h.fir]) h.station k.station

theorem emits_sends {s t : State} (h : Sends s t) : Emits s t := by
  have hfir := posts_fir h.posts
  have hsched := posts_sched h.posts
  have hst := posts_st h.posts
  have hposts := h.posts
  refine ⟨hsched, ?_, ?_, ?_, ?_, ?_, h.insts, by rw [hfir], posts_cx hposts, ?_⟩
  · rw [hposts]
  · rw [hposts]
  · rw [hposts]
  · rw [hposts]
  · rw [hposts]
  · refine ⟨fun m _ => hst m, ?_, fun c _ => by rw [hst], fun a => by rw [hst]⟩
    rw [hst, hfir]
    rfl

theorem emits_charges {s t : State} (h : Charges s t) : Emits s t := by
  refine emits_sends ⟨?_, keepsInsts_of_eq ?_⟩
  · unfold Charges at h
    unfold Posts
    rw [h]
  · rw [h]

/-- A change of what Emits allows of the firing. -/
theorem emits_modFir (s : State) (f : Firing → Firing)
    (h : f s.fir = { s.fir with
      claimed := (f s.fir).claimed, exitDone := (f s.fir).exitDone, exitsSent := (f s.fir).exitsSent, sent := (f s.fir).sent,
      args := (f s.fir).args, spawns := (f s.fir).spawns, crossing := (f s.fir).crossing, reserved := (f s.fir).reserved,
      used := (f s.fir).used, pad := (f s.fir).pad }) : Emits s (s.modFir f) where
  sched := rfl
  clk := rfl
  mm := rfl
  cores := rfl
  host := rfl
  boot := rfl
  insts := keepsInsts_of_eq rfl
  fir := by rw [fir_modFir]; exact h
  cx := cx_modFir s f (by rw [h])
  station := (modFir_leaves s f).2.2.2.1

/-! ### What a token's dispatch sees -/

/-- Two states agree on what the dispatch of a token reads and adds to. -/
structure SameView (s t : State) : Prop where
  queues : SameQueues s t
  insts : t.prick.insts = s.prick.insts
  curSt : t.sched.curSt = s.sched.curSt

theorem sameView_refl (s : State) : SameView s s := ⟨⟨rfl, rfl, rfl, rfl⟩, rfl, rfl⟩

theorem sameQueues_trans {s t u : State} (h : SameQueues s t) (k : SameQueues t u) : SameQueues s u :=
  ⟨k.1.trans h.1, k.2.1.trans h.2.1, k.2.2.1.trans h.2.2.1, k.2.2.2.trans h.2.2.2⟩

theorem sameView_trans {s t u : State} (h : SameView s t) (k : SameView t u) : SameView s u :=
  ⟨sameQueues_trans h.queues k.queues, k.insts.trans h.insts, k.curSt.trans h.curSt⟩

theorem sameView_modFir (s : State) (f : Firing → Firing) (hc : (f s.fir).crossing = s.fir.crossing) (ha : (f s.fir).args = s.fir.args) :
    SameView s (s.modFir f) :=
  ⟨⟨rfl, rfl, by rw [fir_modFir, hc], by rw [fir_modFir, ha]⟩, rfl, rfl⟩

theorem sameView_slotOnly {s t : State} (h : SlotOnly s t) : SameView s t := by
  obtain ⟨-, -, hprick, -⟩ := h.fabric
  have hnet : t.fab = { s.fab with stations := t.fab.stations, charges := t.fab.charges } := h.networks
  exact ⟨⟨by rw [hnet], by rw [hnet], by rw [h.firing], by rw [h.firing]⟩, by rw [hprick], by rw [h.schedule]⟩

theorem sameView_adv (s : State) : SameView s s.adv := by
  obtain ⟨fir, -, net, fab, -, sched⟩ := adv_leaves s
  obtain ⟨-, -, hprick, -⟩ := fab
  unfold SameNetworks at net
  exact ⟨⟨by rw [net], by rw [net], by rw [fir], by rw [fir]⟩, by rw [hprick], by rw [sched]⟩

/-- A token's dispatch is one between states that agree with its own. -/
theorem sent_of_views {s s' t t' : State} {i : Inst} {w : Bool} {r tag : BitVec 64} {p : Payload} (hs : SameView s s')
    (h : Sent i w r tag p s' t') (ht : SameView t' t) : Sent i w r tag p s t := by
  obtain ⟨⟨st, ss, sc, sa⟩, si, sl⟩ := hs
  obtain ⟨⟨tt, ts, tc, ta⟩, ti, -⟩ := ht
  have hs : ∀ id, s'.inst? id = s.inst? id := fun id => by simp only [State.inst?, si]
  have ht : ∀ id, t.inst? id = t'.inst? id := fun id => by simp only [State.inst?, ti]
  unfold Sent SameQueues at *
  rw [tt, ts, tc, ta]
  simp only [ht]
  simpa only [st, ss, sc, sa, sl, hs] using h

theorem sent_sameRoutes {s t : State} {i j : Inst} {w : Bool} {r tag : BitVec 64} {p : Payload} (h : i.SameRoutes j)
    (k : Sent j w r tag p s t) : Sent i w r tag p s t := by
  unfold Inst.SameRoutes at h
  rw [h] at k
  exact k

theorem sentAll_of_views {i : Inst} {w : Bool} {l : List (BitVec 64 × BitVec 64 × Payload)} {s s' t t' : State} (hs : SameView s s')
    (h : SentAll i w l s' t') (ht : SameView t' t) : SentAll i w l s t := by
  induction l generalizing s s' with
  | nil => exact sameQueues_trans (sameQueues_trans hs.queues h) ht.queues
  | cons x rest ih =>
    obtain ⟨m, sent, hcur, more⟩ := h
    exact ⟨m, sent_of_views hs sent (sameView_refl m), hcur.trans hs.curSt, ih (sameView_refl m) more⟩

/-! ### emit_token (R50, R53, R277) -/

section
variable (s : State) (arc : Nat) (tag : BitVec 64) (p : Payload) (rel : Option Scope)

/-- The flight that an instruction of the firing sends by the routing word of its arc. -/
def State.emitted (s : State) (i : Inst) (r tag : BitVec 64) (p : Payload) (rel : Option Scope) : Flight :=
  let c := s.fir.release s.sched.curSt.die r rel
  { tok := ⟨0, tag, p⟩, src := some s.sched.curSt, from_ := i.id, fid := s.fir.id, holds := c.holds, before := c.before,
    pad := s.fir.pad }

variable {i : Inst} {r : BitVec 64} (hi : s.fInst = some i) (hr : s.cx.route? s.fir.sprig arc = some r)
include hi hr

theorem emitTok_dropped (h : p = .null ∧ rtDropNull r = true) : s.emitTok arc tag p rel = s := by
  simp only [State.emitTok, hi, hr, if_pos h]

variable (h : ¬ (p = .null ∧ rtDropNull r = true))
include h

theorem emitTok_held (hw : (isCrossing r && hdrStile s.fir.header && !s.fir.stilePassed) = true) :
    s.emitTok arc tag p rel =
      s.modFir (fun f => { f.take1 with crossing := f.crossing ++ [⟨arc, tag, p, s.fir.release s.sched.curSt.die r rel, f.pad⟩] }) := by
  simp only [State.emitTok, hi, hr, if_neg h, hw, if_true]

variable (hw : (isCrossing r && hdrStile s.fir.header && !s.fir.stilePassed) = false)
include hw

theorem emitTok_arg (h3 : rtTarget r = 3) :
    s.emitTok arc tag p rel = (s.modFir Firing.count1).keepArg r (s.emitted i r tag p rel) := by
  simp only [State.emitTok, hi, hr, if_neg h, hw, Bool.false_eq_true, if_false, if_pos h3, State.emitted]

theorem emitTok_route (h3 : rtTarget r ≠ 3) :
    s.emitTok arc tag p rel = (s.modFir Firing.count1).sendRoute i r tag p none (s.emitted i r tag p rel) := by
  simp only [State.emitTok, hi, hr, if_neg h, hw, Bool.false_eq_true, if_false, if_neg h3, State.emitted]

end

/-- Of a firing, only what tokens take and leave differs. -/
def Firing.TokensOnly (f g : Firing) : Prop :=
  g = { f with sent := g.sent, args := g.args, crossing := g.crossing, reserved := g.reserved, used := g.used }

theorem tokensOnly_count1 (f : Firing) : f.TokensOnly f.count1 := rfl

theorem tokensOnly_hold (f : Firing) (c : CrossTok) : f.TokensOnly { f.take1 with crossing := f.crossing ++ [c] } := rfl

theorem tokensOnly_args (f : Firing) (l : List ArgTok) : f.TokensOnly { f with args := l } := rfl

theorem tokensOnly_trans {f g k : Firing} (h : f.TokensOnly g) (h' : g.TokensOnly k) : f.TokensOnly k := by
  unfold Firing.TokensOnly at *
  rw [h', h]

theorem emits_tokensOnly (s : State) (f : Firing → Firing) (h : s.fir.TokensOnly (f s.fir)) : Emits s (s.modFir f) := by
  refine emits_modFir s f ?_
  unfold Firing.TokensOnly at h
  rw [h]

theorem keepArg_leaves (s : State) (r : BitVec 64) (fl : Flight) :
    ∃ a : ArgTok, a.site = rtNum r ∧ a.arg = rtSprig r ∧ fl.SameToken a.flight ∧ Emits s (s.keepArg r fl) ∧
      (s.keepArg r fl).fir = { s.fir with args := s.fir.args ++ [a] } ∧ (s.keepArg r fl).fab.tokens = s.fab.tokens ∧
      (s.keepArg r fl).fab.sinkMsgs = s.fab.sinkMsgs := by
  obtain ⟨hflight, hstow⟩ := stowTile_charges s fl
  have hfir : (s.stowTile fl).2.fir = s.fir := by
    unfold Charges at hstow
    rw [hstow]
    rfl
  refine ⟨⟨rtNum r, rtSprig r, (s.stowTile fl).1⟩, rfl, rfl, hflight, ?_, ?_, ?_, ?_⟩
  · exact emits_trans (emits_charges hstow)
      (emits_tokensOnly _ (fun f => { f with args := f.args ++ [⟨rtNum r, rtSprig r, (s.stowTile fl).1⟩] })
        (tokensOnly_args _ _))
  · rw [State.keepArg, fir_modFir, hfir]
  · unfold Charges at hstow
    rw [State.keepArg, hstow]
    rfl
  · unfold Charges at hstow
    rw [State.keepArg, hstow]
    rfl

/-- One emit_token: what it changes, and of its firing no more than what tokens take and leave. -/
theorem emitTok_leaves (s : State) (arc : Nat) (tag : BitVec 64) (p : Payload) (rel : Option Scope) :
    Emits s (s.emitTok arc tag p rel) ∧ s.fir.TokensOnly (s.emitTok arc tag p rel).fir := by
  have stays : Emits s s ∧ s.fir.TokensOnly s.fir := ⟨emits_refl s, rfl⟩
  cases hi : s.fInst with
  | none => simpa only [State.emitTok, hi] using stays
  | some i =>
    cases hr : s.cx.route? s.fir.sprig arc with
    | none => simpa only [State.emitTok, hi, hr] using stays
    | some r =>
      by_cases hd : p = .null ∧ rtDropNull r = true
      · rw [emitTok_dropped s arc tag p rel hi hr hd]
        exact stays
      · have counted : Emits s (s.modFir Firing.count1) := emits_tokensOnly s _ (tokensOnly_count1 _)
        cases hw : isCrossing r && hdrStile s.fir.header && !s.fir.stilePassed with
        | true =>
          rw [emitTok_held s arc tag p rel hi hr hd hw]
          have held := tokensOnly_hold s.fir ⟨arc, tag, p, s.fir.release s.sched.curSt.die r rel, s.fir.pad⟩
          exact ⟨emits_tokensOnly s _ held, by rw [fir_modFir]; exact held⟩
        | false =>
          by_cases h3 : rtTarget r = 3
          · rw [emitTok_arg s arc tag p rel hi hr hd hw h3]
            obtain ⟨a, -, -, -, kept, fir, -, -⟩ := keepArg_leaves (s.modFir Firing.count1) r (s.emitted i r tag p rel)
            exact ⟨emits_trans counted kept, by
              rw [fir, fir_modFir]; exact tokensOnly_trans (tokensOnly_count1 _) (tokensOnly_args _ _)⟩
          · rw [emitTok_route s arc tag p rel hi hr hd hw h3]
            have sends := sendRoute_sends (s.modFir Firing.count1) i r tag p (s.emitted i r tag p rel)
            exact ⟨emits_trans counted (emits_sends sends), by
              rw [posts_fir sends.posts, fir_modFir]; exact tokensOnly_count1 _⟩

/-- One emit_token sends what the routing word of its arc asks for. -/
theorem emitTok_sent {s : State} {arc : Nat} {tag : BitVec 64} {p : Payload} (rel : Option Scope) {i : Inst} {r : BitVec 64}
    (hi : s.fInst = some i) (hr : s.cx.route? s.fir.sprig arc = some r) :
    Sent i (hdrStile s.fir.header && !s.fir.stilePassed) r tag p s (s.emitTok arc tag p rel) := by
  by_cases hd : p = .null ∧ rtDropNull r = true
  · rw [emitTok_dropped s arc tag p rel hi hr hd]
    exact ⟨fun _ => ⟨rfl, rfl, rfl, rfl⟩, fun h => absurd hd h⟩
  · have hcross : ∀ n, rtTarget r = n → isCrossing r = (decide (n = 2) || decide (n = 3)) := fun n hn => by rw [isCrossing, hn]
    cases hw : isCrossing r && hdrStile s.fir.header && !s.fir.stilePassed with
    | true =>
      rw [emitTok_held s arc tag p rel hi hr hd hw]
      simp only [Bool.and_eq_true, Bool.not_eq_true'] at hw
      obtain ⟨⟨hc, hstile⟩, hahead⟩ := hw
      simp only [hstile, hahead, Bool.not_false, Bool.and_self]
      have harc : rtArc r = arc := by simpa using List.find?_some hr
      refine ⟨fun h => absurd h hd, fun _ => ⟨fun _ _ => ?_, fun h => ?_, fun h => ?_,
        fun _ h => absurd h (by simp), fun _ h => absurd h (by simp)⟩⟩
      · exact ⟨_, by rw [fir_modFir], harc.symm, rfl, rfl, rfl, rfl, by rw [fir_modFir]; rfl⟩
      · rw [hcross _ h] at hc
        cases hc
      · rcases h with h | ⟨-, h, -⟩
        · rw [hcross _ h] at hc
          cases hc
        · simp at h
    | false =>
      have hw' : ((hdrStile s.fir.header && !s.fir.stilePassed) && isCrossing r) = false := by
        rw [Bool.and_comm, ← Bool.and_assoc, hw]
      have counted : SameView s (s.modFir Firing.count1) := sameView_modFir s _ rfl rfl
      by_cases h3 : rtTarget r = 3
      · rw [emitTok_arg s arc tag p rel hi hr hd hw h3]
        obtain ⟨a, hsite, harg, hflight, -, fir, tokens, sinks⟩ := keepArg_leaves (s.modFir Firing.count1) r (s.emitted i r tag p rel)
        rw [hcross _ h3] at hw'
        refine sent_of_views counted ?_ (sameView_refl _)
        refine ⟨fun h => absurd h hd, fun _ => ⟨fun hww _ => ?_, fun h => ?_, fun h => ?_, fun h => ?_, fun _ _ => ?_⟩⟩
        · simp [hww] at hw'
        · omega
        · omega
        · omega
        · unfold Flight.SameToken at hflight
          exact ⟨a, by rw [fir], hsite, harg, by rw [hflight]; rfl, by rw [hflight]; rfl, tokens, sinks, by rw [fir]⟩
      · rw [emitTok_route s arc tag p rel hi hr hd hw h3]
        exact sent_of_views counted (sendRoute_sent _ i rfl rfl hd hw' h3) (sameView_refl _)

/-! ### The firing's place among instructions that send -/

/-- The firing is one of i, whatever that has sent since, and its release point is ahead, or not. -/
def Sender (i : Inst) (w : Bool) (s : State) : Prop :=
  (∃ j, s.fInst = some j ∧ i.SameRoutes j) ∧ (hdrStile s.fir.header && !s.fir.stilePassed) = w

theorem sender_emits {i : Inst} {w : Bool} {s t : State} (h : Sender i w s) (k : Emits s t) : Sender i w t := by
  obtain ⟨⟨j, hj, hij⟩, hw⟩ := h
  have hfir := k.fir
  obtain ⟨m, hm, hjm⟩ := k.insts _ _ hj
  refine ⟨⟨m, ?_, ?_⟩, ?_⟩
  · rw [State.fInst, hfir]
    exact hm
  · unfold Inst.SameRoutes at *
    rw [hjm, hij]
  · rw [hfir]
    exact hw

theorem route_emits {s t : State} (h : Emits s t) (arc : Nat) : t.cx.route? t.fir.sprig arc = s.cx.route? s.fir.sprig arc := by
  rw [h.cx, h.fir]

theorem sender_sent {i : Inst} {w : Bool} {s : State} (h : Sender i w s) {arc : Nat} {r : BitVec 64}
    (hr : s.cx.route? s.fir.sprig arc = some r) (tag : BitVec 64) (p : Payload) (rel : Option Scope) :
    Sent i w r tag p s (s.emitTok arc tag p rel) := by
  obtain ⟨⟨j, hj, hij⟩, rfl⟩ := h
  exact sent_sameRoutes hij (emitTok_sent rel hj hr)

theorem sender_slotOnly {i : Inst} {w : Bool} {s t : State} (h : Sender i w s) (k : SlotOnly s t) : Sender i w t := by
  obtain ⟨-, -, hprick, -⟩ := k.fabric
  obtain ⟨⟨j, hj, hij⟩, hw⟩ := h
  refine ⟨⟨j, ?_, hij⟩, by rw [k.firing, hw]⟩
  rw [← hj]
  simp only [State.fInst, State.inst?, k.firing, hprick]

theorem route_eat (s : State) (l : List Sel) (arc : Nat) :
    (s.eat l).cx.route? (s.eat l).fir.sprig arc = s.cx.route? s.fir.sprig arc := by
  rw [cx_eat, fir_eat]
  rfl

/-- Tokens sent one behind the other, by a fold of steps each of which sends one. -/
theorem sentAll_foldl {α : Type} {i : Inst} {w : Bool} (f : State → α → State) (g : α → BitVec 64 × BitVec 64 × Payload) (l : List α)
    (s : State) (step : ∀ x ∈ l, ∀ u, Emits s u → Emits u (f u x) ∧ Sent i w (g x).1 (g x).2.1 (g x).2.2 u (f u x)) :
    Emits s (l.foldl f s) ∧ SentAll i w (l.map g) s (l.foldl f s) := by
  induction l generalizing s with
  | nil => exact ⟨emits_refl s, rfl, rfl, rfl, rfl⟩
  | cons x rest ih =>
    obtain ⟨first, sent⟩ := step x List.mem_cons_self s (emits_refl s)
    obtain ⟨more, sents⟩ := ih (f s x) (fun y hy u hu => step y (List.mem_cons_of_mem _ hy) u (emits_trans first hu))
    exact ⟨emits_trans first more, _, sent, emits_curSt first, sents⟩

/-! ### Claims (R144) -/

/-- Bits of the claims after one more. -/
theorem getLsbD_claim (s : State) {a k : Nat} (hk : k < 16) :
    (s.claim a).fir.claimed.getLsbD k = (s.fir.claimed.getLsbD k || decide (k = a)) := by
  have hbit : (2 ^ a).testBit k = decide (k = a) := by
    rw [Nat.testBit_two_pow]
    simp [eq_comm]
  simp only [State.claim, fir_modFir, BitVec.getLsbD_or, BitVec.getLsbD_ofNat, hk, decide_true, Bool.true_and, hbit]

theorem claim_leaves (s : State) (a : Nat) : Emits s (s.claim a) ∧ SameView s (s.claim a) :=
  ⟨emits_modFir s _ rfl, sameView_modFir s _ rfl rfl⟩

theorem claims_leaves (s : State) (arcs : List Nat) :
    Emits s (arcs.foldl State.claim s) ∧ SameView s (arcs.foldl State.claim s) ∧
      ∀ k < 16, (arcs.foldl State.claim s).fir.claimed.getLsbD k = (s.fir.claimed.getLsbD k || decide (k ∈ arcs)) := by
  induction arcs generalizing s with
  | nil => exact ⟨emits_refl s, sameView_refl s, by simp⟩
  | cons a arcs ih =>
    obtain ⟨emits, view⟩ := claim_leaves s a
    obtain ⟨emits', view', bits⟩ := ih (s.claim a)
    refine ⟨emits_trans emits emits', sameView_trans view view', fun k hk => ?_⟩
    rw [List.foldl_cons, bits k hk, getLsbD_claim s hk, Bool.or_assoc]
    simp

/-- Arcs that no instruction of the firing has claimed are claimed, and the instruction goes on. -/
theorem claiming_unclaimed (s : State) (arcs : List Nat) (k : State → Out) (hn : arcs.Nodup)
    (h : ∀ a ∈ arcs, a < 16 ∧ s.fir.isClaimed a = false) : s.claiming arcs k = k (arcs.foldl State.claim s) := by
  induction arcs generalizing s with
  | nil => rfl
  | cons a arcs ih =>
    obtain ⟨hnot, hn⟩ := List.nodup_cons.1 hn
    rw [State.claiming, if_neg (by rw [(h a List.mem_cons_self).2]; exact Bool.false_ne_true)]
    refine ih (s.claim a) hn (fun b hb => ?_)
    obtain ⟨hlt, hfree⟩ := h b (List.mem_cons_of_mem _ hb)
    refine ⟨hlt, ?_⟩
    have hne : b ≠ a := fun e => hnot (e ▸ hb)
    have := getLsbD_claim s (a := a) hlt
    unfold Firing.isClaimed bit at *
    rw [this, hfree]
    simp [hne]

/-! ### Sources (R59, R141) -/

section
variable {s t : State} (h : Emits s t)
include h

theorem emits_ctx (c : Nat) : (t.st t.sched.curSt).ctx c = (s.st s.sched.curSt).ctx c := by
  obtain ⟨-, -, slots, -⟩ := h.station
  rw [emits_curSt h]
  by_cases hc : c = s.fir.ctx
  · have := h.cx
    rw [State.cx, State.cx, emits_curSt h, h.fir] at this
    rw [hc]
    exact this
  · exact slots c hc

theorem emits_queueAt (n : Fin 2) : t.queueAt n = s.queueAt n := by
  obtain ⟨-, here, -, -⟩ := h.station
  have hctx := emits_ctx h
  have hpark : (t.st t.sched.curSt).parked = (s.st s.sched.curSt).parked := by rw [emits_curSt h, here]
  have hstore : (t.st t.sched.curSt).istore = (s.st s.sched.curSt).istore := by rw [emits_curSt h, here]
  have hfir : (t.st t.sched.curSt).firing.ctx = (s.st s.sched.curSt).firing.ctx ∧
      (t.st t.sched.curSt).firing.id = (s.st s.sched.curSt).firing.id := by
    have := h.fir
    rw [State.fir, State.fir] at this
    rw [this]
    exact ⟨rfl, rfl⟩
  rw [emits_curSt h] at hpark hstore hfir
  simp only [emits_curSt h] at hctx
  simp only [State.queueAt, Station.owed, Station.bodyLeft, Station.bodyOf, Station.header, hctx, hpark, hstore, hfir.1, hfir.2,
    emits_curSt h]

theorem emits_sel (a : Sel) : t.sel a = s.sel a := by
  cases a with
  | t n =>
    change t.fir.t[n] = s.fir.t[n]
    rw [h.fir]
  | i n =>
    change t.fir.vals[n] = s.fir.vals[n]
    rw [h.fir]
  | tg =>
    change t.fir.tag = s.fir.tag
    rw [h.fir]
  | z => rfl
  | q n => simp only [State.sel, h.cx, emits_queueAt h]

theorem emits_otag : t.otag = s.otag := by
  rw [State.otag, h.fir]
  rfl

end

/-- What an instruction that sends does as a whole: it claims, reads its sources, sends and goes on. -/
theorem issued_adv {s s1 t : State} {arcs : List Nat} (l : List Sel) (hs : Emits s s1) (ht : Emits (s1.eat l) t)
    (hc : ∀ k < 16, t.fir.claimed.getLsbD k = (s.fir.claimed.getLsbD k || decide (k ∈ arcs))) : Issued s t.adv l arcs := by
  obtain ⟨eatSched, eatFir, -, eatFab, eatSt⟩ := slotOnly_eat s1 l
  obtain ⟨advFir, advCx, -, advFab, advSt, advSched⟩ := adv_leaves t
  obtain ⟨eatClk, eatMm, -, eatCores, eatHost, eatBoot, -⟩ := eatFab
  obtain ⟨advClk, advMm, -, advCores, advHost, advBoot, -⟩ := advFab
  have hfir : t.fir.t = s.fir.t ∧ t.fir.vals = s.fir.vals ∧ t.fir.otag = s.fir.otag ∧ t.fir.pos = s.fir.pos ∧ t.fir.ctx = s.fir.ctx := by
    rw [ht.fir, eatFir, hs.fir]
    exact ⟨rfl, rfl, rfl, rfl, rfl⟩
  obtain ⟨ht', hvals, hotag, hpos, hctx⟩ := hfir
  have hmm : t.adv.mm = s.mm := by rw [advMm, ht.mm, eatMm, hs.mm]
  have hcur1 : (s1.eat l).sched.curSt = s.sched.curSt := by rw [eatSched, emits_curSt hs]
  have hcur2 : t.sched.curSt = s.sched.curSt := (emits_curSt ht).trans hcur1
  have hctx1 : (s1.eat l).fir.ctx = s.fir.ctx := by rw [eatFir, hs.fir]
  refine ⟨by rw [advFir, hpos], by rw [advFir, ht'], by rw [advFir, hvals], by rw [advFir, hotag], by rw [advFir]; exact hc, ?_, ?_,
    by rw [advSched, hcur2], by rw [advClk, ht.clk, eatClk, hs.clk], hmm, by rw [advCores, ht.cores, eatCores, hs.cores],
    by rw [advHost, ht.host, eatHost, hs.host], by rw [advBoot, ht.boot, eatBoot, hs.boot], fun a => by rw [hmm]⟩
  · unfold Consumed
    rw [advCx, ht.cx, cx_eat, hs.cx, emits_queueAt hs, emits_queueAt hs]
  · have upToEat := onlyFiring_trans_curSt (emits_curSt hs) (by rw [hs.fir]) hs.station eatSt
    have upToSent := onlyFiring_trans_curSt hcur1 hctx1 upToEat ht.station
    exact onlyFiring_trans_curSt hcur2 hctx upToSent advSt

/-! ### The emits (R152, R158, R269) -/

/-- One token that an emit sends: its arc, its tag and payload, and the scope of an EMITR. -/
structure Sending where
  arc : Nat
  tag : BitVec 64
  payload : Payload
  rel : Option Scope := none

def State.emitOne (s : State) (x : Sending) : State := s.emitTok x.arc x.tag x.payload x.rel

theorem emitTok_claimed (s : State) (arc : Nat) (tag : BitVec 64) (p : Payload) (rel : Option Scope) :
    (s.emitTok arc tag p rel).fir.claimed = s.fir.claimed := by
  rw [(emitTok_leaves s arc tag p rel).2]

/-- An instruction that has claimed its arcs, reads its sources and sends tokens on arcs of the sprig. -/
theorem emits_issued {s : State} {i : Inst} {w : Bool} (hs : Sender i w s) (arcs : List Nat) (l : List Sel) (xs : List Sending)
    (rt : Nat → BitVec 64) (hr : ∀ x ∈ xs, s.cx.route? s.fir.sprig x.arc = some (rt x.arc)) :
    let t := (xs.foldl State.emitOne ((arcs.foldl State.claim s).eat l)).adv
    Issued s t l arcs ∧ SentAll i w (xs.map (fun x => (rt x.arc, x.tag, x.payload))) s t := by
  intro t
  obtain ⟨claims, view, bits⟩ := claims_leaves s arcs
  have eaten := slotOnly_eat (arcs.foldl State.claim s) l
  have ready : Sender i w ((arcs.foldl State.claim s).eat l) := sender_slotOnly (sender_emits hs claims) eaten
  have claimed : ∀ u : State, (xs.foldl State.emitOne u).fir.claimed = u.fir.claimed := fun u =>
    List.foldlRecOn (motive := fun v => v.fir.claimed = u.fir.claimed) xs State.emitOne rfl (fun v hv x _ => (emitTok_claimed v _ _ _ _).trans hv)
  obtain ⟨emits, sent⟩ := sentAll_foldl State.emitOne (fun x => (rt x.arc, x.tag, x.payload)) xs
    ((arcs.foldl State.claim s).eat l) (i := i) (w := w) (fun x hx u hu => by
      refine ⟨(emitTok_leaves u _ _ _ _).1, sender_sent (sender_emits ready hu) ?_ _ _ _⟩
      rw [route_emits hu, route_eat, route_emits claims]
      exact hr x hx)
  refine ⟨issued_adv l claims emits fun k hk => ?_,
    sentAll_of_views (sameView_trans view (sameView_slotOnly eaten)) sent (sameView_adv _)⟩
  rw [claimed, fir_eat]
  exact bits k hk

/-- One token on one arc. -/
theorem one_issued {s : State} {i : Inst} {w : Bool} (hs : Sender i w s) (arcs : List Nat) (l : List Sel) {a : Nat} {x : BitVec 64}
    (hx : s.cx.route? s.fir.sprig a = some x) (tag : BitVec 64) (p : Payload) (rel : Option Scope) :
    let t := (((arcs.foldl State.claim s).eat l).emitTok a tag p rel).adv
    Issued s t l arcs ∧ SentAll i w [(x, tag, p)] s t :=
  emits_issued hs arcs l [⟨a, tag, p, rel⟩] (fun _ => x) (by simpa using hx)

/-- Two tokens on two arcs. -/
theorem two_issued {s : State} {i : Inst} {w : Bool} (hs : Sender i w s) (arcs : List Nat) (l : List Sel) {a b : Nat} (hab : b ≠ a)
    {x y : BitVec 64} (hx : s.cx.route? s.fir.sprig a = some x) (hy : s.cx.route? s.fir.sprig b = some y) (tag : BitVec 64)
    (p q : Payload) :
    let t := ((((arcs.foldl State.claim s).eat l).emitTok a tag p none).emitTok b tag q none).adv
    Issued s t l arcs ∧ SentAll i w [(x, tag, p), (y, tag, q)] s t := by
  have both := emits_issued hs arcs l [⟨a, tag, p, none⟩, ⟨b, tag, q, none⟩] (fun n => if n = a then x else y)
    (by simp [hx, hy, hab])
  simpa [State.emitOne, hab] using both

theorem mem_nunion {a b : List Nat} {u : Nat} : u ∈ nunion a b ↔ u ∈ a ∨ u ∈ b := by
  induction b generalizing a with
  | nil => simp [nunion]
  | cons x b ih =>
    have := ih (a := nput a x)
    simp only [nunion, List.foldl_cons] at this ⊢
    rw [this, mem_nput, List.mem_cons]
    tauto

/-- The release of an EMITR on an arc to a slot, and what it waits for (R269). -/
theorem emitr_release (f : Firing) (die : Fin 2) {r : BitVec 64} (sc : Scope) (h : rtTarget r = 0) :
    (f.release die r (some sc)).holds =
        [⟨match f.tokRel with | some b => Scope.max sc b | none => sc, die, f.before⟩] ∧
      ∃ l, (f.release die r (some sc)).before = some l ∧ ∀ u, u ∈ l ↔ u ∈ f.before := by
  have hc : isCrossing r = false := by simp [isCrossing, h]
  cases hk : f.tokRel with
  | none =>
    refine ⟨by simp [Firing.release, hk, hc, Firing.covers], nunion [] f.before, ?_, fun u => by simp [mem_nunion]⟩
    simp [Firing.release, hk, hc, Firing.covers]
  | some b =>
    refine ⟨by simp [Firing.release, hk, hc, Firing.covers], nunion [] f.before, ?_, fun u => by simp [mem_nunion]⟩
    simp [Firing.release, hk, hc, Firing.covers]

/-- The token of an EMITR to a slot carries that release. -/
theorem emitr_token {s : State} {i : Inst} (hi : s.fInst = some i) {arc : Nat} {x tag : BitVec 64} {v : Double} (sc : Scope)
    (hr : s.cx.route? s.fir.sprig arc = some x) (h0 : rtTarget x = 0) :
    ∃ f, (s.emitTok arc tag (.word v) (some sc)).fab.tokens = s.fab.tokens ++ [f] ∧
      f.holds = (s.fir.release s.sched.curSt.die x (some sc)).holds ∧ f.before = (s.fir.release s.sched.curSt.die x (some sc)).before := by
  have hd : ¬ (Payload.word v = .null ∧ rtDropNull x = true) := fun h => nomatch h.1
  have hw : (isCrossing x && hdrStile s.fir.header && !s.fir.stilePassed) = false := by simp [isCrossing, h0]
  rw [emitTok_route s arc tag _ _ hi hr hd hw (by omega), sendRoute_slot _ i _ hd h0]
  obtain ⟨g, hg, ht⟩ := launchTok_launches (s.modFir Firing.count1)
    { s.emitted i x tag (.word v) (some sc) with tok := i.slotTok x tag (.word v) }
  unfold Flight.SameToken at hg
  exact ⟨g, by rw [ht]; rfl, by rw [hg]; rfl, by rw [hg]; rfl⟩

/-- The token of an EMITR to a slot, as the instruction leaves it: a release that covers all that happens before it. -/
theorem emitr_releases {s : State} {i : Inst} (hi : s.fInst = some i) {r : Nat} {x : BitVec 64}
    (hx : s.cx.route? s.fir.sprig r = some x) (h0 : rtTarget x = 0) (srcs : List Sel) (tag : BitVec 64) (v : Double) (sc : Scope) :
    ∃ f l, (((s.claim r).eat srcs).emitTok r tag (.word v) (some sc)).adv.fab.tokens = s.fab.tokens ++ [f] ∧
      f.holds = [⟨match s.fir.tokRel with | some b => Scope.max sc b | none => sc, s.sched.curSt.die, s.fir.before⟩] ∧
      f.before = some l ∧ ∀ u, u ∈ l ↔ u ∈ s.fir.before := by
  obtain ⟨claims, claimView⟩ := claim_leaves s r
  have eaten := slotOnly_eat (s.claim r) srcs
  have view := sameView_trans claimView (sameView_slotOnly eaten)
  have hi' : ((s.claim r).eat srcs).fInst = some i := by
    have hinst : ((s.claim r).eat srcs).fir.inst = s.fir.inst := by rw [fir_eat, claims.fir]
    rw [← hi]
    simp only [State.fInst, State.inst?, view.insts, hinst]
  have hr' : ((s.claim r).eat srcs).cx.route? ((s.claim r).eat srcs).fir.sprig r = some x := by
    rw [route_eat, route_emits claims, hx]
  obtain ⟨f, tokens, holds, before⟩ := emitr_token hi' (tag := tag) (v := v) sc hr' h0
  obtain ⟨holdsAre, l, beforeIs, covers⟩ := emitr_release ((s.claim r).eat srcs).fir ((s.claim r).eat srcs).sched.curSt.die sc h0
  have hfir : ((s.claim r).eat srcs).fir.tokRel = s.fir.tokRel ∧ ((s.claim r).eat srcs).fir.before = s.fir.before := by
    rw [fir_eat, claims.fir]
    exact ⟨rfl, rfl⟩
  refine ⟨f, l, ?_, ?_, before.trans beforeIs, fun u => by rw [covers, hfir.2]⟩
  · rw [(sameView_adv _).queues.1, tokens, view.queues.1]
  · rw [holds, holdsAre, hfir.1, hfir.2, view.curSt]

/-- Settles O21: every emit is its claims, its sources and its sends; a DROP sends nothing. -/
theorem emitsSendOnTheirArcs : Obligations.EmitsSendOnTheirArcs := by
  unfold Obligations.EmitsSendOnTheirArcs
  intro s a p k r q sc i x y hi hr hx w tag v
  have sender : Sender i w s := ⟨⟨i, hi, rfl⟩, rfl⟩
  have claim1 : ∀ k : State → Out, s.claiming [r.val] k = k (s.claim r.val) := fun k =>
    claiming_unclaimed s [r.val] k (by simp) (by simpa using hr)
  have claimed := (claim_leaves s r.val).1
  have one := fun l => one_issued sender [r.val] l hx tag
  have word : ∀ rel, s.claiming [r.val] (fun s => .next ((s.eat [a]).emitTok r.val s.otag (.word (s.sel a)) rel).adv) =
      .next (((s.claim r.val).eat [a]).emitTok r.val tag v rel).adv := fun rel => by
    rw [claim1, emits_otag claimed, emits_sel claimed]
    rfl
  refine ⟨⟨_, word none, one [a] v none⟩, ⟨_, word (some sc), one [a] v (some sc)⟩, ⟨_, ?emitt, one [] (.tile (s.cx.tile k).carried) none⟩,
    ⟨_, ?emitn, one [] .null none⟩, ?drop, fun hne hq hy => ?two, fun h0 => ⟨_, word (some sc), emitr_releases hi hx h0 [a] tag _ sc⟩⟩
  case emitt =>
    refine (claim1 _).trans ?_
    rw [emits_otag claimed, claimed.cx]
    rfl
  case emitn =>
    refine (claim1 _).trans ?_
    rw [emits_otag claimed]
    rfl
  case drop =>
    obtain ⟨issued, -⟩ := emits_issued sender [r.val] [] [] (fun _ => x) (by simp)
    have view := sameView_trans (claim_leaves s r.val).2 (sameView_adv _)
    exact ⟨_, claim1 _, issued, view.queues, (adv_leaves (s.claim r.val)).2.2.2.1.2.2.1⟩
  case two =>
    have hval : q.val ≠ r.val := fun e => hne (Fin.ext e)
    have claims := (claims_leaves s [r.val, q.val]).1
    have claim2 : ∀ k : State → Out, s.claiming [r.val, q.val] k = k ((s.claim r.val).claim q.val) := fun k =>
      claiming_unclaimed s [r.val, q.val] k (by simpa using hval.symm) (by simpa using ⟨hr, hq⟩)
    have sel := emits_sel claims
    have otag := emits_otag claims
    simp only [List.foldl_cons, List.foldl_nil] at sel otag
    have rq := fun l => two_issued sender [r.val, q.val] l hval hx hy tag v
    have qr := fun l => two_issued sender [r.val, q.val] l hval.symm hy hx tag v
    refine ⟨⟨_, ?_, rq [a] v⟩, fun hp => ⟨_, ?_, rq [a, p] .null⟩, fun hp => ⟨_, ?_, qr [a, p] .null⟩⟩
    · refine (claim2 _).trans ?_
      rw [otag, sel]
      rfl
    · refine (claim2 _).trans ?_
      simp only [otag, sel, if_pos hp]
      rfl
    · refine (claim2 _).trans ?_
      simp only [otag, sel, if_neg (not_not_intro hp)]
      rfl

end Sys2Proof.Machine
end

section

/-!
SUPPORT. Exits and messages to sinks (R153 to R155). The statement O23 is settled from these.
-/

namespace Sys2Proof.Machine

/-! ### Exits (R154) -/

theorem noteExit_leaves (s : State) (k : Nat) : Emits s (s.noteExit k) ∧ SameView s (s.noteExit k) :=
  ⟨emits_modFir s _ rfl, sameView_modFir s _ rfl rfl⟩

theorem sendExit_leaves (s : State) (k : Nat) (p : Payload) :
    Emits s (s.sendExit k p) ∧ (s.sendExit k p).fir.exitDone = true ∧ (s.sendExit k p).fir.claimed = s.fir.claimed ∧
      (s.sendExit k p).fir.spawns = s.fir.spawns := by
  obtain ⟨emits, tokens⟩ := emitTok_leaves (s.noteExit k) (16 + k) s.otag p none
  have fir : (s.noteExit k).fir = { s.fir with exitDone := true, exitsSent := s.fir.exitsSent ||| BitVec.ofNat 7 (2 ^ k) } := by
    rw [State.noteExit, fir_modFir]
  unfold Firing.TokensOnly at tokens
  refine ⟨emits_trans (noteExit_leaves s k).1 emits, ?_, ?_, ?_⟩
  · rw [State.sendExit, tokens, fir]
  · rw [State.sendExit, tokens, fir]
  · rw [State.sendExit, tokens, fir]

/-- A token on an exit goes where the routing word of the exit arc says. -/
theorem sendExit_sent {s : State} {i : Inst} {w : Bool} (hs : Sender i w s) {k : Nat} {r : BitVec 64}
    (hr : s.cx.route? s.fir.sprig (16 + k) = some r) (p : Payload) : Sent i w r s.fir.otag p s (s.sendExit k p) := by
  obtain ⟨emits, view⟩ := noteExit_leaves s k
  have hr' : (s.noteExit k).cx.route? (s.noteExit k).fir.sprig (16 + k) = some r := by rw [route_emits emits, hr]
  exact sent_of_views view (sender_sent (sender_emits hs emits) hr' _ p none) (sameView_refl _)

/-- A token on one of the exits, as EXIT sends it. -/
def State.exitOne (s : State) (x : Nat × Payload) : State := s.sendExit x.1 x.2

/-- Exits one behind the other: the tokens that their arcs ask for, and an exit has executed. -/
theorem exits_issued {s : State} {i : Inst} {w : Bool} (hs : Sender i w s) (l : List Sel) (xs : List (Nat × Payload)) (e : Nat → BitVec 64)
    (hr : ∀ x ∈ xs, s.cx.route? s.fir.sprig (16 + x.1) = some (e x.1)) :
    let t := xs.foldl State.exitOne (s.eat l)
    Emits (s.eat l) t ∧ t.fir.claimed = s.fir.claimed ∧ t.fir.spawns = s.fir.spawns ∧ (xs ≠ [] → t.fir.exitDone = true) ∧
      SentAll i w (xs.map (fun x => (e x.1, s.fir.otag, x.2))) s t := by
  intro t
  have eaten := slotOnly_eat s l
  obtain ⟨emits, sent⟩ := sentAll_foldl State.exitOne (fun x => (e x.1, s.fir.otag, x.2)) xs (s.eat l) (i := i) (w := w)
    (fun x hx u hu => by
      have hotag : u.fir.otag = s.fir.otag := by rw [hu.fir, fir_eat]
      have hroute : u.cx.route? u.fir.sprig (16 + x.1) = some (e x.1) := by
        rw [route_emits hu, route_eat]
        exact hr x hx
      exact ⟨(sendExit_leaves u _ _).1, hotag ▸ sendExit_sent (sender_emits (sender_slotOnly hs eaten) hu) hroute x.2⟩)
  have firing : ∀ u : State, (xs.foldl State.exitOne u).fir.claimed = u.fir.claimed ∧ (xs.foldl State.exitOne u).fir.spawns = u.fir.spawns :=
    fun u => List.foldlRecOn (motive := fun v => v.fir.claimed = u.fir.claimed ∧ v.fir.spawns = u.fir.spawns) xs State.exitOne ⟨rfl, rfl⟩
      (fun v hv x _ => by
        obtain ⟨-, -, claimed, spawns⟩ := sendExit_leaves v x.1 x.2
        exact ⟨claimed.trans hv.1, spawns.trans hv.2⟩)
  refine ⟨emits, (firing _).1.trans (by rw [fir_eat]), (firing _).2.trans (by rw [fir_eat]), fun hne => ?_,
    sentAll_of_views (sameView_slotOnly eaten) sent (sameView_refl _)⟩
  obtain ⟨ys, y, rfl⟩ := List.eq_nil_or_concat xs |>.resolve_left hne
  simp only [t, List.concat_eq_append, List.foldl_append]
  exact (sendExit_leaves _ _ _).2.1

/-- An instruction without claims of its own that reads its sources, sends, and goes on. -/
theorem issued_adv_unclaimed {s t : State} (l : List Sel) (h : Emits (s.eat l) t) (hc : t.fir.claimed = s.fir.claimed) :
    Issued s t.adv l [] :=
  issued_adv l (emits_refl s) h (fun k _ => by simp [hc])

/-- What an EXIT sends: the value on the exit that it names, and with .n a null on every other one of the m. -/
def exitsOf (k : Nat) (v : Payload) (n : Bool) (m : Nat) : List (Nat × Payload) :=
  (k, v) :: if n then ((List.range m).filter (· ≠ k)).map (fun j => (j, .null)) else []

theorem exitsOf_lt {k m : Nat} {v : Payload} {n : Bool} {x : Nat × Payload} (h : x ∈ exitsOf k v n m) : x.1 = k ∨ x.1 < m := by
  cases n with
  | false => exact .inl (by simpa [exitsOf] using congrArg Prod.fst (List.mem_singleton.1 h))
  | true =>
    rcases List.mem_cons.1 h with rfl | h
    · exact .inl rfl
    · obtain ⟨j, hj, rfl⟩ := List.mem_map.1 h
      exact .inr (List.mem_range.1 (List.mem_filter.1 hj).1)

theorem exitsOf_sendings (k : Nat) (v : Payload) (n : Bool) (m : Nat) (e : Nat → BitVec 64) (tag : BitVec 64) :
    (exitsOf k v n m).map (fun x => (e x.1, tag, x.2)) =
      (e k, tag, v) :: if n then ((List.range m).filter (· ≠ k)).map (fun j => (e j, tag, .null)) else [] := by
  cases n with
  | false => rfl
  | true => simp [exitsOf, Function.comp_def]

/-- EXIT is its exits. -/
theorem exit_eq (s : State) (a : Sel) (k : Fin 16) (n : Bool) (h : s.fir.exitDone = false) :
    exec (.exit a k n) s =
      .next ((exitsOf k.val (.word (s.sel a)) n (hdrExits s.fir.header)).foldl State.exitOne (s.eat [a])).adv := by
  change execExit a k n s = _
  cases n with
  | false => simp [execExit, h, State.exitOne, exitsOf]
  | true => simp [execExit, h, State.exitOne, exitsOf, List.foldl_map]

/-- The firing notes a spawn request. -/
theorem noteSpawn_leaves (s : State) (q : Firing → SpawnReq) :
    Emits s (s.modFir (fun f => { f with spawns := f.spawns ++ [q f] })) ∧
      SameView s (s.modFir (fun f => { f with spawns := f.spawns ++ [q f] })) :=
  ⟨emits_modFir s _ rfl, sameView_modFir s _ rfl rfl⟩

/-- EXITS is one exit, and its spawn request is noted. -/
theorem exits_eq (s : State) (a : Sel) (k : Fin 16) (c : BitVec 16) (h : s.fir.exitDone = false) :
    exec (.exits a k c) s = .next ((State.exitOne (s.eat [a]) (k.val, .word (s.sel a))).modFir
      (fun f => { f with spawns := f.spawns ++ [⟨c.toNat, s.sel a, f.otag⟩] })).adv := by
  change execExits a k c s = _
  simp [execExits, h, State.exitOne]

theorem sendSink_leaves (s : State) (i : Inst) (k : Nat) (p : Payload) (src : Option Loc) (edge fid : Nat) (holds : List Hold)
    (before : List Nat) :
    let t := s.sendSink i k p src edge fid holds before
    Sends s t ∧ t.fab.tokens = s.fab.tokens ∧ t.prick = s.prick ∧
      t.fab.sinkMsgs = s.fab.sinkMsgs ++ [⟨i.id, i.sinkRoot, fid, k, p, src, edge, holds, before, 0⟩] :=
  ⟨⟨rfl, keepsInsts_of_eq rfl⟩, rfl, rfl, rfl⟩

theorem count1_leaves (s : State) : Emits s (s.modFir Firing.count1) ∧ SameView s (s.modFir Firing.count1) ∧
    (s.modFir Firing.count1).fir.claimed = s.fir.claimed :=
  ⟨emits_tokensOnly s _ (tokensOnly_count1 _), sameView_modFir s _ rfl rfl, by rw [fir_modFir]; rfl⟩

/-- SINKW is one message to its sink (R153). -/
theorem sinkw_eq (s : State) (a : Sel) (k : Fin 8) {i : Inst} (h : s.fInst = some i) :
    exec (.sinkw a k) s = .next ((((s.eat [a]).modFir Firing.count1).sendSink i k.val (.word (s.sel a)) (some s.sched.curSt) 0
      s.fir.id [] []).adv) := by
  change execSinkw a k s = _
  simp [execSinkw, h]

/-- Settles O23: EXIT and EXITS are tokens on exit arcs, and EXITS notes its request; SINKW is one message. -/
theorem exitsAndSinkWritesLeave : Obligations.ExitsAndSinkWritesLeave := by
  unfold Obligations.ExitsAndSinkWritesLeave
  intro s a k n c j i e hi hr w v
  have sender : Sender i w s := ⟨⟨i, hi, rfl⟩, rfl⟩
  refine ⟨fun hdone => ⟨⟨_, exit_eq s a k n hdone, ?exit⟩, ⟨_, exits_eq s a k c hdone, ?exits⟩⟩, ⟨_, sinkw_eq s a j hi, ?sinkw⟩⟩
  case exit =>
    obtain ⟨emits, claimed, -, done, sent⟩ := exits_issued sender [a] (exitsOf k.val v n (hdrExits s.fir.header)) e
      (fun x hx => hr x.1 (exitsOf_lt hx))
    rw [exitsOf_sendings] at sent
    exact ⟨issued_adv_unclaimed [a] emits claimed, by rw [fir_adv]; exact done (List.cons_ne_nil _ _),
      sentAll_of_views (sameView_refl s) sent (sameView_adv _)⟩
  case exits =>
    obtain ⟨emits, claimed, spawns, done, sent⟩ := exits_issued sender [a] [(k.val, v)] e
      (fun x hx => hr x.1 (.inl (by rw [List.mem_singleton.1 hx])))
    obtain ⟨noted, view⟩ := noteSpawn_leaves (State.exitOne (s.eat [a]) (k.val, v)) (fun f => ⟨c.toNat, s.sel a, f.otag⟩)
    have hotag : (State.exitOne (s.eat [a]) (k.val, v)).fir.otag = s.fir.otag := by
      have := emits.fir
      simp only [List.foldl_cons, List.foldl_nil] at this
      rw [this, fir_eat]
    refine ⟨issued_adv_unclaimed [a] (emits_trans emits noted) (by rw [fir_modFir]; exact claimed),
      by rw [fir_adv, fir_modFir]; exact done (List.cons_ne_nil _ _),
      sentAll_of_views (sameView_refl s) sent (sameView_trans view (sameView_adv _)), ?_⟩
    rw [fir_adv, fir_modFir]
    simp only [List.foldl_cons, List.foldl_nil] at spawns
    rw [spawns, hotag]
  case sinkw =>
    have eaten := slotOnly_eat s [a]
    obtain ⟨counted, ⟨⟨countTokens, countSinks, -⟩, -, -⟩, claimed⟩ := count1_leaves (s.eat [a])
    obtain ⟨sends, tokens, prick, sinks⟩ := sendSink_leaves ((s.eat [a]).modFir Firing.count1) i j.val v (some s.sched.curSt) 0
      s.fir.id [] []
    obtain ⟨⟨advTokens, advSinks, -⟩, -, -⟩ := sameView_adv
      (((s.eat [a]).modFir Firing.count1).sendSink i j.val v (some s.sched.curSt) 0 s.fir.id [] [])
    obtain ⟨-, -, -, ⟨-, -, advPrick, -⟩, -⟩ := adv_leaves
      (((s.eat [a]).modFir Firing.count1).sendSink i j.val v (some s.sched.curSt) 0 s.fir.id [] [])
    obtain ⟨⟨eatTokens, eatSinks, -⟩, -, -⟩ := sameView_slotOnly eaten
    obtain ⟨-, -, eatPrick, -⟩ := eaten.fabric
    refine ⟨issued_adv_unclaimed [a] (emits_trans counted (emits_sends sends)) ?_, ?_, ?_, ⟨i.id, i.sinkRoot, s.fir.id, j.val, v,
      some s.sched.curSt, 0, [], [], 0⟩, ?_, rfl, rfl, rfl, rfl, rfl⟩
    · rw [posts_fir sends.posts, claimed, fir_eat]
    · rw [advTokens, tokens, countTokens, eatTokens]
    · rw [advPrick, prick, modFir_prick, eatPrick]
    · rw [advSinks, sinks, countSinks, eatSinks]

end Sys2Proof.Machine
end

section

/-!
SUPPORT. Thinning (R147, R148, R159): the counter of a key, what a THIN and a THEND send, and how they leave it. The statement O26 is
settled from these.
-/

namespace Sys2Proof.Machine

/-! ### The counter of a key (R147) -/

/-- The test for the counter of a target and a thread. -/
def isThin (target thread : Nat) (c : ThinCounter) : Bool := decide (c.target = target ∧ c.thread = thread)

/-- A counter that is written back is the one that its key finds. -/
theorem find_putThin (c : Ctx) (t : ThinCounter) : (c.putThin t).thin.find? (isThin t.target t.thread) = some t := by
  have hnone : (c.thin.filter (fun x => decide (x.target ≠ t.target ∨ x.thread ≠ t.thread))).find? (isThin t.target t.thread) = none := by
    simp only [List.find?_eq_none, List.mem_filter, isThin, decide_eq_true_eq]
    tauto
  rw [Ctx.putThin, List.find?_append, hnone]
  simp [isThin]

/-- A counter that the key's test finds has that test. -/
theorem isThin_of_find {l : List ThinCounter} {target thread : Nat} {c : ThinCounter} (h : l.find? (isThin target thread) = some c) :
    isThin c.target c.thread = isThin target thread := by
  obtain ⟨rfl, rfl⟩ : c.target = target ∧ c.thread = thread := by simpa [isThin] using List.find?_some h
  rfl

/-- Writing a counter back changes the slot's counters alone. -/
theorem thinPut_leaves (s : State) (t : ThinCounter) (h : s.fir.ctx < 8) :
    (s.thinPut t).fir = s.fir ∧ (s.thinPut t).mm = s.mm ∧ SameView s (s.thinPut t) ∧
      (s.thinPut t).cx = s.cx.putThin { t with used := s.sched.uid } := by
  have change := slotOnly_modCx s.newUid.2 (fun c => c.putThin { t with used := s.sched.uid })
  have named : SameView s s.newUid.2 := ⟨⟨rfl, rfl, rfl, rfl⟩, rfl, rfl⟩
  have hfir : s.newUid.2.fir = s.fir := rfl
  have hcx : s.newUid.2.cx = s.cx := rfl
  obtain ⟨-, hmm, -⟩ := change.fabric
  refine ⟨change.firing.trans hfir, hmm, sameView_trans named (sameView_slotOnly change), ?_⟩
  change (s.newUid.2.modCx (fun c => c.putThin { t with used := s.sched.uid })).cx = _
  rw [cx_modCx, hfir, if_pos h, hcx]

/-! ### What finds a counter -/

/-- A counter that lies on the die is the one that THIN and THEND take. -/
theorem thinGet_onDie {s : State} {target thread : Nat} {c : ThinCounter} (h : s.thinFind target thread = some c) (h0 : c.place = 0)
    (g : Option Nat) : s.thinGet target thread g = (some c, s) := by
  simp only [State.thinGet, h, if_pos h0]

/-- The first THIN of a key creates its counter, where fewer than 64 lie on the die. -/
theorem thinGet_new {s : State} {target thread : Nat} (h : s.thinFind target thread = none)
    (hroom : (s.st s.sched.curSt).thinOnDie.length < 64) (g : Nat) :
    s.thinGet target thread (some g) =
      (some { target := target, thread := thread, g := g, c := 0 },
        s.modCx (·.putThin { target := target, thread := thread, g := g, c := 0 })) := by
  simp only [State.thinGet, h, State.thinRoom, if_pos hroom]

theorem thinGet_none {s : State} {target thread : Nat} (h : s.thinFind target thread = none) :
    s.thinGet target thread none = (none, s) := by
  simp only [State.thinGet, h]

/-- A counter that does not lie in the arena is not read from there. -/
theorem thinRead_here {s : State} {target thread : Nat} (h : ∀ c, s.thinFind target thread = some c → c.place ≠ 2) (k : State → Out) :
    s.thinRead target thread k = k s := by
  have hnone : (s.thinFind target thread).filter (fun t => decide (t.place = 2)) = none := by
    rw [Option.filter_eq_none_iff]
    intro c hc
    simpa using h c hc
  simp only [State.thinRead, hnone]

/-! ### What a THIN or a THEND is ready to send from -/

/-- A state in which an instruction is ready to send: arcs have been claimed, sources read, a counter created or a padding named; the
routing words, the queues and the records are as before. -/
structure Readies (s u : State) : Prop where
  fir : u.fir = { s.fir with claimed := u.fir.claimed, pad := u.fir.pad }
  mm : u.mm = s.mm
  view : SameView s u
  routes : u.cx.routes = s.cx.routes

theorem readies_trans {s t u : State} (h : Readies s t) (k : Readies t u) : Readies s u where
  fir := by rw [k.fir, h.fir]
  mm := k.mm.trans h.mm
  view := sameView_trans h.view k.view
  routes := k.routes.trans h.routes

theorem readies_claim (s : State) (a : Nat) : Readies s (s.claim a) where
  fir := by rw [State.claim, fir_modFir]
  mm := rfl
  view := (claim_leaves s a).2
  routes := by rw [(claim_leaves s a).1.cx]

theorem readies_slotOnly {s t : State} (h : SlotOnly s t) (hr : t.cx.routes = s.cx.routes) : Readies s t where
  fir := by rw [h.firing]
  mm := h.fabric.2.1
  view := sameView_slotOnly h
  routes := hr

theorem readies_eat (s : State) (l : List Sel) : Readies s (s.eat l) := readies_slotOnly (slotOnly_eat s l) (by rw [cx_eat])

theorem readies_putThin (s : State) (t : ThinCounter) : Readies s (s.modCx (·.putThin t)) := by
  refine readies_slotOnly (slotOnly_modCx s _) ?_
  rw [cx_modCx]
  split <;> rfl

theorem readies_padding (s : State) : Readies s (s.newUid.2.padding s.newUid.1) where
  fir := by rw [State.padding, fir_modFir]; rfl
  mm := rfl
  view := by
    have named : SameView s s.newUid.2 := ⟨⟨rfl, rfl, rfl, rfl⟩, rfl, rfl⟩
    rw [State.padding]
    exact sameView_trans named (sameView_modFir _ _ rfl rfl)
  routes := by rw [State.padding, cx_modFir _ _ rfl]; rfl

section
variable {s u : State} (h : Readies s u)
include h

theorem readies_route (arc : Nat) : u.cx.route? u.fir.sprig arc = s.cx.route? s.fir.sprig arc := by
  rw [Ctx.route?, Ctx.route?, h.routes, h.fir]

theorem readies_sender {i : Inst} {w : Bool} (hs : Sender i w s) : Sender i w u := by
  obtain ⟨⟨j, hj, hij⟩, hw⟩ := hs
  refine ⟨⟨j, ?_, hij⟩, by rw [h.fir]; exact hw⟩
  have hinst : u.fir.inst = s.fir.inst := by rw [h.fir]
  rw [← hj]
  simp only [State.fInst, State.inst?, h.view.insts, hinst]

end

/-- A counter is written back and the instruction goes on, behind the tokens that it has sent. -/
theorem thinPut_adv {s u t : State} {i : Inst} {w : Bool} {l : List (BitVec 64 × BitVec 64 × Payload)} (hu : Readies s u)
    (ht : Emits u t) (sent : SentAll i w l u t) (hc : s.fir.ctx < 8) (e : ThinCounter) :
    SentAll i w l s (t.thinPut e).adv ∧ (t.thinPut e).adv.fir.pos = s.fir.pos + 1 ∧ (t.thinPut e).adv.mm = s.mm ∧
      (t.thinPut e).adv.cx.thin.find? (isThin e.target e.thread) = some { e with used := t.sched.uid } := by
  have hfir : t.fir.pos = s.fir.pos ∧ t.fir.ctx = s.fir.ctx := by
    rw [ht.fir, hu.fir]
    exact ⟨rfl, rfl⟩
  obtain ⟨hpos, hctx⟩ := hfir
  obtain ⟨putFir, putMm, putView, putCx⟩ := thinPut_leaves t e (by rw [hctx]; exact hc)
  obtain ⟨advFir, advCx, -, ⟨-, advMm, -⟩, -⟩ := adv_leaves (t.thinPut e)
  refine ⟨sentAll_of_views hu.view sent (sameView_trans putView (sameView_adv _)), by rw [advFir, putFir, hpos],
    by rw [advMm, putMm, ht.mm, hu.mm], ?_⟩
  rw [advCx, putCx]
  exact find_putThin t.cx { e with used := t.sched.uid }

/-- THIN with a survivor: it leaves with the counter's ITER, and the counter moves on (R159). -/
theorem thin_survives {s u : State} {i : Inst} {w : Bool} (hs : Sender i w s) (hu : Readies s u) {arc : Nat} {x : BitVec 64}
    (hx : s.cx.route? s.fir.sprig arc = some x) (hc : s.fir.ctx < 8) (tag : BitVec 64) (p : Payload) (e : ThinCounter) :
    let t := ((u.emitTok arc tag p none).thinPut e).adv
    SentAll i w [(x, tag, p)] s t ∧ t.fir.pos = s.fir.pos + 1 ∧ t.mm = s.mm ∧
      ∃ k, t.cx.thin.find? (isThin e.target e.thread) = some { e with used := k } := by
  have sent := sender_sent (readies_sender hu hs) ((readies_route hu arc).trans hx) tag p none
  have emits := (emitTok_leaves u arc tag p none).1
  obtain ⟨all, pos, mm, found⟩ := thinPut_adv hu emits
    (show SentAll i w [(x, tag, p)] u _ from ⟨_, sent, emits_curSt emits, rfl, rfl, rfl, rfl⟩) hc e
  exact ⟨all, pos, mm, _, found⟩

/-! ### The nulls of THEND (R159) -/

/-- The nulls that pad a group carry ITER c, c + 1, … modulo 2^20. -/
theorem thinPad_sent {i : Inst} {w : Bool} {x : BitVec 64} {arc : Nat} (n : Nat) : ∀ {s : State} (c : Nat), Sender i w s →
    s.cx.route? s.fir.sprig arc = some x →
      Emits s (s.thinPad arc n c) ∧
      SentAll i w ((List.range n).map (fun k => (x, withIter s.fir.otag ((c + k) % 2 ^ 20), .null))) s (s.thinPad arc n c) := by
  induction n with
  | zero => exact fun {s} c _ _ => ⟨emits_refl s, rfl, rfl, rfl, rfl⟩
  | succ n ih =>
    intro s c hs hx
    have first := (emitTok_leaves s arc (withIter s.otag c) .null none).1
    have sent := sender_sent hs hx (withIter s.otag c) .null none
    obtain ⟨more, sents⟩ := ih ((c + 1) % 2 ^ 20) (sender_emits hs first) ((route_emits first arc).trans hx)
    have hotag : (s.emitTok arc (withIter s.otag c) .null none).fir.otag = s.fir.otag := emits_otag first
    have hfirst : withIter s.fir.otag ((c + 0) % 2 ^ 20) = withIter s.fir.otag c := setBits_mod _ _ _ _
    refine ⟨emits_trans first more, ?_⟩
    rw [List.range_succ_eq_map, List.map_cons, List.map_map, hfirst]
    refine ⟨_, sent, emits_curSt first, ?_⟩
    rw [hotag] at sents
    have hnext : ∀ k, ((c + 1) % 2 ^ 20 + k) % 2 ^ 20 = (c + (k + 1)) % 2 ^ 20 := fun k => by omega
    simp only [hnext] at sents
    exact sents

theorem oneEntry_leaves (s : State) (f : Firing) : Emits s (s.oneEntry f) ∧ SameView s (s.oneEntry f) :=
  ⟨emits_modFir s _ rfl, sameView_modFir s _ rfl rfl⟩

/-- The nulls that pad a group leave under one name, and no other instruction of the firing shares their entry. -/
theorem padGroup_sent {i : Inst} {w : Bool} {x : BitVec 64} {s : State} {arc : Nat} (n c : Nat) (hs : Sender i w s)
    (hx : s.cx.route? s.fir.sprig arc = some x) :
    Emits (s.newUid.2.padding s.newUid.1) (s.padGroup arc n c) ∧
      SentAll i w ((List.range n).map (fun k => (x, withIter s.fir.otag ((c + k) % 2 ^ 20), .null)))
        (s.newUid.2.padding s.newUid.1) (s.padGroup arc n c) := by
  have ready := readies_padding s
  have hotag : (s.newUid.2.padding s.newUid.1).fir.otag = s.fir.otag := by rw [ready.fir]
  obtain ⟨emits, sent⟩ := thinPad_sent n c (readies_sender ready hs) ((readies_route ready arc).trans hx)
  rw [hotag] at sent
  obtain ⟨shared, view⟩ := oneEntry_leaves ((s.newUid.2.padding s.newUid.1).thinPad arc n c) s.fir
  exact ⟨emits_trans emits shared, sentAll_of_views (sameView_refl _) sent view⟩

/-! ### The instructions -/

section
variable {s : State} {r : Fin 16} {x : BitVec 64} (hr : s.fir.isClaimed r.val = false) (hx : s.cx.route? s.fir.sprig r.val = some x)
include hr

theorem claiming_one (k : State → Out) : s.claiming [r.val] k = k (s.claim r.val) :=
  claiming_unclaimed s [r.val] k (by simp) (by simpa using hr)

/-- THIN with a predicate of zero: the arc is claimed and nothing leaves (R159). -/
theorem thin_drops (a p : Sel) (g : BitVec 8) (hp : s.sel p = 0) : exec (.thin a r p g) s = .next ((s.claim r.val).eat [a, p]).adv := by
  change execThin a r p g s = _
  rw [execThin, if_pos hp, claiming_one hr]

include hx

theorem thin_eq (a p : Sel) (g : BitVec 8) (hp : s.sel p ≠ 0)
    (hread : ∀ c, s.thinFind (rtKey x) (tagThread s.fir.otag) = some c → c.place ≠ 2) {c : ThinCounter} {u : State}
    (hget : ((s.claim r.val).eat [a, p]).thinGet (rtKey x) (tagThread s.fir.otag) (some g.toNat) = (some c, u)) :
    exec (.thin a r p g) s =
      .next ((u.emitTok r.val (withIter s.fir.otag c.c) (.word (s.sel a)) none).thinPut { c with c := (c.c + 1) % 2 ^ 20 }).adv := by
  have claimed := (claim_leaves s r.val).1
  change execThin a r p g s = _
  have hkey : rtKey ((s.cx.route? s.fir.sprig r.val).getD 0) = rtKey x := by rw [hx, Option.getD_some]
  have hthread : tagThread s.otag = tagThread s.fir.otag := rfl
  rw [execThin, if_neg hp, hkey, claiming_one hr, hthread, thinRead_here hread]
  simp only [emits_otag claimed, emits_sel claimed, hthread, hget]
  rfl

/-- THEND without a counter sends nothing (R159). -/
theorem thend_none (hnone : s.thinFind (rtKey x) (tagThread s.fir.otag) = none) : exec (.thend r) s = .next (s.claim r.val).adv := by
  have claimed := (claim_leaves s r.val).1
  change execThend r s = _
  have hkey : rtKey ((s.cx.route? s.fir.sprig r.val).getD 0) = rtKey x := by rw [hx, Option.getD_some]
  have hthread : tagThread s.otag = tagThread s.fir.otag := rfl
  have hget : (s.claim r.val).thinGet (rtKey x) (tagThread s.fir.otag) none = (none, s.claim r.val) :=
    thinGet_none (by rw [State.thinFind, claimed.cx]; exact hnone)
  rw [execThend, hkey, claiming_one hr, hthread, thinRead_here (fun c hc => by rw [hnone] at hc; exact absurd hc (by simp))]
  simp only [emits_otag claimed, hthread, hget]

/-- THEND of a counter on the die pads its group; the group's end is short of 2^20. -/
theorem thend_pads {c : ThinCounter} (hc : s.thinFind (rtKey x) (tagThread s.fir.otag) = some c) (h0 : c.place = 0)
    (hn : c.c + (c.g - c.c % c.g) % c.g ≤ 2 ^ 20) :
    let n := (c.g - c.c % c.g) % c.g
    exec (.thend r) s = .next (((s.claim r.val).padGroup r.val n c.c).thinPut { c with c := (c.c + n) % 2 ^ 20 }).adv := by
  intro n
  have claimed := (claim_leaves s r.val).1
  change execThend r s = _
  have hkey : rtKey ((s.cx.route? s.fir.sprig r.val).getD 0) = rtKey x := by rw [hx, Option.getD_some]
  have hthread : tagThread s.otag = tagThread s.fir.otag := rfl
  have hmin : min ((c.g - c.c % c.g) % c.g) (2 ^ 20 - c.c) = n := min_eq_left (by omega)
  have hget : (s.claim r.val).thinGet (rtKey x) (tagThread s.fir.otag) none = (some c, s.claim r.val) :=
    thinGet_onDie (by rw [State.thinFind, claimed.cx]; exact hc) h0 none
  rw [execThend, hkey, claiming_one hr, hthread, thinRead_here (fun e he => by rw [hc] at he; cases he; rw [h0]; decide)]
  simp only [emits_otag claimed, hthread, hget, hmin]

end

/-! ### Room on the die -/

theorem thinOnDie_congr {v w : Station} (h : ∀ c, (w.ctx c).thin = (v.ctx c).thin) : w.thinOnDie = v.thinOnDie := by
  simp only [Station.thinOnDie, h]

theorem thin_eat (s : State) (l : List Sel) : (s.eat l).cx.thin = s.cx.thin := by rw [cx_eat]

theorem thinOnDie_eat (s : State) (l : List Sel) :
    ((s.eat l).st (s.eat l).sched.curSt).thinOnDie = (s.st s.sched.curSt).thinOnDie := by
  have eaten := slotOnly_eat s l
  obtain ⟨-, -, slots, -⟩ := eaten.station
  refine thinOnDie_congr fun c => ?_
  rw [eaten.schedule]
  by_cases hc : c = s.fir.ctx
  · have := thin_eat s l
    rw [State.cx, State.cx, eaten.schedule, eaten.firing] at this
    rw [hc]
    exact this
  · rw [slots c hc]

theorem thinOnDie_emits {s t : State} (h : Emits s t) : (t.st t.sched.curSt).thinOnDie = (s.st s.sched.curSt).thinOnDie :=
  thinOnDie_congr fun c => congrArg Ctx.thin (emits_ctx h c)

/-- Settles O26: THIN sends one token with the counter's ITER and THEND the nulls up to the group's end. -/
theorem thinningPassesDenseGroups : Obligations.ThinningPassesDenseGroups := by
  unfold Obligations.ThinningPassesDenseGroups
  intro s a p r g i x hi hc hr hx w mine
  have sender : Sender i w s := ⟨⟨i, hi, rfl⟩, rfl⟩
  have claim := readies_claim s r.val
  have taken := readies_trans claim (readies_eat (s.claim r.val) [a, p])
  have claimed := (claim_leaves s r.val).1
  have hfind : ((s.claim r.val).eat [a, p]).thinFind (rtKey x) (tagThread s.fir.otag) = s.cx.thin.find? mine := by
    rw [State.thinFind, thin_eat, claimed.cx]
  refine ⟨fun hp => ⟨_, thin_drops hr a p g hp, ?drops⟩, fun hp c hf h0 => ?counted, fun hp hf hroom => ?first,
    fun hf => ⟨_, thend_none hr hx hf, ?nothing⟩, fun c hf h0 hg hn => ⟨_, thend_pads hr hx hf h0 hn, ?pads⟩⟩
  case drops => exact emits_issued sender [r.val] [a, p] [] (fun _ => x) (by simp)
  case counted =>
    have hkey := isThin_of_find hf
    have here : ∀ e, s.thinFind (rtKey x) (tagThread s.fir.otag) = some e → e.place ≠ 2 := fun e he => by
      cases hf.symm.trans he
      rw [h0]
      decide
    obtain ⟨sent, pos, mm, k, found⟩ := thin_survives sender taken hx hc (withIter s.fir.otag c.c) (.word (s.sel a))
      { c with c := (c.c + 1) % 2 ^ 20 }
    rw [hkey] at found
    exact ⟨_, thin_eq hr hx a p g hp here (thinGet_onDie (hfind.trans hf) h0 _), sent, pos, mm, _, found, rfl, rfl⟩
  case first =>
    have here : ∀ e, s.thinFind (rtKey x) (tagThread s.fir.otag) = some e → e.place ≠ 2 := fun e he =>
      absurd (hf.symm.trans he) (by simp)
    have room := hroom
    rw [← thinOnDie_emits claimed, ← thinOnDie_eat (s.claim r.val) [a, p]] at room
    obtain ⟨sent, pos, mm, k, found⟩ := thin_survives sender (readies_trans taken (readies_putThin _ _)) hx hc (withIter s.fir.otag 0)
      (.word (s.sel a)) { target := rtKey x, thread := tagThread s.fir.otag, g := g.toNat, c := (0 + 1) % 2 ^ 20 }
    exact ⟨_, thin_eq hr hx a p g hp here (thinGet_new (hfind.trans hf) room _), sent, pos, mm, _, found, rfl, rfl⟩
  case nothing => exact emits_issued sender [r.val] [] [] (fun _ => x) (by simp)
  case pads =>
    have hkey := isThin_of_find hf
    have hotag : (s.claim r.val).fir.otag = s.fir.otag := emits_otag claimed
    obtain ⟨emits, sents⟩ := padGroup_sent ((c.g - c.c % c.g) % c.g) c.c (readies_sender claim sender)
      ((readies_route claim r.val).trans hx)
    rw [hotag] at sents
    obtain ⟨sent, pos, mm, found⟩ := thinPut_adv (readies_trans claim (readies_padding _)) emits sents hc
      { c with c := (c.c + (c.g - c.c % c.g) % c.g) % 2 ^ 20 }
    rw [hkey] at found
    exact ⟨sent, pos, mm, _, found, rfl, rfl⟩

end Sys2Proof.Machine
end

section

/-!
SUPPORT. Writing records to a partition's rings leaves the accesses under way and the functions' shares of dies and rows as they were:
one lemma for each operation (R415 to R418, R431 to R434).
-/

namespace Sys2Proof.Machine

/-- What waits for memory, and what each function may hold of the on-die stores and the Hedgerow banks, is as before. -/
structure Steady (s t : State) : Prop where
  accesses : t.mm.accesses = s.mm.accesses
  copies : t.mm.copies = s.mm.copies
  thq : t.mm.thq = s.mm.thq
  ondie : ∀ v, (t.vf v).ondie = (s.vf v).ondie
  hedge : ∀ v, (t.vf v).hedge = (s.vf v).hedge
  pool : ∀ v, (t.vf v).pool = (s.vf v).pool

theorem steady_refl (s : State) : Steady s s := ⟨rfl, rfl, rfl, fun _ => rfl, fun _ => rfl, fun _ => rfl⟩

theorem steady_trans {s t u : State} (h : Steady s t) (k : Steady t u) : Steady s u where
  accesses := k.accesses.trans h.accesses
  copies := k.copies.trans h.copies
  thq := k.thq.trans h.thq
  ondie v := (k.ondie v).trans (h.ondie v)
  hedge v := (k.hedge v).trans (h.hedge v)
  pool v := (k.pool v).trans (h.pool v)

theorem steady_ite {s t u : State} {c : Prop} [Decidable c] (h : Steady s t) (k : Steady s u) : Steady s (if c then t else u) := by
  split
  · exact h
  · exact k

/-! ### Primitive updates -/

/-- A change of all but the queues of memory and the functions. -/
theorem steady_of_eq {s t : State} (ha : t.mm.accesses = s.mm.accesses) (hc : t.mm.copies = s.mm.copies) (hq : t.mm.thq = s.mm.thq)
    (hv : t.host.vfs = s.host.vfs) : Steady s t :=
  ⟨ha, hc, hq, fun _ => by rw [State.vf, State.vf, hv], fun _ => by rw [State.vf, State.vf, hv], fun _ => by rw [State.vf, State.vf, hv]⟩

theorem steady_cacheOnly {s t : State} (h : CacheOnly s t) : Steady s t := by
  rw [h]
  exact steady_of_eq rfl rfl rfl rfl

theorem steady_charge (s : State) (vf col : Nat) (w : Work) (n : Nat) : Steady s (s.charge vf col w n) :=
  steady_cacheOnly (cacheOnly_charge s vf col w n)

/-- A change of a function that leaves its shares. -/
theorem steady_modVf (s : State) (v : Nat) (f : Vf → Vf)
    (h : ∀ x : Vf, (f x).ondie = x.ondie ∧ (f x).hedge = x.hedge ∧ (f x).pool = x.pool := by exact fun _ => ⟨rfl, rfl, rfl⟩) :
    Steady s (s.modVf v f) := by
  have shares : ∀ u, ((s.modVf v f).vf u).ondie = (s.vf u).ondie ∧ ((s.modVf v f).vf u).hedge = (s.vf u).hedge ∧
      ((s.modVf v f).vf u).pool = (s.vf u).pool := fun u => by
    by_cases hu : u = v
    · rw [hu, vf_modVf_same]
      exact h _
    · rw [vf_modVf_other s f hu]
      exact ⟨rfl, rfl, rfl⟩
  exact ⟨rfl, rfl, rfl, fun u => (shares u).1, fun u => (shares u).2.1, fun u => (shares u).2.2⟩

theorem steady_setEvent (s : State) (c : Fin 4) (b : Nat) : Steady s (s.setEvent c b) := steady_of_eq rfl rfl rfl rfl

/-! ### Writes at the home -/

theorem steady_serveWrite (s : State) (vf pa n v : Nat) : Steady s (s.serveWrite vf pa n v) := by
  have piece (b : State) (p : Nat) : Steady b ((b.fillL2 p vf).modMm (·.markDirty p vf)) :=
    steady_trans (steady_cacheOnly (cacheOnly_fillL2 _ _ _)) (steady_of_eq rfl rfl rfl rfl)
  unfold State.serveWrite
  refine steady_trans (t := List.foldl _ s (pieces pa n)) ?_ (steady_of_eq rfl rfl rfl rfl)
  refine List.foldlRecOn (motive := Steady s) _ _ (steady_refl s) (fun b hb p _ => steady_trans hb ?_)
  have host : Steady b (if isHostMem p.1 then ((b.fillL2 (p.1 / 128) vf).modMm (·.markDirty (p.1 / 128) vf)).charge vf
      (portCol (homeDie p.1).val 0) .simiow 1 else (b.fillL2 (p.1 / 128) vf).modMm (·.markDirty (p.1 / 128) vf)) := by
    split
    · exact steady_trans (piece b _) (steady_charge _ _ _ _ _)
    · exact piece b _
  dsimp only
  split
  · exact steady_trans host (steady_of_eq rfl rfl rfl rfl)
  · exact host

theorem steady_engineWrite (s : State) (vf pa n v : Nat) : Steady s (s.engineWrite vf pa n v) := by
  unfold State.engineWrite
  split
  · exact steady_trans (steady_serveWrite s vf pa n v) (steady_of_eq rfl rfl rfl rfl)
  · exact steady_refl s

/-- A record into a ring and the ring's W behind it. -/
theorem steady_twoWrites {s t : State} (h : Steady s t) (v a k x b l y : Nat) :
    Steady s ((t.engineWrite v a k x).engineWrite v b l y) :=
  steady_trans (steady_trans h (steady_engineWrite _ _ _ _ _)) (steady_engineWrite _ _ _ _ _)

/-! ### Messages and page requests -/

theorem steady_sendIrq (s : State) (d : Fin 2) (h : Nat) (f : Option Nat) : Steady s (s.sendIrq d h f) := by
  unfold State.sendIrq
  dsimp only
  exact steady_ite (steady_of_eq rfl rfl rfl rfl) (steady_ite (steady_of_eq rfl rfl rfl rfl) (steady_ite (steady_of_eq rfl rfl rfl rfl)
    (steady_ite (steady_of_eq rfl rfl rfl rfl) (steady_ite (steady_refl s) (steady_engineWrite _ _ _ _ _)))))

theorem steady_flushPages (s : State) (n : Nat) : Steady s (s.flushPages n) := by
  induction n generalizing s with
  | zero => exact steady_refl s
  | succ n ih =>
    unfold State.flushPages
    split
    · exact steady_refl s
    · dsimp only
      have wrote (a b k l x y : Nat) (f : HostSide → HostSide) (hf : ∀ g, (f g).vfs = g.vfs) :
          Steady s (((s.engineWrite hostId a k x).engineWrite hostId b l y).modHost f) :=
        steady_trans (steady_twoWrites (steady_refl s) _ _ _ _ _ _ _) (steady_of_eq rfl rfl rfl (hf _))
      split
      · exact steady_refl s
      · split
        · exact steady_refl s
        · refine steady_trans ?_ (ih _)
          split
          · refine steady_trans ?_ (steady_sendIrq _ _ _ _)
            exact wrote _ _ _ _ _ _ _ (fun _ => rfl)
          · exact wrote _ _ _ _ _ _ _ (fun _ => rfl)

theorem steady_pageRequest (s : State) (die : Fin 2) (vf va ia : Nat) (w wr : Bool) (p : Option Nat) (f : PageFor) :
    Steady s (s.pageRequest die vf va ia w wr p f).2 := by
  unfold State.pageRequest
  split
  · exact steady_refl s
  · dsimp only
    split
    · exact steady_refl s
    · refine steady_trans ?_ (steady_trans (steady_charge _ _ _ _ _) (steady_flushPages _ _))
      cases p with
      | none => exact steady_of_eq rfl rfl rfl rfl
      | some p => exact steady_of_eq rfl rfl rfl rfl

theorem steady_unitAccess (s : State) (die : Fin 2) (vf va : Nat) (w : Bool) (p : Option Nat) (f : PageFor) :
    Steady s (s.unitAccess die vf va w p f).after := by
  unfold State.unitAccess
  generalize (if w = true then 2 else 1 : Nat) = need
  have h := steady_cacheOnly (cacheOnly_translate s ⟨die, die.val * 32, vf, va, need, s.vfRanges die vf⟩)
  dsimp only
  split
  · split
    · exact h
    · split
      · exact h
      · exact h
  · exact h
  · split
    · split
      · exact steady_trans h (steady_of_eq rfl rfl rfl rfl)
      · exact h
    · exact steady_trans h (steady_pageRequest _ _ _ _ _ _ _ _ _)
  · exact h
  · exact h

theorem steady_unit {s t : State} {die : Fin 2} {vf va : Nat} {w : Bool} {p : Option Nat} {f : PageFor} {o : UOut}
    (h : s.unitAccess die vf va w p f = o) (ht : o.after = t) : Steady s t := by
  rw [← ht, ← h]
  exact steady_unitAccess _ _ _ _ _ _ _

/-! ### Sampler and fault records -/

theorem steady_sampPut (s : State) (v hdr slot : Nat) (next : Option Nat) (n : Nat) (r : BitVec 256) :
    Steady s (s.sampPut v hdr slot next n r) := by
  unfold State.sampPut
  dsimp only
  have h := steady_trans (steady_trans (steady_twoWrites (steady_refl s) v slot 32 (setBits r 0 24 (s.vf v).sampW).toNat hdr 8
    ((s.vf v).sampW + 1)) (steady_modVf _ v (fun f => { f with sampW := f.sampW + 1 }))) (steady_charge _ v (portCol 0 0) .record 1)
  split
  · exact h
  · split
    · exact steady_trans h (steady_engineWrite _ _ _ _ _)
    · exact steady_trans h (steady_trans (steady_engineWrite _ _ _ _ _) (steady_engineWrite _ _ _ _ _))

/-- A held sample that is dropped, or put into its ring. -/
theorem steady_sampTake (s : State) (v : Nat) (l : List (BitVec 256)) : Steady s (s.modVf v (fun x => { x with sampHeld := l })) :=
  steady_modVf _ _ _

theorem steady_flushSamples (s : State) (v n : Nat) : Steady s (s.flushSamples v n) := by
  induction n generalizing s with
  | zero => exact steady_refl s
  | succ n ih =>
    have put (t : State) (ht : Steady s t) (l : List (BitVec 256)) (hdr slot : Nat) (next : Option Nat) (k : Nat) (r : BitVec 256) :
        Steady s (((t.modVf v (fun x => { x with sampHeld := l })).sampPut v hdr slot next k r).flushSamples v n) :=
      steady_trans (steady_trans (steady_trans ht (steady_sampTake _ _ _)) (steady_sampPut _ _ _ _ _ _ _)) (ih _)
    unfold State.flushSamples
    split
    · exact steady_refl s
    · dsimp only
      split
      · exact steady_sampTake _ _ _
      split
      next h => exact steady_trans (steady_trans (steady_unit h rfl) (steady_sampTake _ _ _)) (ih _)
      next h => exact steady_unit h rfl
      next h =>
        have h1 := steady_unit h rfl
        split
        next k => exact steady_trans (steady_trans (steady_trans h1 (steady_unit k rfl)) (steady_sampTake _ _ _)) (ih _)
        next k => exact steady_trans h1 (steady_unit k rfl)
        next k =>
          have h2 := steady_trans h1 (steady_unit k rfl)
          split
          · exact put _ h2 _ _ _ _ _ _
          split
          next l => exact put _ (steady_trans h2 (steady_unit l rfl)) _ _ _ _ _ _
          next l => exact steady_trans h2 (steady_unit l rfl)
          next l => exact put _ (steady_trans h2 (steady_unit l rfl)) _ _ _ _ _ _

theorem steady_sample (s : State) (v : Nat) (die : Fin 2) (code : Nat) (id : SampId) (value tag : BitVec 64) :
    Steady s (s.sample v die code id value tag) := by
  unfold State.sample
  dsimp only
  split
  · exact steady_refl s
  · split
    · exact steady_refl s
    · exact steady_trans (steady_modVf _ _ _) (steady_flushSamples _ _ _)

theorem steady_loseFaults (s : State) (v n : Nat) : Steady s (s.loseFaults v n) :=
  steady_trans (steady_modVf _ _ _) (steady_setEvent _ _ _)

theorem steady_flushFaults (s : State) (v n : Nat) : Steady s (s.flushFaults v n) := by
  induction n generalizing s with
  | zero => exact steady_refl s
  | succ n ih =>
    unfold State.flushFaults
    split
    · exact steady_refl s
    · dsimp only
      have lose (t : State) (ht : Steady s t) (f : Vf → Vf)
          (k : Nat)
          (hf : ∀ x : Vf, (f x).ondie = x.ondie ∧ (f x).hedge = x.hedge ∧ (f x).pool = x.pool := by exact fun _ => ⟨rfl, rfl, rfl⟩) :
          Steady s ((t.modVf v f).loseFaults v k) :=
        steady_trans (steady_trans ht (steady_modVf _ _ _ hf)) (steady_loseFaults _ _ _)
      split
      · exact lose s (steady_refl s) _ _
      split
      next h => exact lose _ (steady_unit h rfl) _ _
      next h => exact steady_unit h rfl
      next h =>
        have h0 := steady_unit h rfl
        split
        next g => exact lose _ (steady_trans h0 (steady_unit g rfl)) _ _
        next g => exact steady_trans h0 (steady_unit g rfl)
        next g =>
          have h1 := steady_trans h0 (steady_unit g rfl)
          split
          · exact h1
          split
          next k => exact lose _ (steady_trans h1 (steady_unit k rfl)) _ _
          next k => exact steady_trans h1 (steady_unit k rfl)
          next k =>
            have h2 := steady_trans h1 (steady_unit k rfl)
            refine steady_trans (steady_trans (steady_trans ?_ (steady_charge _ _ _ _ _)) (steady_setEvent _ _ _)) (ih _)
            exact steady_trans (steady_twoWrites h2 _ _ _ _ _ _ _) (steady_modVf _ _ _)

/-- A record to a partition. -/
theorem steady_partFault (s : State) (v : Nat) (f : FaultInfo) (res : Option FaultFor) : Steady s (s.partFault v f res).2 := by
  unfold State.partFault
  dsimp only
  split
  · exact steady_loseFaults _ _ _
  · have h := steady_trans (steady_modVf s v (fun y => { y with heldFaults := y.heldFaults ++
      [f.pack (s.ns f.die) ((s.vf v).faultW + (s.vf v).heldFaults.length)] }))
      (steady_flushFaults _ v ((s.vf v).heldFaults.length + 2))
    split
    · exact steady_trans (steady_trans h (steady_modVf _ _ _)) (steady_loseFaults _ _ _)
    · split
      · exact h
      · refine steady_trans ?_ (steady_sample _ _ _ _ _ _ _)
        cases res with
        | none => exact h
        | some r => exact steady_trans h (steady_modVf _ _ _)

theorem steady_report (s : State) (f : FaultInfo) (res : Option FaultFor) : Steady s (s.report f false res).2 := by
  unfold State.report
  cases f.vf with
  | none => exact steady_refl s
  | some v => exact steady_partFault s v f res

end Sys2Proof.Machine
end

section

/-!
SUPPORT. Frame traps (R142, R144): what a slot's rows depend on, the firing that parks with its inputs, and the instructions that end
their firing so. The statement O22 is settled from these.
-/

namespace Sys2Proof.Machine

/-! ### Room for one more row (R128, R403) -/

/-- What a slot's room for rows depends on is as before, or less is in use. -/
structure LeavesRoom (s t : State) : Prop where
  entries : ∀ m, (t.st m).entries = (s.st m).entries
  pleach : ∀ m, (t.st m).pleach = (s.st m).pleach
  slots : ∀ m c, ((t.st m).ctx c).valid = ((s.st m).ctx c).valid ∧ ((t.st m).ctx c).inst = ((s.st m).ctx c).inst ∧
    ((t.st m).ctx c).thin = ((s.st m).ctx c).thin
  args : ∀ m, (t.argsAt m).Sublist (s.argsAt m)
  insts : t.prick.insts = s.prick.insts
  tokens : t.fab.tokens = s.fab.tokens
  quads : t.fab.quads = s.fab.quads
  shares : ∀ v, (t.vf v).ondie = (s.vf v).ondie ∧ (t.vf v).hedge = (s.vf v).hedge ∧ (t.vf v).pool = (s.vf v).pool
  performed : ∀ u sc d, t.performed u sc d = s.performed u sc d

theorem leavesRoom_trans {s t u : State} (h : LeavesRoom s t) (k : LeavesRoom t u) : LeavesRoom s u where
  entries m := (k.entries m).trans (h.entries m)
  pleach m := (k.pleach m).trans (h.pleach m)
  slots m c := by
    obtain ⟨v, i, th⟩ := k.slots m c
    obtain ⟨v', i', th'⟩ := h.slots m c
    exact ⟨v.trans v', i.trans i', th.trans th'⟩
  args m := (k.args m).trans (h.args m)
  insts := k.insts.trans h.insts
  tokens := k.tokens.trans h.tokens
  quads := k.quads.trans h.quads
  shares v := by
    obtain ⟨a, b, c⟩ := k.shares v
    obtain ⟨a', b', c'⟩ := h.shares v
    exact ⟨a.trans a', b.trans b', c.trans c'⟩
  performed u sc d := (k.performed u sc d).trans (h.performed u sc d)

section
variable {s t : State} (h : LeavesRoom s t)
include h

theorem leavesRoom_ctxShares (m : Loc) (c : Nat) : t.ctxShares (t.st m) c = s.ctxShares (s.st m) c := by
  obtain ⟨valid, inst, -⟩ := h.slots m c
  have hvf : t.ctxVf (t.st m) c = s.ctxVf (s.st m) c := by
    simp only [State.ctxVf, valid, inst, State.inst?, h.insts]
  rw [State.ctxShares, State.ctxShares, hvf]
  split
  next => rfl
  next n _ =>
    obtain ⟨ondie, hedge, pool⟩ := h.shares n
    rw [ondie, hedge, pool]

theorem leavesRoom_waitingOf (m : Loc) (c : Nat) : (t.waitingOf m c).Sublist (s.waitingOf m c) := by
  have hmet : t.holdMet = s.holdMet := funext fun x => by simp only [State.holdMet, h.performed]
  have hwaits : t.tokWaits m = s.tokWaits m := funext fun f => by simp only [State.tokWaits, hmet]
  have hinst : t.inst? = s.inst? := funext fun id => by simp only [State.inst?, h.insts]
  simp only [State.waitingOf, State.waitingAt, hwaits, hinst, h.tokens]
  exact (((List.Sublist.refl _).append (h.args m))).filter _

theorem leavesRoom_rowsUsed (m : Loc) (c : Nat) : t.rowsUsed m c ≤ s.rowsUsed m c := by
  obtain ⟨-, -, thin⟩ := h.slots m c
  have waiting : ((t.waitingOf m c).map (·.rows)).sum ≤ ((s.waitingOf m c).map (·.rows)).sum :=
    ((leavesRoom_waitingOf h m c).map _).sum_le_sum (fun _ _ => Nat.zero_le _)
  simp only [State.rowsUsed, h.entries, h.pleach, thin]
  exact Nat.add_le_add_left waiting _

end

/-- Sums over a list are ordered as their terms are. -/
theorem foldl_add_le {α : Type} (l : List α) {f g : α → Nat} (h : ∀ x, f x ≤ g x) :
    (l.map f).foldl (· + ·) 0 ≤ (l.map g).foldl (· + ·) 0 := by
  rw [← List.sum_eq_foldl, ← List.sum_eq_foldl]
  exact List.sum_le_sum (fun x _ => h x)

theorem leavesRoom_rowRoom {s t : State} (h : LeavesRoom s t) {l : Loc} {c n : Nat} (hr : s.rowRoom l c n = true) :
    t.rowRoom l c n = true := by
  have used := leavesRoom_rowsUsed h
  have shares := leavesRoom_ctxShares h
  have held : t.rowsHeld l ≤ s.rowsHeld l := foldl_add_le _ (fun m => foldl_add_le _ (used m))
  have taken : t.rowsTaken l ≤ s.rowsTaken l := foldl_add_le _ (fun m => foldl_add_le _ (fun c => by
    rw [shares m c]
    exact max_le_max_left _ (used m c)))
  have here := used l c
  simp only [State.rowRoom, State.quad, h.quads, shares, Bool.and_eq_true, Bool.or_eq_true, decide_eq_true_eq] at hr ⊢
  obtain ⟨⟨bank, whole⟩, share⟩ := hr
  refine ⟨⟨bank, by omega⟩, ?_⟩
  rcases share with own | ⟨pool, rest⟩
  · exact .inl (by omega)
  · exact .inr ⟨pool, by omega⟩

/-! ### What leaves room -/

/-- What an operation may change without touching memory's queues and the functions' shares. -/
theorem leavesRoom_aside {s t : State} (h : Aside s t) (k : Steady s t) : LeavesRoom s t where
  entries m := by rw [aside_st h]
  pleach m := by rw [aside_st h]
  slots m c := by rw [aside_st h]; exact ⟨rfl, rfl, rfl⟩
  args m := by
    rw [State.argsAt, State.argsAt, aside_st h, h.engines]
  insts := by rw [h.engines]
  tokens := by rw [h.fabric]
  quads := by rw [h.fabric]
  shares v := ⟨k.ondie v, k.hedge v, k.pool v⟩
  performed u sc d := by rw [State.performed, State.performed, k.accesses, k.copies, k.thq]

/-- A change of a station that leaves its entries, its partials and its slots' functions and counters, and adds no argument. -/
theorem leavesRoom_modSt (s : State) (l : Loc) (f : Station → Station) (he : (f (s.st l)).entries = (s.st l).entries)
    (hp : (f (s.st l)).pleach = (s.st l).pleach)
    (hc : ∀ c, ((f (s.st l)).ctx c).valid = ((s.st l).ctx c).valid ∧ ((f (s.st l)).ctx c).inst = ((s.st l).ctx c).inst ∧
      ((f (s.st l)).ctx c).thin = ((s.st l).ctx c).thin)
    (hf : (f (s.st l)).firing.args.Sublist (s.st l).firing.args) (hq : (f (s.st l)).parked = (s.st l).parked) :
    LeavesRoom s (s.modSt l f) := by
  have at_ {α : Type} (g : Station → α) (hg : g (f (s.st l)) = g (s.st l)) (m : Loc) : g ((s.modSt l f).st m) = g (s.st m) := by
    by_cases h : m = l
    · rw [h, st_modSt_same, hg]
    · rw [st_modSt_other s f h]
  refine ⟨at_ Station.entries he, at_ (·.pleach) hp, fun m c => ?_, fun m => ?_, rfl, rfl, rfl, fun _ => ⟨rfl, rfl, rfl⟩, fun _ _ _ => rfl⟩
  · obtain ⟨valid, inst, thin⟩ := hc c
    exact ⟨at_ (fun v => (v.ctx c).valid) valid m, at_ (fun v => (v.ctx c).inst) inst m, at_ (fun v => (v.ctx c).thin) thin m⟩
  · have firing : ((s.modSt l f).st m).firing.args.Sublist (s.st m).firing.args := by
      by_cases h : m = l
      · rw [h, st_modSt_same]
        exact hf
      · rw [st_modSt_other s f h]
    have parked := at_ (·.parked) hq m
    simp only [State.argsAt, parked, List.map_cons, List.flatten_cons]
    exact ((firing.map _).append (List.Sublist.refl _)).append (List.Sublist.refl _)

theorem leavesRoom_modFir (s : State) (f : Firing → Firing) (h : (f s.fir).args.Sublist s.fir.args) : LeavesRoom s (s.modFir f) :=
  leavesRoom_modSt s _ _ rfl rfl (fun _ => ⟨rfl, rfl, rfl⟩) h rfl

theorem leavesRoom_chargeCtx (s : State) (w : Work) (n : Nat) : LeavesRoom s (s.chargeCtx s.sched.curSt s.fir.ctx w n) := by
  unfold State.chargeCtx
  dsimp only
  refine leavesRoom_trans (leavesRoom_aside (aside_charge s _ _ w n) (steady_charge s _ _ w n)) (leavesRoom_modSt _ _ _ rfl rfl
    (fun c => ?_) (List.Sublist.refl _) rfl)
  rw [ctx_modCtx]
  split
  next h =>
    obtain ⟨rfl, -⟩ := h
    exact ⟨rfl, rfl, rfl⟩
  next => exact ⟨rfl, rfl, rfl⟩

/-! ### The stile of a firing that traps (R144, R277) -/

theorem isLoad_modDef (op : AccOp) (f : StrandDef → StrandDef) : (op.modDef f).isLoad = op.isLoad := by
  cases op <;> rfl

/-- What the accesses of a firing owe their stile does not change when they are performed. -/
theorem performedAt_modDef (a : Access) (f : StrandDef → StrandDef) (sc : Scope) (d : Fin 2) :
    ({ a with op := a.op.modDef f } : Access).performedAt sc d = a.performedAt sc d := by
  cases sc with
  | firing => simp only [Access.performedAt, isLoad_modDef]; rfl
  | plot => rfl
  | die => rfl
  | device => rfl
  | system => rfl

theorem leavesRoom_modMm (s : State) (f : MemSide → MemSide) (h : ∀ u sc d, (s.modMm f).performed u sc d = s.performed u sc d) :
    LeavesRoom s (s.modMm f) :=
  ⟨fun _ => rfl, fun _ => rfl, fun _ _ => ⟨rfl, rfl, rfl⟩, fun _ => List.Sublist.refl _, rfl, rfl, rfl, fun _ => ⟨rfl, rfl, rfl⟩, h⟩

theorem leavesRoom_passLate (s : State) (l : Loc) (fid : Nat) (h : List Hold) (cov : List Nat) :
    LeavesRoom s (s.passLate l fid h cov) := by
  unfold State.passLate
  dsimp only
  refine leavesRoom_trans ?station (leavesRoom_modMm _ _ fun u sc d => ?_)
  case station => exact leavesRoom_modSt s l _ rfl rfl (fun _ => ⟨rfl, rfl, rfl⟩) (List.Sublist.refl _) rfl
  simp only [State.performed, State.modMm, List.all_map, Function.comp_def]
  refine congrArg₂ and (congrArg₂ and (congrArg _ (funext fun a => ?_)) rfl) (congrArg _ (funext fun q => ?_))
  · split
    next => rw [performedAt_modDef]
    next => rfl
  · split <;> rfl

/-! ### Parking (R142) -/

/-- A slot that has room for its rows takes them, and nothing goes on to the arena. -/
theorem takeRows_room {s : State} {l : Loc} {c n : Nat} (h : s.rowRoom l c n = true) :
    s.takeRows l c n = (true, s.charge ((s.ctxVf (s.st l) c).getD 128) (colOf l) .hedgerow n) := by
  have full : s.rowsHeld l + n ≤ 65536 := by
    simp only [State.rowRoom, Bool.and_eq_true, decide_eq_true_eq] at h
    exact h.1.2
  have keep : ∀ fuel, s.reclaimRows l c n fuel = s
    | 0 => rfl
    | fuel + 1 => by rw [State.reclaimRows, if_neg (by simp; omega)]
  simp only [State.takeRows, keep, h, if_true]

/-- A record that cannot retire now does not. -/
theorem settle_lasts {s : State} {id : Nat} (h : s.lasts id) : s.settle id = s := by
  unfold State.settle
  split
  next => rfl
  next i hi =>
    have busy : s.countZero i = false := by
      have bound := h i hi
      unfold Inst.bound at bound
      simp only [State.countZero]
      rcases bound with b | b | b | b <;> simp [b]
    simp [busy]

theorem settleCaller_lasts {s : State} {i : Inst} (h : s.callerLasts i) : s.settleCaller i = s := by
  unfold State.settleCaller
  split
  next caller site rt hk => exact settle_lasts (h caller site rt hk)
  next => rfl
  next => rfl

theorem callerOf_lasts {s : State} {id : Nat} (h : ∀ i, s.inst? id = some i → s.callerLasts i) : s.callerOf id = s := by
  unfold State.callerOf
  split
  next i hi => exact settleCaller_lasts (h i hi)
  next => rfl

theorem callerLasts_of_insts {s t : State} (h : t.prick.insts = s.prick.insts) (i : Inst) : t.callerLasts i ↔ s.callerLasts i := by
  simp only [State.callerLasts, State.lasts, State.inst?, h]

/-- A firing as it parks for p, its frame in a row of the bank. -/
def Firing.parkedFor (f : Firing) (p : Park) : Firing :=
  { f with park := p, reserved := 0, frame := { f.frame with place := .bank, recs := [], readySince := none } }

/-- A station whose firing has parked in the bank. -/
def Station.parks (v : Station) (p : Park) : Station :=
  ({ v with firing := {}, parked := v.parked ++ [v.firing.parkedFor p] }).modCtx v.firing.ctx (fun c => { c with temps := v.firing.t })

theorem modSt_congr {s : State} {l : Loc} {f g : Station → Station} (h : f (s.st l) = g (s.st l)) : s.modSt l f = s.modSt l g := by
  rw [State.modSt, State.modSt, h]

theorem parkFiring_bank {s : State} {p : Park} (h : RoomToWait s) :
    ∃ u, Charges s u ∧ s.parkFiring s.sched.curSt p = u.modSt s.sched.curSt (·.parks p) := by
  obtain ⟨room, caller⟩ := h
  have charged := charges_charge s ((s.ctxVf (s.st s.sched.curSt) s.fir.ctx).getD 128) (colOf s.sched.curSt) .hedgerow 1
  refine ⟨_, charged, ?_⟩
  have place : s.overflowPlace s.sched.curSt s.fir.ctx s.fir.inst (hdrStage s.fir.header) =
      (some (.bank, []), s.charge ((s.ctxVf (s.st s.sched.curSt) s.fir.ctx).getD 128) (colOf s.sched.curSt) .hedgerow 1) := by
    rw [State.overflowPlace, takeRows_room room]
    rfl
  generalize s.charge ((s.ctxVf (s.st s.sched.curSt) s.fir.ctx).getD 128) (colOf s.sched.curSt) .hedgerow 1 = u at charged place
  have same : u.st s.sched.curSt = s.st s.sched.curSt := by rw [State.st, charged]; rfl
  have lasts : ∀ i, (u.modSt s.sched.curSt (·.parks p)).inst? s.fir.inst = some i → (u.modSt s.sched.curSt (·.parks p)).callerLasts i := by
    have insts : (u.modSt s.sched.curSt (·.parks p)).prick.insts = s.prick.insts := by rw [modSt_prick, charged]
    intro i hi
    rw [callerLasts_of_insts insts]
    exact caller i (by rw [State.fInst, State.inst?, ← insts]; exact hi)
  simp only [State.parkFiring]
  rw [show (s.st s.sched.curSt).firing = s.fir from rfl, place]
  dsimp only
  rw [modSt_congr (g := (·.parks p)) ?same, callerOf_lasts lasts]
  case same =>
    rw [Station.parks, same]
    rfl

/-! ### Frame traps (R144) -/

/-- The firing stands as it did, and its station has ended and parked none. -/
structure Stands (s t : State) : Prop where
  curSt : t.sched.curSt = s.sched.curSt
  away : ∀ m, m ≠ s.sched.curSt → t.st m = s.st m
  fir : t.fir = s.fir
  ended : (t.st s.sched.curSt).ended = (s.st s.sched.curSt).ended
  parked : (t.st s.sched.curSt).parked = (s.st s.sched.curSt).parked
  room : LeavesRoom s t

theorem stands_trans {s t u : State} (h : Stands s t) (k : Stands t u) : Stands s u := by
  have ended := k.ended
  have parked := k.parked
  have away := k.away
  rw [h.curSt] at ended parked away
  exact ⟨k.curSt.trans h.curSt, fun m hm => (away m hm).trans (h.away m hm), k.fir.trans h.fir, ended.trans h.ended,
    parked.trans h.parked, leavesRoom_trans h.room k.room⟩

theorem stands_aside {s t : State} (h : Aside s t) (k : Steady s t) : Stands s t :=
  ⟨aside_curSt h, fun m _ => aside_st h m, aside_fir h, by rw [aside_st h], by rw [aside_st h], leavesRoom_aside h k⟩

theorem stands_chargeCtx (s : State) (w : Work) (n : Nat) : Stands s (s.chargeCtx s.sched.curSt s.fir.ctx w n) := by
  have only := slotOnly_chargeCtx s w n
  obtain ⟨away, here, -⟩ := only.station
  exact ⟨by rw [only.schedule], away, only.firing, by rw [here], by rw [here], leavesRoom_chargeCtx s w n⟩

theorem stands_passLate (s : State) (fid : Nat) (h : List Hold) (cov : List Nat) : Stands s (s.passLate s.sched.curSt fid h cov) := by
  have room := leavesRoom_passLate s s.sched.curSt fid h cov
  have memory : ∀ (u : State) (f : MemSide → MemSide) m, (u.modMm f).st m = u.st m := fun _ _ _ => rfl
  unfold State.passLate at room ⊢
  dsimp only at room ⊢
  refine ⟨rfl, fun m hm => ?_, ?_, ?_, ?_, room⟩
  · rw [memory, st_modSt_other s _ hm]
  · rw [State.fir, memory, State.fir]
    change ((State.modSt s s.sched.curSt _).st s.sched.curSt).firing = _
    rw [st_modSt_same]
  · rw [memory, st_modSt_same]
  · rw [memory, st_modSt_same]

theorem dropCalls_nil (s : State) : s.dropCalls [] = s := by
  simp [State.dropCalls]

/-- The firing with what a frame trap gives up (R144, R318). -/
def Firing.givenUp (f : Firing) : Firing :=
  { f with trapped := true, calls := [], args := [], spawns := [], crossing := [], credits := 0, retDone := false, prio := none }

/-- What a firing needs to wait, where the records stand. -/
theorem roomToWait_of {s t : State} (h : LeavesRoom s t) (hc : t.sched.curSt = s.sched.curSt) (hf : t.fir.ctx = s.fir.ctx)
    (hi : t.fir.inst = s.fir.inst) (k : RoomToWait s) : RoomToWait t := by
  obtain ⟨room, caller⟩ := k
  refine ⟨by rw [hc, hf]; exact leavesRoom_rowRoom h room, fun i hx => ?_⟩
  rw [callerLasts_of_insts h.insts]
  refine caller i ?_
  rw [← hx, State.fInst, State.fInst, hi, State.inst?, State.inst?, h.insts]

/-- A firing that stands gives up what has not left and parks with its inputs. -/
theorem frameTraps_park {s t : State} (h : Stands s t) (room : RoomToWait s) :
    FrameTraps s ((t.modFir Firing.givenUp).parkFiring t.sched.curSt .fault) ∧
      ((t.modFir Firing.givenUp).parkFiring t.sched.curSt .fault).host = t.host ∧
      ((t.modFir Firing.givenUp).parkFiring t.sched.curSt .fault).mm = t.mm := by
  have gives : LeavesRoom s (t.modFir Firing.givenUp) := leavesRoom_trans h.room (leavesRoom_modFir t _ (List.nil_sublist _))
  have fir : (t.modFir Firing.givenUp).fir = s.fir.givenUp := by rw [fir_modFir, h.fir]
  have waits : RoomToWait (t.modFir Firing.givenUp) :=
    roomToWait_of gives h.curSt (by rw [fir]; rfl) (by rw [fir]; rfl) room
  obtain ⟨u, charged, parks⟩ := parkFiring_bank (p := .fault) waits
  have st : ∀ m, u.st m = (t.modFir Firing.givenUp).st m := fun m => by rw [State.st, charged]; rfl
  have here : u.st s.sched.curSt = { t.st s.sched.curSt with firing := s.fir.givenUp } := by
    rw [st, ← h.curSt, st_modFir_same, h.fir]
  have away : ∀ m, m ≠ s.sched.curSt → u.st m = s.st m := fun m hm => by
    rw [st, st_modFir_other _ _ (by rw [h.curSt]; exact hm), h.away m hm]
  rw [show (t.modFir Firing.givenUp).sched.curSt = s.sched.curSt from h.curSt] at parks
  rw [h.curSt, parks]
  refine ⟨⟨?_, ?_, ?_, ?_, fun m hm => ?_⟩, ?_, ?_⟩
  · rw [st_modSt_same]
    rfl
  · rw [st_modSt_same, Station.parks, here]
    exact h.ended
  · refine ⟨s.fir.givenUp.parkedFor .fault, ?_, rfl, rfl, rfl, rfl, rfl, rfl⟩
    rw [st_modSt_same, Station.parks, here]
    change (t.st s.sched.curSt).parked ++ _ = _
    rw [h.parked]
  · have : u.fab.tokens = t.fab.tokens := by rw [charged]; rfl
    exact this.trans h.room.tokens
  · rw [st_modSt_other _ _ hm, away m hm]
  · rw [charged]; rfl
  · rw [charged]; rfl

/-- The record of a trap, and the stile that a trap passes: the firing stands. -/
theorem frameTrap_stands (s : State) (code detail va : Nat) (h : s.fir.calls = []) :
    let r := (s.report (s.stationFault code detail va) false (some (.firing s.sched.curSt s.fir.id))).2
    ∃ t, Stands s t ∧ t.host = r.host ∧ t.mm.mem = r.mm.mem ∧
      s.frameTrap code detail va = (t.modFir Firing.givenUp).parkFiring t.sched.curSt .fault := by
  have reported := stands_aside (aside_report s (s.stationFault code detail va) false (some (.firing s.sched.curSt s.fir.id)))
    (steady_report s (s.stationFault code detail va) (some (.firing s.sched.curSt s.fir.id)))
  simp only [State.frameTrap, h, dropCalls_nil]
  generalize (s.report (s.stationFault code detail va) false (some (.firing s.sched.curSt s.fir.id))).2 = r at reported ⊢
  have late := stands_passLate r s.fir.id [s.stileEnd] s.fir.covers
  rw [reported.curSt] at late
  by_cases hs : (hdrStile s.fir.header && !s.fir.stilePassed) = true
  · refine ⟨_, stands_trans reported late, rfl, rfl, ?_⟩
    rw [late.curSt, reported.curSt, if_pos hs]
    rfl
  · refine ⟨r, reported, rfl, rfl, ?_⟩
    rw [reported.curSt, if_neg hs]
    rfl

/-- A frame trap of an instruction, with its record. -/
theorem trapIns_traps {s : State} (room : RoomToPark s) (code detail : Nat) :
    TrapsWith s (s.trapIns code detail) code detail 0 := by
  obtain ⟨calls, wait⟩ := room
  have charged := stands_chargeCtx s .scalar 1
  obtain ⟨clk, mm, prick, cores, host, boot, -⟩ := (slotOnly_chargeCtx s .scalar 1).fabric
  rw [State.trapIns]
  generalize s.chargeCtx s.sched.curSt s.fir.ctx .scalar 1 = x at *
  have info : x.stationFault code detail 0 = s.stationFault code detail 0 := by
    simp only [State.stationFault, State.fVf, State.fInst, charged.fir, charged.curSt, State.inst?, prick]
  obtain ⟨t, stands, thost, tmem, traps⟩ := frameTrap_stands x code detail 0 (by rw [charged.fir, calls])
  obtain ⟨trap, phost, pmm⟩ := frameTraps_park (stands_trans charged stands) wait
  rw [info, charged.curSt, charged.fir] at thost tmem
  rw [traps]
  exact ⟨trap, x, clk, mm, prick, cores, host, boot, phost.trans thost, (congrArg MemSide.mem pmm).trans tmem⟩

/-! ### The instructions that trap -/

theorem room_claim {s : State} (a : Nat) (h : RoomToPark s) : RoomToPark (s.claim a) := by
  obtain ⟨calls, wait⟩ := h
  have fir : (s.claim a).fir = { s.fir with claimed := s.fir.claimed ||| BitVec.ofNat 16 (2 ^ a) } := by rw [State.claim, fir_modFir]
  exact ⟨by rw [fir]; exact calls,
    roomToWait_of (leavesRoom_modFir s _ (List.Sublist.refl _)) rfl (by rw [fir]) (by rw [fir]) wait⟩

theorem reported_claim {s t : State} {a : Nat} {f : FaultInfo} (h : Reported (s.claim a) t f) : Reported s t f := by
  obtain ⟨x, clk, mm, prick, cores, host, boot, thost, tmem⟩ := h
  have name : (s.claim a).fir.id = s.fir.id := by rw [State.claim, fir_modFir]
  rw [name] at thost tmem
  exact ⟨x, clk, mm, prick, cores, host, boot, thost, tmem⟩

/-- A trap behind a claim is one before it. -/
theorem trapsWith_claim {s t : State} {a code detail va : Nat} (h : TrapsWith (s.claim a) t code detail va) :
    TrapsWith s t code detail va := by
  have fir : (s.claim a).fir = { s.fir with claimed := s.fir.claimed ||| BitVec.ofNat 16 (2 ^ a) } := by rw [State.claim, fir_modFir]
  have vf : (s.claim a).fVf = s.fVf := by
    have inst : (s.claim a).fInst = s.fInst := by rw [State.fInst, State.fInst, fir]; rfl
    rw [State.fVf, State.fVf, inst]
  have here : (s.claim a).st s.sched.curSt = { s.st s.sched.curSt with firing := (s.claim a).fir } := by
    rw [State.claim, st_modFir_same, fir_modFir]
  obtain ⟨⟨firing, ended, ⟨g, parked, inputs⟩, tokens, away⟩, reported⟩ := h
  rw [show (s.claim a).sched.curSt = s.sched.curSt from rfl] at firing ended parked away reported
  rw [here] at ended parked
  rw [fir] at inputs reported
  rw [vf] at reported
  dsimp only at inputs reported
  exact ⟨⟨firing, ended, ⟨g, parked, inputs⟩, tokens, fun m hm => (away m hm).trans (st_modFir_other s _ hm)⟩, reported_claim reported⟩

/-- An instruction that claims an arc which the firing has claimed (R144). -/
theorem claiming_claimed {s : State} (room : RoomToPark s) {r : Nat} (hr : s.fir.isClaimed r = true) (arcs : List Nat) (k : State → Out) :
    ∃ t, s.claiming (r :: arcs) k = .next t ∧ TrapsWith s t codeEmitCount 0 0 :=
  ⟨_, by rw [State.claiming, if_pos hr], trapIns_traps room _ _⟩

theorem isClaimed_claim {s : State} {r a : Nat} (hr : s.fir.isClaimed r = true) (h16 : r < 16) : (s.claim a).fir.isClaimed r = true := by
  have := getLsbD_claim s (a := a) h16
  unfold Firing.isClaimed bit at *
  rw [this, hr, Bool.true_or]

/-- The arc that has been claimed may be the second of two. -/
theorem claiming_second {s : State} (room : RoomToPark s) {r q : Nat} (hr : s.fir.isClaimed r = true) (h16 : r < 16) (k : State → Out) :
    ∃ t, s.claiming [q, r] k = .next t ∧ TrapsWith s t codeEmitCount 0 0 := by
  cases hq : s.fir.isClaimed q with
  | true => exact claiming_claimed room hq [r] k
  | false =>
    obtain ⟨t, ht, traps⟩ := claiming_claimed (room_claim q room) (isClaimed_claim (a := q) hr h16) [] k
    exact ⟨t, by rw [State.claiming, if_neg (by rw [hq]; decide), ht], trapsWith_claim traps⟩

/-- Settles O22: each of these instructions is one frame trap. -/
theorem secondSendsAndTrapsEndTheFiring : Obligations.SecondSendsAndTrapsEndTheFiring := by
  unfold Obligations.SecondSendsAndTrapsEndTheFiring
  intro s a p k r q sc g n c room
  refine ⟨⟨_, rfl, trapIns_traps room _ _⟩, fun hr => ?claimed, fun done => ?exits⟩
  case claimed =>
    have first := claiming_claimed room hr
    refine ⟨first [] _, first [q.val] _, first [] _, first [] _, first [] _, first [] _, first [q.val] _,
      claiming_second room hr r.isLt _, ?_, first [] _⟩
    obtain ⟨t, ht, traps⟩ : ∃ t, execThin a r p g s = .next t ∧ TrapsWith s t codeEmitCount 0 0 := by
      unfold execThin
      dsimp only
      split
      · exact first [] _
      · exact first [] _
    exact ⟨t, ht, traps⟩
  case exits =>
    refine ⟨⟨_, ?_, trapIns_traps room codeNoExit 0⟩, ⟨_, ?_, trapIns_traps room codeNoExit 0⟩⟩
    · change execExit a k n s = _
      rw [execExit, if_pos done]
    · change execExits a k c s = _
      rw [execExits, if_pos done]

end Sys2Proof.Machine
end

section

/-!
SUPPORT. Commits and the messages to a record (R143, R146, R153, R282): what each does to the record that it names. Part of what
O46 is settled from.
-/

namespace Sys2Proof.Machine

/-! ### Records that cannot retire now (R292) -/

theorem lasts_of_insts {s t : State} (h : t.prick.insts = s.prick.insts) {id : Nat} (k : s.lasts id) : t.lasts id := by
  intro i hi
  exact k i (by rw [← hi, State.inst?, State.inst?, h])

theorem lasts_modInst {s : State} {id k : Nat} (f : Inst → Inst) (hid : ∀ i, (f i).id = i.id) (hb : ∀ i, i.bound → (f i).bound)
    (h : s.lasts k) : (s.modInst id f).lasts k := by
  intro j hj
  by_cases hk : k = id
  · rw [hk, inst_modInst s id f hid] at hj
    obtain ⟨i, hi, rfl⟩ := Option.map_eq_some_iff.1 hj
    exact hb i (h i (by rw [hk]; exact hi))
  · rw [inst_modInst_other s f hid hk] at hj
    exact h j hj

theorem charges_st {s t : State} (h : Charges s t) (l : Loc) : t.st l = s.st l := by
  rw [State.st, h]
  rfl

/-! ### FIRING_COMMIT (R143) -/

/-- A step of a commit: memory, the firings that have ended and the credits on their way stand, and no record is nearer its end. -/
structure CommitStep (s t : State) : Prop where
  mm : t.mm = s.mm
  ended : ∀ m, (t.st m).ended = (s.st m).ended
  credits : t.fab.credits = s.fab.credits
  lasts : ∀ k, s.lasts k → t.lasts k

theorem commitStep_refl (s : State) : CommitStep s s := ⟨rfl, fun _ => rfl, rfl, fun _ h => h⟩

theorem commitStep_trans {s t u : State} (h : CommitStep s t) (k : CommitStep t u) : CommitStep s u :=
  ⟨k.mm.trans h.mm, fun m => (k.ended m).trans (h.ended m), k.credits.trans h.credits, fun n hn => k.lasts n (h.lasts n hn)⟩

theorem commitStep_modInst (s : State) (id : Nat) (f : Inst → Inst) (hid : ∀ i, (f i).id = i.id) (hb : ∀ i, i.bound → (f i).bound) :
    CommitStep s (s.modInst id f) :=
  ⟨rfl, fun _ => rfl, rfl, fun _ h => lasts_modInst f hid hb h⟩

theorem commitStep_modCtx (s : State) (l : Loc) (f : Station → Station) (h : (f (s.st l)).ended = (s.st l).ended) :
    CommitStep s (s.modSt l f) := by
  refine ⟨rfl, fun m => ?_, rfl, fun _ => lasts_of_insts rfl⟩
  by_cases hm : m = l
  · rw [hm, st_modSt_same, h]
  · rw [st_modSt_other s f hm]

/-- PRIO sets the level of the record. -/
theorem setPrio_sets {s : State} {id : Nat} {i : Inst} (h : s.inst? id = some i) (p : Nat) :
    CommitStep s (s.setPrio id p) ∧ (s.setPrio id p).inst? id = some { i with prio := min p (s.vf i.vf).priomax } := by
  unfold State.setPrio
  rw [h]
  dsimp only
  have words : CommitStep s (i.stations.foldl (fun st r => st.modSt r.1 (fun v =>
        if decide ((v.ctx i.slot).inst = id) then
          v.modCtx i.slot (fun c => { c with word := setBits c.word 91 3 (min p (s.vf i.vf).priomax) }) else v)) s) ∧
      (i.stations.foldl (fun st r => st.modSt r.1 (fun v =>
        if decide ((v.ctx i.slot).inst = id) then
          v.modCtx i.slot (fun c => { c with word := setBits c.word 91 3 (min p (s.vf i.vf).priomax) }) else v)) s).prick = s.prick := by
    refine List.foldlRecOn (motive := fun u => CommitStep s u ∧ u.prick = s.prick) _ _ ⟨commitStep_refl s, rfl⟩ (fun u hu r _ => ?_)
    obtain ⟨step, prick⟩ := hu
    refine ⟨commitStep_trans step (commitStep_modCtx u r.1 _ ?_), prick⟩
    split <;> rfl
  obtain ⟨step, prick⟩ := words
  refine ⟨commitStep_trans step (commitStep_modInst _ _ _ (fun _ => rfl) (fun _ h => h)), ?_⟩
  rw [inst_modInst _ _ _ (by simp)]
  simp only [State.inst?, prick] at h ⊢
  rw [h]
  rfl

theorem noteRoot_step (s : State) (id : Nat) (l : List Nat) :
    CommitStep s (s.noteRoot id l) ∧ (s.noteRoot id l).prick.insts = s.prick.insts := by
  unfold State.noteRoot
  split
  next => exact ⟨commitStep_refl s, rfl⟩
  next => exact ⟨⟨rfl, fun _ => rfl, rfl, fun _ => lasts_of_insts rfl⟩, rfl⟩

/-- Pages that go back leave the record's life as it was. -/
theorem arenaDrop_step {s : State} {id : Nat} {i : Inst} (h : s.inst? id = some i) :
    CommitStep s (s.arenaDrop id) ∧ ∃ j, (s.arenaDrop id).inst? id = some j ∧ j.retDone = i.retDone ∧ j.st = i.st ∧ j.prio = i.prio := by
  unfold State.arenaDrop
  dsimp only
  split
  next => exact ⟨commitStep_refl s, i, h, rfl, rfl, rfl⟩
  next =>
    refine ⟨commitStep_modInst _ _ _ (fun j => ?_) (fun j hj => ?_), ?_⟩
    · split <;> rfl
    · split
      next => exact hj
      next => exact hj
    · rw [inst_modInst _ _ _ (fun j => by split <;> rfl), h]
      refine ⟨_, rfl, ?_⟩
      dsimp only
      split <;> exact ⟨rfl, rfl, rfl⟩

/-- PRIO of a firing, where it has set one. -/
def State.commitPrio (s : State) (f : Firing) : State := match f.prio with | some p => s.setPrio f.inst p | none => s

theorem commitPrio_sets {s : State} {f : Firing} {i : Inst} (h : s.inst? f.inst = some i) :
    CommitStep s (s.commitPrio f) ∧ (s.commitPrio f).inst? f.inst =
      some { i with prio := match f.prio with | some p => min p (s.vf i.vf).priomax | none => i.prio } := by
  unfold State.commitPrio
  cases f.prio with
  | none => exact ⟨commitStep_refl s, h⟩
  | some p => exact setPrio_sets h p

/-- RET of a firing, with the order of its commit at the engine. -/
def State.commitRet (s : State) (f : Firing) (die : Fin 2) : State :=
  (s.tickEng die).2.modInst f.inst (fun i =>
    { i with lastCommit := (s.tickEng die).1, retDone := i.retDone || f.retDone,
             st := if f.retDone ∧ i.st = .live then .returning else i.st })

theorem commitRet_sets {s : State} {f : Firing} {i : Inst} (h : s.inst? f.inst = some i) (die : Fin 2) :
    CommitStep s (s.commitRet f die) ∧ (s.commitRet f die).inst? f.inst =
      some { i with lastCommit := (s.tickEng die).1, retDone := i.retDone || f.retDone,
                    st := if f.retDone ∧ i.st = .live then .returning else i.st } := by
  have tick : CommitStep s (s.tickEng die).2 := ⟨rfl, fun _ => rfl, rfl, fun _ => lasts_of_insts rfl⟩
  have insts : (s.tickEng die).2.inst? f.inst = some i := h
  refine ⟨commitStep_trans tick (commitStep_modInst _ _ _ (fun _ => rfl) (fun _ h => h)), ?_⟩
  rw [State.commitRet, inst_modInst _ _ _ (by exact fun _ => rfl), insts]
  rfl

theorem commitFiring_eq (s : State) (f : Firing) {i : Inst} (h : s.inst? f.inst = some i) :
    s.commitFiring f =
      (((((s.modFab (fun b => { b with credits := b.credits ++ List.replicate f.credits ⟨f.inst⟩ })).commitPrio f).commitRet f
        i.die).noteRoot f.inst f.before).arenaDrop f.inst |>.settle f.inst).settleCaller i := by
  simp only [State.commitFiring, h]
  rfl

/-- What a commit does, where neither the record of the firing nor its caller can retire now. -/
theorem commitFiring_leaves {s : State} {f : Firing} {i : Inst} (hi : s.inst? f.inst = some i) (hb : i.bound) (hc : s.callerLasts i) :
    (s.commitFiring f).mm = s.mm ∧ (∀ m, ((s.commitFiring f).st m).ended = (s.st m).ended) ∧
      (s.commitFiring f).fab.credits = s.fab.credits ++ List.replicate f.credits ⟨f.inst⟩ ∧
      ∃ j, (s.commitFiring f).inst? f.inst = some j ∧ j.retDone = (i.retDone || f.retDone) ∧
        j.st = (if f.retDone = true ∧ i.st = .live then .returning else i.st) ∧
        j.prio = match f.prio with | some p => min p (s.vf i.vf).priomax | none => i.prio := by
  have lasts : s.lasts f.inst := fun j hj => by
    cases hi.symm.trans hj
    exact hb
  rw [commitFiring_eq s f hi]
  have h1 : (s.modFab (fun b => { b with credits := b.credits ++ List.replicate f.credits ⟨f.inst⟩ })).inst? f.inst = some i := hi
  obtain ⟨prio, h2⟩ := commitPrio_sets h1
  obtain ⟨ret, h3⟩ := commitRet_sets h2 i.die
  obtain ⟨note, insts⟩ := noteRoot_step (((s.modFab (fun b =>
    { b with credits := b.credits ++ List.replicate f.credits ⟨f.inst⟩ })).commitPrio f).commitRet f i.die) f.inst f.before
  have h4 := h3
  rw [State.inst?, ← insts] at h4
  obtain ⟨drop, j, hj, hret, hst, hprio⟩ := arenaDrop_step h4
  have all := commitStep_trans (commitStep_trans (commitStep_trans prio ret) note) drop
  rw [settle_lasts (all.lasts _ (lasts_of_insts rfl lasts)),
    settleCaller_lasts (fun caller site rt hk => all.lasts _ (lasts_of_insts rfl (hc caller site rt hk)))]
  exact ⟨all.mm, all.ended, all.credits, j, hj, hret, hst, hprio⟩

/-- A firing that may not commit stays ended. -/
theorem firingCommit_waits {s : State} {f : Firing}
    (h : (s.st s.arg.loc).ended.find? (fun g => decide (g.id = s.arg.n)) = some f) (hm : s.mayCommit s.arg.loc f = false) :
    exec .firingCommit s = .next s := by
  change execFiringCommit s = _
  simp only [execFiringCommit, h, hm, Bool.false_eq_true, if_false]

/-- FIRING_COMMIT takes the firing off its station and commits it, at the cost of its credits' way. -/
theorem firingCommit_commits {s : State} {f : Firing}
    (h : (s.st s.arg.loc).ended.find? (fun g => decide (g.id = s.arg.n)) = some f) (hm : s.mayCommit s.arg.loc f = true) :
    ∃ u, Charges (s.modSt s.arg.loc (fun v => { v with ended := v.ended.filter (fun g => decide (g.id ≠ f.id)) })) u ∧
      exec .firingCommit s = .next (u.commitFiring f) := by
  change ∃ u, _ ∧ execFiringCommit s = _
  simp only [execFiringCommit, h, hm, if_true]
  exact ⟨_, charges_charge _ _ _ .wordHop _, rfl⟩

theorem firingCommit_leaves {s : State} {f : Firing} {i : Inst}
    (h : (s.st s.arg.loc).ended.find? (fun g => decide (g.id = s.arg.n)) = some f) (hm : s.mayCommit s.arg.loc f = true)
    (hi : s.inst? f.inst = some i) (hb : i.bound) (hc : s.callerLasts i) :
    Yields .firingCommit s (fun t =>
      (t.st s.arg.loc).ended = (s.st s.arg.loc).ended.filter (fun g => decide (g.id ≠ f.id)) ∧
      t.fab.credits = s.fab.credits ++ List.replicate f.credits ⟨f.inst⟩ ∧
      (∃ j, t.inst? f.inst = some j ∧ j.retDone = (i.retDone || f.retDone) ∧
        j.st = (if f.retDone = true ∧ i.st = .live then .returning else i.st) ∧
        j.prio = match f.prio with | some p => min p (s.vf i.vf).priomax | none => i.prio) ∧ t.mm = s.mm) := by
  obtain ⟨u, charged, ht⟩ := firingCommit_commits h hm
  have insts : u.prick.insts = s.prick.insts := by rw [charged]; rfl
  have ended : (u.st s.arg.loc).ended = (s.st s.arg.loc).ended.filter (fun g => decide (g.id ≠ f.id)) := by
    rw [charges_st charged, st_modSt_same]
  obtain ⟨mm, ends, credits, j, hj, ret, st, prio⟩ := commitFiring_leaves (s := u) (f := f)
    (by rw [← hi, State.inst?, State.inst?, insts]) hb (by rw [callerLasts_of_insts insts]; exact hc)
  refine ⟨_, ht, (ends _).trans ended, credits.trans ?_, ⟨j, hj, ret, st, prio.trans ?_⟩, mm.trans ?_⟩
  · rw [charged]; rfl
  · rw [charged]; rfl
  · rw [charged]; rfl

/-! ### Messages to a gate station (R146, R282) -/

/-- The slot that a record has at its gate station takes the messages to it. -/
def State.gateOpen (s : State) (i : Inst) (id : Nat) : Prop :=
  ((s.st i.gate).ctx i.slot).valid = true ∧ ((s.st i.gate).ctx i.slot).inst = id ∧ ((s.st i.gate).ctx i.slot).draining = false

theorem gateTo_slot {s : State} {id : Nat} {i : Inst} (h : s.inst? id = some i) (hst : i.st.ended = false) (ho : s.gateOpen i id) :
    s.gateTo id = .slot i.gate i.slot := by
  obtain ⟨valid, inst, draining⟩ := ho
  simp only [State.gateTo, h]
  rw [if_neg (by rw [hst]; decide), if_pos (by simp [valid, inst, draining])]

theorem gateTo_image {s : State} {id : Nat} {i : Inst} (h : s.inst? id = some i) (hst : i.st.ended = false) (ho : ¬ s.gateOpen i id) :
    s.gateTo id = .image := by
  simp only [State.gateTo, h]
  rw [if_neg (by rw [hst]; decide), if_neg ?closed]
  case closed =>
    intro open_
    simp only [Bool.and_eq_true, decide_eq_true_eq, Bool.not_eq_true'] at open_
    obtain ⟨⟨valid, inst⟩, draining⟩ := open_
    exact ho ⟨valid, inst, draining⟩

/-- A slot that takes messages is one of the eight of its station. -/
theorem slot_lt_of_valid {v : Station} {c : Nat} (h : (v.ctx c).valid = true) : c < 8 := by
  by_contra hc
  rw [Station.ctx, vget, Vector.getElem?_eq_none (by omega)] at h
  exact absurd h (by decide)

/-- A change of a slot that takes messages. -/
theorem ctx_modSlot {s : State} {l : Loc} {c : Nat} (f : Ctx → Ctx) (h : ((s.st l).ctx c).valid = true) :
    ((s.modSt l (fun v => v.modCtx c f)).st l).ctx c = f ((s.st l).ctx c) := by
  rw [st_modSt_same, ctx_modCtx, if_pos ⟨rfl, slot_lt_of_valid h⟩]

/-! ### LOOP_CREDIT (R146) -/

section
variable {s : State} {q : Credit} (hq : s.fab.credits[s.arg.n]? = some q)
include hq

/-- A credit reaches the slot, or the save image. -/
theorem loopCredit_slot {l : Loc} {c : Nat} (h : s.gateTo q.inst = .slot l c) :
    exec .loopCredit s = .next ((s.modFab (fun b => { b with credits := b.credits.eraseIdx s.arg.n })).modSt l
      (fun v => v.modCtx c (fun x => { x with allow := min (x.allow + 1) x.allowInit }))) := by
  change execLoopCredit s = _
  simp only [execLoopCredit, hq, h]

theorem loopCredit_image (h : s.gateTo q.inst = .image) :
    exec .loopCredit s = .next ((s.modFab (fun b => { b with credits := b.credits.eraseIdx s.arg.n })).saveMsg q.inst .credit) := by
  change execLoopCredit s = _
  simp only [execLoopCredit, hq, h]

theorem loopCredit_gone (h : s.inst? q.inst = none) :
    exec .loopCredit s = .next (s.modFab (fun b => { b with credits := b.credits.eraseIdx s.arg.n })) := by
  change execLoopCredit s = _
  simp only [execLoopCredit, hq, State.gateTo, h]

end

/-- A message that the save image keeps stands behind those that it has kept. -/
theorem saveMsg_kept {s : State} {id : Nat} {i : Inst} (h : s.inst? id = some i) (q : SavedMsg) :
    ∃ m, ((s.saveMsg id q).inst? id).bind (·.save) = some m ∧ m.msgs = (i.save.getD {}).msgs ++ [q] := by
  rw [State.saveMsg, inst_modInst _ _ _ (by exact fun _ => rfl), h]
  exact ⟨_, rfl, rfl⟩

/-! ### BARRIER_JOIN (R282, R283) -/

section
variable {s : State} {q : Join} (hq : s.fab.joins[s.arg.n]? = some q)
include hq

theorem barrierJoin_waits (h : (s.fab.joins.take s.arg.n).all (fun p => !decide (p.inst = q.inst ∧ p.j.st = q.j.st)) = false) :
    exec .barrierJoin s = .next s := by
  change execBarrierJoin s = _
  have behind : (s.fab.joins.take s.arg.n).any (fun p => decide (p.inst = q.inst ∧ p.j.st = q.j.st)) = true := by
    rw [List.any_eq_not_all_not, h]
    rfl
  simp only [execBarrierJoin, hq, behind, if_true]

theorem barrierJoin_joins (h : (s.fab.joins.take s.arg.n).all (fun p => !decide (p.inst = q.inst ∧ p.j.st = q.j.st)) = true)
    {l : Loc} {c : Nat} (hg : s.gateTo q.inst = .slot l c) :
    exec .barrierJoin s = .next ((s.modFab (fun b => { b with joins := b.joins.eraseIdx s.arg.n })).joinAt q.inst l c q.b q.n q.j) := by
  change execBarrierJoin s = _
  have first : (s.fab.joins.take s.arg.n).any (fun p => decide (p.inst = q.inst ∧ p.j.st = q.j.st)) = false := by
    rw [List.any_eq_not_all_not, h]
    rfl
  simp only [execBarrierJoin, hq, first, Bool.false_eq_true, if_false, hg]

end

/-- The barrier word of a slot is written. -/
def State.putBar (s : State) (l : Loc) (c b : Nat) (w : Barrier) : State :=
  s.modSt l (fun x => x.modCtx c (fun y => { y with bars := vset y.bars b w }))

theorem bars_putBar {s : State} {l : Loc} {c b : Nat} (w : Barrier) (h : ((s.st l).ctx c).valid = true) (hb : b < 8) :
    vget (((s.putBar l c b w).st l).ctx c).bars b {} = w := by
  rw [State.putBar, ctx_modSlot _ h]
  exact vget_vset_same _ _ _ hb

theorem parked_putBar (s : State) (l : Loc) (c b : Nat) (w : Barrier) (m : Loc) : ((s.putBar l c b w).st m).parked = (s.st m).parked := by
  rw [State.putBar]
  by_cases hm : m = l
  · rw [hm, st_modSt_same]
    rfl
  · rw [st_modSt_other s _ hm]

/-- A parked firing, notified if it has joined under a name. -/
def Firing.notifiedFor (rank fid : Nat) (before : List Nat) (f : Firing) : Firing :=
  if f.id = fid ∧ f.park = .barrier then f.notify rank before else f

/-- A parked firing behind the notifications of a generation. -/
def Firing.released (js : List Joiner) (all : List Nat) (f : Firing) : Firing :=
  js.foldl (fun g k => g.notifiedFor k.rank k.fid all) f

/-- A firing that waits for nothing, or that has not joined, stands. -/
theorem released_stands {js : List Joiner} {all : List Nat} {f : Firing} (h : f.park ≠ .barrier ∨ ∀ j ∈ js, f.id ≠ j.fid) :
    f.released js all = f := by
  induction js with
  | nil => rfl
  | cons j js ih =>
    have here : f.notifiedFor j.rank j.fid all = f := by
      rw [Firing.notifiedFor, if_neg]
      rintro ⟨hid, hpark⟩
      rcases h with h | h
      · exact h hpark
      · exact h j List.mem_cons_self hid
    rw [Firing.released, List.foldl_cons, here]
    exact ih (h.imp id fun k j hj => k j (List.mem_cons_of_mem _ hj))

/-- A joiner takes the rank of the first join under its name. -/
theorem released_joiner {js : List Joiner} (all : List Nat) {f : Firing} (hp : f.park = .barrier) (hj : ∃ j ∈ js, f.id = j.fid) :
    ∃ k ∈ js, k.fid = f.id ∧ f.released js all = f.notify k.rank all := by
  induction js with
  | nil => obtain ⟨j, hj, -⟩ := hj; exact absurd hj (by simp)
  | cons j js ih =>
    by_cases hid : f.id = j.fid
    · refine ⟨j, List.mem_cons_self, hid.symm, ?_⟩
      rw [Firing.released, List.foldl_cons, Firing.notifiedFor, if_pos ⟨hid, hp⟩]
      exact released_stands (.inl (by rw [Firing.notify]; exact fun h => Park.noConfusion h))
    · obtain ⟨k, hk, e⟩ := hj
      have rest : k ∈ js := (List.mem_cons.1 hk).resolve_left (fun h => hid (h ▸ e))
      obtain ⟨m, hm, hfid, hrel⟩ := ih ⟨k, rest, e⟩
      refine ⟨m, List.mem_cons_of_mem _ hm, hfid, ?_⟩
      rw [Firing.released, List.foldl_cons, Firing.notifiedFor, if_neg (fun h => hid h.1)]
      exact hrel

/-- A change of every station. -/
theorem st_mapStations (s : State) (f : Station → Station) (h : f {} = {}) (m : Loc) :
    (s.modFab (fun b => { b with stations := b.stations.map (fun p => (p.1, f p.2)) })).st m = f (s.st m) := by
  have found : ∀ l : Map Station, (Map.find (l.map (fun p => (p.1, f p.2))) (locKey m)).getD {} = f ((Map.find l (locKey m)).getD {}) := by
    intro l
    induction l with
    | nil => exact h.symm
    | cons p l ih =>
      by_cases hp : p.1 = locKey m
      · simp [Map.find, hp]
      · simp only [List.map_cons, Map.find, if_neg hp]
        exact ih
  exact found s.fab.stations

/-- A station whose parked joiners of a generation have been notified. -/
def Station.release (js : List Joiner) (all : List Nat) (v : Station) : Station := { v with parked := v.parked.map (Firing.released js all) }

/-- Every joiner of a generation is notified. -/
def State.releaseAll (s : State) (id : Nat) (all : List Nat) (js : List Joiner) : State :=
  js.foldl (fun st k => st.notifyJoiner id k.rank k.fid all) s

theorem releaseAll_leaves (id : Nat) (all : List Nat) (js : List Joiner) : ∀ s : State,
    (s.releaseAll id all js).mm = s.mm ∧ (s.releaseAll id all js).fab.joins = s.fab.joins ∧
      ∀ m, (s.releaseAll id all js).st m = (s.st m).release js all := by
  induction js with
  | nil =>
    intro s
    refine ⟨rfl, rfl, fun m => ?_⟩
    have same : Firing.released [] all = (fun f => f) := rfl
    rw [Station.release, same, List.map_id']
    rfl
  | cons j js ih =>
    intro s
    obtain ⟨mm, joins, st⟩ := ih (s.notifyJoiner id j.rank j.fid all)
    refine ⟨mm, joins, fun m => (st m).trans ?_⟩
    have first : (s.notifyJoiner id j.rank j.fid all).st m =
        { s.st m with parked := (s.st m).parked.map (Firing.notifiedFor j.rank j.fid all) } :=
      st_mapStations s (fun v => { v with parked := v.parked.map (Firing.notifiedFor j.rank j.fid all) }) rfl m
    rw [first, Station.release, List.map_map]
    rfl

/-- Every parked joiner of a generation has the rank of a join of its own, and all other parked firings stand. -/
theorem releaseAll_joiners (id : Nat) (all : List Nat) (js : List Joiner) {s u : State} (h : ∀ m, (u.st m).parked = (s.st m).parked) :
    (∀ j ∈ js, ∀ m, ∀ g ∈ (s.st m).parked, g.id = j.fid → g.park = .barrier → ∃ h ∈ ((u.releaseAll id all js).st m).parked, ∃ k ∈ js,
      h.id = g.id ∧ k.fid = g.id ∧ h.park = .notified k.rank ∧ h.pos = g.pos ∧ h.t = g.t) ∧
    ∀ m, ∀ g ∈ (s.st m).parked, (g.park ≠ .barrier ∨ ∀ j ∈ js, g.id ≠ j.fid) → g ∈ ((u.releaseAll id all js).st m).parked := by
  obtain ⟨-, -, st⟩ := releaseAll_leaves id all js u
  have released : ∀ m, ∀ g ∈ (s.st m).parked, g.released js all ∈ ((u.releaseAll id all js).st m).parked := fun m g hg => by
    rw [st, Station.release, h]
    exact List.mem_map_of_mem hg
  refine ⟨fun j hj m g hg hid hp => ?_, fun m g hg stands => ?_⟩
  · obtain ⟨k, hk, hfid, hrel⟩ := released_joiner all hp ⟨j, hj, hid⟩
    refine ⟨_, released m g hg, k, hk, ?_⟩
    rw [hrel]
    exact ⟨rfl, hfid, rfl, rfl, rfl⟩
  · have := released m g hg
    rwa [released_stands stands] at this

/-- A join that is not the last of its generation is noted in the word. -/
theorem joinAt_counts {s : State} {id : Nat} {l : Loc} {c b n : Nat} {j : Joiner} (w : Barrier)
    (hw : vget ((s.st l).ctx c).bars b {} = w) (h : w.count + 1 ≠ if w.count = 0 then n else w.n) :
    s.joinAt id l c b n j = s.putBar l c b
      { w with count := w.count + 1, n := if w.count = 0 then n else w.n, joiners := w.joiners ++ [{ j with rank := w.count }] } := by
  subst hw
  simp only [State.joinAt]
  rw [if_neg h]
  rfl

/-- The last join of a generation clears the word and notifies the joiners. -/
theorem joinAt_releases {s : State} {id : Nat} {l : Loc} {c b n : Nat} {j : Joiner} (w : Barrier)
    (hw : vget ((s.st l).ctx c).bars b {} = w) (h : w.count + 1 = if w.count = 0 then n else w.n) :
    ∃ all, s.joinAt id l c b n j =
      (s.putBar l c b { count := 0, n := if w.count = 0 then n else w.n, gen := w.gen + 1, joiners := [] }).releaseAll id all
        (w.joiners ++ [{ j with rank := w.count }]) := by
  subst hw
  simp only [State.joinAt]
  rw [if_pos h]
  exact ⟨_, rfl⟩

section
variable {s : State} {q : Join} (hq : s.fab.joins[s.arg.n]? = some q)
  (first : (s.fab.joins.take s.arg.n).all (fun p => !decide (p.inst = q.inst ∧ p.j.st = q.j.st)) = true) {i : Inst}
  (hi : s.inst? q.inst = some i) (hst : i.st.ended = false) (ho : s.gateOpen i q.inst) (hb : q.b < 8) {w : Barrier}
  (hw : vget ((s.st i.gate).ctx i.slot).bars q.b {} = w)
include hq first hi hst ho hb hw

theorem barrierJoin_counts (more : w.count + 1 ≠ if w.count = 0 then q.n else w.n) :
    Yields .barrierJoin s (fun t => t.fab.joins = s.fab.joins.eraseIdx s.arg.n ∧ t.mm = s.mm ∧ t.prick = s.prick ∧
      vget ((t.st i.gate).ctx i.slot).bars q.b {} = { w with
        count := w.count + 1, n := if w.count = 0 then q.n else w.n, joiners := w.joiners ++ [{ q.j with rank := w.count }] } ∧
      ∀ m, m ≠ i.gate → t.st m = s.st m) := by
  have counts := joinAt_counts (s := s.modFab (fun b => { b with joins := b.joins.eraseIdx s.arg.n })) (id := q.inst) (j := q.j) w hw more
  refine ⟨_, (barrierJoin_joins hq first (gateTo_slot hi hst ho)).trans (congrArg _ counts), rfl, rfl, rfl,
    bars_putBar _ ho.1 hb, fun m hm => st_modSt_other _ _ hm⟩

theorem barrierJoin_releases (last : w.count + 1 = if w.count = 0 then q.n else w.n) :
    let js := w.joiners ++ [{ q.j with rank := w.count }]
    Yields .barrierJoin s (fun t => t.fab.joins = s.fab.joins.eraseIdx s.arg.n ∧ t.mm = s.mm ∧
      vget ((t.st i.gate).ctx i.slot).bars q.b {} =
        { count := 0, n := if w.count = 0 then q.n else w.n, gen := w.gen + 1, joiners := [] } ∧
      (∀ j ∈ js, ∀ m, ∀ g ∈ (s.st m).parked, g.id = j.fid → g.park = .barrier → ∃ h ∈ (t.st m).parked, ∃ k ∈ js,
        h.id = g.id ∧ k.fid = g.id ∧ h.park = .notified k.rank ∧ h.pos = g.pos ∧ h.t = g.t) ∧
      ∀ m, ∀ g ∈ (s.st m).parked, (g.park ≠ .barrier ∨ ∀ j ∈ js, g.id ≠ j.fid) → g ∈ (t.st m).parked) := by
  intro js
  obtain ⟨all, releases⟩ := joinAt_releases (s := s.modFab (fun b => { b with joins := b.joins.eraseIdx s.arg.n })) (id := q.inst)
    (j := q.j) w hw last
  have bar := bars_putBar (s := s.modFab (fun b => { b with joins := b.joins.eraseIdx s.arg.n })) (l := i.gate) (c := i.slot)
    { count := 0, n := if w.count = 0 then q.n else w.n, gen := w.gen + 1, joiners := [] } ho.1 hb
  obtain ⟨mm, joins, st⟩ := releaseAll_leaves q.inst all js ((s.modFab (fun b =>
    { b with joins := b.joins.eraseIdx s.arg.n })).putBar i.gate i.slot q.b
      { count := 0, n := if w.count = 0 then q.n else w.n, gen := w.gen + 1, joiners := [] })
  obtain ⟨notified, stand⟩ := releaseAll_joiners q.inst all js (fun m =>
    parked_putBar (s.modFab (fun b => { b with joins := b.joins.eraseIdx s.arg.n })) i.gate i.slot q.b
      { count := 0, n := if w.count = 0 then q.n else w.n, gen := w.gen + 1, joiners := [] } m)
  refine ⟨_, (barrierJoin_joins hq first (gateTo_slot hi hst ho)).trans (congrArg _ releases), joins, mm, ?_, notified, stand⟩
  rw [st]
  exact bar

end

/-! ### SINK_WRITE (R153, R325) -/

section
variable {s : State} {m : SinkMsg} (hm : s.fab.sinkMsgs[s.arg.n]? = some m)
include hm

theorem sinkWrite_waits (h : (s.fab.sinkMsgs.take s.arg.n).any (fun p =>
      decide (p.inst = m.inst ∧ p.k = m.k ∧ p.src = m.src ∧ p.edge = m.edge)) = true ∨ m.holds.all s.holdMet = false) :
    exec .sinkWrite s = .next s := by
  change execSinkWrite s = _
  simp only [execSinkWrite, hm]
  refine if_pos ?_
  rcases h with h | h
  · rw [h]; rfl
  · rw [h]; simp

variable (first : (s.fab.sinkMsgs.take s.arg.n).any (fun p =>
  decide (p.inst = m.inst ∧ p.k = m.k ∧ p.src = m.src ∧ p.edge = m.edge)) = false) (met : m.holds.all s.holdMet = true)
include first met

/-- A message to the register of a root record. -/
theorem sinkWrite_root {r : Root} (lasts : s.lasts m.inst) (hr : m.root.bind s.root? = some r) :
    Yields .sinkWrite s (fun t => t.fab.sinkMsgs = s.fab.sinkMsgs.eraseIdx s.arg.n ∧ t.mm = s.mm ∧ t.fab.stations = s.fab.stations ∧
      ∃ q, m.root.bind t.root? = some q ∧ q.sinks = vset r.sinks m.k (sinkOf m.payload) ∧ q.status = r.status ∧
        q.lineage = r.lineage) := by
  obtain ⟨h, hroot, hr⟩ := Option.bind_eq_some_iff.1 hr
  refine ⟨(s.modFab (fun b => { b with sinkMsgs := b.sinkMsgs.eraseIdx s.arg.n })).modRoot h (fun r =>
    { r with sinks := vset r.sinks m.k (sinkOf m.payload), before := nunion r.before m.before }), ?_, rfl, rfl, rfl,
    { r with sinks := vset r.sinks m.k (sinkOf m.payload), before := nunion r.before m.before }, ?_, rfl, rfl, rfl⟩
  · change execSinkWrite s = _
    simp only [execSinkWrite, hm, first, met, hroot, Bool.not_true, Bool.or_self, Bool.false_eq_true, if_false]
    refine congrArg _ (settle_lasts ?_)
    exact lasts_of_insts rfl lasts
  · rw [hroot, Option.bind_some, root_modRoot _ _ _ (by exact fun _ => rfl)]
    change (s.root? h).map _ = _
    rw [hr]
    rfl

/-- A message to a callee's own register. -/
theorem sinkWrite_callee {i : Inst} (hroot : m.root = none) (hi : s.inst? m.inst = some i) (hb : i.bound) :
    Yields .sinkWrite s (fun t => t.fab.sinkMsgs = s.fab.sinkMsgs.eraseIdx s.arg.n ∧ t.mm = s.mm ∧ t.fab.stations = s.fab.stations ∧
      t.prick.roots = s.prick.roots ∧ ∃ j, t.inst? m.inst = some j ∧ j.sinks = vset i.sinks m.k (sinkOf m.payload)) := by
  have lasts : s.lasts m.inst := fun j hj => by
    cases hi.symm.trans hj
    exact hb
  refine ⟨(s.modFab (fun b => { b with sinkMsgs := b.sinkMsgs.eraseIdx s.arg.n })).modInst m.inst (fun i =>
    { i with sinks := vset i.sinks m.k (sinkOf m.payload) }), ?_, rfl, rfl, rfl, rfl,
    { i with sinks := vset i.sinks m.k (sinkOf m.payload) }, ?_, rfl⟩
  · change execSinkWrite s = _
    simp only [execSinkWrite, hm, first, met, hroot, Bool.not_true, Bool.or_self, Bool.false_eq_true, if_false]
    refine congrArg _ (settle_lasts (lasts_modInst _ (fun _ => rfl) (fun _ h => h) ?_))
    exact lasts_of_insts rfl lasts
  · rw [inst_modInst _ _ _ (by exact fun _ => rfl)]
    change (s.inst? m.inst).map _ = _
    rw [hi]
    rfl

end

end Sys2Proof.Machine
end

section

/-!
SUPPORT. Requests at a Pricking engine (R155, R304, R311, R317): a call becomes one to be tried, a successor is queued. The statement
O46 is settled from these and from the messages to a record.
-/

namespace Sys2Proof.Machine

/-! ### CALL_REQUEST (R317) -/

/-- A pending call that the engine holds itself needs no page. -/
theorem callRoom_engine {s : State} {d : Fin 2} (id : Nat) (h : (s.eng d).calls.length < 1024) : s.callRoom d id = .ok [] s := by
  unfold State.callRoom
  split
  next => rfl
  next => exact if_neg (fun k => absurd k.1 (by omega))

theorem callRoom_fail {s u : State} {d : Fin 2} {id c a : Nat} (h : s.callRoom d id = .fail c a u) : Aside s u := by
  unfold State.callRoom at h
  split at h
  next => cases h
  next =>
    split at h
    next => exact (saveRoom_fail h).2
    next => cases h

section
variable {s : State} {q : EngReq} (hq : s.fab.requests[s.arg.n]? = some q)
include hq

theorem callRequest_waits (h : q.spawn.isSome = true ∨ s.firstFrom s.arg.n q.loc false = false) : exec .callRequest s = .next s := by
  change execCallRequest s = _
  simp only [execCallRequest, hq]
  refine if_pos ?_
  rcases h with h | h
  · rw [h]; rfl
  · rw [h]; simp

variable (call : q.spawn = none) (first : s.firstFrom s.arg.n q.loc false = true)
include call first

theorem callRequest_page {u : State} (h : s.callRoom q.die q.inst = .wait u) : exec .callRequest s = .next u := by
  change execCallRequest s = _
  simp only [execCallRequest, hq, call, first, h, Option.isSome_none, Bool.not_true, Bool.or_self, Bool.false_eq_true, if_false]

theorem callRequest_queues {p : List Nat} {u : State} (h : s.callRoom q.die q.inst = .ok p u) :
    exec .callRequest s = .next ((u.dropRequest s.arg.n).modEng q.die (fun e =>
      { e with calls := e.calls ++ [q.inst], toTry := e.toTry ++ [q.inst] })) := by
  change execCallRequest s = _
  simp only [execCallRequest, hq, call, first, h, Option.isSome_none, Bool.not_true, Bool.or_self, Bool.false_eq_true, if_false]

theorem callRequest_full {c a : Nat} {u : State} (h : s.callRoom q.die q.inst = .fail c a u) :
    exec .callRequest s = .next (u.callFull s.arg.n q) := by
  change execCallRequest s = _
  simp only [execCallRequest, hq, call, first, h, Option.isSome_none, Bool.not_true, Bool.or_self, Bool.false_eq_true, if_false]

end

/-- A call that finds no page stays, and its partition is told at most once. -/
theorem callFull_keeps {u : State} {n : Nat} {q : EngReq} (hq : u.fab.requests[n]? = some q) (call : q.spawn = none) (d : Fin 2) :
    ((u.callFull n q).eng d).calls = (u.eng d).calls ∧
      ∃ e, (u.callFull n q).fab.requests[n]? = some e ∧ e.inst = q.inst ∧ e.loc = q.loc ∧ e.die = q.die ∧ e.spawn = none := by
  unfold State.callFull
  split
  next => exact ⟨rfl, q, hq, rfl, rfl, rfl, call⟩
  next =>
    have aside := aside_partitionFault (u.modFab (fun b => { b with requests := b.requests.set n { q with reported := true } }))
      { code := codeArena, source := 3, vf := some (match u.inst? q.inst with | some i => i.vf | none => 0),
        die := Fin.ofNat 2 q.die.val, inst := q.inst, va := 0, arg := 0 }
    refine ⟨?_, { q with reported := true }, ?_, rfl, rfl, rfl, call⟩
    · exact congrArg (fun p => DieEng.calls (vget (Pricking.dies p) d.val {})) aside.engines
    · refine (congrArg (fun b => (Fabric.requests b)[n]?) aside.fabric).trans ?_
      have short := (List.getElem?_eq_some_iff.1 hq).1
      change (u.fab.requests.set n _)[n]? = _
      rw [List.getElem?_set_self short]

/-! ### SPAWN_REQUEST (R311) -/

theorem length_eraseDups_le {α : Type} [BEq α] [LawfulBEq α] (l : List α) : l.eraseDups.length ≤ l.length := by
  induction hn : l.length using Nat.strong_induction_on generalizing l with
  | _ n ih =>
    cases l with
    | nil => exact Nat.zero_le _
    | cons a l =>
      rw [List.eraseDups_cons]
      have short : (l.filter (fun b => !b == a)).length ≤ l.length := List.length_filter_le _ _
      have := ih _ (by rw [← hn, List.length_cons]; omega) (l.filter (fun b => !b == a)) rfl
      rw [← hn, List.length_cons, List.length_cons]
      omega

section
variable {s : State} {q : EngReq} (hq : s.fab.requests[s.arg.n]? = some q) {r : SpawnReq} (spawn : q.spawn = some r) {i : Inst}
  (hi : s.inst? q.inst = some i)
include hq spawn hi

theorem spawnRequest_waits (h : s.firstFrom s.arg.n q.loc true = false ∨ q.holds.all s.holdMet = false) :
    exec .spawnRequest s = .next s := by
  change execSpawnRequest s = _
  simp only [execSpawnRequest, hq, spawn, hi]
  refine if_pos ?_
  rcases h with h | h <;> simp [h]

theorem spawnRequest_spawns (first : s.firstFrom s.arg.n q.loc true = true) (met : q.holds.all s.holdMet = true)
    (ids : s.usedIds.length + 4 ≤ 2 ^ 18) :
    exec .spawnRequest s = .next (s.spawnFrom s.arg.n i r q.before
      ((((i.img.bind (fun m => m.spawns[r.entry]?)).getD []).filter sucValid).drop q.made)) := by
  have free := length_eraseDups_le s.usedIds
  change execSpawnRequest s = _
  simp only [execSpawnRequest, hq, spawn, hi]
  refine if_neg ?_
  simp only [first, met, Bool.not_true, Bool.or_self, Bool.false_or, decide_eq_true_eq]
  omega

end

/-- A copy that is put in changes the engine's copies and its clock alone. -/
theorem putCopy_leaves (s : State) (d : Fin 2) (k : KnotCopy) :
    (s.putCopy d k).host = s.host ∧ (s.putCopy d k).fab = s.fab ∧ (s.putCopy d k).mm = s.mm ∧
      (s.putCopy d k).prick.insts = s.prick.insts ∧
      ∀ e, ((s.putCopy d k).eng e).queue = (s.eng e).queue := by
  refine ⟨rfl, rfl, rfl, rfl, fun e => ?_⟩
  rw [State.putCopy]
  by_cases he : e = d
  · rw [he, eng_modEng_same]
    change ((s.modEng d _).eng d).queue = _
    rw [eng_modEng_same]
  · rw [eng_modEng_other _ _ he]
    change ((s.modEng d _).eng e).queue = _
    rw [eng_modEng_other _ _ he]

/-- An id that has been found free is one that no record has. -/
theorem newId_fresh {s : State} {id : Nat} (h : s.newId.1 = some id) : ∀ i ∈ s.prick.insts, i.id ≠ id := by
  intro i hi e
  have free := (firstFree_free h).1
  refine free ?_
  have used : id ∈ s.prick.insts.map (·.id) := List.mem_map.2 ⟨i, hi, e⟩
  simp only [State.usedIds, List.append_assoc]
  exact List.mem_append_left _ used

/-- Whatever is queued stays queued behind further launches, and what is launched is queued on its dies. -/
theorem queueLaunch_queues (id : Nat) (dies : List (Fin 2)) : ∀ s : State,
    (∀ e, id ∈ (s.eng e).queue → id ∈ ((s.queueLaunch id dies).eng e).queue) ∧
      ∀ e ∈ dies, id ∈ ((s.queueLaunch id dies).eng e).queue := by
  induction dies with
  | nil => exact fun s => ⟨fun e h => h, fun e h => absurd h (by simp)⟩
  | cons d dies ih =>
    intro s
    obtain ⟨keeps, queues⟩ := ih (s.modEng d (fun e => { e with queue := e.queue ++ [id] }))
    have here : id ∈ ((s.modEng d (fun e => { e with queue := e.queue ++ [id] })).eng d).queue := by
      rw [eng_modEng_same]
      exact List.mem_append_right _ (List.mem_singleton.2 rfl)
    refine ⟨fun e h => keeps e ?_, fun e he => ?_⟩
    · by_cases hd : e = d
      · rw [hd]
        exact here
      · rw [eng_modEng_other _ _ hd]
        exact h
    · rcases List.mem_cons.1 he with rfl | he
      · exact keeps _ here
      · exact queues e he

theorem queueLaunch_insts (id : Nat) (dies : List (Fin 2)) (s : State) :
    (s.queueLaunch id dies).prick.insts = s.prick.insts ∧ (s.queueLaunch id dies).fab = s.fab :=
  List.foldlRecOn (motive := fun u : State => u.prick.insts = s.prick.insts ∧ u.fab = s.fab) dies _ ⟨rfl, rfl⟩ (fun _ h _ _ => h)

theorem aside_sampleInst (s : State) (c : Inst) (code value : Nat) : Aside s (s.sampleInst c code value) := aside_sample _ _ _ _ _ _ _

/-- A record that is created and queued. -/
theorem launched_leaves (s : State) (c : Inst) (h : Nat) (f : Root → Root) (dies : List (Fin 2)) (code value : Nat) :
    let t := (((s.addInst c).modRoot h f).queueLaunch c.id dies).sampleInst c code value
    t.fab.requests = s.fab.requests ∧ (∀ e ∈ dies, c.id ∈ (t.eng e).queue) ∧ t.prick.insts = s.prick.insts ++ [c] := by
  intro t
  have sampled : Aside (((s.addInst c).modRoot h f).queueLaunch c.id dies) t := aside_sampleInst _ _ _ _
  obtain ⟨insts, fab⟩ := queueLaunch_insts c.id dies ((s.addInst c).modRoot h f)
  obtain ⟨-, queues⟩ := queueLaunch_queues c.id dies ((s.addInst c).modRoot h f)
  have req : t.fab.requests = (((s.addInst c).modRoot h f).queueLaunch c.id dies).fab.requests := by rw [sampled.fabric]
  refine ⟨req.trans (congrArg Fabric.requests fab), fun e he => ?_, (congrArg Pricking.insts sampled.engines).trans insts⟩
  rw [State.eng, sampled.engines]
  exact queues e he

/-- One successor: its record is queued with its first token on the dies that DIE allows (R310, R311). -/
theorem spawnOne_queues {s : State} (i : Inst) (q : SpawnReq) (before : List Nat) (x : BitVec 64) {id : Nat} (h : s.newId.1 = some id) :
    (s.spawnOne i q before x).fab.requests = s.fab.requests ∧ (∀ e ∈ sucDies x i.die, id ∈ ((s.spawnOne i q before x).eng e).queue) ∧
      ∃ c, (s.spawnOne i q before x).prick.insts = s.prick.insts ++ [c] ∧ c.id = id ∧ c.st = .queued ∧ c.kind = .spawned ∧
        c.vf = i.vf ∧ c.kidx = sucKidx x ∧ c.root = i.root ∧ c.prio = i.prio ∧ c.entRes = [sucEntry x] ∧
        c.first = some (sucEntry x, q.value,
          mkTag (s.vf i.vf).blockBase id 0 (sucThreadIter x q.otag).1 (sucThreadIter x q.otag).2) := by
  unfold State.spawnOne
  dsimp only
  rw [h]
  dsimp only
  obtain ⟨requests, queues, insts⟩ := launched_leaves s.newId.2.newUid.2
    { id := id, vf := i.vf, die := homeOf (sucDies x i.die) i.die, st := .queued, kidx := sucKidx x, kind := .spawned, root := i.root,
      cls := i.cls, prio := i.prio, loopBase := (sucThreadIter x q.otag).2, thread := (sucThreadIter x q.otag).1,
      entRes := [sucEntry x],
      first := some (sucEntry x, q.value, mkTag (s.vf i.vf).blockBase id 0 (sucThreadIter x q.otag).1 (sucThreadIter x q.otag).2),
      firstBefore := before, age := s.newId.2.newUid.1 } i.root (fun r => { r with lineage := r.lineage + 1 }) (sucDies x i.die) 0x0001
    (sucKidx x)
  exact ⟨requests, queues, _, insts, rfl, rfl, rfl, rfl, rfl, rfl, rfl, rfl, rfl⟩

/-- A cached copy of a registered image is what a successor's request reads. -/
theorem spawnImage_cached {s : State} {d : Fin 2} {vf idx : Nat} {k : KnotCopy} (hn : idx < (s.vf vf).knotcnt.toNat)
    (hk : s.copy? d vf idx = some k) : s.spawnImage d vf idx = .ok () (s.putCopy d k) := by
  have image : s.needImage d vf idx = .ok k.img (s.putCopy d k) := by
    rw [State.needImage, if_neg (by omega), hk]
  rw [State.spawnImage, image]

/-- A launch for which the queues themselves have room. -/
theorem launchRoom_queue {s : State} {d : Fin 2} {vf : Nat} {dies : List (Fin 2)} (h : ∀ e ∈ dies, (s.queuedOf e vf).length < 4096) :
    s.launchRoom d vf dies = .ok [] s := by
  unfold State.launchRoom
  dsimp only
  refine if_neg ?_
  rw [Bool.not_eq_true, List.any_eq_false]
  intro e he
  have := h e he
  simp only [Bool.and_eq_true, decide_eq_true_eq, not_and]
  omega

/-- A request with one successor left, whose image is cached and for which there is room. -/
theorem spawnFrom_one {s : State} {n : Nat} {i : Inst} {q : SpawnReq} {before : List Nat} {x : BitVec 64} {k : KnotCopy}
    (hn : sucKidx x < (s.vf i.vf).knotcnt.toNat) (hk : s.copy? i.die i.vf (sucKidx x) = some k)
    (room : ∀ e ∈ sucDies x i.die, (s.queuedOf e i.vf).length < 4096) :
    s.spawnFrom n i q before [x] =
      (((((s.putCopy i.die k).spawnOne i q before x).modFab (fun b =>
        { b with requests := b.requests.modify n (fun r => { r with made := r.made + 1 }) })).dropRequest n).settle i.id) := by
  obtain ⟨-, -, -, records, queues⟩ := putCopy_leaves s i.die k
  have room' : ∀ e ∈ sucDies x i.die, ((s.putCopy i.die k).queuedOf e i.vf).length < 4096 := fun e he => by
    have same : (s.putCopy i.die k).queuedOf e i.vf = s.queuedOf e i.vf := by
      simp only [State.queuedOf, queues, State.inst?, records]
    rw [same]
    exact room e he
  rw [State.spawnFrom]
  simp only [spawnImage_cached hn hk, launchRoom_queue room']
  rw [State.spawnFrom]

/-- SPAWN_REQUEST with a single valid successor. -/
theorem spawnRequest_one {s : State} {q : EngReq} (hq : s.fab.requests[s.arg.n]? = some q) {r : SpawnReq} (spawn : q.spawn = some r)
    {i : Inst} (hi : s.inst? q.inst = some i) (first : s.firstFrom s.arg.n q.loc true = true) (met : q.holds.all s.holdMet = true)
    (made : q.made = 0) (ids : s.usedIds.length + 4 ≤ 2 ^ 18) (hb : i.bound) {x : BitVec 64}
    (hx : ((i.img.bind (fun m => m.spawns[r.entry]?)).getD []).filter sucValid = [x]) (hn : sucKidx x < (s.vf i.vf).knotcnt.toNat)
    {k : KnotCopy} (hk : s.copy? i.die i.vf (sucKidx x) = some k) {id : Nat} (hid : (s.putCopy i.die k).newId.1 = some id)
    (room : ∀ e ∈ sucDies x i.die, (s.queuedOf e i.vf).length < 4096) :
    Yields .spawnRequest s (fun t =>
      t.fab.requests = s.fab.requests.eraseIdx s.arg.n ∧ (∀ e ∈ sucDies x i.die, id ∈ (t.eng e).queue) ∧
      ∃ c, t.inst? id = some c ∧ c.st = .queued ∧ c.kind = .spawned ∧ c.vf = i.vf ∧ c.kidx = sucKidx x ∧ c.root = i.root ∧ c.prio = i.prio ∧
        c.entRes = [sucEntry x] ∧ c.first = some (sucEntry x, r.value,
          mkTag (s.vf i.vf).blockBase id 0 (sucThreadIter x r.otag).1 (sucThreadIter x r.otag).2)) := by
  obtain ⟨host, fab, -, records, -⟩ := putCopy_leaves s i.die k
  obtain ⟨requests, queues, c, insts, cid, st, kind, vf, kidx, root, prio, ent, cfirst⟩ := spawnOne_queues i r q.before x hid
  have vfs : ((s.putCopy i.die k).vf i.vf) = s.vf i.vf := by rw [State.vf, host]; rfl
  rw [vfs] at cfirst
  rw [records] at insts
  have fresh : ∀ j ∈ s.prick.insts, j.id ≠ id := fun j hj => newId_fresh hid j (by rw [records]; exact hj)
  have ready := spawnRequest_spawns hq spawn hi first met ids
  rw [hx, made, List.drop_zero, spawnFrom_one hn hk room] at ready
  generalize (s.putCopy i.die k).spawnOne i r q.before x = u at ready requests queues insts
  have lasts : u.lasts i.id := fun j hj => by
    have found : s.prick.insts.find? (fun a => decide (a.id = i.id)) = some i := by rw [inst_id hi]; exact hi
    rw [State.inst?, insts, List.find?_append, found] at hj
    cases hj
    exact hb
  have created : u.inst? id = some c := by
    rw [State.inst?, insts, List.find?_append, List.find?_eq_none.2 (by simpa using fresh)]
    simp [cid]
  refine ⟨_, ready.trans (congrArg _ (settle_lasts (lasts_of_insts rfl lasts))), ?_, queues, c, created, st, kind, vf, kidx, root, prio,
    ent, cfirst⟩
  change (List.modify u.fab.requests _ _).eraseIdx s.arg.n = _
  rw [List.eraseIdx_modify_of_eq, requests, fab]

/-- Settles O46: each message finds what it names, and nothing that it names ends by it. -/
theorem commitsAndMessagesReachTheirInstance : Obligations.CommitsAndMessagesReachTheirInstance := by
  unfold Obligations.CommitsAndMessagesReachTheirInstance
  intro s l n
  refine ⟨fun f hf => ⟨firingCommit_waits hf, fun i hm hi hb hc => firingCommit_leaves hf hm hi hb hc⟩, fun q hq => ?credit,
    fun q i hq hi hst hb => ?join, fun m hm => ?sink, fun q hq => ?request⟩
  case credit =>
    refine ⟨fun i hi hst => ⟨fun here => ⟨_, loopCredit_slot hq (gateTo_slot hi hst here), rfl, rfl, rfl, ?_, fun m hm => ?_⟩,
      fun closed => ⟨_, loopCredit_image hq (gateTo_image hi hst closed), rfl, rfl, saveMsg_kept ?_ _⟩⟩, fun hi => loopCredit_gone hq hi⟩
    · exact ctx_modSlot (s := s.modFab (fun b => { b with credits := b.credits.eraseIdx n })) _ here.1
    · exact st_modSt_other (s.modFab (fun b => { b with credits := b.credits.eraseIdx n })) _ hm
    · exact hi
  case join =>
    intro first x w goal js
    refine ⟨barrierJoin_waits hq, fun hfirst valid inst draining => ?_⟩
    have ho : s.gateOpen i q.inst := ⟨valid, inst, draining⟩
    exact ⟨barrierJoin_counts hq hfirst hi hst ho hb rfl, barrierJoin_releases hq hfirst hi hst ho hb rfl⟩
  case sink =>
    intro older
    refine ⟨sinkWrite_waits hm, fun r first met lasts hr _ => sinkWrite_root hm first met lasts hr,
      fun i first met hroot hi hb _ => sinkWrite_callee hm first met hroot hi hb⟩
  case request =>
    refine ⟨callRequest_waits hq, callRoom_engine q.inst, fun u call first wait => callRequest_page hq call first wait,
      fun c a u call first full => ⟨_, callRequest_full hq call first full, callFull_keeps ?_ call q.die⟩,
      fun p u call first room => ⟨_, callRequest_queues hq call first room, rfl, ?_, ?_, rfl, rfl, rfl⟩,
      fun r i x k id spawn hi => ⟨spawnRequest_waits hq spawn hi, fun first met made ids hb hx hn hk hid room =>
        spawnRequest_one hq spawn hi first met made ids hb hx hn hk hid room⟩⟩
    · rw [(callRoom_fail full).fabric]
      exact hq
    · rw [eng_modEng_same]
      rfl
    · rw [eng_modEng_same]
      rfl

end Sys2Proof.Machine
end

section

/-!
SUPPORT. A marker whose slot a region fence covers ends at the fence (R315, LOG 38), and the refutation of O45, which asks that it is noted with
the slot all the same.
-/

namespace Sys2Proof.Machine

/-- A marker that a region fence diverts leaves the network, and nothing else changes. -/
theorem tokenArrival_fencedMarker {s : State} {f : Flight} (hf : s.fab.tokens.find? (fun g => decide (g.uid = s.arg.n)) = some f)
    (arrives : s.mayArrive f = true) (here : f.recs = []) (marker : f.tok.kind = kindMarker)
    (fenced : s.fencedAt f.tok.loc (tagInst f.tok.tag) = true) :
    exec .tokenArrival s = .next (s.modFab (fun b => { b with tokens := b.tokens.filter (fun g => decide (g.uid ≠ f.uid)) })) := by
  have read : s.tokRead f = .ok s := by rw [State.tokRead, here, State.arenaRead]
  have fenced' : (s.modFab (fun b => { b with tokens := b.tokens.filter (fun g => decide (g.uid ≠ f.uid)) })).fencedAt f.tok.loc
      (tagInst f.tok.tag) = true := fenced
  change execTokenArrival s = _
  simp only [execTokenArrival, hf, arrives, if_true, read, State.landToken, marker, fenced']

/-- A marker that passes the checks of R123 at a fenced station, and that its slot has not noted, is not noted now either. -/
theorem not_noted_of_fence {s : State} {f : Flight} (hf : s.fab.tokens.find? (fun g => decide (g.uid = s.sched.arg.n)) = some f)
    (arrives : s.mayArrive f = true) (here : f.recs = []) (marker : f.tok.kind = kindMarker)
    (fenced : s.fencedAt f.tok.loc (tagInst f.tok.tag) = true)
    (passes : let x := (s.st f.tok.loc).ctx (tagCtx f.tok.tag)
      f.tok.parOk = true ∧ x.valid = true ∧ x.inst = tagInst f.tok.tag ∧ x.blockBase ≤ tagBlock f.tok.tag ∧
        tagBlock f.tok.tag ≤ x.blockLast ∧ f.tok.sprig < x.nsprig ∧
        f.tok.slot < hdrSlots ((s.st f.tok.loc).header (tagCtx f.tok.tag) f.tok.sprig))
    (unnoted : let x := (s.st f.tok.loc).ctx (tagCtx f.tok.tag)
      x.markers ≠ nput x.markers f.tok.edge) : ¬ Obligations.TokensMeetTheirFrames := by
  intro h
  obtain ⟨arrivals, -⟩ := h s
  obtain ⟨-, noted, -⟩ := arrivals f hf
  obtain ⟨t, step, -, markers, -⟩ := noted arrives here marker passes
  rw [tokenArrival_fencedMarker hf arrives here marker fenced] at step
  cases step
  exact unnoted markers

/-- A stitch marker of arc 9 for slot 0 of the first station, bearing id 5. -/
def marker5 : Flight :=
  { tok := { header := mkHeader ⟨0, 0, 0⟩ 0 0 (kindMarker, false) 9 0x0000014000000000, tag := 0x0000014000000000, payload := .word 0 },
    uid := 3 }

/-- The marker is under way, the slot holds id 5 with one sprig, and a fence has been raised over its rectangle. -/
def fencedMarker : State :=
  let s := State.reset.modSt ⟨0, 0, 0⟩ (fun v => { v with ctxs := v.ctxs.set 0 { word := 1 + (5 <<< 94), sprigs := [0] } })
  { s with
    sched := { s.sched with arg := { s.sched.arg with n := 3 } }
    fab := { s.fab with tokens := [marker5] }
    prick := { s.prick with fences := [(0, { die := 0, qx := 0, qy := 0, w := 1, h := 1, inst := 5 })] } }

theorem fencedMarker_arrives :
    fencedMarker.fab.tokens.find? (fun g => decide (g.uid = fencedMarker.sched.arg.n)) = some marker5 ∧
      fencedMarker.mayArrive marker5 = true ∧ marker5.tok.kind = kindMarker ∧
      fencedMarker.fencedAt marker5.tok.loc (tagInst marker5.tok.tag) = true := by decide +kernel

/-- The marker passes the checks of R123, and its slot has noted none. -/
theorem fencedMarker_passes :
    let x := (fencedMarker.st marker5.tok.loc).ctx (tagCtx marker5.tok.tag)
    (marker5.tok.parOk = true ∧ x.valid = true ∧ x.inst = tagInst marker5.tok.tag ∧ x.blockBase ≤ tagBlock marker5.tok.tag ∧
      tagBlock marker5.tok.tag ≤ x.blockLast ∧ marker5.tok.sprig < x.nsprig ∧
      marker5.tok.slot < hdrSlots ((fencedMarker.st marker5.tok.loc).header (tagCtx marker5.tok.tag) marker5.tok.sprig)) ∧
    x.markers ≠ nput x.markers marker5.tok.edge := by decide +kernel

/-- Refutes O45: its clause about markers does not exclude a region fence, and a marker that a fence diverts ends there; its slot does
not note it. The state is one in which a marker passes the checks of R123 at a fenced station. -/
theorem not_tokensMeetTheirFrames : ¬ Obligations.TokensMeetTheirFrames := by
  obtain ⟨found, arrives, marker, fenced⟩ := fencedMarker_arrives
  obtain ⟨passes, unnoted⟩ := fencedMarker_passes
  exact not_noted_of_fence (s := fencedMarker) (f := marker5) found arrives rfl marker fenced passes unnoted

end Sys2Proof.Machine
end

section

/-!
SUPPORT. The values of the integer class (R161, R168 to R176): what the value functions of the model compute, in the terms in which the
spec states them, u(x), s(x), out_s and out_n. Stations and control cores share them. The statements O1, O2 and O3 are settled from these.
-/

namespace Sys2Proof.Machine

/-! ### u(x), s(x), out_s and out_n as words of W bits (R161) -/

theorem Width.bits_le (w : Width) : Width.bits w ≤ 64 := by cases w <;> decide

theorem uOf_eq_toNat (w : Width) (x : Double) : uOf w x = (x.setWidth (Width.bits w)).toNat :=
  (BitVec.toNat_setWidth _ _).symm

theorem sOf_eq_toInt (w : Width) (x : Double) : sOf w x = (x.setWidth (Width.bits w)).toInt := by
  cases w with
  | w64 => rw [sOf, Width.bits, BitVec.setWidth_eq]
  | w32 => rfl

theorem outS_eq_signExtend (w : Width) (v : Int) : outS w v = (BitVec.ofInt (Width.bits w) v).signExtend 64 := by
  cases w with
  | w64 => exact (BitVec.signExtend_eq _).symm
  | w32 => rfl

theorem uOf_lt (w : Width) (x : Double) : uOf w x < 2 ^ Width.bits w := Nat.mod_lt _ (by positivity)

/-- out_s reads its argument modulo 2^W. -/
theorem outS_congr {w : Width} {v v' : Int} (h : v ≡ v' [ZMOD 2 ^ Width.bits w]) : outS w v = outS w v' := by
  have words : BitVec.ofInt (Width.bits w) v = BitVec.ofInt (Width.bits w) v' := by
    refine BitVec.eq_of_toInt_eq ?_
    rw [BitVec.toInt_ofInt, BitVec.toInt_ofInt, ← Int.emod_bmod, ← Int.emod_bmod (x := v')]
    push_cast
    rw [h.eq]
  rw [outS_eq_signExtend, outS_eq_signExtend, words]

/-- s(x) and u(x) differ by a multiple of 2^W. -/
theorem sOf_modEq_uOf (w : Width) (x : Double) : sOf w x ≡ uOf w x [ZMOD 2 ^ Width.bits w] := by
  rw [sOf_eq_toInt, uOf_eq_toNat, BitVec.toInt_eq_toNat_bmod]
  exact_mod_cast Int.bmod_emod (x := (x.setWidth (Width.bits w)).toNat) (m := 2 ^ Width.bits w)

theorem outS_mod (w : Width) (n : Nat) : outS w (n % 2 ^ Width.bits w : Nat) = outS w n := by
  refine outS_congr ?_
  push_cast
  exact Int.mod_modEq _ _

theorem outS_toNat (w : Width) (x : Double) : outS w x.toNat = outS w (uOf w x) := (outS_mod w x.toNat).symm

theorem outS_w64_toNat (x : Double) : outS .w64 x.toNat = x := by
  rw [outS, BitVec.ofInt_natCast, BitVec.ofNat_toNat, BitVec.setWidth_eq]

theorem ofNat_uOf_w64 (x : Double) : BitVec.ofNat 64 (uOf .w64 x) = x := by
  rw [uOf_eq_toNat, Width.bits, BitVec.ofNat_toNat, BitVec.setWidth_eq, BitVec.setWidth_eq]

/-- A floor of a quotient by a power of two is the quotient of integers. -/
theorem floor_div_two_pow (n : Int) (m : Nat) : ⌊(n : ℚ) / 2 ^ m⌋ = n / 2 ^ m := by
  exact_mod_cast Rat.floor_intCast_div_natCast n (2 ^ m)

/-! ### Sums, products and quotients (R168 to R170) -/

theorem valAdd_w64 (x y : Double) : valAdd .w64 x y = x + y := by
  rw [valAdd, outS, BitVec.ofInt_add, BitVec.ofInt_natCast, BitVec.ofInt_natCast, ofNat_uOf_w64, ofNat_uOf_w64]

theorem valNeg_eq (w : Width) (x : Double) : valNeg w x = outS w (-(uOf w x : Int)) := by rw [valNeg, zero_sub]

theorem valAbs_eq (w : Width) (x : Double) : valAbs w x = outS w |sOf w x| := by rw [valAbs, Int.natCast_natAbs]

theorem valMul_eq (w : Width) (x y : Double) : valMul w x y = outS w (sOf w x * sOf w y) :=
  outS_congr ((sOf_modEq_uOf w x).mul (sOf_modEq_uOf w y)).symm

theorem valMulh_eq (w : Width) (x y : Double) :
    valMulh w x y = outS w ⌊(sOf w x * sOf w y : ℚ) / 2 ^ Width.bits w⌋ := by
  rw [valMulh, ← Int.cast_mul, floor_div_two_pow]

theorem valMulhn_eq (w : Width) (x y : Double) : valMulhn w x y = outN w ((uOf w x * uOf w y) >>> Width.bits w) := by
  rw [valMulhn, Nat.shiftRight_eq_div_pow]

theorem valDiv_of_zero (w : Width) (x : Double) {y : Double} (h : sOf w y = 0) : valDiv w x y = -1 := by
  rw [valDiv, if_pos h]
  cases w <;> decide

/-- The most negative value is its own negative modulo 2^W. -/
theorem neg_min_modEq (w : Width) :
    -(2 : Int) ^ (Width.bits w - 1) ≡ 2 ^ (Width.bits w - 1) [ZMOD 2 ^ Width.bits w] := by
  cases w <;> decide

theorem valDiv_of_ne_zero (w : Width) (x : Double) {y : Double} (h : sOf w y ≠ 0) :
    valDiv w x y = outS w ((sOf w x).tdiv (sOf w y)) := by
  rw [valDiv, if_neg h]
  split
  next wrapped =>
    obtain ⟨least, minusOne⟩ := wrapped
    rw [least, minusOne, Int.tdiv_neg, Int.tdiv_one, neg_neg]
    exact outS_congr (neg_min_modEq w)
  next => rfl

theorem valRem_of_zero (w : Width) (x : Double) {y : Double} (h : sOf w y = 0) : valRem w x y = outS w (sOf w x) :=
  if_pos h

theorem valRem_of_ne_zero (w : Width) (x : Double) {y : Double} (h : sOf w y ≠ 0) :
    valRem w x y = outS w ((sOf w x).tmod (sOf w y)) := by
  rw [valRem, if_neg h, Int.tmod_def]

theorem valDivn_of_zero (w : Width) (x : Double) {y : Double} (h : uOf w y = 0) :
    valDivn w x y = outN w (2 ^ Width.bits w - 1) := if_pos h

theorem valDivn_of_ne_zero (w : Width) (x : Double) {y : Double} (h : uOf w y ≠ 0) :
    valDivn w x y = outN w (uOf w x / uOf w y) := if_neg h

theorem valRemn_eq (w : Width) (x y : Double) : valRemn w x y = outN w (uOf w x % uOf w y) := by
  rw [valRemn]
  split
  next zero => rw [zero, Nat.mod_zero]
  next => rfl

/-! ### Bitwise logic (R171) -/

theorem uOf_not (w : Width) (x : Double) : uOf w (~~~ x) = 2 ^ Width.bits w - 1 - uOf w x := by
  rw [uOf_eq_toNat, uOf_eq_toNat, BitVec.setWidth_not (Width.bits_le w), BitVec.toNat_not]

theorem uOf_and (w : Width) (x y : Double) : uOf w (x &&& y) = uOf w x &&& uOf w y := by
  simp only [uOf, BitVec.toNat_and, Nat.and_mod_two_pow]

theorem uOf_or (w : Width) (x y : Double) : uOf w (x ||| y) = uOf w x ||| uOf w y := by
  simp only [uOf, BitVec.toNat_or, Nat.or_mod_two_pow]

theorem uOf_xor (w : Width) (x y : Double) : uOf w (x ^^^ y) = uOf w x ^^^ uOf w y := by
  simp only [uOf, BitVec.toNat_xor, Nat.xor_mod_two_pow]

theorem valAnd_eq (w : Width) (x y : Double) : valAnd w x y = outS w (uOf w x &&& uOf w y : Nat) := by
  rw [valAnd, outS_toNat, uOf_and]

theorem valOr_eq (w : Width) (x y : Double) : valOr w x y = outS w (uOf w x ||| uOf w y : Nat) := by
  rw [valOr, outS_toNat, uOf_or]

theorem valXor_eq (w : Width) (x y : Double) : valXor w x y = outS w (uOf w x ^^^ uOf w y : Nat) := by
  rw [valXor, outS_toNat, uOf_xor]

theorem valAndn_eq (w : Width) (x y : Double) :
    valAndn w x y = outS w (uOf w x &&& (2 ^ Width.bits w - 1 - uOf w y) : Nat) := by
  rw [valAndn, outS_toNat, uOf_and, uOf_not]

/-! ### Shifts and rotation (R172) -/

theorem valShl_eq (w : Width) (x : Double) (m : Nat) : valShl w x m = outS w (uOf w x <<< m : Nat) := by
  rw [valShl, Nat.shiftLeft_eq, Nat.cast_mul, Nat.cast_pow, Nat.cast_ofNat]

theorem valShr_eq (w : Width) (x : Double) (m : Nat) : valShr w x m = outN w (uOf w x >>> m) := by
  rw [valShr, Nat.shiftRight_eq_div_pow]

theorem valSra_eq (w : Width) (x : Double) (m : Nat) : valSra w x m = outS w ⌊(sOf w x : ℚ) / 2 ^ m⌋ := by
  rw [valSra, floor_div_two_pow]

theorem shiftOf_le (w : Width) (x : Double) : shiftOf w x ≤ Width.bits w :=
  (Nat.mod_lt _ (by cases w <;> decide)).le

/-- The part that a rotation moves down lies below the part that it moves up, so that their sum is their union. -/
theorem valRotl_eq (w : Width) (x : Double) {m : Nat} (h : m ≤ Width.bits w) :
    valRotl w x m = outS w (((uOf w x <<< m) ||| (uOf w x >>> (Width.bits w - m))) % 2 ^ Width.bits w : Nat) := by
  have low : uOf w x >>> (Width.bits w - m) < 2 ^ m := by
    rw [Nat.shiftRight_eq_div_pow]
    refine Nat.div_lt_of_lt_mul ?_
    rw [← Nat.pow_add, Nat.sub_add_cancel h]
    exact uOf_lt w x
  rw [outS_mod, ← Nat.shiftLeft_add_eq_or_of_lt low, Nat.shiftLeft_eq, Nat.shiftRight_eq_div_pow, valRotl]
  push_cast
  rfl

/-! ### Counts of bits (R173) -/

theorem topBit_le (x n : Nat) : topBit x n ≤ n := by
  induction n with
  | zero => exact le_rfl
  | succ n ih =>
    rw [topBit]
    split
    · exact le_rfl
    · exact ih.trans n.le_succ

theorem lt_two_pow_topBit {x n : Nat} (h : x < 2 ^ n) : x < 2 ^ topBit x n := by
  induction n with
  | zero => exact h
  | succ n ih =>
    rw [topBit]
    split
    · exact h
    next clear =>
      refine ih (Nat.lt_pow_two_of_testBit _ fun i hi => ?_)
      obtain rfl | above := hi.eq_or_lt
      · simpa using clear
      · exact Nat.testBit_lt_two_pow (h.trans_le (Nat.pow_le_pow_right two_pos above))

theorem two_pow_le_of_topBit_pos {x n : Nat} (h : 0 < topBit x n) : 2 ^ (topBit x n - 1) ≤ x := by
  induction n with
  | zero => exact absurd h (lt_irrefl 0)
  | succ n ih =>
    rw [topBit] at h ⊢
    split
    next set => exact Nat.ge_two_pow_of_testBit set
    next clear =>
      rw [if_neg clear] at h
      exact ih h

/-- CLZ counts the zeros above the highest one bit. -/
theorem valClz_spec (w : Width) (x : Double) : ∃ n ≤ Width.bits w, valClz w x = dbl n ∧
    uOf w x < 2 ^ (Width.bits w - n) ∧ (n < Width.bits w → 2 ^ (Width.bits w - n - 1) ≤ uOf w x) := by
  have le := topBit_le (uOf w x) (Width.bits w)
  refine ⟨Width.bits w - topBit (uOf w x) (Width.bits w), Nat.sub_le _ _, rfl, ?_, fun short => ?_⟩
  · rw [Nat.sub_sub_self le]
    exact lt_two_pow_topBit (uOf_lt w x)
  · rw [Nat.sub_sub_self le]
    exact two_pow_le_of_topBit_pos (by omega)

/-- One more power of two divides a number exactly when its next bit is zero. -/
theorem two_pow_succ_dvd_iff {x i : Nat} (h : 2 ^ i ∣ x) : 2 ^ (i + 1) ∣ x ↔ x.testBit i = false := by
  obtain ⟨q, rfl⟩ := h
  rw [pow_succ, Nat.mul_dvd_mul_iff_left (by positivity), Nat.testBit_two_pow_mul]
  simp [Nat.dvd_iff_mod_eq_zero]

theorem zerosBelow_le (x i k : Nat) : zerosBelow x i k ≤ k := by
  induction k generalizing i with
  | zero => exact le_rfl
  | succ k ih =>
    rw [zerosBelow]
    split
    · exact Nat.zero_le _
    · have := ih (i + 1)
      omega

/-- The zeros counted from bit i up are factors of two, and the count ends early only at a one. -/
theorem two_pow_dvd_zerosBelow {x i : Nat} (k : Nat) (h : 2 ^ i ∣ x) : 2 ^ (i + zerosBelow x i k) ∣ x ∧
    (zerosBelow x i k < k → ¬ 2 ^ (i + zerosBelow x i k + 1) ∣ x) := by
  induction k generalizing i with
  | zero => exact ⟨h, fun none => absurd none (lt_irrefl 0)⟩
  | succ k ih =>
    rw [zerosBelow]
    split
    next set =>
      refine ⟨h, fun _ more => ?_⟩
      rw [add_zero, two_pow_succ_dvd_iff h, set] at more
      exact Bool.noConfusion more
    next clear =>
      obtain ⟨dvd, ends⟩ := ih ((two_pow_succ_dvd_iff h).2 (by simpa using clear))
      rw [← add_assoc]
      exact ⟨dvd, fun early => ends (by omega)⟩

/-- CTZ counts the zeros below the lowest one bit. -/
theorem valCtz_spec (w : Width) (x : Double) : ∃ n ≤ Width.bits w, valCtz w x = dbl n ∧
    2 ^ n ∣ uOf w x ∧ (n < Width.bits w → ¬ 2 ^ (n + 1) ∣ uOf w x) := by
  obtain ⟨dvd, ends⟩ := two_pow_dvd_zerosBelow (x := uOf w x) (i := 0) (Width.bits w) (one_dvd _)
  rw [zero_add] at dvd ends
  exact ⟨_, zerosBelow_le _ _ _, rfl, dvd, ends⟩

theorem onesIn_eq_length_filter (x n : Nat) : onesIn x n = ((List.range n).filter (fun i => x.testBit i)).length := by
  induction n with
  | zero => rfl
  | succ n ih =>
    rw [onesIn, ih, List.range_succ, List.filter_append, List.length_append, List.filter_singleton, add_comm]
    cases x.testBit n <;> rfl

theorem valPopc_eq (w : Width) (x : Double) :
    valPopc w x = dbl ((List.range (Width.bits w)).filter (fun i => (uOf w x).testBit i)).length := by
  rw [valPopc, onesIn_eq_length_filter]

/-! ### Comparison and selection (R174) -/

theorem ofBool_decide (p : Prop) [Decidable p] : ofBool (decide p) = if p then 1 else 0 := by
  by_cases h : p <;> simp [ofBool, h]

theorem valMin_eq (w : Width) (x y : Double) : valMin w x y = outS w (min (sOf w x) (sOf w y)) := by
  rw [valMin, min_def]

theorem valMax_eq (w : Width) (x y : Double) : valMax w x y = outS w (max (sOf w x) (sOf w y)) := by
  rw [valMax, max_def]

theorem valSlti_eq {n : Nat} (x : Double) (im : BitVec n) (h : n ≤ 64) :
    valSlt .w64 x (im.signExtend 64) = if x.toInt < im.toInt then 1 else 0 := by
  rw [valSlt, ofBool_decide, sOf, sOf, BitVec.toInt_signExtend_of_le h]

theorem valSne_eq (w : Width) (x y : Double) : valSne w x y = if uOf w x = uOf w y then 0 else 1 := by
  rw [valSne, ofBool_decide, ite_not]

theorem valCsel_eq (w : Width) (p x y : Double) :
    valCsel w p x y = if uOf w p = 0 then outS w (uOf w y) else outS w (uOf w x) := by
  rw [valCsel, ite_not]

/-! ### Moves and bit fields (R175) -/

theorem XWidth.bits_le (x : XWidth) : XWidth.bits x ≤ 64 := by cases x <;> decide

theorem valExts_eq (n : XWidth) (w : Width) (x : Double) :
    valExts n w x = outS w (x.truncate (XWidth.bits n)).toInt := by
  rw [valExts, sext64, BitVec.toInt_signExtend_of_le (XWidth.bits_le n)]

theorem valExtz_eq (n : XWidth) (w : Width) (x : Double) :
    valExtz n w x = outN w (x.truncate (XWidth.bits n)).toNat := by
  rw [valExtz, zext64, BitVec.zeroExtend, BitVec.toNat_setWidth_of_le (XWidth.bits_le n)]

/-- MOVK writes one lane of 16 bits. -/
theorem getLsbD_valMovk {n : Nat} (old : Double) (lane : Nat) (im : BitVec n) {i : Nat} (hi : i < 64) :
    (valMovk old lane im.toNat).getLsbD i =
      if 16 * lane ≤ i ∧ i < 16 * lane + 16 then im.getLsbD (i - 16 * lane) else old.getLsbD i :=
  getLsbD_setBits old _ 16 _ i hi

/-- BFI writes a field of the given length, as far as the word reaches. -/
theorem getLsbD_valBfi (src old pos : Double) (len : Nat) {i : Nat} (hi : i < 64) :
    (valBfi src old (bits pos 0 6) len).getLsbD i =
      if pos.toNat % 64 ≤ i ∧ i < pos.toNat % 64 + len then src.getLsbD (i - pos.toNat % 64) else old.getLsbD i := by
  have hp : bits pos 0 6 = pos.toNat % 64 := by simp [bits]
  rw [valBfi, getLsbD_setBits _ _ _ _ _ hi, hp, BitVec.testBit_toNat]
  exact if_congr (by omega) rfl rfl

end Sys2Proof.Machine
end

section

/-!
SUPPORT. The integer class on its two engines (R161, R163, R164): each instruction is one result of a station or one put of a control core,
with the value of R168 to R176. The statements O1, O2 and O3 are settled here.
-/

namespace Sys2Proof.Machine

/-! ### Stations -/

/-- A station instruction that is one result writes the value that the result equals. -/
theorem yields_result {i : Instr} {s : State} {d : Fin 8} {l : List Sel} {v v' : Double}
    (step : exec i s = .next (s.result d l v)) (value : v = v') : Yields i s (WritesTemp s · d l v') :=
  ⟨_, step, value ▸ result_writesTemp s d l v⟩

/-- A result whose value depends on whether the divisor is zero. -/
theorem yields_result_cases {i : Instr} {s : State} {d : Fin 8} {l : List Sel} {v z q : Double} {zero : Prop}
    (step : exec i s = .next (s.result d l v)) (ofZero : zero → v = z) (ofNonzero : ¬ zero → v = q) :
    Yields i s (fun t => (zero → WritesTemp s t d l z) ∧ (¬ zero → WritesTemp s t d l q)) :=
  ⟨_, step, fun h => ofZero h ▸ result_writesTemp s d l v, fun h => ofNonzero h ▸ result_writesTemp s d l v⟩

/-- A result whose value is a count with a property. -/
theorem yields_result_count {i : Instr} {s : State} {d : Fin 8} {l : List Sel} {v : Double} {m : Nat} {P : Nat → Prop}
    (step : exec i s = .next (s.result d l v)) (count : ∃ n ≤ m, v = dbl n ∧ P n) :
    Yields i s (fun t => ∃ n ≤ m, WritesTemp s t d l (dbl n) ∧ P n) := by
  obtain ⟨n, le, rfl, holds⟩ := count
  exact ⟨_, step, n, le, result_writesTemp s d l _, holds⟩

/-- Settles O1: each instruction is one result, and its value is that of the spec. -/
theorem integerArithmeticOnStations : Obligations.IntegerArithmeticOnStations := by
  unfold Obligations.IntegerArithmeticOnStations
  constructor
  · intro s d a b w im h
    refine ⟨?add, ?sub, ?addi, ?neg, ?abs, ?adds, ?addsn, ?subs, ?subsn, ?lea⟩
    case add | sub | adds | addsn | subs | subsn | lea => exact yields_result rfl rfl
    case addi => exact yields_result rfl (valAdd_w64 _ _)
    case neg => exact yields_result rfl (valNeg_eq w _)
    case abs => exact yields_result rfl (valAbs_eq w _)
  · intro s d a b w
    refine ⟨?mul, ?mulh, ?mulhn, ?div, ?rem, ?divn, ?remn⟩
    case mul => exact yields_result rfl (valMul_eq w _ _)
    case mulh => exact yields_result rfl (valMulh_eq w _ _)
    case mulhn => exact yields_result rfl (valMulhn_eq w _ _)
    case div => exact yields_result_cases rfl (valDiv_of_zero w _) (valDiv_of_ne_zero w _)
    case rem => exact yields_result_cases rfl (valRem_of_zero w _) (valRem_of_ne_zero w _)
    case divn => exact yields_result_cases rfl (valDivn_of_zero w _) (valDivn_of_ne_zero w _)
    case remn => exact yields_result rfl (valRemn_eq w _ _)

/-- Settles O2: each instruction is one result, and its value is that of the spec; a field that MOVK or BFI writes is read bit by bit. -/
theorem integerLogicAndSelectionOnStations : Obligations.IntegerLogicAndSelectionOnStations := by
  unfold Obligations.IntegerLogicAndSelectionOnStations
  constructor
  · intro s d a b w im m
    refine ⟨?and, ?or, ?xor, ?andn, ?andi, ?ori, ?xori, ?shl, ?shr, ?sra, ?rotl, ?shli, ?shri, ?srai⟩
    case and => exact yields_result rfl (valAnd_eq w _ _)
    case or => exact yields_result rfl (valOr_eq w _ _)
    case xor => exact yields_result rfl (valXor_eq w _ _)
    case andn => exact yields_result rfl (valAndn_eq w _ _)
    case andi | ori | xori => exact yields_result rfl (outS_w64_toNat _)
    case shl | shli => exact yields_result rfl (valShl_eq w _ _)
    case shr | shri => exact yields_result rfl (valShr_eq w _ _)
    case sra | srai => exact yields_result rfl (valSra_eq w _ _)
    case rotl => exact yields_result rfl (valRotl_eq w _ (shiftOf_le w _))
  · intro s d a b c w im k x l
    refine ⟨?clz, ?ctz, ?popc, ?min, ?max, ?minn, ?maxn, ?slt, ?sltn, ?slti, ?seq, ?sne, ?csel, ?mov, ?movi, ?movk, ?exts, ?extz,
      ?bfi⟩
    case clz => exact yields_result_count rfl (valClz_spec w _)
    case ctz => exact yields_result_count rfl (valCtz_spec w _)
    case popc => exact yields_result rfl (valPopc_eq w _)
    case min => exact yields_result rfl (valMin_eq w _ _)
    case max => exact yields_result rfl (valMax_eq w _ _)
    case minn | maxn | mov | movi => exact yields_result rfl rfl
    case slt | sltn | seq => exact yields_result rfl (ofBool_decide _)
    case slti => exact yields_result rfl (valSlti_eq _ im (by decide))
    case sne => exact yields_result rfl (valSne_eq w _ _)
    case csel => exact yields_result rfl (valCsel_eq w _ _ _)
    case movk => exact ⟨_, rfl, _, result_writesTemp s d _ _, fun _ => getLsbD_valMovk _ _ im⟩
    case exts => exact yields_result rfl (valExts_eq x w _)
    case extz => exact yields_result rfl (valExtz_eq x w _)
    case bfi => exact ⟨_, rfl, _, result_writesTemp s d _ _, fun _ => getLsbD_valBfi _ _ _ _⟩

/-! ### Control cores -/

/-- A core instruction that is one put writes the value that the put equals. -/
theorem yields_put {i : Instr} {s : State} {d : Fin 32} {v v' : Double} (step : exec i s = .next (s.put d v)) (value : v = v') :
    Yields i s (WritesReg s · d v') :=
  ⟨_, step, value ▸ put_writesReg s d v⟩

/-- A put whose value depends on whether the divisor is zero. -/
theorem yields_put_cases {i : Instr} {s : State} {d : Fin 32} {v z q : Double} {zero : Prop}
    (step : exec i s = .next (s.put d v)) (ofZero : zero → v = z) (ofNonzero : ¬ zero → v = q) :
    Yields i s (fun t => (zero → WritesReg s t d z) ∧ (¬ zero → WritesReg s t d q)) :=
  ⟨_, step, fun h => ofZero h ▸ put_writesReg s d v, fun h => ofNonzero h ▸ put_writesReg s d v⟩

/-- A put whose value is a count with a property. -/
theorem yields_put_count {i : Instr} {s : State} {d : Fin 32} {v : Double} {m : Nat} {P : Nat → Prop}
    (step : exec i s = .next (s.put d v)) (count : ∃ n ≤ m, v = dbl n ∧ P n) :
    Yields i s (fun t => ∃ n ≤ m, WritesReg s t d (dbl n) ∧ P n) := by
  obtain ⟨n, le, rfl, holds⟩ := count
  exact ⟨_, step, n, le, put_writesReg s d _, holds⟩

/-- Settles O3: each instruction is one put, and its value is that of the station's form. -/
theorem integerInstructionsOnCores : Obligations.IntegerInstructionsOnCores := by
  unfold Obligations.IntegerInstructionsOnCores
  constructor
  · intro s d a b w im h
    refine ⟨?add, ?sub, ?addi, ?neg, ?abs, ?adds, ?addsn, ?subs, ?subsn, ?lea, ?mul, ?mulh, ?mulhn, ?div, ?rem, ?divn, ?remn⟩
    case add | sub | adds | addsn | subs | subsn | lea => exact yields_put rfl rfl
    case addi => exact yields_put rfl (valAdd_w64 _ _)
    case neg => exact yields_put rfl (valNeg_eq w _)
    case abs => exact yields_put rfl (valAbs_eq w _)
    case mul => exact yields_put rfl (valMul_eq w _ _)
    case mulh => exact yields_put rfl (valMulh_eq w _ _)
    case mulhn => exact yields_put rfl (valMulhn_eq w _ _)
    case div => exact yields_put_cases rfl (valDiv_of_zero w _) (valDiv_of_ne_zero w _)
    case rem => exact yields_put_cases rfl (valRem_of_zero w _) (valRem_of_ne_zero w _)
    case divn => exact yields_put_cases rfl (valDivn_of_zero w _) (valDivn_of_ne_zero w _)
    case remn => exact yields_put rfl (valRemn_eq w _ _)
  · intro s d a b w im m k x l
    refine ⟨?and, ?or, ?xor, ?andn, ?andi, ?ori, ?xori, ?shl, ?shr, ?sra, ?rotl, ?shli, ?shri, ?srai, ?clz, ?ctz, ?popc, ?min, ?max,
      ?minn, ?maxn, ?slt, ?sltn, ?slti, ?seq, ?sne, ?csel, ?mov, ?movi, ?movk, ?exts, ?extz, ?bfi⟩
    case and => exact yields_put rfl (valAnd_eq w _ _)
    case or => exact yields_put rfl (valOr_eq w _ _)
    case xor => exact yields_put rfl (valXor_eq w _ _)
    case andn => exact yields_put rfl (valAndn_eq w _ _)
    case andi | ori | xori => exact yields_put rfl (outS_w64_toNat _)
    case shl | shli => exact yields_put rfl (valShl_eq w _ _)
    case shr | shri => exact yields_put rfl (valShr_eq w _ _)
    case sra | srai => exact yields_put rfl (valSra_eq w _ _)
    case rotl => exact yields_put rfl (valRotl_eq w _ (shiftOf_le w _))
    case clz => exact yields_put_count rfl (valClz_spec w _)
    case ctz => exact yields_put_count rfl (valCtz_spec w _)
    case popc => exact yields_put rfl (valPopc_eq w _)
    case min => exact yields_put rfl (valMin_eq w _ _)
    case max => exact yields_put rfl (valMax_eq w _ _)
    case minn | maxn | mov | movi => exact yields_put rfl rfl
    case slt | sltn | seq => exact yields_put rfl (ofBool_decide _)
    case slti => exact yields_put rfl (valSlti_eq _ im (by decide))
    case sne => exact yields_put rfl (valSne_eq w _ _)
    case csel => exact yields_put rfl (valCsel_eq w _ _ _)
    case movk => exact ⟨_, rfl, _, put_writesReg s d _, fun _ => getLsbD_valMovk _ _ im⟩
    case exts => exact yields_put rfl (valExts_eq x w _)
    case extz => exact yields_put rfl (valExtz_eq x w _)
    case bfi => exact ⟨_, rfl, _, put_writesReg s d _, fun _ => getLsbD_valBfi _ _ _ _⟩

end Sys2Proof.Machine
end

section

/-!
SUPPORT. Branches, jumps, traps and system registers of a control core (R180 to R186, R191, R192, R199 to R202). The statements O4 to O9 are
settled here.
-/

namespace Sys2Proof.Machine

/-! ### Fields of words -/

theorem bits_eq_toNat {n : Nat} (x : BitVec n) (lo w : Nat) : bits x lo w = x.toNat / 2 ^ lo % 2 ^ w := by
  rw [bits, BitVec.extractLsb'_toNat, Nat.shiftRight_eq_div_pow]

theorem bit_iff_div {n : Nat} (x : BitVec n) (k : Nat) : bit x k = true ↔ x.toNat / 2 ^ k % 2 = 1 := by
  rw [bit, BitVec.getLsbD, Nat.testBit_eq_decide_div_mod_eq, decide_eq_true_eq]

theorem bit_eq_false_iff_div {n : Nat} (x : BitVec n) (k : Nat) : bit x k = false ↔ x.toNat / 2 ^ k % 2 = 0 := by
  rw [← Bool.not_eq_true, bit_iff_div]
  omega

/-- A word with its low k bits cleared. -/
theorem setBits_low_zero (x : Double) (k : Nat) : setBits x 0 k 0 = BitVec.ofNat 64 (x.toNat / 2 ^ k * 2 ^ k) := by
  refine BitVec.eq_of_getLsbD_eq fun i hi => ?_
  rw [getLsbD_setBits _ _ _ _ _ hi, BitVec.getLsbD_ofNat, decide_eq_true hi, Bool.true_and, Nat.testBit_mul_two_pow,
    Nat.testBit_div_two_pow, BitVec.getLsbD]
  by_cases low : i < k
  · simp [low, not_le.2 low]
  · rw [if_neg (by omega), Nat.sub_add_cancel (by omega)]
    simp [not_lt.1 low]

theorem zext64_eq_ofNat (x : Double) (n : Nat) : zext64 x n = BitVec.ofNat 64 (x.toNat % 2 ^ n) := by
  refine BitVec.eq_of_toNat_eq ?_
  simp [zext64, BitVec.zeroExtend, BitVec.truncate, BitVec.toNat_setWidth]

/-! ### Instructions that change their core alone -/

/-- An instruction that changes its core alone. -/
theorem yields_modCc {i : Instr} {s : State} {f : Core → Core} {k : Core} (step : exec i s = .next (s.modCc f)) (core : f s.cc = k) :
    Yields i s (fun t => OnlyCore s t ∧ t.cc = k) :=
  ⟨_, step, onlyCore_modCc s f, (cc_modCc s f).trans core⟩

/-- An instruction that changes its core alone, and goes on. -/
theorem yields_modCc_cnext {i : Instr} {s : State} {f : Core → Core} {k : Core} (step : exec i s = .next (s.modCc f).cnext)
    (core : { f s.cc with pc := (f s.cc).pc + 4 } = k) : Yields i s (fun t => OnlyCore s t ∧ t.cc = k) :=
  ⟨_, step, onlyCore_trans (onlyCore_modCc s f) (onlyCore_modCc _ _), by rw [cc_cnext, cc_modCc, core]⟩

/-- An instruction that goes on and does nothing else. -/
theorem yields_cnext {i : Instr} {s : State} (step : exec i s = .next s.cnext) :
    Yields i s (fun t => OnlyCore s t ∧ t.cc = { s.cc with pc := s.cc.pc + 4 }) :=
  ⟨_, step, onlyCore_modCc s _, cc_cnext s⟩

/-- An instruction that traps in the state u. -/
theorem yields_coreTrap {i : Instr} {s u : State} {c : Cause} {info : Nat} {v : Double} (step : exec i s = .next (u.coreTrap c info v)) :
    Yields i s (Traps u · c info v) :=
  ⟨_, step, coreTrap_traps u c info v⟩

/-! ### Branches and jumps (R191, R192) -/

theorem Core.target_eq (k : Core) {w : Nat} (o : BitVec w) : k.target o = k.pc + 4 * o.signExtend 64 := by
  rw [Core.target, BitVec.mul_comm]

theorem yields_branch {i : Instr} {s : State} {c : Prop} [Decidable c] {o : BitVec 14} (step : exec i s = s.branch (decide c) o) :
    Yields i s (fun t => OnlyCore s t ∧ (c → t.cc = { s.cc with pc := s.cc.pc + 4 * o.signExtend 64 }) ∧
      (¬ c → t.cc = { s.cc with pc := s.cc.pc + 4 })) := by
  by_cases holds : c
  · refine ⟨s.goTo (s.cc.target o), by simp [step, State.branch, holds], onlyCore_modCc s _, fun _ => ?_, fun k => absurd holds k⟩
    rw [State.goTo, cc_modCc, Core.target_eq]
  · exact ⟨s.cnext, by simp [step, State.branch, holds], onlyCore_modCc s _, fun k => absurd k holds, fun _ => cc_cnext s⟩

/-- Settles O4: each branch decides its condition on the full words, and goes to its target or to the next instruction. -/
theorem branchesGoWhereTheSpecSays : Obligations.BranchesGoWhereTheSpecSays := by
  unfold Obligations.BranchesGoWhereTheSpecSays
  intro s a b o
  exact ⟨yields_branch rfl, yields_branch rfl, yields_branch rfl, yields_branch rfl, yields_branch rfl, yields_branch rfl⟩

/-- JAL links in g31 and goes to its target. -/
theorem jal_links (s : State) (o : BitVec 24) :
    Yields (.jal o) s (fun t => OnlyCore s t ∧ t.g 31 = s.cc.pc + 4 ∧ (∀ r, r ≠ 31 → t.g r = s.g r) ∧
      t.cc = { s.cc with g := t.cc.g, pc := s.cc.pc + 4 * o.signExtend 64 }) := by
  have core : ((s.modCc (fun k => k.setReg 31 (k.pc + 4))).goTo (s.cc.target o)).cc =
      { s.cc.setReg 31 (s.cc.pc + 4) with pc := s.cc.pc + 4 * o.signExtend 64 } := by
    rw [State.goTo, cc_modCc, cc_modCc, Core.target_eq]
  have reg (r : Fin 32) : ((s.modCc (fun k => k.setReg 31 (k.pc + 4))).goTo (s.cc.target o)).g r =
      (s.cc.setReg 31 (s.cc.pc + 4)).reg r := by rw [State.g, core]; rfl
  refine ⟨_, rfl, onlyCore_trans (onlyCore_modCc s _) (onlyCore_modCc _ _), ?_, fun r hr => ?_, by rw [core]; rfl⟩
  · rw [reg, reg_setReg_same _ _ _ (by decide)]
  · rw [reg, reg_setReg_other _ _ hr, State.g]

/-- A target of JR is aligned when its low two bits are zero. -/
theorem jr_eq (s : State) (a : Fin 32) :
    exec (.jr a) s = .next (if (s.g a).toNat % 4 = 0 then s.goTo (s.g a) else s.coreTrap .align codeAlign (s.g a)) := by
  have low : bits (s.g a) 0 2 = (s.g a).toNat % 4 := by rw [bits_eq_toNat, pow_zero, Nat.div_one]; rfl
  simp only [exec, execJr, low, ne_eq, ite_not]

/-- Settles O5: a jump writes its PC, and JAL the link; JR traps in place of a misaligned target. -/
theorem jumpsGoWhereTheSpecSays : Obligations.JumpsGoWhereTheSpecSays := by
  unfold Obligations.JumpsGoWhereTheSpecSays
  intro s a o
  refine ⟨yields_modCc rfl ?_, jal_links s o, fun aligned => ?_, fun misaligned => ?_⟩
  · rw [Core.target_eq]
  · exact yields_modCc (by rw [jr_eq, if_pos aligned]; rfl) rfl
  · exact yields_coreTrap (by rw [jr_eq, if_neg misaligned]; rfl)

/-! ### Traps and returns (R180 to R182, R186, R201) -/

/-- The lowest pending and enabled event is the one that an interrupt names. -/
theorem pendingEvent_eq_some {k : Core} {b : Nat} (hb : b < 5) (pending : k.events.getLsbD b = true) (enabled : k.iemask.getLsbD b = true)
    (lowest : ∀ e < b, ¬ (k.events.getLsbD e = true ∧ k.iemask.getLsbD e = true)) : k.pendingEvent = some b := by
  rw [Core.pendingEvent, List.find?_range_eq_some]
  refine ⟨by simp [bit, pending, enabled], List.mem_range.2 hb, fun e he => ?_⟩
  simpa [bit, imp_iff_not_or] using lowest e he

theorem pendingEvent_isSome {k : Core} :
    k.pendingEvent.isSome = true ↔ ∃ b < 5, k.events.getLsbD b = true ∧ k.iemask.getLsbD b = true := by
  simp [Core.pendingEvent, bit]

/-- The four bits of STATUS (R181). -/
theorem bit_statusWord (pie pmode ie mode : Bool) :
    bit (statusWord pie pmode ie mode) 0 = mode ∧ bit (statusWord pie pmode ie mode) 1 = ie ∧
      bit (statusWord pie pmode ie mode) 2 = pmode ∧ bit (statusWord pie pmode ie mode) 3 = pie := by
  revert pie pmode ie mode
  decide

/-- The fields of CAUSE (R182). -/
theorem causeWord_fields (c : Cause) {info : Nat} (h : info < 2 ^ 16) :
    (causeWord c info).toNat % 256 = c.code ∧ (causeWord c info).toNat / 2 ^ 16 = info ∧
      ((causeWord c info).getLsbD 8 = true ↔ c = .intr) := by
  have value : (causeWord c info).toNat = info * 65536 + (if c = .intr then 256 else 0) + c.code := by
    rw [causeWord, BitVec.toNat_ofNat]
    cases c <;> simp only [Cause.code, reduceCtorEq, if_true, if_false] <;> omega
  rw [← bit, bit_iff_div, value]
  cases c <;> simp only [Cause.code, reduceCtorEq, if_true, if_false, iff_true, iff_false] <;> omega

/-- What a trap leaves in the registers of its core (R180). -/
theorem traps_fields {s t : State} {c : Cause} {info : Nat} {v : Double} (h : Traps s t c info v) (hi : info < 2 ^ 16) :
    t.cc.epc = s.cc.pc ∧ t.cc.pc = s.cc.hvec ∧ t.cc.eval = v ∧ t.cc.mode = true ∧ t.cc.ie = false ∧
      t.cc.pmode = s.cc.mode ∧ t.cc.pie = s.cc.ie ∧ t.cc.cause.toNat % 256 = c.code ∧
      t.cc.cause.toNat / 2 ^ 16 = info ∧ (t.cc.cause.getLsbD 8 = true ↔ c = .intr) := by
  obtain ⟨mode, ie, pmode, pie⟩ := bit_statusWord s.cc.ie s.cc.mode false true
  obtain ⟨core, -⟩ := h
  rw [core]
  exact ⟨rfl, rfl, rfl, mode, ie, pmode, pie, causeWord_fields c hi⟩

/-- Settles O6: ILLEGAL, FETCH and INTERRUPT are one trap each, and a trap writes what R180 lists. -/
theorem trapEntrySavesAndEntersHostMode : Obligations.TrapEntrySavesAndEntersHostMode := by
  unfold Obligations.TrapEntrySavesAndEntersHostMode
  intro s
  refine ⟨yields_coreTrap rfl, yields_coreTrap rfl, fun b hb pending enabled lowest => ?_, fun t c info v => traps_fields⟩
  exact yields_coreTrap (by simp only [exec, execInterrupt, pendingEvent_eq_some hb pending enabled lowest])

/-! ### Privileged instructions (R183, R201, R202) -/

section
variable {s : State}

theorem srr_of_hostReg (d : Fin 32) {r : SysReg} (h : s.cc.mode = false) (host : hostReg r false = true) :
    Yields (.srr d r) s (Traps s · .priv 0 0) :=
  yields_coreTrap (by simp [exec, execSrr, h, host])

theorem srw_of_hostReg (d : Fin 32) {r : SysReg} (h : s.cc.mode = false) (host : hostReg r true = true) :
    Yields (.srw d r) s (Traps s · .priv 0 0) :=
  yields_coreTrap (by simp [exec, execSrw, h, host])

/-- ERET restores PC, MODE and IE (R201). -/
theorem eret_returns (h : s.cc.mode = true) :
    Yields .eret s (fun t => OnlyCore s t ∧ t.cc = { s.cc with pc := s.cc.epc, status := t.cc.status } ∧
      t.cc.mode = s.cc.pmode ∧ t.cc.ie = s.cc.pie) := by
  obtain ⟨mode, ie, -, -⟩ := bit_statusWord s.cc.pie s.cc.pmode s.cc.pie s.cc.pmode
  have core : (s.modCc Core.eret).cc = s.cc.eret := cc_modCc s _
  refine ⟨s.modCc Core.eret, by simp [exec, execEret, h], onlyCore_modCc s _, ?_⟩
  rw [core]
  exact ⟨rfl, mode, ie⟩

theorem wfe_goesOn (h : s.cc.mode = true) (pending : s.cc.pendingEvent.isSome = true) :
    Yields .wfe s (fun t => OnlyCore s t ∧ t.cc = { s.cc with pc := s.cc.pc + 4, wfe := false }) :=
  yields_modCc_cnext (f := fun k => { k with wfe := false }) (by simp [exec, execWfe, h, pending]) rfl

theorem wfe_waits (h : s.cc.mode = true) (idle : s.cc.pendingEvent.isSome = false) :
    Yields .wfe s (fun t => OnlyCore s t ∧ t.cc = { s.cc with wfe := true }) :=
  yields_modCc (f := fun k => { k with wfe := true }) (by simp [exec, execWfe, h, idle]) rfl

end

/-- Settles O7: in partition mode each of these is a PRIV trap; ERET and WFE change their core alone. -/
theorem privilegedFormsTrapInPartitionMode : Obligations.PrivilegedFormsTrapInPartitionMode := by
  unfold Obligations.PrivilegedFormsTrapInPartitionMode
  intro s d a
  refine ⟨fun h => ⟨?eret, ?wfe, ?qpop, fun r hr => ?regs, srw_of_hostReg d h rfl⟩, eret_returns, fun h pending => ?goesOn, fun h idle => ?waits⟩
  case eret => exact yields_coreTrap (by simp [exec, execEret, h])
  case wfe => exact yields_coreTrap (by simp [exec, execWfe, h])
  case qpop => exact yields_coreTrap (by simp [exec, execQpop, h])
  case regs =>
    have host : hostReg r false = true ∧ hostReg r true = true := by revert r; decide
    exact ⟨srr_of_hostReg d h host.1, srw_of_hostReg d h host.2⟩
  case goesOn => exact wfe_goesOn h (pendingEvent_isSome.2 pending)
  case waits =>
    refine wfe_waits h ?_
    rw [← Bool.not_eq_true, pendingEvent_isSome]
    rintro ⟨b, hb, both⟩
    exact idle b hb both

/-! ### Reading system registers (R183, R200) -/

/-- A read that the mode allows puts the value of the register. -/
theorem srr_puts {s : State} (d : Fin 32) (r : SysReg)
    (allowed : s.cc.mode = true ∨ r ∈ [SysReg.curvf, .coreno, .snkflag, .knottab, .knotcnt, .knotreg, .hfree, .cycle]) :
    exec (.srr d r) s = .next (s.put d (s.sysRead r)) := by
  have free : (!s.cc.mode && hostReg r false) = false := by
    obtain h | h := allowed
    · simp [h]
    · have : hostReg r false = false := by revert r; decide
      simp [this]
  simp only [exec, execSrr, free, Bool.false_eq_true, if_false]

/-- Settles O8: SRR is one put of the value that the table gives. -/
theorem systemRegistersReadAsTheTableSays : Obligations.SystemRegistersReadAsTheTableSays := by
  unfold Obligations.SystemRegistersReadAsTheTableSays
  intro s d r allowed
  refine ⟨_, srr_puts d r allowed, s.sysRead r, put_writesReg s d _, ?_⟩
  have small : s.sched.curCore.val < 18446744073709551616 := by omega
  cases r <;> simp +contextual [State.sysRead, dbl, small]

/-! ### Writing system registers (R183 to R185, R199, R200, R232) -/

/-- A write that the mode allows: the core goes on, but for a CURVF whose range table is not there. -/
theorem srw_writes {s : State} (d : Fin 32) (r : SysReg) (allowed : s.cc.mode = true ∨ hostReg r true = false) :
    exec (.srw d r) s = .next (if (s.sysWrite r (s.g d)).1 then (s.sysWrite r (s.g d)).2.cnext else (s.sysWrite r (s.g d)).2) := by
  have free : (!s.cc.mode && hostReg r true) = false := by
    obtain h | h := allowed <;> simp [h]
  simp only [exec, execSrw, free, Bool.false_eq_true, if_false]

/-- A write that changes one register of the core. -/
theorem srw_core {s : State} (d : Fin 32) {r : SysReg} {f : Core → Core} {k : Core} (allowed : s.cc.mode = true ∨ hostReg r true = false)
    (write : s.sysWrite r (s.g d) = (true, s.modCc f)) (core : { f s.cc with pc := (f s.cc).pc + 4 } = k) :
    Yields (.srw d r) s (fun t => OnlyCore s t ∧ t.cc = k) :=
  yields_modCc_cnext (by rw [srw_writes d r allowed, write, if_pos rfl]) core

/-- A write that changes nothing. -/
theorem srw_ignored {s : State} (d : Fin 32) {r : SysReg} (allowed : s.cc.mode = true ∨ hostReg r true = false)
    (write : s.sysWrite r (s.g d) = (true, s)) :
    Yields (.srw d r) s (fun t => OnlyCore s t ∧ t.cc = { s.cc with pc := s.cc.pc + 4 }) :=
  yields_cnext (by rw [srw_writes d r allowed, write, if_pos rfl])

theorem forCurVf_some {s : State} {v : Nat} (h : s.cc.curVf = some v) (f : State → Nat → State) : s.forCurVf f = f s v := by
  rw [State.forCurVf, h]

theorem forCurVf_none {s : State} (h : s.cc.curVf = none) (f : State → Nat → State) : s.forCurVf f = s := by
  rw [State.forCurVf, h]

/-- A write for the function of CURVF. -/
theorem srw_forCurVf {s : State} (d : Fin 32) {r : SysReg} {v : Nat} (h : s.cc.curVf = some v) (free : hostReg r true = false)
    {f : State → Nat → State} (write : s.sysWrite r (s.g d) = (true, s.forCurVf f)) :
    exec (.srw d r) s = .next (f s v).cnext := by
  rw [srw_writes d r (Or.inr free), write, if_pos rfl, forCurVf_some h]

/-- With CURVF not valid these writes do nothing. -/
theorem sysWrite_of_none {s : State} (h : s.cc.curVf = none) (x : Double) :
    ∀ r ∈ [SysReg.knottab, .knotcnt, .knotreg, .hfree], s.sysWrite r x = (true, s) ∧ hostReg r true = false := by
  simp [State.sysWrite, State.knotReg, State.hFree, forCurVf_none h, hostReg]

/-- KNOTREG discards exactly what the engines keep of the index (R185). -/
theorem eng_dropCopies (s : State) (v idx : Nat) (e : Fin 2) :
    ((s.dropCopies v idx).eng e).knots = (s.eng e).knots.filter (fun k => !(decide (k.vf = v ∧ k.idx = idx))) ∧
      ((s.dropCopies v idx).eng e).bad = (s.eng e).bad.filter (fun k => !(decide (k.vf = v ∧ k.idx = idx))) := by
  have other : (s.dropCopies v idx).eng e = { s.eng e with
      knots := (s.eng e).knots.filter (fun k => decide (k.vf ≠ v ∨ k.idx ≠ idx))
      bad := (s.eng e).bad.filter (fun k => decide (k.vf ≠ v ∨ k.idx ≠ idx)) } := by
    obtain rfl | rfl : e = 0 ∨ e = 1 := by omega
    · rw [State.dropCopies, eng_modEng_other _ _ (by decide), eng_modEng_same]
    · rw [State.dropCopies, eng_modEng_same, eng_modEng_other _ _ (by decide)]
  rw [other]
  simp only [← decide_not, not_and_or, ne_eq, and_self]

/-- HFREE releases exactly the record of the handle, among those of the function (R199). -/
theorem mem_roots_hFree {s : State} {v : Nat} (h : s.cc.curVf = some v) (x : Double) (r : Root) :
    r ∈ (s.hFree x).prick.roots ↔ r ∈ s.prick.roots ∧ ¬ (r.handle = x.toNat ∧ r.vf = v) := by
  rw [State.hFree, forCurVf_some h]
  simp only [List.mem_filter, decide_eq_true_eq, not_and_or, ne_eq]

/-- A CURVF that is not valid names no function, and has no range entries. -/
theorem curvfTo_invalid {s : State} {x : Double} (h : bit x 7 = false) :
    s.curvfTo x = (true, s.modCc (fun k => { k with curvf := x.truncate 8, ranges := [], site := [] })) := by
  simp [State.curvfTo, h]

section
variable {s : State} {x : Double} (valid : bit x 7 = true)
include valid

theorem curvfTo_ok {l : List Range} {u : State} (h : s.rangeTable (coreDie s.sched.curCore) (bits x 0 7) = .ok l u) :
    s.curvfTo x = (true, u.modCc (fun k => { k with curvf := x.truncate 8, ranges := l, site := [] })) := by
  simp [State.curvfTo, valid, h]

theorem curvfTo_wait {u : State} (h : s.rangeTable (coreDie s.sched.curCore) (bits x 0 7) = .wait u) :
    s.curvfTo x = (false, u) := by
  simp [State.curvfTo, valid, h]

theorem curvfTo_fail {c a : Nat} {u : State} (h : s.rangeTable (coreDie s.sched.curCore) (bits x 0 7) = .fail c a u) :
    s.curvfTo x = (false, u.coreTrap .memfault codeUncorrectable (s.vf (bits x 0 7)).rangebase) := by
  simp [State.curvfTo, valid, h]

end

/-- A function whose RANGEBASE is 0 has no range entries (R232). -/
theorem rangeTable_zero {s : State} {vf : Nat} (h : (s.vf vf).rangebase = 0) (d : Fin 2) : s.rangeTable d vf = .ok [] s := by
  rw [State.rangeTable, if_pos h]

/-- A write of CURVF in host mode whose range table is there. -/
theorem srw_curvf_ok {s u : State} (d : Fin 32) {l : List Range} (h : s.cc.mode = true) (valid : bit (s.g d) 7 = true)
    (table : s.rangeTable (coreDie s.sched.curCore) (bits (s.g d) 0 7) = .ok l u) :
    Yields (.srw d .curvf) s (fun t => OnlyCore u t ∧
      t.cc = { u.cc with curvf := (s.g d).truncate 8, ranges := l, site := [], pc := u.cc.pc + 4 }) := by
  refine ⟨(u.modCc (fun k => { k with curvf := (s.g d).truncate 8, ranges := l, site := [] })).cnext, ?_,
    onlyCore_trans (onlyCore_modCc u _) (onlyCore_modCc _ _), ?_⟩
  · rw [srw_writes d .curvf (Or.inl h), State.sysWrite, curvfTo_ok valid table, if_pos rfl]
  · rw [cc_cnext, cc_modCc]

/-- The writes of the registers marked H, in host mode. -/
theorem srw_hostRegs {s : State} (d : Fin 32) (h : s.cc.mode = true) :
    let x := s.g d
    let core := fun (k : Core) (t : State) => OnlyCore s t ∧ t.cc = { k with pc := s.cc.pc + 4 }
    Yields (.srw d .status) s (core { s.cc with status := BitVec.ofNat 64 (x.toNat % 16) }) ∧
    Yields (.srw d .epc) s (core { s.cc with epc := x }) ∧
    Yields (.srw d .cause) s (core { s.cc with cause := x &&& 0xFFFF01FF }) ∧
    Yields (.srw d .eval) s (core { s.cc with eval := x }) ∧
    Yields (.srw d .hvec) s (core { s.cc with hvec := BitVec.ofNat 64 (x.toNat / 4 * 4) }) ∧
    Yields (.srw d .events) s (core { s.cc with events := s.cc.events &&& ~~~(x.truncate 5) }) ∧
    Yields (.srw d .iemask) s (core { s.cc with iemask := x }) := by
  have status : zext64 (s.g d) 4 = BitVec.ofNat 64 ((s.g d).toNat % 16) := zext64_eq_ofNat _ 4
  have hvec : setBits (s.g d) 0 2 0 = BitVec.ofNat 64 ((s.g d).toNat / 4 * 4) := setBits_low_zero _ 2
  refine ⟨srw_core d (Or.inl h) rfl ?_, srw_core d (Or.inl h) rfl rfl, srw_core d (Or.inl h) rfl rfl, srw_core d (Or.inl h) rfl rfl,
    srw_core d (Or.inl h) rfl ?_, srw_core d (Or.inl h) rfl rfl, srw_core d (Or.inl h) rfl rfl⟩
  · rw [status]
  · rw [hvec]

/-- The registers of the function that CURVF names. -/
theorem srw_functionRegs {s : State} (d : Fin 32) {v : Nat} (h : s.cc.curVf = some v) :
    let x := s.g d
    Yields (.srw d .knottab) s (fun t => (t.vf v).knottab = BitVec.ofNat 64 (x.toNat / 16 * 16) ∧
      (∀ w, w ≠ v → t.vf w = s.vf w) ∧ t.cc = { s.cc with pc := s.cc.pc + 4 }) ∧
    (x.toNat ≤ 65536 → Yields (.srw d .knotcnt) s (fun t => (t.vf v).knotcnt.toNat = x.toNat ∧
      (∀ w, w ≠ v → t.vf w = s.vf w) ∧ t.cc = { s.cc with pc := s.cc.pc + 4 })) ∧
    Yields (.srw d .hfree) s (fun t =>
      (∀ r, r ∈ t.prick.roots ↔ r ∈ s.prick.roots ∧ ¬ (r.handle = x.toNat ∧ r.vf = v)) ∧
      t.cc = { s.cc with pc := s.cc.pc + 4 } ∧ t.mm = s.mm ∧ t.host = s.host ∧ t.fab = s.fab) ∧
    Yields (.srw d .knotreg) s (fun t =>
      (∀ e : Fin 2, (t.eng e).knots = (s.eng e).knots.filter (fun k => !(decide (k.vf = v ∧ k.idx = x.toNat))) ∧
        (t.eng e).bad = (s.eng e).bad.filter (fun k => !(decide (k.vf = v ∧ k.idx = x.toNat)))) ∧
      t.cc = { s.cc with pc := s.cc.pc + 4 } ∧ t.mm = s.mm ∧ t.host = s.host ∧ t.fab = s.fab) := by
  have same (f : Vf → Vf) : ((s.modVf v f).cnext).vf v = f (s.vf v) := vf_modVf_same s v f
  have other (f : Vf → Vf) (w : Nat) (hw : w ≠ v) : ((s.modVf v f).cnext).vf w = s.vf w := vf_modVf_other s f hw
  refine ⟨⟨_, srw_forCurVf d h rfl rfl, ?tab, other _, cc_cnext _⟩, fun small => ⟨_, srw_forCurVf d h rfl rfl, ?cnt⟩,
    ⟨_, srw_forCurVf d h rfl rfl, fun r => ?roots, cc_cnext _, rfl, rfl, rfl⟩,
    ⟨_, srw_forCurVf d h rfl rfl, eng_dropCopies s v _, cc_cnext _, rfl, rfl, rfl⟩⟩
  case tab =>
    rw [same]
    exact setBits_low_zero _ 4
  case cnt =>
    have fits : ((s.g d).truncate 17).toNat = (s.g d).toNat := by
      rw [BitVec.truncate, BitVec.toNat_setWidth]
      omega
    dsimp only
    rw [State.knotCount, if_pos small, same]
    exact ⟨fits, other _, cc_cnext _⟩
  case roots =>
    have := mem_roots_hFree h (s.g d) r
    rwa [State.hFree, forCurVf_some h] at this

/-- EVENTS_CLEAR and CURVF_WRITE are the writes that SRW makes. -/
theorem coreSteps_of_writes (s : State) :
    let x := s.sched.arg.value
    Yields .eventsClear s (fun t => OnlyCore s t ∧
      t.cc = { s.cc with events := s.cc.events &&& ~~~(BitVec.ofNat 5 x) }) ∧
    (x / 128 % 2 = 0 →
      Yields .curvfWrite s (fun t => OnlyCore s t ∧
        t.cc = { s.cc with curvf := BitVec.ofNat 8 x, ranges := [], site := [] })) ∧
    (x / 128 % 2 = 1 → ∀ l u, s.rangeTable (coreDie s.sched.curCore) (x % 128) = .ok l u →
      Yields .curvfWrite s (fun t => OnlyCore u t ∧
        t.cc = { u.cc with curvf := BitVec.ofNat 8 x, ranges := l, site := [] })) := by
  have low (x : Nat) {n : Nat} (hn : n ≤ 64) : (dbl x).truncate n = BitVec.ofNat n x := by
    rw [dbl, BitVec.truncate, BitVec.setWidth_ofNat_of_le hn]
  have seven (x : Nat) : bits (dbl x) 0 7 = x % 128 := by rw [bits_eq_toNat, dbl, BitVec.toNat_ofNat]; omega
  have step : exec .curvfWrite s = .next (s.curvfTo (dbl s.sched.arg.value)).2 := rfl
  refine ⟨yields_modCc rfl ?_, fun off => ?_, fun on l u table => ?_⟩
  · rw [← low _ (by decide : 5 ≤ 64)]
    rfl
  · have invalid : bit (dbl s.sched.arg.value) 7 = false := by
      rw [bit_eq_false_iff_div, dbl, BitVec.toNat_ofNat]
      omega
    rw [← low _ (by decide : 8 ≤ 64)]
    exact yields_modCc (by rw [step, curvfTo_invalid invalid]) rfl
  · have valid : bit (dbl s.sched.arg.value) 7 = true := by
      rw [bit_iff_div, dbl, BitVec.toNat_ofNat]
      omega
    rw [← seven] at table
    rw [← low _ (by decide : 8 ≤ 64)]
    exact ⟨_, by rw [step, curvfTo_ok valid table], onlyCore_modCc u _, cc_modCc u _⟩

/-- So are KNOTREG and HFREE. -/
theorem engineSteps_of_writes {s : State} {v : Nat} (h : s.cc.curVf = some v) (small : s.sched.arg.value < 2 ^ 64) :
    let x := s.sched.arg.value
    Yields .knotreg s (fun t =>
      (∀ e : Fin 2, (t.eng e).knots = (s.eng e).knots.filter (fun k => !(decide (k.vf = v ∧ k.idx = x))) ∧
        (t.eng e).bad = (s.eng e).bad.filter (fun k => !(decide (k.vf = v ∧ k.idx = x)))) ∧
      t.cores = s.cores ∧ t.mm = s.mm ∧ t.host = s.host ∧ t.fab = s.fab) ∧
    Yields .hfree s (fun t =>
      (∀ r, r ∈ t.prick.roots ↔ r ∈ s.prick.roots ∧ ¬ (r.handle = x ∧ r.vf = v)) ∧
      t.cores = s.cores ∧ t.mm = s.mm ∧ t.host = s.host ∧ t.fab = s.fab) := by
  have value : (dbl s.sched.arg.value).toNat = s.sched.arg.value := by
    rw [dbl, BitVec.toNat_ofNat]
    exact Nat.mod_eq_of_lt small
  have drop : s.knotReg (dbl s.sched.arg.value) = s.dropCopies v s.sched.arg.value := by rw [State.knotReg, forCurVf_some h, value]
  have free := mem_roots_hFree h (dbl s.sched.arg.value)
  have same : (s.hFree (dbl s.sched.arg.value)).cores = s.cores ∧ (s.hFree (dbl s.sched.arg.value)).mm = s.mm ∧
      (s.hFree (dbl s.sched.arg.value)).host = s.host ∧ (s.hFree (dbl s.sched.arg.value)).fab = s.fab := by
    rw [State.hFree, forCurVf_some h]
    exact ⟨rfl, rfl, rfl, rfl⟩
  rw [value] at free
  exact ⟨⟨_, congrArg Host.Outcome.next drop, eng_dropCopies s v _, rfl, rfl, rfl, rfl⟩, ⟨_, rfl, free, same⟩⟩

/-- Settles O9: a write of SRW is one change of the core, of the function that CURVF names, or of what the engines keep for it. -/
theorem systemRegistersAreWritten : Obligations.SystemRegistersAreWritten := by
  unfold Obligations.SystemRegistersAreWritten
  refine ⟨fun s d => ⟨fun h => ?host, ?coreno, ?cycle, ?snkflag, fun off r hr => ?off, fun v h => srw_functionRegs d h⟩, fun s => ?steps⟩
  case host =>
    have seven : bits (s.g d) 0 7 = (s.g d).toNat % 128 := by rw [bits_eq_toNat, pow_zero, Nat.div_one]; rfl
    obtain ⟨status, epc, cause, eval, hvec, events, iemask⟩ := srw_hostRegs (s := s) d h
    refine ⟨status, epc, cause, eval, hvec, events, iemask, fun off => ?invalid, fun on => ?valid⟩
    case invalid =>
      have invalid : bit (s.g d) 7 = false := by rw [bit_eq_false_iff_div]; exact off
      exact srw_core d (Or.inl h) (curvfTo_invalid invalid) rfl
    case valid =>
      have valid : bit (s.g d) 7 = true := by rw [bit_iff_div]; exact on
      rw [← seven]
      refine ⟨fun l u => srw_curvf_ok d h valid, fun u table => ?_, fun c a u table => yields_coreTrap ?_, fun base => ?_⟩
      · rw [srw_writes d .curvf (Or.inl h), State.sysWrite, curvfTo_wait valid table]
        rfl
      · rw [srw_writes d .curvf (Or.inl h), State.sysWrite, curvfTo_fail valid table]
        rfl
      · exact srw_curvf_ok d h valid (rangeTable_zero base _)
  case coreno => exact srw_ignored d (Or.inr rfl) rfl
  case cycle => exact srw_ignored d (Or.inr rfl) rfl
  case snkflag => exact srw_core d (Or.inr rfl) rfl rfl
  case off =>
    obtain ⟨write, free⟩ := sysWrite_of_none off (s.g d) r hr
    exact srw_ignored d (Or.inr free) write
  case steps =>
    obtain ⟨events, invalid, valid⟩ := coreSteps_of_writes s
    exact ⟨events, invalid, valid, fun v => engineSteps_of_writes⟩

end Sys2Proof.Machine
end

section

/-!
SUPPORT. Memory as a control core reads and writes it (R179, R188 to R190, R206): what a write at the home changes, what a read through the L1 gives,
and what a store in the buffer lays over it.
-/

namespace Sys2Proof.Machine

/-! ### Writes at the home (R41, R241) -/

/-- Only caches, poison marks, charged work and the free choices differ: what a write does to the lines of its range beside their bytes. -/
def LinesOnly (s t : State) : Prop := t = { s.cachesFrom t with mm := { (s.cachesFrom t).mm with poison := t.mm.poison } }

theorem linesOnly_cacheOnly {s t : State} (h : CacheOnly s t) : LinesOnly s t := by
  unfold LinesOnly
  rw [h]
  rfl

theorem linesOnly_trans {s t u : State} (h : LinesOnly s t) (k : LinesOnly t u) : LinesOnly s u := by
  unfold LinesOnly at *
  rw [k, h]
  rfl

/-- Whatever is read of the second state. -/
theorem linesOnly_read {α : Type} {s t : State} (h : LinesOnly s t) (f : State → α) :
    f t = f { s.cachesFrom t with mm := { (s.cachesFrom t).mm with poison := t.mm.poison } } := congrArg f h

theorem linesOnly_charge (s : State) (vf col : Nat) (w : Work) (n : Nat) : LinesOnly s (s.charge vf col w n) :=
  linesOnly_cacheOnly (cacheOnly_charge s vf col w n)

/-- A write at the home prepares its lines, and then writes its bytes and forgets the releases that they carried. -/
theorem serveWrite_eq (s : State) (vf pa n v : Nat) : ∃ u, LinesOnly s u ∧
    s.serveWrite vf pa n v = u.modMm (fun m => { m with mem := Mem.write m.mem pa n v, rels := relDrop m.rels pa n }) := by
  refine ⟨_, ?_, rfl⟩
  refine List.foldlRecOn (motive := LinesOnly s) _ _ (linesOnly_cacheOnly (cacheOnly_refl s)) (fun b hb p _ => linesOnly_trans hb ?_)
  have piece : LinesOnly b ((b.fillL2 (p.1 / 128) vf).modMm (·.markDirty (p.1 / 128) vf)) :=
    linesOnly_trans (linesOnly_cacheOnly (cacheOnly_fillL2 _ _ _)) rfl
  have host : LinesOnly b (if isHostMem p.1 then ((b.fillL2 (p.1 / 128) vf).modMm (·.markDirty (p.1 / 128) vf)).charge vf
      (portCol (homeDie p.1).val 0) .simiow 1 else (b.fillL2 (p.1 / 128) vf).modMm (·.markDirty (p.1 / 128) vf)) := by
    split
    · exact linesOnly_trans piece (linesOnly_charge _ _ _ _ _)
    · exact piece
  dsimp only
  split
  · exact linesOnly_trans host rfl
  · exact host

@[simp] theorem serveWrite_mem (s : State) (vf pa n v : Nat) : (s.serveWrite vf pa n v).mm.mem = Mem.write s.mm.mem pa n v := by
  obtain ⟨u, h, e⟩ := serveWrite_eq s vf pa n v
  rw [e, modMm_mm, linesOnly_read h State.mm]
  rfl

@[simp] theorem serveWrite_fe (s : State) (vf pa n v : Nat) : (s.serveWrite vf pa n v).mm.fe = s.mm.fe := by
  obtain ⟨u, h, e⟩ := serveWrite_eq s vf pa n v
  rw [e, modMm_mm, linesOnly_read h State.mm]
  rfl

@[simp] theorem serveWrite_host (s : State) (vf pa n v : Nat) : (s.serveWrite vf pa n v).host = s.host := by
  obtain ⟨u, h, e⟩ := serveWrite_eq s vf pa n v
  rw [e, modMm_host, linesOnly_read h State.host]
  rfl

@[simp] theorem serveWrite_cores (s : State) (vf pa n v : Nat) : (s.serveWrite vf pa n v).cores = s.cores := by
  obtain ⟨u, h, e⟩ := serveWrite_eq s vf pa n v
  rw [e, modMm_cores, linesOnly_read h State.cores]
  rfl

@[simp] theorem serveWrite_curCore (s : State) (vf pa n v : Nat) : (s.serveWrite vf pa n v).sched.curCore = s.sched.curCore :=
  aside_curCore (aside_serveWrite s vf pa n v)

theorem serveWrite_cc (s : State) (vf pa n v : Nat) : (s.serveWrite vf pa n v).cc = s.cc := by
  simp only [State.cc, State.core, serveWrite_cores, serveWrite_curCore]

/-- Setting a full/empty bit changes no byte. -/
theorem feSet_eq (s : State) (vf pa : Nat) (full : Bool) : ∃ u, LinesOnly s u ∧
    s.feSet vf pa full = u.modMm (fun m => { m with fe := if full then nput m.fe (pa / 16) else ndrop m.fe (pa / 16) }) :=
  ⟨(s.fillL2 (pa / 128) vf).modMm (·.markDirty (pa / 128) vf), linesOnly_trans (linesOnly_cacheOnly (cacheOnly_fillL2 _ _ _)) rfl, rfl⟩

@[simp] theorem feSet_mem (s : State) (vf pa : Nat) (full : Bool) : (s.feSet vf pa full).mm.mem = s.mm.mem := by
  obtain ⟨u, h, e⟩ := feSet_eq s vf pa full
  rw [e, modMm_mm, linesOnly_read h State.mm]
  rfl

@[simp] theorem feSet_fe (s : State) (vf pa : Nat) (full : Bool) :
    (s.feSet vf pa full).mm.fe = if full then nput s.mm.fe (pa / 16) else ndrop s.mm.fe (pa / 16) := by
  obtain ⟨u, h, e⟩ := feSet_eq s vf pa full
  rw [e, modMm_mm, linesOnly_read h State.mm]
  rfl

theorem feSet_cc (s : State) (vf pa : Nat) (full : Bool) : (s.feSet vf pa full).cc = s.cc := by
  obtain ⟨u, h, e⟩ := feSet_eq s vf pa full
  rw [e]
  exact (linesOnly_read h State.cc).trans rfl

/-- The record of a core's write stands among the accesses, and changes nothing else. -/
theorem coreWritten_leaves (s : State) (c : Fin 4) (vf pa n : Nat) (rdc sys amo : Bool) :
    (s.coreWritten c vf pa n rdc sys amo).mm = { s.mm with accesses := (s.coreWritten c vf pa n rdc sys amo).mm.accesses } ∧
      (s.coreWritten c vf pa n rdc sys amo).cc = s.cc := by
  unfold State.coreWritten
  split <;> exact ⟨rfl, rfl⟩

/-! ### Bytes within a range that is read -/

/-- A read of part of a range is part of the number that the range holds. -/
theorem Mem.read_part (m : List Host.Cell) (a k n j : Nat) :
    Mem.read m a (k + n + j) / 256 ^ k % 256 ^ n = Mem.read m (a + k) n := by
  have low (b i : Nat) : ∀ n, Mem.read m b (n + i) % 256 ^ n = Mem.read m b n := by
    intro n
    induction n generalizing b with
    | zero => simp [Mem.read, Nat.mod_one]
    | succ n ih =>
      have byte : (Mem.get m b).toNat < 256 := (Mem.get m b).isLt
      rw [Nat.succ_add, Mem.read, Mem.read, Nat.pow_succ', Nat.mod_mul, Nat.add_mul_mod_self_left, Nat.mod_eq_of_lt byte,
        Nat.add_mul_div_left _ _ (by decide), Nat.div_eq_of_lt byte, Nat.zero_add, ih]
  induction k generalizing a with
  | zero => rw [pow_zero, Nat.div_one, Nat.zero_add, low, Nat.add_zero]
  | succ k ih =>
    have byte : (Mem.get m a).toNat < 256 := (Mem.get m a).isLt
    rw [show k + 1 + n + j = k + n + j + 1 by omega, Mem.read, Nat.pow_succ', ← Nat.div_div_eq_div_mul,
      Nat.add_mul_div_left _ _ (by decide), Nat.div_eq_of_lt byte, Nat.zero_add, ih, Nat.add_assoc, Nat.add_comm 1 k]

theorem Mem.read_lt (m : List Host.Cell) (a n : Nat) : Mem.read m a n < 256 ^ n := by
  have := Mem.read_part m a 0 n 0
  rw [pow_zero, Nat.div_one, Nat.zero_add, Nat.add_zero, Nat.add_zero] at this
  rw [← this]
  exact Nat.mod_lt _ (by positivity)

theorem two_pow_eight_mul (n : Nat) : 2 ^ (8 * n) = 256 ^ n := by rw [pow_mul]; norm_num

/-- Bytes k to k + n − 1 of a number of m bytes that is read. -/
theorem extract_read (c : List Host.Cell) (a : Nat) {k n m : Nat} (h : k + n ≤ m) :
    ((BitVec.ofNat (8 * m) (Mem.read c a m)).extractLsb' (8 * k) (8 * n)).toNat = Mem.read c (a + k) n := by
  have all : Mem.read c a m % 2 ^ (8 * m) = Mem.read c a m := Nat.mod_eq_of_lt (by
    rw [two_pow_eight_mul]
    exact Mem.read_lt c a m)
  have part := Mem.read_part c a k n (m - (k + n))
  rw [Nat.add_sub_cancel' h] at part
  rw [BitVec.extractLsb'_toNat, BitVec.toNat_ofNat, all, Nat.shiftRight_eq_div_pow, two_pow_eight_mul, two_pow_eight_mul, part]

/-! ### The L1 (R188) -/

/-- The line of an address lies on the die of the address. -/
theorem homeDie_line (pa : Nat) : homeDie (pa / 128 * 128) = homeDie pa := by
  have same (k : Nat) (h : 128 ∣ k) : pa / 128 * 128 / k = pa / k := by
    obtain ⟨q, rfl⟩ := h
    rw [← Nat.div_div_eq_div_mul, ← Nat.div_div_eq_div_mul, Nat.mul_div_cancel _ (by decide)]
  have host : 2 ^ 51 ≤ pa / 128 * 128 ↔ 2 ^ 51 ≤ pa := by omega
  unfold homeDie
  rw [same _ (by decide), same _ (by decide)]
  exact if_congr host rfl rfl

theorem pieces_line (a : Nat) : pieces (a * 128) 128 = [(a * 128, 128)] := by
  have : a * 128 % 128 = 0 := Nat.mul_mod_left _ _
  simp [pieces, linePieces, this]

/-- A core reads a line that its die homes as memory holds it. -/
theorem serveRead_homeLine (s : State) {die : Fin 2} (vf a : Nat) (h : homeDie (a * 128) = die) :
    (s.serveRead die vf (a * 128) 128).1 = Mem.read s.mm.mem (a * 128) 128 := by
  simp [State.serveRead, pieces_line, h]

/-- Two states agree on all that a core's read through its L1 may not change. -/
structure ReadsL1 (s t : State) : Prop where
  core : t.cc = { s.cc with l1 := t.cc.l1 }
  others : ∀ c, c ≠ s.sched.curCore → t.core c = s.core c
  current : t.sched.curCore = s.sched.curCore
  memory : t.mm.mem = s.mm.mem

theorem readsL1_cacheOnly {s t : State} (h : CacheOnly s t) : ReadsL1 s t where
  core := by rw [cacheOnly_cc h]
  others c _ := cacheOnly_core h c
  current := aside_curCore (cacheOnly_aside h)
  memory := cacheOnly_mem h

theorem readsL1_trans {s t u : State} (h : ReadsL1 s t) (k : ReadsL1 t u) : ReadsL1 s u where
  core := by rw [k.core, h.core]
  others c hc := (k.others c (by rwa [h.current])).trans (h.others c hc)
  current := k.current.trans h.current
  memory := k.memory.trans h.memory

theorem readsL1_modCc (s : State) (f : Core → List L1Line) : ReadsL1 s (s.modCc (fun k => { k with l1 := f k })) where
  core := by rw [cc_modCc]
  others _ hc := core_modCc_other s _ hc
  current := rfl
  memory := rfl

/-- A full L1 displaces one of its older lines when a new one has come in, and one that is not full may. -/
def State.displaceL1 (s : State) : State :=
  match s.cc.l1.drop 1 with
  | [] => s
  | x :: xs =>
    let p := s.pick (if l1Lines ≤ xs.length + 1 then xs.length + 1 else xs.length + 2)
    match (x :: xs)[p.1]? with
    | none => p.2
    | some y => p.2.modCc (fun k => { k with l1 := k.l1.filter (fun l => decide (l.pa ≠ y.pa)) })

theorem readsL1_displaceL1 (s : State) : ReadsL1 s s.displaceL1 := by
  unfold State.displaceL1
  split
  · exact readsL1_cacheOnly (cacheOnly_refl s)
  · next x xs _ =>
    have picked := readsL1_cacheOnly (cacheOnly_pick s (if l1Lines ≤ xs.length + 1 then xs.length + 1 else xs.length + 2))
    dsimp only
    split
    · exact picked
    · exact readsL1_trans picked (readsL1_modCc _ _)

/-- A read that the L1 does not hold fills a line from the home or the RDC. -/
theorem l1Read_fills {s : State} {pa n : Nat} (vf : Nat) (miss : s.cc.l1Get pa n = none) :
    s.l1Read vf pa n =
      (((BitVec.ofNat 1024 (s.serveRead (coreDie s.sched.curCore) vf (pa / 128 * 128) 128).1).extractLsb' (8 * (pa % 128)) (8 * n)).toNat,
        ((s.serveRead (coreDie s.sched.curCore) vf (pa / 128 * 128) 128).2.modCc (fun k => { k with l1 :=
          ⟨pa / 128, BitVec.ofNat 1024 (s.serveRead (coreDie s.sched.curCore) vf (pa / 128 * 128) 128).1⟩ :: k.l1 })).displaceL1) := by
  rw [State.l1Read, miss]
  generalize s.serveRead _ _ _ _ = g
  dsimp only
  generalize g.2.modCc _ = f
  unfold State.displaceL1
  generalize List.drop 1 f.cc.l1 = old
  cases old with
  | nil => rfl
  | cons x xs =>
    dsimp only
    generalize (x :: xs)[(f.pick _).1]? = y
    cases y <;> rfl

/-- A read through the L1 changes nothing but caches, and its value has the bytes asked for. -/
theorem l1Read_leaves (s : State) (vf pa n : Nat) : ReadsL1 s (s.l1Read vf pa n).2 ∧ (s.l1Read vf pa n).1 < 256 ^ n := by
  rw [← two_pow_eight_mul]
  cases held : s.cc.l1Get pa n with
  | some v =>
    obtain ⟨l, -, rfl⟩ := Option.map_eq_some_iff.1 held
    rw [State.l1Read, held]
    exact ⟨readsL1_cacheOnly (cacheOnly_refl s), BitVec.isLt _⟩
  | none =>
    rw [l1Read_fills vf held]
    refine ⟨readsL1_trans (readsL1_trans (readsL1_cacheOnly ?_) (readsL1_modCc _ _)) (readsL1_displaceL1 _), BitVec.isLt _⟩
    exact cacheOnly_serveRead s (coreDie s.sched.curCore) vf (pa / 128 * 128) 128

/-- A read of an address of the core's own die that the L1 does not hold gives the bytes of memory. -/
theorem l1Read_miss {s : State} (vf : Nat) {pa n : Nat} (line : pa % 128 + n ≤ 128) (miss : ∀ l ∈ s.cc.l1, l.pa ≠ pa / 128)
    (home : homeDie pa = coreDie s.sched.curCore) : (s.l1Read vf pa n).1 = Mem.read s.mm.mem pa n := by
  have none : s.cc.l1Get pa n = none := by
    rw [Core.l1Get, Option.map_eq_none_iff, List.find?_eq_none]
    simpa using miss
  have value := extract_read s.mm.mem (pa / 128 * 128) (m := 128) line
  rw [Nat.div_add_mod'] at value
  rw [l1Read_fills vf none, serveRead_homeLine s vf (pa / 128) ((homeDie_line pa).trans home)]
  exact value

/-! ### The store buffer (R189) -/

/-- Byte i of a number replaced. -/
def withByte (a i y : Nat) : Nat := a - a / 256 ^ i % 256 * 256 ^ i + y % 256 * 256 ^ i

theorem withByte_eq (a i y : Nat) : withByte a i y = a / 256 ^ (i + 1) * 256 ^ (i + 1) + y % 256 * 256 ^ i + a % 256 ^ i := by
  have split₁ : a = a / 256 ^ i * 256 ^ i + a % 256 ^ i := (Nat.div_add_mod' a _).symm
  have split₂ : a / 256 ^ i = a / 256 ^ (i + 1) * 256 + a / 256 ^ i % 256 := by
    rw [pow_succ, ← Nat.div_div_eq_div_mul]
    exact (Nat.div_add_mod' _ _).symm
  have whole : a = a / 256 ^ (i + 1) * 256 ^ (i + 1) + a / 256 ^ i % 256 * 256 ^ i + a % 256 ^ i := by
    rw [pow_succ', ← mul_assoc, ← Nat.add_mul, ← pow_succ', ← split₂, ← split₁]
  rw [withByte]
  omega

/-- Replacing a byte keeps the number of bytes. -/
theorem withByte_lt {a i n : Nat} (y : Nat) (h : a < 256 ^ n) (hi : i < n) : withByte a i y < 256 ^ n := by
  obtain ⟨k, rfl⟩ := Nat.exists_eq_add_of_lt hi
  have high : a / 256 ^ (i + 1) < 256 ^ k := Nat.div_lt_of_lt_mul (by rwa [← pow_add, Nat.add_right_comm])
  have low : a % 256 ^ i < 256 ^ i := Nat.mod_lt _ (by positivity)
  have byte : y % 256 < 256 := Nat.mod_lt _ (by decide)
  rw [withByte_eq]
  calc a / 256 ^ (i + 1) * 256 ^ (i + 1) + y % 256 * 256 ^ i + a % 256 ^ i
      < a / 256 ^ (i + 1) * 256 ^ (i + 1) + 255 * 256 ^ i + 256 ^ i := by
        have := Nat.mul_le_mul_right (256 ^ i) (Nat.le_of_lt_succ byte)
        omega
    _ = (a / 256 ^ (i + 1) + 1) * 256 ^ (i + 1) := by ring
    _ ≤ 256 ^ k * 256 ^ (i + 1) := Nat.mul_le_mul_right _ high
    _ = 256 ^ (i + k + 1) := by rw [← pow_add]; congr 1; omega

/-- A buffered store laid over a value keeps its number of bytes. -/
theorem overlay_lt (t : Stored) (pa : Nat) {n v : Nat} (h : v < 256 ^ n) : t.overlay pa n v < 256 ^ n := by
  unfold Stored.overlay
  refine List.foldlRecOn (motive := (· < 256 ^ n)) _ _ h (fun b hb i hi => ?_)
  split
  · exact withByte_lt _ hb (List.mem_range.1 hi)
  · exact hb

/-- A buffered store of the same bytes hides what lies under it. -/
theorem overlay_same {t : Stored} {v : Nat} (h : v < 256 ^ t.n) : t.overlay t.pa t.n v = t.value % 256 ^ t.n := by
  have upTo (k : Nat) (hk : k ≤ t.n) : (List.range k).foldl
      (fun a i => if t.pa ≤ t.pa + i ∧ t.pa + i < t.pa + t.n then
        a - a / 256 ^ i % 256 * 256 ^ i + t.value / 256 ^ (t.pa + i - t.pa) % 256 * 256 ^ i else a) v =
      v / 256 ^ k * 256 ^ k + t.value % 256 ^ k := by
    induction k with
    | zero => simp [Nat.mod_one]
    | succ k ih =>
      rw [List.range_succ, List.foldl_append, List.foldl_cons, List.foldl_nil, ih (by omega), if_pos (by omega),
        Nat.add_sub_cancel_left]
      change withByte _ k _ = _
      have low : t.value % 256 ^ k < 256 ^ k := Nat.mod_lt _ (by positivity)
      have high : (v / 256 ^ k * 256 ^ k + t.value % 256 ^ k) / 256 ^ (k + 1) = v / 256 ^ (k + 1) := by
        rw [pow_succ, ← Nat.div_div_eq_div_mul, ← Nat.div_div_eq_div_mul, Nat.mul_comm, Nat.mul_add_div (by positivity),
          Nat.div_eq_of_lt low, Nat.add_zero]
      rw [withByte_eq, high, Nat.mul_add_mod_self_right, Nat.mod_mod, add_assoc, add_right_inj, Nat.mod_pow_succ]
      ring
  rw [Stored.overlay, upTo _ le_rfl, Nat.div_eq_of_lt h, Nat.zero_mul, Nat.zero_add]

end Sys2Proof.Machine
end

section

/-!
SUPPORT. Loads, stores, synchronising accesses, fences and atomics of a control core (R179, R187 to R190, R193, R194, R205, R206). The
statements O10 to O14 are settled here.
-/

namespace Sys2Proof.Machine

/-! ### Where an address leads (R179) -/

theorem coreRef_localMemory {s : State} {va : Nat} (need : Nat) (host : s.cc.mode = true) (low : va < 0x10000) :
    s.coreRef va need = (.lm va, s) := by
  rw [State.coreRef, if_pos host, if_pos low]

theorem coreRef_physical {s : State} {va : Nat} (need : Nat) (host : s.cc.mode = true) (high : 0x10000 ≤ va)
    (outside : ¬ (windowBase ≤ va ∧ va < windowBase + 0x100000)) (memory : s.physOk va = true) (up : s.portWaits va = false) :
    s.coreRef va need = (.mem va hostId false, s) := by
  rw [State.coreRef, if_pos host, if_neg (not_lt.2 high), if_neg outside, up, if_neg Bool.false_ne_true, if_pos memory]

/-- Finding that an address leads to memory changes caches alone. -/
theorem coreRef_mem_leaves {s u : State} {va need pa vf : Nat} {fe : Bool} (h : s.coreRef va need = (.mem pa vf fe, u)) : CacheOnly s u := by
  have snd (t : State) {r : CoreRef} (e : (r, t) = (.mem pa vf fe, u)) : u = t := (Prod.mk.inj e).2.symm
  unfold State.coreRef at h
  dsimp only at h
  split at h
  · split_ifs at h <;> exact snd _ h ▸ cacheOnly_refl s
  · split at h
    · exact snd _ h ▸ cacheOnly_refl s
    · split at h
      · nomatch h
      · split at h
        · nomatch h
        · split at h
          · split_ifs at h <;> exact snd _ h ▸ cacheOnly_translate s _
          all_goals nomatch h

/-! ### LDG (R193) -/

theorem size_in_line {va : Nat} (z : Size) (aligned : va % sizeBytes z = 0) : va % 128 + sizeBytes z ≤ 128 := by
  cases z <;> simp only [sizeBytes] at * <;> omega

theorem ldg_value {s u : State} {a : Fin 32} {o : BitVec 12} {z : Size} {v : Nat} (d : Fin 32)
    (h : s.coreRead (s.g a + o.signExtend 64).toNat (sizeBytes z) = .ok v u) : exec (.ldg d a o z) s = .next (u.put d (dbl v)) := by
  change execLdg d a o z s = _
  rw [execLdg, State.coreAddr, h]

theorem ldg_out {s u : State} {a : Fin 32} {o : BitVec 12} {z : Size} (d : Fin 32)
    (h : s.coreRead (s.g a + o.signExtend 64).toNat (sizeBytes z) = .out u) : exec (.ldg d a o z) s = .next u := by
  change execLdg d a o z s = _
  rw [execLdg, State.coreAddr, h]

theorem coreRead_misaligned (s : State) {va n : Nat} (h : va % n ≠ 0) : s.coreRead va n = .out (s.coreTrap .align codeAlign (dbl va)) := by
  rw [State.coreRead, if_pos h]

theorem coreRead_barred {s : State} {va n : Nat} (aligned : va % n = 0) (barred : s.cc.barred = true) : s.coreRead va n = .out s := by
  rw [State.coreRead, if_neg (not_not.2 aligned), if_pos barred]

theorem coreRead_localMemory {s : State} {va n : Nat} (aligned : va % n = 0) (free : s.cc.barred = false) (host : s.cc.mode = true)
    (low : va < 0x10000) : s.coreRead va n = .ok (Mem.read s.cc.lm va n) s := by
  rw [State.coreRead, if_neg (not_not.2 aligned), free, if_neg Bool.false_ne_true, coreRef_localMemory _ host low]

/-- A host-mode read of memory of the core's own die: what the L1 gives, with the buffered stores over it. -/
theorem coreRead_physical {s : State} {va n : Nat} (aligned : va % n = 0) (free : s.cc.barred = false) (host : s.cc.mode = true)
    (high : 0x10000 ≤ va) (outside : ¬ (windowBase ≤ va ∧ va < windowBase + 0x100000)) (memory : s.physOk va = true)
    (up : s.portWaits va = false) (home : homeDie va = coreDie s.sched.curCore) (sound : s.poisoned va n = false) :
    s.coreRead va n = .ok (s.cc.sb.foldl (fun v t => t.overlay va n v) (s.l1Read hostId va n).1) (s.l1Read hostId va n).2 := by
  have fresh : s.coreStale s.sched.curCore va = false := by simp [State.coreStale, home]
  have sb : (s.l1Read hostId va n).2.cc.sb = s.cc.sb := by rw [(l1Read_leaves s hostId va n).1.core]
  rw [State.coreRead, if_neg (not_not.2 aligned), free, if_neg Bool.false_ne_true, coreRef_physical 1 host high outside memory up]
  dsimp only
  rw [State.coreMem, fresh, if_neg Bool.false_ne_true, sound, Bool.false_and, if_neg Bool.false_ne_true]
  dsimp only
  rw [sb]

/-- Settles O10: LDG puts what the core's read gives; the read of local memory and of memory is that of its bytes. -/
theorem coreLoadsReadTheBytesOfTheirAddress : Obligations.CoreLoadsReadTheBytesOfTheirAddress := by
  unfold Obligations.CoreLoadsReadTheBytesOfTheirAddress
  intro s d a o z n va
  refine ⟨fun h => ?_, fun h barred => ?_, fun h free host low => ?_, fun h host high outside memory up empty miss home sound => ?_,
    fun v u h => ?_, fun u h => ldg_out d h⟩
  · exact yields_coreTrap (ldg_out d (coreRead_misaligned s h))
  · exact ldg_out d (coreRead_barred h barred)
  · exact yields_put (ldg_value d (coreRead_localMemory h free host low)) rfl
  · have read := coreRead_physical h (by simp [Core.barred, empty]) host high outside memory up home sound
    rw [empty, List.foldl_nil, l1Read_miss hostId (size_in_line z h) miss home] at read
    obtain ⟨core, others, current, mem⟩ := (l1Read_leaves s hostId va n).1
    obtain ⟨value, regs, frame, rest⟩ := put_writesReg (s.l1Read hostId va n).2 d (dbl (Mem.read s.mm.mem va n))
    obtain ⟨-, -, mm, -, -, -, -, cores, -⟩ := rest
    refine ⟨_, ldg_value d read, value, fun r hr => ?_, ?_, fun c hc => ?_, fun b => ?_⟩
    · rw [regs r hr, State.g, core]
      rfl
    · rw [frame, core]
    · rw [cores c (by rwa [current]), others c hc]
    · rw [mm, mem]
  · exact ⟨_, ldg_value d h, put_writesReg u d _⟩

/-! ### STG (R189, R193) -/

/-- What STG does where its address leads. -/
def State.storeAt (u : State) (r : CoreRef) (va n x : Nat) : State :=
  match r with
  | .lm p => (u.modCc (fun k => k.lmWrite p n x)).cnext
  | .window off => (u.windowStore off n x).cnext
  | .mem pa vf _ =>
    if sbSize ≤ u.cc.sb.length then u
    else (u.bufferStore { va := va, n := n, value := x, pa := pa, vf := vf, pc := u.cc.pc }).cnext
  | .trap c i v => u.coreTrap c i v
  | .wait => u

theorem stg_stores {s u : State} {a : Fin 32} {o : BitVec 12} {z : Size} {r : CoreRef} (d : Fin 32)
    (aligned : (s.g a + o.signExtend 64).toNat % sizeBytes z = 0) (outside : s.atSlots (s.g a + o.signExtend 64).toNat = false)
    (ref : s.coreRef (s.g a + o.signExtend 64).toNat 2 = (r, u)) :
    exec (.stg d a o z) s = .next (u.storeAt r (s.g a + o.signExtend 64).toNat (sizeBytes z) ((s.g d).toNat % 256 ^ sizeBytes z)) := by
  change execStg d a o z s = _
  rw [execStg, State.coreAddr, if_neg (not_not.2 aligned), outside, if_neg Bool.false_ne_true, ref]
  cases r with
  | mem pa vf fe => exact (apply_ite Host.Outcome.next _ _ _).symm
  | lm p => rfl
  | window off => rfl
  | trap c i v => rfl
  | wait => rfl

theorem storeAt_memory {u : State} {pa vf : Nat} {fe : Bool} (va n x : Nat) (room : u.cc.sb.length < 16) :
    u.storeAt (.mem pa vf fe) va n x =
      (u.bufferStore { va := va, n := n, value := x, pa := pa, vf := vf, pc := u.cc.pc }).cnext :=
  if_neg (not_le.2 room)

theorem atSlots_eq_false {s : State} {va : Nat} (outside : va < 0xC000 ∨ 0x10000 ≤ va) : s.atSlots va = false := by
  have : ¬ (slotBase ≤ va ∧ va < 0x10000) := by
    unfold slotBase
    omega
  rw [State.atSlots, decide_eq_false this, Bool.and_false]

/-- A store into local memory changes the bytes of its range, and the bytes that fetches remember. -/
theorem lmWrite_eq (k : Core) (a n v : Nat) :
    k.lmWrite a n v = { k with lm := Mem.write k.lm a n v, fetchOld := (k.lmWrite a n v).fetchOld } := rfl

/-- A store enters the buffer, and the L1 line is written through (R188). -/
theorem bufferStore_cc (s : State) (t : Stored) : (s.bufferStore t).cc =
    { s.cc with sb := s.cc.sb ++ [t], l1 := (s.bufferStore t).cc.l1, fetchOld := (s.bufferStore t).cc.fetchOld } := by
  simp only [State.bufferStore, cc_modCc]
  rfl

/-- A store that enters the buffer, and the instruction after it. -/
theorem onlyCore_bufferStore (s : State) (t : Stored) : OnlyCore s (s.bufferStore t).cnext :=
  onlyCore_trans (onlyCore_modCc s _) (onlyCore_modCc _ _)

/-- Settles O11: STG goes to the destination that its address leads to. -/
theorem coreStoresWriteTheBytesOfTheirAddress : Obligations.CoreStoresWriteTheBytesOfTheirAddress := by
  unfold Obligations.CoreStoresWriteTheBytesOfTheirAddress
  intro s d a o z n va x
  refine ⟨fun h => ?_, fun h host low high => ?_, fun h host low => ?_, fun pa vf fe u h outside ref => ⟨fun room => ?_, fun full => ?_⟩,
    fun off u h outside ref => ?_, fun c i v u h outside ref => ?_⟩
  · exact yields_coreTrap (if_pos h)
  · have slots : s.atSlots va = true := by simp [State.atSlots, slotBase, host, low, Nat.lt_succ_of_le high]
    exact yields_coreTrap ((if_neg (not_not.2 h)).trans (if_pos slots))
  · have core : ((s.modCc (fun k => k.lmWrite va n x)).cnext).cc =
        { s.cc with lm := Mem.write s.cc.lm va n x, fetchOld := (s.cc.lmWrite va n x).fetchOld, pc := s.cc.pc + 4 } := by
      rw [cc_cnext, cc_modCc, lmWrite_eq]
    refine ⟨_, stg_stores d h (atSlots_eq_false (.inl low)) (coreRef_localMemory 2 host (by omega)),
      onlyCore_trans (onlyCore_modCc s _) (onlyCore_modCc _ _), core.trans ?_, fun b hb => ?_, fun wf => ?_⟩
    · rw [State.storeAt, core]
    · rw [State.storeAt, core, Mem.get_write_outside _ _ _ hb]
    · rw [State.storeAt, core]
      exact ⟨Mem.write_wf _ _ _ wf, (Mem.read_write_same _ _ _ _).trans (Nat.mod_mod _ _)⟩
  · have caches := coreRef_mem_leaves ref
    refine ⟨_, (stg_stores d h outside ref).trans (congrArg _ (storeAt_memory va n x room)), onlyCore_bufferStore u _, ?_, fun b => ?_⟩
    · rw [cc_cnext, bufferStore_cc, cacheOnly_cc caches]
    · exact congrArg (Mem.get · b) (show u.mm.mem = s.mm.mem from cacheOnly_mem caches)
  · exact (stg_stores d h outside ref).trans (congrArg _ (if_pos full))
  · exact ⟨_, stg_stores d h outside ref, rfl⟩
  · exact yields_coreTrap (stg_stores d h outside ref)

/-! ### A load after a store (R189) -/

/-- A load of an address just stored gives what was stored, whatever else the buffer holds. -/
theorem coreRead_stored {t : State} {sb : List Stored} {e : Stored} (held : t.cc.sb = sb ++ [e]) (aligned : e.pa % e.n = 0)
    (free : t.cc.barred = false) (host : t.cc.mode = true) (high : 0x10000 ≤ e.pa)
    (outside : ¬ (windowBase ≤ e.pa ∧ e.pa < windowBase + 0x100000)) (memory : t.physOk e.pa = true) (up : t.portWaits e.pa = false)
    (home : homeDie e.pa = coreDie t.sched.curCore) (sound : t.poisoned e.pa e.n = false) :
    ∃ u, t.coreRead e.pa e.n = .ok (e.value % 256 ^ e.n) u := by
  obtain ⟨-, bound⟩ := l1Read_leaves t hostId e.pa e.n
  have under : sb.foldl (fun v t => t.overlay e.pa e.n v) (t.l1Read hostId e.pa e.n).1 < 256 ^ e.n :=
    List.foldlRecOn (motive := (· < 256 ^ e.n)) _ _ bound (fun b hb t _ => overlay_lt t e.pa hb)
  refine ⟨(t.l1Read hostId e.pa e.n).2, ?_⟩
  rw [coreRead_physical aligned free host high outside memory up home sound, held, List.foldl_append, List.foldl_cons, List.foldl_nil,
    overlay_same under]

/-- Settles O12: the store stands last in the buffer, and the load lays it over all that is older. -/
theorem coreStoreThenLoadReturnsTheValue : Obligations.CoreStoreThenLoadReturnsTheValue := by
  unfold Obligations.CoreStoreThenLoadReturnsTheValue
  intro s t d e a o z n va host aligned high outside memory up free room home sound step nonzero
  rw [stg_stores d aligned (atSlots_eq_false (.inr high)) (coreRef_physical 2 host high outside memory up), storeAt_memory _ _ _ room,
    Host.Outcome.next.injEq] at step
  have core : t.cc = { s.cc with sb := t.cc.sb, l1 := t.cc.l1, fetchOld := t.cc.fetchOld, pc := s.cc.pc + 4 } := by
    rw [← step, cc_cnext, bufferStore_cc]
  have sb : t.cc.sb = s.cc.sb ++ [{ va := va, n := n, value := (s.g d).toNat % 256 ^ n, pa := va, vf := hostId, pc := s.cc.pc }] := by
    rw [← step, cc_cnext, bufferStore_cc]
  obtain ⟨sched, -, mm, -, -, hosts, boot, -⟩ := step ▸ onlyCore_bufferStore s _
  have reg : t.g a = s.g a := by rw [State.g, core]; rfl
  have read := coreRead_stored sb aligned (by rw [Core.barred, sb]; simpa [Core.barred] using free) (by rw [core]; exact host) high outside
    (by rw [State.physOk, boot]; exact memory) (by rw [State.portWaits, State.portDown, hosts]; exact up) (by rw [sched]; exact home)
    (by rw [State.poisoned, mm]; exact sound)
  obtain ⟨u, read⟩ := read
  obtain ⟨value, -⟩ := put_writesReg u e (dbl ((s.g d).toNat % 256 ^ n % 256 ^ n))
  exact ⟨_, ldg_value e (by rw [reg]; exact read), (value.trans (if_neg nonzero)).trans (congrArg dbl (Nat.mod_mod _ _))⟩

/-! ### LDGF and STGF (R187, R190, R194) -/

/-- What LDGF does where its address leads. -/
def State.syncLoadAt (u : State) (r : CoreRef) (d : Fin 32) (va : Nat) (clear : Bool) : State :=
  match r with
  | .lm _ => u.coreTrap .fepage 0 (dbl va)
  | .window _ => u.coreTrap .fepage 0 (dbl va)
  | .mem pa vf fe =>
    if !fe then u.coreTrap .fepage 0 (dbl va)
    else if u.cc.buffered (pa / 16 * 16) 16 then u
    else if u.poisoned pa 8 then u.coreTrap .memfault codeUncorrectable (dbl va)
    else if u.feFull pa then u.coreSync d pa vf clear
    else u
  | .trap e i v => u.coreTrap e i v
  | .wait => u

theorem ldgf_loads {s u : State} {a : Fin 32} {o : BitVec 12} {r : CoreRef} (d : Fin 32) (c : Bool)
    (aligned : (s.g a + o.signExtend 64).toNat % 8 = 0) (free : s.cc.barred = false)
    (ref : s.coreRef (s.g a + o.signExtend 64).toNat 1 = (r, u)) :
    exec (.ldgf d a o c) s = .next (u.syncLoadAt r d (s.g a + o.signExtend 64).toNat c) := by
  change execLdgf d a o c s = _
  rw [execLdgf, State.coreAddr, if_neg (not_not.2 aligned), free, if_neg Bool.false_ne_true, ref]
  cases r with
  | mem pa vf fe => simp only [State.syncLoadAt, apply_ite Host.Outcome.next]
  | lm p => rfl
  | window off => rfl
  | trap c i v => rfl
  | wait => rfl

/-- The release that STGF puts into the store buffer. -/
def State.syncStored (u : State) (d : Fin 32) (va pa vf : Nat) : Stored :=
  { va := va, n := 8, value := (u.g d).toNat, pa := pa, vf := vf, sync := true, before := u.cc.before, pc := u.cc.pc }

/-- What STGF does where its address leads. -/
def State.syncStoreAt (u : State) (r : CoreRef) (d : Fin 32) (va : Nat) : State :=
  match r with
  | .lm _ => u.coreTrap .fepage 0 (dbl va)
  | .window _ => u.coreTrap .fepage 0 (dbl va)
  | .mem pa vf fe =>
    if !fe then u.coreTrap .fepage 0 (dbl va)
    else if sbSize ≤ u.cc.sb.length then u
    else (((u.modCc Core.bar).bufferStore (u.syncStored d va pa vf)).modCc (·.l1Drop pa)).cnext
  | .trap e i v => u.coreTrap e i v
  | .wait => u

theorem stgf_stores {s u : State} {a : Fin 32} {o : BitVec 12} {r : CoreRef} (d : Fin 32)
    (aligned : (s.g a + o.signExtend 64).toNat % 8 = 0) (ref : s.coreRef (s.g a + o.signExtend 64).toNat 2 = (r, u)) :
    exec (.stgf d a o) s = .next (u.syncStoreAt r d (s.g a + o.signExtend 64).toNat) := by
  change execStgf d a o s = _
  rw [execStgf, State.coreAddr, if_neg (not_not.2 aligned), ref]
  cases r with
  | mem pa vf fe => simp only [State.syncStoreAt, State.syncStored, apply_ite Host.Outcome.next]
  | lm p => rfl
  | window off => rfl
  | trap c i v => rfl
  | wait => rfl

theorem syncLoadAt_full {u : State} {pa : Nat} (vf : Nat) (d : Fin 32) (va : Nat) (clear : Bool)
    (clean : u.cc.buffered (pa / 16 * 16) 16 = false) (sound : u.poisoned pa 8 = false) (full : pa / 16 ∈ u.mm.fe) :
    u.syncLoadAt (.mem pa vf true) d va clear = u.coreSync d pa vf clear := by
  simp [State.syncLoadAt, State.feFull, clean, sound, full]

theorem syncLoadAt_empty {u : State} {pa : Nat} (vf : Nat) (d : Fin 32) (va : Nat) (clear : Bool)
    (clean : u.cc.buffered (pa / 16 * 16) 16 = false) (sound : u.poisoned pa 8 = false) (empty : pa / 16 ∉ u.mm.fe) :
    u.syncLoadAt (.mem pa vf true) d va clear = u := by
  simp [State.syncLoadAt, State.feFull, clean, sound, empty]

theorem coreAcquire_cc (s : State) (uids : List Nat) :
    (s.coreAcquire uids).cc = { s.cc with before := nunion s.cc.before uids, l1 := [] } := cc_modCc s _

/-- What the load of a full granule leaves behind its value: the full bit of the granule is off in the .c form. -/
theorem coreSync_leaves (u : State) (d : Fin 32) (pa vf : Nat) (clear : Bool) :
    (u.coreSync d pa vf clear).g d = (if d = 0 then 0 else dbl (Mem.read u.mm.mem pa 8)) ∧
      (∀ r, r ≠ d → (u.coreSync d pa vf clear).g r = u.g r) ∧ (u.coreSync d pa vf clear).cc.pc = u.cc.pc + 4 ∧
      (u.coreSync d pa vf clear).cc.l1 = [] ∧
      (∀ g, g ∈ (u.coreSync d pa vf clear).mm.fe ↔ g ∈ u.mm.fe ∧ ¬ (clear = true ∧ g = pa / 16)) ∧
      (u.coreSync d pa vf clear).mm.mem = u.mm.mem := by
  have read := cacheOnly_homeRead u vf pa 8
  unfold State.coreSync
  dsimp only
  rw [homeRead_value]
  generalize (u.homeRead vf pa 8).2 = t at *
  generalize acquired _ _ _ _ = obs
  have access : ∃ w : State, (if clear = true then (t.feSet vf pa false).coreWritten u.sched.curCore vf (pa / 16 * 16) 16
      (t.rdcCopies (pa / 16 * 16) 16) (isHostMem pa) true else t.freshRdc (coreDie u.sched.curCore).val pa) = w ∧
      w.cc = u.cc ∧ w.mm.mem = u.mm.mem ∧ w.mm.fe = if clear = true then ndrop u.mm.fe (pa / 16) else u.mm.fe := by
    have fe : t.mm.fe = u.mm.fe := cacheOnly_read read (·.mm.fe)
    cases clear with
    | true =>
      obtain ⟨mm, cc⟩ := coreWritten_leaves (t.feSet vf pa false) u.sched.curCore vf (pa / 16 * 16) 16
        (t.rdcCopies (pa / 16 * 16) 16) (isHostMem pa) true
      refine ⟨_, rfl, ?_, ?_, ?_⟩
      · rw [if_pos rfl, cc, feSet_cc, cacheOnly_cc read]
      · rw [if_pos rfl, mm, feSet_mem, cacheOnly_mem read]
      · rw [if_pos rfl, mm, feSet_fe, fe]
        rfl
    | false => exact ⟨t.freshRdc (coreDie u.sched.curCore).val pa, rfl, cacheOnly_cc (t := t) read, cacheOnly_mem (t := t) read, fe⟩
  obtain ⟨w, written, cc, mem, fe⟩ := access
  rw [written]
  obtain ⟨value, regs, core, rest⟩ := put_writesReg (w.coreAcquire obs) d (dbl (Mem.read u.mm.mem pa 8))
  rw [coreAcquire_cc, cc] at core
  refine ⟨value, fun r hr => ?_, by rw [core], by rw [core], fun g => ?_, mem⟩
  · rw [regs r hr, State.g, coreAcquire_cc, cc]
    rfl
  · change g ∈ w.mm.fe ↔ _
    rw [fe]
    cases clear <;> simp [mem_ndrop]

theorem syncStoreAt_room {u : State} (pa vf : Nat) (d : Fin 32) (va : Nat) (room : u.cc.sb.length < 16) :
    u.syncStoreAt (.mem pa vf true) d va =
      (((u.modCc Core.bar).bufferStore (u.syncStored d va pa vf)).modCc (·.l1Drop pa)).cnext :=
  if_neg (not_le.2 room)

/-- The release in the buffer, behind all that the core stored before it. -/
theorem syncStored_cc (u : State) (d : Fin 32) (va pa vf : Nat) :
    ((((u.modCc Core.bar).bufferStore (u.syncStored d va pa vf)).modCc (·.l1Drop pa)).cnext).cc.sb =
        u.cc.sb.map (fun e => { e with barred := true }) ++ [u.syncStored d va pa vf] ∧
      ((((u.modCc Core.bar).bufferStore (u.syncStored d va pa vf)).modCc (·.l1Drop pa)).cnext).cc.pc = u.cc.pc + 4 ∧
      ∀ r, ((((u.modCc Core.bar).bufferStore (u.syncStored d va pa vf)).modCc (·.l1Drop pa)).cnext).g r = u.g r := by
  generalize u.syncStored d va pa vf = e
  unfold State.g
  rw [cc_cnext, cc_modCc, bufferStore_cc, cc_modCc]
  exact ⟨rfl, rfl, fun r => rfl⟩

/-- Settles O13: LDGF and STGF go to what their address leads to; only memory marked F/E holds granules. -/
theorem synchronisingAccessesOfCores : Obligations.SynchronisingAccessesOfCores := by
  unfold Obligations.SynchronisingAccessesOfCores
  intro s d a o c va
  refine ⟨fun h => ⟨yields_coreTrap (if_pos h), yields_coreTrap (if_pos h)⟩, fun h barred => ?_, fun h host low => ⟨fun free => ?_, ?_⟩,
    fun pa vf off u h free ref => ?_, fun pa vf off u h ref => ?_, fun e i v u h free ref => ?_, fun e i v u h ref => ?_,
    fun pa vf u h free ref clean sound => ⟨fun full => ?_, fun empty => ?_⟩, fun pa vf u h ref => ⟨fun room => ?_, fun full => ?_⟩⟩
  · exact (if_neg (not_not.2 h)).trans (if_pos barred)
  · exact yields_coreTrap (ldgf_loads d c h free (coreRef_localMemory 1 host low))
  · exact yields_coreTrap (stgf_stores d h (coreRef_localMemory 2 host low))
  · obtain ref | ref := ref
    · exact yields_coreTrap (ldgf_loads d c h free ref)
    · exact yields_coreTrap (ldgf_loads d c h free ref)
  · obtain ref | ref := ref
    · exact yields_coreTrap (stgf_stores d h ref)
    · exact yields_coreTrap (stgf_stores d h ref)
  · exact yields_coreTrap (ldgf_loads d c h free ref)
  · exact yields_coreTrap (stgf_stores d h ref)
  · have caches := coreRef_mem_leaves ref
    obtain ⟨value, regs, pc, l1, fe, mem⟩ := coreSync_leaves u d pa vf c
    have reg (r : Fin 32) : u.g r = s.g r := congrArg (·.reg r) (cacheOnly_cc caches)
    refine ⟨_, (ldgf_loads d c h free ref).trans (congrArg _ (syncLoadAt_full vf d va c clean sound full)), ?_, fun r hr => ?_, ?_, l1, fe,
      fun b => ?_⟩
    · rw [value, cacheOnly_mem caches]
      rfl
    · rw [regs r hr, reg]
    · rw [pc, cacheOnly_cc caches]
    · rw [mem, cacheOnly_mem caches]
  · exact (ldgf_loads d c h free ref).trans (congrArg _ (syncLoadAt_empty vf d va c clean sound empty))
  · have caches := coreRef_mem_leaves ref
    have reg (r : Fin 32) : u.g r = s.g r := congrArg (·.reg r) (cacheOnly_cc caches)
    obtain ⟨sb, pc, regs⟩ := syncStored_cc u d va pa vf
    refine ⟨_, (stgf_stores d h ref).trans (congrArg _ (syncStoreAt_room pa vf d va room)),
      onlyCore_trans (onlyCore_modCc u _) (onlyCore_trans (onlyCore_modCc _ _) (onlyCore_trans (onlyCore_modCc _ _) (onlyCore_modCc _ _))),
      ?_, ?_, fun r => (regs r).trans (reg r), fun b => ?_⟩
    · rw [pc, cacheOnly_cc caches]
    · rw [sb, State.syncStored, reg, cacheOnly_cc caches]
    · exact congrArg (Mem.get · b) (show u.mm.mem = s.mm.mem from cacheOnly_mem caches)
  · exact (stgf_stores d h ref).trans (congrArg _ (if_pos full))

/-! ### GFENCE (R188 to R190, R205) -/

theorem gfence_waits {s : State} {k : FenceKind} {sc : Scope} (unmet : s.gfenceMet s.sched.curCore k sc = false) :
    exec (.gfence k sc) s = .next s := by
  change execGfence k sc s = _
  rw [execGfence, unmet]
  rfl

theorem fenceDrops_iff (k : FenceKind) (sc : Scope) : fenceDrops k sc = true ↔ k ≠ .rel ∧ sc ≠ .firing := by
  cases k <;> simp [fenceDrops]

theorem gfence_passes {s : State} {k : FenceKind} {sc : Scope} (met : s.gfenceMet s.sched.curCore k sc = true) :
    Yields (.gfence k sc) s (fun t => OnlyCore s t ∧ t.cc = { s.cc with
      sb := s.cc.sb.map (fun e => { e with barred := true }), fetchOld := [], l1 := if k ≠ .rel ∧ sc ≠ .firing then [] else s.cc.l1, pc := s.cc.pc + 4 }) := by
  refine yields_modCc_cnext (f := fun c => { c.bar with fetchOld := [], l1 := if fenceDrops k sc then [] else c.l1 }) ?_ ?_
  · change execGfence k sc s = _
    rw [execGfence, met]
    rfl
  · simp only [fenceDrops_iff]
    rfl

/-- A fence at a wider scope than FIRING that covers stores waits while one is buffered. -/
theorem coreDone_buffered {s : State} {c : Fin 4} {sc : Scope} (wide : sc ≠ .firing) (held : (s.core c).sb ≠ []) : s.coreDone c sc = false := by
  have full : (s.core c).sb.isEmpty = false := by simpa using held
  cases sc with
  | firing => exact absurd rfl wide
  | plot => simp [State.coreDone, full]
  | die => simp [State.coreDone, full]
  | device => simp [State.coreDone, full]
  | system => simp [State.coreDone, full]

/-- With nothing outstanding every fence is met. -/
theorem gfenceMet_idle {s : State} (k : FenceKind) (sc : Scope) (stores : s.cc.sb = []) (before : s.cc.before = []) (none : s.mm.accesses = []) :
    s.gfenceMet s.sched.curCore k sc = true := by
  have pending : s.corePending s.sched.curCore = [] := by rw [State.corePending, none]; rfl
  have loads : s.coreLoadsDone s.sched.curCore sc = true := by
    unfold State.coreLoadsDone
    split <;> simp [pending]
  have done : s.coreDone s.sched.curCore sc = true := by
    unfold State.coreDone
    rw [← State.cc, stores, before, pending]
    split <;> rfl
  cases k with
  | acq => exact loads
  | rel => exact done
  | full => exact done

/-! ### GAMO (R206) -/

/-- The value that GAMO puts: the old value, sign-extended but for the natural operations and FADD. -/
theorem gamoOld_eq (op : GamoOp) (w : Width) (old : Nat) : gamoOld op (widthBytes w) old =
    if op ∈ [GamoOp.minn, .maxn, .fadd] then BitVec.ofNat 64 old else (BitVec.ofNat (8 * widthBytes w) old).signExtend 64 := by
  have narrow : (dbl old).truncate (8 * widthBytes w) = BitVec.ofNat (8 * widthBytes w) old := by
    refine BitVec.setWidth_ofNat_of_le ?_ _
    cases w <;> decide
  have natural : GamoOp.natural op = true ↔ op ∈ [GamoOp.minn, .maxn, .fadd] := by cases op <;> decide
  rw [gamoOld, sext64, narrow]
  exact if_congr natural rfl rfl

/-- GAMO waits: for the stores of a fence before it, or as a release for all that it covers. -/
theorem gamo_waits {s : State} {d a b : Fin 32} {w : Width} {q : GOrder} {op : GamoOp} (aligned : (s.g a).toNat % widthBytes w = 0)
    (outside : s.atSlots (s.g a).toNat = false)
    (wait : s.cc.barred = true ∨ q = .rel ∧ s.coreDone s.sched.curCore .system = false) : exec (.gamo d a b w q op) s = .next s := by
  change execGamo d a b w q op s = _
  unfold execGamo
  dsimp only
  rw [if_neg (not_not.2 aligned), outside, if_neg Bool.false_ne_true, if_pos]
  obtain barred | ⟨rfl, undone⟩ := wait
  · rw [barred, Bool.true_or]
  · simp [undone]

/-- GAMO where it need not wait: what it does at its address, and the old value. -/
theorem gamo_combines {s u : State} {a b : Fin 32} {w : Width} {q : GOrder} {op : GamoOp} {old : Nat} (d : Fin 32)
    (aligned : (s.g a).toNat % widthBytes w = 0) (outside : s.atSlots (s.g a).toNat = false) (free : s.cc.barred = false)
    (covered : q = .rel → s.coreDone s.sched.curCore .system = true)
    (combined : s.gamoAt (s.g a).toNat (widthBytes w) ((s.g b).toNat % 256 ^ widthBytes w) q op = .ok old u) :
    exec (.gamo d a b w q op) s = .next (u.put d (gamoOld op (widthBytes w) old)) := by
  change execGamo d a b w q op s = _
  unfold execGamo
  dsimp only
  rw [if_neg (not_not.2 aligned), outside, if_neg Bool.false_ne_true, free, Bool.false_or, if_neg, combined]
  cases q with
  | rel => simp [covered rfl]
  | acq => exact Bool.false_ne_true
  | relaxed => exact Bool.false_ne_true

theorem gamoAt_localMemory {s : State} {va : Nat} (n v : Nat) (q : GOrder) (op : GamoOp) (host : s.cc.mode = true) (low : va < 0x10000) :
    s.gamoAt va n v q op = .ok (Mem.read s.cc.lm va n)
      (s.modCc (fun k => k.lmWrite va n (gamoNew op n (Mem.read s.cc.lm va n) v))) := by
  rw [State.gamoAt, coreRef_localMemory 2 host low]

theorem gamoAt_memory {s u : State} {va pa vf n : Nat} {fe : Bool} (v : Nat) (q : GOrder) (op : GamoOp)
    (ref : s.coreRef va 2 = (.mem pa vf fe, u)) (clean : u.cc.buffered pa n = false) (sound : u.poisoned pa n = false) :
    s.gamoAt va n v q op = .ok (u.gamoMem pa vf n v q op).1 (u.gamoMem pa vf n v q op).2 := by
  rw [State.gamoAt, ref]
  simp [clean, sound]

/-- Memory has the bytes m; the full bits, and the registers and local memory of the core, are those of u. -/
structure HoldsBytes (u : State) (m : List Host.Cell) (w : State) : Prop where
  mem : w.mm.mem = m
  fe : w.mm.fe = u.mm.fe
  regs : w.cc.g = u.cc.g
  pc : w.cc.pc = u.cc.pc
  lm : w.cc.lm = u.cc.lm

theorem holdsBytes_read {u t w : State} {m : List Host.Cell} (h : HoldsBytes t m w) (read : CacheOnly u t) : HoldsBytes u m w where
  mem := h.mem
  fe := h.fe.trans (cacheOnly_read read (·.mm.fe))
  regs := by rw [h.regs, cacheOnly_cc read]
  pc := by rw [h.pc, cacheOnly_cc read]
  lm := by rw [h.lm, cacheOnly_cc read]

theorem holdsBytes_serveWrite (t : State) (vf pa n v line : Nat) (old : Core → Map Nat) :
    HoldsBytes t (Mem.write t.mm.mem pa n v) ((t.serveWrite vf pa n v).modCc (fun k => { k.l1Drop line with fetchOld := old k })) := by
  have cc := (cc_modCc (t.serveWrite vf pa n v) (fun k => { k.l1Drop line with fetchOld := old k })).trans
    (congrArg (fun k => { k.l1Drop line with fetchOld := old k }) (serveWrite_cc t vf pa n v))
  exact ⟨serveWrite_mem t vf pa n v, serveWrite_fe t vf pa n v, by rw [cc]; rfl, by rw [cc]; rfl, by rw [cc]; rfl⟩

theorem holdsBytes_coreWritten {u t : State} {m : List Host.Cell} (h : HoldsBytes u m t) (c : Fin 4) (vf pa n : Nat) (rdc sys amo : Bool) :
    HoldsBytes u m (t.coreWritten c vf pa n rdc sys amo) := by
  obtain ⟨mm, cc⟩ := coreWritten_leaves t c vf pa n rdc sys amo
  exact ⟨by rw [mm]; exact h.mem, by rw [mm]; exact h.fe, by rw [cc]; exact h.regs, by rw [cc]; exact h.pc, by rw [cc]; exact h.lm⟩

theorem holdsBytes_coreAcquire {u t : State} {m : List Host.Cell} (h : HoldsBytes u m t) (uids : List Nat) :
    HoldsBytes u m (t.coreAcquire uids) := by
  have cc := coreAcquire_cc t uids
  exact ⟨h.mem, h.fe, by rw [cc]; exact h.regs, by rw [cc]; exact h.pc, by rw [cc]; exact h.lm⟩

/-- GAMO at the home reads its bytes and writes their combination there. -/
theorem gamoMem_leaves (u : State) (pa vf n v : Nat) (q : GOrder) (op : GamoOp) :
    (u.gamoMem pa vf n v q op).1 = Mem.read u.mm.mem pa n ∧
      HoldsBytes u (Mem.write u.mm.mem pa n (gamoNew op n (Mem.read u.mm.mem pa n) v)) (u.gamoMem pa vf n v q op).2 := by
  refine ⟨homeRead_value u vf pa n, ?_⟩
  have read := cacheOnly_homeRead u vf pa n
  have mem : (u.homeRead vf pa n).2.mm.mem = u.mm.mem := cacheOnly_mem read
  have value := homeRead_value u vf pa n
  unfold State.gamoMem
  dsimp only
  generalize u.homeRead vf pa n = g at *
  have written := holdsBytes_read (holdsBytes_serveWrite g.2 vf pa n (gamoNew op n g.1 v) pa (fun k => keepOld k.fetchOld (2 ^ 52 + pa) g.1 n)) read
  rw [mem, value] at written
  rw [value]
  generalize (g.2.serveWrite _ _ _ _).modCc _ = w at *
  generalize relsIn _ _ _ ++ _ = rels
  have released : HoldsBytes u (Mem.write u.mm.mem pa n (gamoNew op n (Mem.read u.mm.mem pa n) v))
      (if rels.isEmpty = true then w else w.modMm (fun m => { m with rels := relPut m.rels pa n rels })) := by
    split
    · exact written
    · exact ⟨written.mem, written.fe, written.regs, written.pc, written.lm⟩
  have recorded := holdsBytes_coreWritten released u.sched.curCore vf pa n (g.2.rdcCopies pa n) (isHostMem pa) true
  cases q with
  | acq => exact holdsBytes_coreAcquire recorded _
  | rel => exact recorded
  | relaxed => exact recorded

/-- Settles O14: a fence waits or passes by what it orders; GAMO combines at its destination. -/
theorem fencesAndAtomicsOfCores : Obligations.FencesAndAtomicsOfCores := by
  unfold Obligations.FencesAndAtomicsOfCores
  intro s d a b k sc w q op va n
  refine ⟨gfence_passes, gfence_waits, fun wide kind held => ?_, gfenceMet_idle k sc, fun h => yields_coreTrap (if_pos h),
    fun h host low high => ?_, fun h outside barred => gamo_waits h outside (.inl barred), fun h free host low covered => ?_,
    fun h outside rel undone => gamo_waits h outside (.inr ⟨rel, undone⟩), fun old u h outside free covered combined => ?_,
    fun pa vf fe u h outside free covered ref clean sound => ?_⟩
  · have undone := coreDone_buffered (s := s) wide held
    cases k with
    | acq => exact absurd rfl kind
    | rel => exact undone
    | full => exact undone
  · have slots : s.atSlots va = true := by simp [State.atSlots, slotBase, host, low, Nat.lt_succ_of_le high]
    exact yields_coreTrap ((if_neg (not_not.2 h)).trans (if_pos slots))
  · have step := gamo_combines (b := b) d h (atSlots_eq_false (.inl low)) free covered (gamoAt_localMemory _ _ q op host (by omega))
    rw [gamoOld_eq] at step
    obtain ⟨value, regs, core, rest⟩ := put_writesReg (s.modCc (fun k => k.lmWrite va n
      (gamoNew op n (Mem.read s.cc.lm va n) ((s.g b).toNat % 256 ^ n)))) d
      (if op ∈ [GamoOp.minn, .maxn, .fadd] then BitVec.ofNat 64 (Mem.read s.cc.lm va n)
        else (BitVec.ofNat (8 * n) (Mem.read s.cc.lm va n)).signExtend 64)
    rw [cc_modCc, lmWrite_eq] at core
    refine ⟨_, step, onlyCore_trans (onlyCore_modCc s _) rest, value, fun r hr => ?_, by rw [core], fun p hp => ?_, fun _ => ?_⟩
    · rw [regs r hr, State.g, cc_modCc]
      rfl
    · rw [core, Mem.get_write_outside _ _ _ hp]
    · rw [core, Mem.read_write_same]
  · exact ⟨_, gamo_combines d h outside free covered combined, gamoOld_eq op w old ▸ put_writesReg u d _⟩
  · have caches := coreRef_mem_leaves ref
    have combined := gamoAt_memory ((s.g b).toNat % 256 ^ n) q op ref clean sound
    obtain ⟨old, holds⟩ := gamoMem_leaves u pa vf n ((s.g b).toNat % 256 ^ n) q op
    rw [old] at combined
    have step := gamo_combines (b := b) d h outside free covered combined
    rw [gamoOld_eq, cacheOnly_mem caches] at step
    rw [cacheOnly_mem caches] at holds
    generalize (u.gamoMem pa vf n _ q op).2 = t at *
    obtain ⟨value, regs, core, rest⟩ := put_writesReg t d
      (if op ∈ [GamoOp.minn, .maxn, .fadd] then BitVec.ofNat 64 (Mem.read s.mm.mem pa n)
        else (BitVec.ofNat (8 * n) (Mem.read s.mm.mem pa n)).signExtend 64)
    refine ⟨_, step, value, fun r hr => ?_, ?_, ?_, holds.fe, fun p hp => ?_, fun _ => ?_⟩
    · rw [regs r hr, ← show u.g r = s.g r from congrArg (·.reg r) (cacheOnly_cc caches)]
      simp only [State.g, Core.reg, holds.regs]
    · rw [core, ← cacheOnly_cc caches, ← holds.pc]
    · rw [core, ← cacheOnly_cc caches, ← holds.lm]
    · rw [put_mm, holds.mem, Mem.get_write_outside _ _ _ hp]
    · rw [put_mm, holds.mem, Mem.read_write_same]

end Sys2Proof.Machine
end

section

/-!
SUPPORT. Launches, injections, sinks and waits of a control core (R195 to R199, R444). The statements O16 to O18 are settled here.
-/

namespace Sys2Proof.Machine

/-! ### SNKR and KNWAIT (R198, R199) -/

theorem snkFlag_bits (w n : Bool) : (snkFlag w n).getLsbD 1 = w ∧ (snkFlag w n).getLsbD 0 = n := by
  cases w <;> cases n <;> decide

/-- A sink that is read: its value in the register, its flags in SNKFLAG. -/
theorem snkr_reads {s : State} {d a : Fin 32} {k : Fin 8} (x : Sink)
    (step : execSnkr d a k s = .next ((s.modCc (fun c => { c with snkflag := snkFlag x.written x.null })).put d x.value)) :
    Yields (.snkr d a k) s (fun t => OnlyCore s t ∧ t.g d = (if d = 0 then 0 else x.value) ∧ (∀ q, q ≠ d → t.g q = s.g q) ∧
      t.cc = { s.cc with g := t.cc.g, snkflag := snkFlag x.written x.null, pc := s.cc.pc + 4 }) := by
  obtain ⟨value, regs, core, rest⟩ := put_writesReg (s.modCc (fun c => { c with snkflag := snkFlag x.written x.null })) d x.value
  rw [cc_modCc] at core
  refine ⟨_, step, onlyCore_trans (onlyCore_modCc s _) rest, value, fun q hq => ?_, by rw [core]⟩
  rw [regs q hq, State.g, cc_modCc]
  rfl

theorem knwait_waits {s : State} {d a : Fin 32} {r : Root} (record : s.rootFor (s.g a) = some r)
    (wait : r.retired = false ∨ ∃ u ∈ r.before, s.performed u .device (coreDie s.sched.curCore) = false) : exec (.knwait d a) s = .next s := by
  change execKnwait d a s = _
  rw [execKnwait, record]
  refine if_pos ?_
  obtain active | undone := wait
  · rw [active]
    rfl
  · simpa using .inr undone

theorem knwait_acquires {s : State} {d a : Fin 32} {r : Root} (record : s.rootFor (s.g a) = some r) (retired : r.retired = true)
    (done : ∀ u ∈ r.before, s.performed u .device (coreDie s.sched.curCore) = true) :
    exec (.knwait d a) s = .next ((s.coreAcquire r.before).put d (dbl r.status)) := by
  change execKnwait d a s = _
  rw [execKnwait, record]
  refine if_neg ?_
  simpa [retired] using done

/-- Settles O18: SNKR reads the sink of the record or an empty one; KNWAIT waits for the record, and acquires. -/
theorem sinksAndRetirementAreRead : Obligations.SinksAndRetirementAreRead := by
  unfold Obligations.SinksAndRetirementAreRead
  intro s d a k
  refine ⟨fun r record => ⟨?_, fun active => knwait_waits record (.inl active), fun retired done => ?_,
    fun undone => knwait_waits record (.inr undone)⟩, fun none => ⟨?_, ?_⟩⟩
  · have sink : vget r.sinks k.val {} = r.sinks[k] := vget_of_lt _ _ k.isLt
    obtain ⟨written, null⟩ := snkFlag_bits r.sinks[k].written r.sinks[k].null
    obtain ⟨t, step, only, value, regs, core⟩ := snkr_reads (s := s) (d := d) (a := a) (k := k) r.sinks[k] (by rw [execSnkr, record, ← sink])
    refine ⟨t, step, only, value, regs, by rw [core], ?_, ?_⟩
    · rw [core, written]
    · rw [core, null]
  · obtain ⟨value, regs, core, rest⟩ := put_writesReg (s.coreAcquire r.before) d (dbl r.status)
    rw [coreAcquire_cc] at core
    refine ⟨_, knwait_acquires record retired done, onlyCore_trans (onlyCore_modCc s _) rest, value, fun q hq => ?_, by rw [core],
      by rw [core], fun u hu => ?_⟩
    · rw [regs q hq, State.g, coreAcquire_cc]
      rfl
    · rw [core]
      exact mem_nunion.2 (.inr hu)
  · obtain ⟨t, step, only, value, regs, core⟩ := snkr_reads (s := s) (d := d) (a := a) (k := k) {} (by rw [execSnkr, none])
    exact ⟨t, step, only, value.trans (ite_self _), regs, core⟩
  · refine yields_put (v := dbl codeStale) ?_ rfl
    change execKnwait d a s = _
    rw [execKnwait, none]

/-! ### Reading for a launch (R82, R185, R196) -/

theorem aside_fetchFail {α : Type} {s t : State} (h : Aside s t) (code pa : Nat) : Aside s (fetchFail code pa t : Got α).after := by
  unfold fetchFail
  split <;> exact h

theorem aside_knotEntry (s : State) (d : Fin 2) (vf idx : Nat) : Aside s (s.knotEntry d vf idx).after := by
  unfold State.knotEntry
  split
  · next h => exact aside_fetchFail (aside_unit h rfl) _ _
  · next h => exact aside_unit h rfl
  · next h =>
    split
    · exact aside_unit h rfl
    · exact aside_trans (aside_unit h rfl) (cacheOnly_aside (cacheOnly_homeRead _ _ _ _))

theorem aside_pagesAt (s : State) (d : Fin 2) (vf n va : Nat) : Aside s (s.pagesAt d vf n va).after := by
  induction n generalizing s va with
  | zero => exact aside_refl s
  | succ n ih =>
    unfold State.pagesAt
    split
    · next h => exact aside_fetchFail (aside_unit h rfl) _ _
    · next h => exact aside_unit h rfl
    · next pa t h =>
      have rest := aside_trans (aside_unit h rfl) (ih t ((va / 65536 + 1) * 65536))
      split
      · next e => rwa [e] at rest
      · next e => rwa [e] at rest
      · next e => rwa [e] at rest

theorem aside_fetchImage (s : State) (d : Fin 2) (vf va : Nat) : Aside s (s.fetchImage d vf va).after := by
  unfold State.fetchImage
  -- the matches look at variables: the kernel need not evaluate the reading of an image
  obtain ⟨pagesAt, same, leaves⟩ : ∃ f, f = State.pagesAt ∧
      ∀ (t : State) {n a : Nat} {g : Got (List Nat)}, f t d vf n a = g → Aside t g.after :=
    ⟨_, rfl, fun t n a g e => e ▸ aside_pagesAt t d vf n a⟩
  obtain ⟨poisonAt, same'⟩ : ∃ f, f = State.poisonAt := ⟨_, rfl⟩
  rw [← same, ← same']
  split
  · next e => exact leaves _ e
  · next e => exact leaves _ e
  · next t e =>
    split
    · exact leaves s e
    · dsimp only
      split
      · next f => exact aside_trans (leaves _ e) (leaves _ f)
      · next f => exact aside_trans (leaves _ e) (leaves _ f)
      · next f =>
        have read := aside_trans (leaves _ e) (leaves _ f)
        split
        · exact read
        · split <;> exact aside_trans read (aside_trans (aside_charge _ _ _ _ _) ⟨rfl, rfl, rfl, rfl, rfl, fun _ => rfl⟩)

theorem coreRef_curCore (s : State) (va need : Nat) : (s.coreRef va need).2.sched.curCore = s.sched.curCore := by
  have walked (r : TReq) : (s.translate r).2.sched.curCore = s.sched.curCore := aside_curCore (cacheOnly_aside (cacheOnly_translate s r))
  unfold State.coreRef
  dsimp only
  split
  · split_ifs <;> rfl
  · split
    · rfl
    · split
      · rfl
      · split
        · rfl
        · split
          · split_ifs <;> exact walked _
          · exact walked _
          · exact (aside_curCore (aside_pageRequest _ _ _ _ _ _ _ _ _)).trans (walked _)
          · exact walked _
          · exact walked _

/-- A read of a core that gives a value leaves the core the current one. -/
theorem coreRead_curCore {s u : State} {va n v : Nat} (h : s.coreRead va n = .ok v u) : u.sched.curCore = s.sched.curCore := by
  have ref := coreRef_curCore s va 1
  unfold State.coreRead at h
  dsimp only at h
  split_ifs at h
  split at h
  · injection h with _ h
    exact h ▸ ref
  · injection h with _ h
    exact h ▸ ref
  · unfold State.coreMem at h
    split_ifs at h
    injection h with _ h
    exact h ▸ (l1Read_leaves _ _ _ _).1.current.trans ref
  · nomatch h
  · nomatch h

/-! ### LNCH (R195, R196) -/

/-- The root record that a launch creates. -/
def newRoot (s : State) (v p id : Nat) : Root :=
  { handle := mkHandle (s.vf v).launchSeq.toNat (parHome p (coreDie s.sched.curCore)).val id, vf := v,
    die := parHome p (coreDie s.sched.curCore), inst := id, core := s.sched.curCore.val, lineage := 1 }

/-- The root instance that a launch creates. -/
def newRootInst (s : State) (v idx p id : Nat) : Inst :=
  { id := id, vf := v, die := parHome p (coreDie s.sched.curCore), st := .queued, kidx := idx, kind := .root,
    root := mkHandle (s.vf v).launchSeq.toNat (parHome p (coreDie s.sched.curCore)).val id, cls := parClass p,
    prio := min (parPrio p) (s.vf v).priomax, thread := parThread p, age := s.sched.uid }

/-- A launch adds its record and its instance, queues it, and changes no core but for events. -/
theorem addRoot_leaves (s : State) (v idx p id : Nat) :
    (s.addRoot v idx p id).prick.roots = s.prick.roots ++ [newRoot s v p id] ∧
      (s.addRoot v idx p id).prick.insts = s.prick.insts ++ [newRootInst s v idx p id] ∧
      (∀ e ∈ parDies p, id ∈ ((s.addRoot v idx p id).eng e).queue) ∧
      (s.addRoot v idx p id).cc = { s.cc with events := (s.addRoot v idx p id).cc.events } := by
  let r : State := (s.newUid.2.addInst (newRootInst s v idx p id)).modVf v (fun x => { x with launchSeq := x.launchSeq + 1 })
  let t : State := { r with prick := { r.prick with roots := r.prick.roots ++ [newRoot s v p id] } }
  have sampled : Aside (t.queueLaunch id (parDies p)) (s.addRoot v idx p id) := aside_sampleInst _ _ _ _
  have queued := List.foldlRecOn (motive := fun u : State => u.prick.roots = t.prick.roots ∧ u.cores = t.cores ∧ u.sched = t.sched)
    (parDies p) (fun st d => st.modEng d (fun e => { e with queue := e.queue ++ [id] })) ⟨rfl, rfl, rfl⟩ (fun _ h _ _ => h)
  obtain ⟨roots, cores, sched⟩ := queued
  obtain ⟨insts, -⟩ := queueLaunch_insts id (parDies p) t
  obtain ⟨-, queues⟩ := queueLaunch_queues id (parDies p) t
  have core : (t.queueLaunch id (parDies p)).cc = s.cc := by
    unfold State.cc State.core State.queueLaunch
    rw [cores, sched]
    rfl
  refine ⟨?_, ?_, fun e he => ?_, ?_⟩
  · rw [sampled.engines]
    exact roots
  · rw [sampled.engines]
    exact insts
  · have queue := queues e he
    rwa [State.eng, ← sampled.engines] at queue
  · rw [aside_cc sampled, core]

/-- A refused launch. -/
theorem yields_refused {i : Instr} {s u : State} {d : Fin 32} {code : Nat} (step : exec i s = .next (u.put d (lnchRefusal code))) :
    Yields i s (WritesReg u · d (BitVec.ofNat 64 (2 ^ 63 + code))) :=
  ⟨_, step, put_writesReg u d _⟩

theorem launch_full {x : State} {v : Nat} (d : Fin 32) (idx p : Nat) (full : 1024 ≤ x.rootsOf v) :
    x.launch d v idx p = x.put d (lnchRefusal 0xE0) := if_pos full

theorem launch_room {x q : State} {v id : Nat} (d : Fin 32) (idx p : Nat) (room : x.rootsOf v < 1024)
    (free : x.rootId (x.vf v).launchSeq.toNat = (some id, q)) :
    x.launch d v idx p = (q.addRoot v idx p id).put d
      (dbl (mkHandle (x.vf v).launchSeq.toNat (parHome p (coreDie x.sched.curCore)).val id)) := by
  rw [State.launch, if_neg (not_le.2 room)]
  dsimp only
  rw [free]

theorem mkHandle_of_seq (seq : BitVec 16) (die id : Nat) : mkHandle seq.toNat die id = seq.toNat * 2 ^ 32 + die * 2 ^ 18 + id := by
  rw [mkHandle, Nat.mod_eq_of_lt seq.isLt]

theorem eng_put (s : State) (d : Fin 32) (v : Double) (e : Fin 2) : (s.put d v).eng e = s.eng e := by
  rw [State.eng, State.eng, put_prick]

/-- An instruction that launches in the state x puts the refusal of a full table, or the handle. -/
theorem yields_launch {i : Instr} {s x : State} {d : Fin 32} {v idx p : Nat} {c : Fin 4} (step : exec i s = .next (x.launch d v idx p))
    (core : x.sched.curCore = c) :
    (1024 ≤ x.rootsOf v → Yields i s (WritesReg x · d (BitVec.ofNat 64 (2 ^ 63 + 0xE0)))) ∧
    (x.rootsOf v < 1024 → ∀ id q, x.rootId (x.vf v).launchSeq.toNat = (some id, q) →
      let home := parHome p (coreDie c)
      let h := (x.vf v).launchSeq.toNat * 2 ^ 32 + home.val * 2 ^ 18 + id
      Yields i s (fun t =>
        t.g d = (if d = 0 then 0 else BitVec.ofNat 64 h) ∧ (∀ r, r ≠ d → t.g r = x.g r) ∧ t.cc.pc = x.cc.pc + 4 ∧
        (∃ r : Root, t.prick.roots = x.prick.roots ++ [r] ∧ r.handle = h ∧ r.vf = v ∧ r.die = home ∧ r.inst = id ∧
          r.core = c.val ∧ r.lineage = 1 ∧ r.retired = false ∧ r.status = 0) ∧
        (∃ i : Inst, t.prick.insts = x.prick.insts ++ [i] ∧ i.id = id ∧ i.vf = v ∧ i.st = .queued ∧ i.root = h ∧
          i.kidx = idx ∧ i.cls = fld p 50 2 ∧ i.thread = fld p 52 12) ∧
        ∀ e ∈ parDies p, id ∈ (t.eng e).queue)) := by
  subst core
  refine ⟨fun full => ?_, fun room id q free => ?_⟩
  · exact ⟨_, step.trans (congrArg _ (launch_full d idx p full)), put_writesReg x d _⟩
  · have picked : q = (x.pick (2 ^ 18)).2 := (congrArg Prod.snd free).symm
    have handle := mkHandle_of_seq (x.vf v).launchSeq (parHome p (coreDie x.sched.curCore)).val id
    obtain ⟨roots, insts, queues, cc⟩ := addRoot_leaves q v idx p id
    obtain ⟨value, regs, core, -⟩ := put_writesReg (q.addRoot v idx p id) d
      (dbl (mkHandle (x.vf v).launchSeq.toNat (parHome p (coreDie x.sched.curCore)).val id))
    intro home h
    replace handle : _ = h := handle
    clear_value h
    subst handle
    refine ⟨_, step.trans (congrArg _ (launch_room d idx p room free)), value, fun r hr => ?_, ?_, ⟨newRoot q v p id, ?_⟩,
      ⟨newRootInst q v idx p id, ?_⟩, fun e he => ?_⟩
    · rw [regs r hr, State.g, cc, picked]
      rfl
    · rw [core, cc, picked]
      rfl
    · subst picked
      exact ⟨roots, rfl, rfl, rfl, rfl, rfl, rfl, rfl, rfl⟩
    · subst picked
      exact ⟨insts, rfl, rfl, rfl, rfl, rfl, rfl, rfl⟩
    · rw [eng_put]
      exact queues e he

theorem lnch_reads {s u : State} {a b : Fin 32} {v p : Nat} (d : Fin 32) (valid : s.cc.curVf = some v) (enabled : (s.vf v).enable = true)
    (read : s.coreRead (s.g b).toNat 8 = .ok p u) : exec (.lnch d a b) s = .next (u.launchBlock d v (s.g a).toNat p) := by
  change execLnch d a b s = _
  rw [execLnch, valid]
  dsimp only
  rw [enabled, read]
  rfl

theorem parBad_iff (p : Nat) : parBad p = true ↔ fld p 35 13 ≠ 0 ∨ fld p 0 32 ≠ 0 ∨ fld p 48 2 = 3 := decide_eq_true_iff

/-- The entry of an index that has been used, and one whose block or index is refused. -/
theorem launchBlock_bad {u : State} {p : Nat} (d : Fin 32) (v idx : Nat) (bad : parBad p = true) :
    u.launchBlock d v idx p = u.put d (lnchRefusal 0xE1) := if_pos bad

theorem launchBlock_beyond {u : State} {p v idx : Nat} (d : Fin 32) (good : ¬ parBad p = true) (beyond : (u.vf v).knotcnt.toNat ≤ idx) :
    u.launchBlock d v idx p = u.put d (lnchRefusal codeNoKnot) := (if_neg good).trans (if_pos beyond)

theorem launchBlock_used {u : State} {p v idx : Nat} (d : Fin 32) (good : ¬ parBad p = true) (within : idx < (u.vf v).knotcnt.toNat)
    (used : (u.copy? (parHome p (coreDie u.sched.curCore)) v idx).isSome = true ∨
      (u.badKnot? (parHome p (coreDie u.sched.curCore)) v idx).isSome = true) :
    u.launchBlock d v idx p = State.launchWith d v idx p (u.needImage (parHome p (coreDie u.sched.curCore)) v idx) := by
  rw [State.launchBlock, if_neg good, if_neg (not_le.2 within), if_pos (Bool.or_eq_true _ _ ▸ used)]

theorem launchBlock_first {u : State} {p v idx : Nat} (d : Fin 32) (good : ¬ parBad p = true) (within : idx < (u.vf v).knotcnt.toNat)
    (noCopy : u.copy? (parHome p (coreDie u.sched.curCore)) v idx = none)
    (noBad : u.badKnot? (parHome p (coreDie u.sched.curCore)) v idx = none) :
    u.launchBlock d v idx p =
      match u.knotEntry (parHome p (coreDie u.sched.curCore)) v idx with
      | .wait t => t
      | .fail _ _ t => t.launch d v idx p
      | .ok e t => State.launchWith d v idx p (t.firstUse (parHome p (coreDie u.sched.curCore)) v idx e) := by
  rw [State.launchBlock, if_neg good, if_neg (not_le.2 within), noCopy, noBad]
  rfl

theorem needImage_copy {u : State} {d : Fin 2} {v idx : Nat} {k : KnotCopy} (within : idx < (u.vf v).knotcnt.toNat)
    (copy : u.copy? d v idx = some k) : u.needImage d v idx = .ok k.img (u.putCopy d k) := by
  rw [State.needImage, if_neg (not_le.2 within), copy]

theorem needImage_bad {u : State} {d : Fin 2} {v idx : Nat} {k : KnotBad} (within : idx < (u.vf v).knotcnt.toNat)
    (noCopy : u.copy? d v idx = none) (found : u.badKnot? d v idx = some k) : u.needImage d v idx = .fail k.code k.arg u := by
  rw [State.needImage, if_neg (not_le.2 within), noCopy, found]

theorem firstUse_valid (w : State) (d : Fin 2) (v idx e : Nat) : w.firstUse d v idx (e, true) =
    match w.fetchImage d v e with
    | .fail c a u => .fail c a (u.keepBad d v idx c a)
    | .wait u => .wait u
    | .ok m u => .ok m (u.putCopy d ⟨v, idx, m, 0, true⟩) := rfl

/-- Settles O16: each outcome of the read of the entry and of the image is a refusal, a wait, or the launch in the state that it leaves. -/
theorem launchesAreQueuedOrRefused : Obligations.LaunchesAreQueuedOrRefused := by
  unfold Obligations.LaunchesAreQueuedOrRefused
  intro s d a b puts
  refine ⟨fun none => yields_refused ?_, fun v valid => ⟨fun disabled => yields_refused ?_,
    fun enabled u out => ?_, ?_⟩⟩
  · change execLnch d a b s = _
    rw [execLnch, none]
  · change execLnch d a b s = _
    rw [execLnch, valid]
    dsimp only
    rw [disabled]
    rfl
  · change execLnch d a b s = _
    rw [execLnch, valid]
    dsimp only
    rw [enabled, out]
    rfl
  · intro enabled p u read bad idx home launched
    have step := lnch_reads (a := a) d valid enabled read
    have current := coreRead_curCore read
    refine ⟨fun bad => ?_, fun good beyond => ?_, fun good within => ⟨fun k copy => ?_, fun k noCopy found => ?_,
      fun noCopy noBad => ?_⟩⟩
    · exact yields_refused (step.trans (congrArg _ (launchBlock_bad d v idx ((parBad_iff p).2 bad))))
    · exact yields_refused (step.trans (congrArg _ (launchBlock_beyond d (good ∘ (parBad_iff p).1) beyond)))
    · rw [launchBlock_used d (good ∘ (parBad_iff p).1) within (.inl (by rw [current, copy]; rfl)), current,
        needImage_copy within copy] at step
      exact yields_launch step current
    · rw [launchBlock_used d (good ∘ (parBad_iff p).1) within (.inr (by rw [current, found]; rfl)), current,
        needImage_bad within noCopy found, State.launchWith] at step
      refine ⟨fun code => ?_, fun code => ?_⟩
      · exact yields_refused (step.trans (congrArg _ (if_pos code)))
      · exact yields_launch (step.trans (congrArg _ (if_neg code))) current
    · rw [launchBlock_first d (good ∘ (parBad_iff p).1) within (by rw [current]; exact noCopy) (by rw [current]; exact noBad),
        current] at step
      have reads {g : Got (Nat × Bool)} (entry : u.knotEntry home v idx = g) : g.after.sched.curCore = s.sched.curCore :=
        (aside_curCore (entry ▸ aside_knotEntry u home v idx)).trans current
      refine ⟨fun w entry => ?_, fun e w entry => ?_, fun c i w entry => ?_, fun e w entry => ?_⟩
      · rw [entry] at step
        exact step
      · rw [entry] at step
        exact yields_refused step
      · rw [entry] at step
        exact yields_launch step (reads entry)
      · rw [entry] at step
        dsimp only at step
        rw [firstUse_valid] at step
        have fetches {g : Got Image} (image : w.fetchImage home v e = g) : g.after.sched.curCore = s.sched.curCore :=
          (aside_curCore (image ▸ aside_fetchImage w home v e)).trans (reads entry)
        refine ⟨fun m x image => ?_, fun x image => ?_, fun c i x image code => ?_⟩
        · rw [image] at step
          exact yields_launch step (fetches image)
        · rw [image] at step
          exact yields_launch step (fetches image)
        · rw [image] at step
          refine yields_launch (step.trans (congrArg _ (if_neg code))) ?_
          rw [← fetches image]
          unfold State.keepBad
          split <;> rfl

/-! ### INJ (R197, R444) -/

theorem rootFor_root {s : State} {h : Double} {r : Root} (record : s.rootFor h = some r) : s.root? r.handle = some r := by
  unfold State.rootFor at record
  split at record
  · nomatch record
  · have found := (Option.filter_eq_some_iff.1 record).1
    have handle : r.handle = h.toNat := by simpa using List.find?_some found
    rwa [handle]

theorem rootInst_inst {s : State} {r : Root} {i : Inst} (live : s.rootInst r = some i) : s.inst? i.id = some i := by
  have found := (Option.filter_eq_some_iff.1 live).1
  rwa [inst_id found]

/-- A report to a partition leaves what the program of the core sees. -/
theorem report_leaves (s : State) (f : FaultInfo) :
    (s.partitionFault f).cnext.cc.pc = s.cc.pc + 4 ∧ (∀ r, (s.partitionFault f).cnext.g r = s.g r) ∧
      (s.partitionFault f).cnext.fab.tokens = s.fab.tokens ∧ (s.partitionFault f).cnext.prick = s.prick := by
  have reported := aside_partitionFault s f
  have cc := aside_cc reported
  refine ⟨?_, fun r => ?_, ?_, reported.engines⟩
  · rw [cc_cnext, cc]
  · rw [State.g, cc_cnext, cc]
    rfl
  · exact congrArg (·.tokens) reported.fabric

/-- The report of a stale handle, with the slot of the instance that it found. -/
theorem injStale_leaves {s : State} {h : Double} {o : Option Inst} {slot : Nat} (found : (s.rootFor h).bind s.rootInst = o)
    (inSlot : o.elim 0 (·.slot) = slot) :
    (s.injStale h).cnext.cc.pc = s.cc.pc + 4 ∧ (∀ r, (s.injStale h).cnext.g r = s.g r) ∧
      (s.injStale h).cnext.fab.tokens = s.fab.tokens ∧ (s.injStale h).cnext.prick = s.prick ∧
      ∀ v, s.cc.curVf = some v → (s.injStale h).cnext = (s.partitionFault
        { code := 0x32, source := 4, vf := some v, die := coreDie s.sched.curCore, core := s.sched.curCore.val,
          ctx := slot, inst := h.toNat % 2 ^ 18 }).cnext := by
  subst inSlot
  unfold State.injStale
  rw [found, bits_eq_toNat, pow_zero, Nat.div_one]
  cases valid : s.cc.curVf with
  | none =>
    refine ⟨by rw [cc_cnext], fun r => ?_, rfl, rfl, fun v hv => nomatch hv⟩
    rw [State.g, cc_cnext]
    rfl
  | some w =>
    obtain ⟨pc, regs, tokens, prick⟩ := report_leaves s
      { code := codeStale, source := 4, vf := some w, die := coreDie s.sched.curCore, core := s.sched.curCore.val,
        ctx := o.elim 0 (·.slot), inst := h.toNat % 2 ^ 18 }
    cases o with
    | none => exact ⟨pc, regs, tokens, prick, fun v hv => by rw [← Option.some.inj hv]; rfl⟩
    | some i => exact ⟨pc, regs, tokens, prick, fun v hv => by rw [← Option.some.inj hv]; rfl⟩

theorem inj_stale {s : State} {a b : Fin 32} {e : Fin 16} (done : s.coreDone s.sched.curCore .device = true)
    (none : (s.rootFor (s.g a)).bind s.rootInst = none) : exec (.inj a b e) s = .next (s.injStale (s.g a)).cnext := by
  change execInj a b e s = _
  rw [execInj, done, Bool.not_true, if_neg Bool.false_ne_true]
  split
  · rfl
  · next r record =>
    rw [record, Option.bind_some] at none
    rw [none]

theorem inj_sends {s : State} {a b : Fin 32} {e : Fin 16} {r : Root} {i : Inst} (done : s.coreDone s.sched.curCore .device = true)
    (record : s.rootFor (s.g a) = some r) (live : s.rootInst r = some i) :
    exec (.inj a b e) s = .next (s.inject r i e.val (s.g a) (s.g b)) := by
  change execInj a b e s = _
  rw [execInj, done, Bool.not_true, if_neg Bool.false_ne_true, record]
  dsimp only
  rw [live]

/-- Queueing a relink changes no record of a launch, no token and no core. -/
theorem queueRelink_leaves (s : State) (id : Nat) :
    (s.queueRelink id).prick.roots = s.prick.roots ∧ (s.queueRelink id).fab = s.fab ∧ (s.queueRelink id).cc = s.cc := by
  unfold State.queueRelink
  split
  · exact ⟨rfl, rfl, rfl⟩
  · split <;> exact ⟨rfl, rfl, rfl⟩

/-- A held token waits in the record of its launch. -/
theorem held_leaves {s : State} {r : Root} (id : Nat) (x : Nat × Flight) (record : s.root? r.handle = some r) :
    let t := ((s.modRoot r.handle (fun q => { q with held := q.held ++ [x] })).queueRelink id).cnext
    t.cc.pc = s.cc.pc + 4 ∧ (∀ q, t.g q = s.g q) ∧ t.fab.tokens = s.fab.tokens ∧
      (t.root? r.handle).map (·.held) = some (r.held ++ [x]) := by
  intro t
  obtain ⟨roots, fab, cc⟩ := queueRelink_leaves (s.modRoot r.handle (fun q => { q with held := q.held ++ [x] })) id
  have core : t.cc = { s.cc with pc := s.cc.pc + 4 } := (cc_cnext _).trans (by rw [cc]; rfl)
  have held : t.root? r.handle = (s.modRoot r.handle (fun q => { q with held := q.held ++ [x] })).root? r.handle :=
    congrArg (List.find? _) roots
  refine ⟨by rw [core], fun q => by rw [State.g, core]; rfl, congrArg (·.tokens) fab, ?_⟩
  have changed := root_modRoot s r.handle (fun q => { q with held := q.held ++ [x] }) (fun _ => rfl)
  rw [held, changed, record]
  rfl

/-- A token that is sent is on its way, and nothing else of the core's has changed. -/
theorem launchTok_leaves (s : State) (f : Flight) :
    (s.launchTok f).cnext.cc.pc = s.cc.pc + 4 ∧ (∀ q, (s.launchTok f).cnext.g q = s.g q) ∧
      ∃ g, (s.launchTok f).cnext.fab.tokens = s.fab.tokens ++ [g] ∧ g.tok = f.tok ∧ g.before = f.before := by
  obtain ⟨g, same, launched⟩ := launchTok_launches s f
  have core : (s.launchTok f).cc = s.cc := by rw [launched]; rfl
  refine ⟨by rw [cc_cnext, core], fun q => by rw [State.g, cc_cnext, core]; rfl, g, ?_, by rw [same], by rw [same]⟩
  change (s.launchTok f).fab.tokens = _
  rw [launched]

/-- A token that is saved stands in the save image of its instance. -/
theorem saveToken_leaves {s : State} {i : Inst} (f : Flight) (live : s.inst? i.id = some i) :
    (s.saveToken i.id f).cnext.cc.pc = s.cc.pc + 4 ∧ (s.saveToken i.id f).cnext.fab.tokens = s.fab.tokens ∧
      ((s.saveToken i.id f).cnext.inst? i.id).bind (·.save) =
        some { (i.save.getD {}) with toks := (i.save.getD {}).toks ++ [f] } := by
  refine ⟨by rw [cc_cnext]; rfl, rfl, ?_⟩
  have saved := inst_modInst s i.id (fun i => { i with save := some (let m := i.save.getD {}; { m with toks := m.toks ++ [f] }) }) (fun _ => rfl)
  rw [live] at saved
  exact congrArg (·.bind (·.save)) saved

/-- Settles O17: what becomes of an INJ token is decided by the instance of its handle. -/
theorem injectionsAreSentHeldOrReported : Obligations.InjectionsAreSentHeldOrReported := by
  unfold Obligations.InjectionsAreSentHeldOrReported
  intro s a b e stale
  refine ⟨fun undone => ?_, fun done => ⟨fun none => ?_, fun r record => ⟨fun none => ?_, fun i live => ?_⟩⟩⟩
  · change execInj a b e s = _
    rw [execInj, undone]
    rfl
  · have found : (s.rootFor (s.g a)).bind s.rootInst = .none := by rw [none]; rfl
    exact ⟨_, inj_stale done found, injStale_leaves found rfl⟩
  · have found : (s.rootFor (s.g a)).bind s.rootInst = .none := by rw [record]; exact none
    exact ⟨_, inj_stale done found, injStale_leaves found rfl⟩
  · intro covers
    have step := inj_sends (b := b) (e := e) done record live
    refine ⟨fun way full => ?_, fun way room => ?_, fun way entry => ?_, fun way entry => ?_, fun way beyond => ?_⟩
    · rw [State.inject, way] at step
      exact step.trans (congrArg _ (if_pos full))
    · rw [State.inject, way] at step
      obtain ⟨pc, regs, tokens, held⟩ := held_leaves i.id (e.val, s.injFlight i (s.g b)) (rootFor_root record)
      exact ⟨_, step.trans (congrArg _ (if_neg (not_le.2 room))), pc, regs, tokens, _, held, rfl, rfl⟩
    · rw [State.inject, way] at step
      obtain ⟨pc, regs, g, tokens, tok, before⟩ := launchTok_leaves s (s.injOn i e.val (s.g b))
      exact ⟨_, step.trans (congrArg _ (if_neg (not_le.2 entry))), pc, regs, g, tokens, by rw [tok]; rfl, tok, before⟩
    · rw [State.inject, way] at step
      obtain ⟨pc, tokens, saved⟩ := saveToken_leaves (s.injOn i e.val (s.g b)) (rootInst_inst live)
      exact ⟨_, step.trans (congrArg _ (if_neg (not_le.2 entry))), pc, tokens, _, _, saved, rfl, rfl⟩
    · have found : (s.rootFor (s.g a)).bind s.rootInst = some i := by rw [record]; exact live
      have reported : s.inject r i e.val (s.g a) (s.g b) = (s.injStale (s.g a)).cnext := by
        unfold State.inject
        cases h : s.injWay r i with
        | hold => exact absurd h way
        | image => exact if_pos beyond
        | send => exact if_pos beyond
      exact ⟨_, step.trans (congrArg _ reported), injStale_leaves found rfl⟩

end Sys2Proof.Machine
end

section

/-!
SUPPORT. Packets, completion records and interrupt messages (R202 to R204, R209, R211, R212, R215). The statement O19 is settled here.
-/

namespace Sys2Proof.Machine

/-! ### Writes of the engines (R241, R404) -/

theorem engineWrite_serves {s : State} {pa : Nat} (vf n v : Nat) (memory : s.physOk pa = true) :
    s.engineWrite vf pa n v = (s.serveWrite vf pa n v).dropRdc pa n := if_pos memory

theorem engineWrite_mem {s : State} {pa : Nat} (vf n v : Nat) (memory : s.physOk pa = true) :
    (s.engineWrite vf pa n v).mm.mem = Mem.write s.mm.mem pa n v := by
  rw [engineWrite_serves vf n v memory]
  exact serveWrite_mem s vf pa n v

@[simp] theorem engineWrite_host (s : State) (vf pa n v : Nat) : (s.engineWrite vf pa n v).host = s.host := by
  unfold State.engineWrite
  split
  · exact serveWrite_host s vf pa n v
  · rfl

/-- An access of a unit that is granted changes caches alone. -/
theorem unitAccess_ok {s t : State} {die : Fin 2} {vf va pa : Nat} {w : Bool} {p : Option Nat} {f : PageFor}
    (h : s.unitAccess die vf va w p f = .ok pa t) : CacheOnly s t := by
  unfold State.unitAccess at h
  dsimp only at h
  have walked := cacheOnly_translate s ⟨die, die.val * 32, vf, va, if w then 2 else 1, s.vfRanges die vf⟩
  generalize s.translate _ = r at walked h
  split at h
  · split_ifs at h
    injection h with _ h
    exact h ▸ walked
  · nomatch h
  · split at h
    · split at h
      · nomatch h
      · nomatch h
    · nomatch h
  · nomatch h
  · nomatch h

/-- An access of a unit that fails changes nothing of the host side. -/
theorem unitAccess_fail {s t : State} {die : Fin 2} {vf va c a : Nat} {w : Bool} {p : Option Nat} {f : PageFor}
    (h : s.unitAccess die vf va w p f = .fail c a t) : t.host = s.host := by
  unfold State.unitAccess at h
  dsimp only at h
  have walked := cacheOnly_read (cacheOnly_translate s ⟨die, die.val * 32, vf, va, if w then 2 else 1, s.vfRanges die vf⟩) State.host
  generalize s.translate _ = r at walked h
  split at h
  · split_ifs at h
    injection h with _ _ h
    exact h ▸ walked
  · injection h with _ _ h
    exact h ▸ walked
  · split at h
    · split at h
      · injection h with _ _ h
        exact h ▸ walked
      · nomatch h
    · nomatch h
  · injection h with _ _ h
    exact h ▸ walked
  · nomatch h

/-! ### QPOP (R202) -/

/-- Marking the packet of one slot as popped leaves the slots in place. -/
theorem find_markPopped (m : Map IntakeSlot) (n k : Nat) :
    Map.find (m.map (fun q => if q.1 = n then (q.1, { q.2 with popped := true }) else q)) k =
      (Map.find m k).map (fun e => if k = n then { e with popped := true } else e) := by
  induction m with
  | nil => rfl
  | cons q m ih =>
    obtain ⟨j, e⟩ := q
    rw [List.map_cons, Map.find]
    by_cases hj : j = n
    · by_cases hk : j = k
      · subst hk
        simp [Map.find, hj]
      · simpa [Map.find, hj, hk, hj ▸ hk] using ih
    · by_cases hk : j = k
      · subst hk
        simp [Map.find, hj]
      · simpa [Map.find, hj, hk] using ih

/-- The packets that QPOP looks for: all of the core, or those of one queue interface. -/
def Named (x : Double) (p : Nat × Nat) : Prop := x.getLsbD 8 = true ∨ p.1 = x.toNat % 256

theorem popPick_none {s : State} {x : Double} (none : ∀ p ∈ s.cc.pktq, ¬ Named x p) : s.popPick x = .none := by
  have low : bits x 0 8 = x.toNat % 256 := by rw [bits_eq_toNat, pow_zero, Nat.div_one]; rfl
  unfold State.popPick
  split
  · next all =>
    cases h : s.cc.pktq with
    | nil => rfl
    | cons p l => exact absurd (.inl all) (none p (h ▸ List.mem_cons_self))
  · split
    · rfl
    · rw [List.find?_eq_none]
      intro p hp named
      exact none p hp (.inr (low ▸ of_decide_eq_true named))

theorem popPick_first {s : State} {x : Double} {older younger : List (Nat × Nat)} {p : Nat × Nat}
    (mine : x.getLsbD 8 = true ∨ (s.qi (x.toNat % 256)).core = s.sched.curCore) (queue : s.cc.pktq = older ++ p :: younger)
    (first : ∀ q ∈ older, ¬ Named x q) (named : Named x p) : s.popPick x = some p := by
  have low : bits x 0 8 = x.toNat % 256 := by rw [bits_eq_toNat, pow_zero, Nat.div_one]; rfl
  unfold State.popPick
  rw [low, queue]
  split
  · next all =>
    cases older with
    | nil => rfl
    | cons q l => exact absurd (.inl all) (first q List.mem_cons_self)
  · next one =>
    have core := mine.resolve_left one
    have number := named.resolve_left one
    rw [if_neg (not_not.2 core), List.find?_eq_some_iff_append]
    refine ⟨decide_eq_true number, older, younger, rfl, fun q hq => ?_⟩
    simpa using fun h => first q hq (.inr h)

/-- QPOP of nothing puts 0. -/
theorem qpop_none {s : State} {d a : Fin 32} (host : s.cc.mode = true) (none : s.popPick (s.g a) = .none) :
    exec (.qpop d a) s = .next (s.put d 0) := by
  change execQpop d a s = _
  rw [execQpop, host, none]
  rfl

/-- QPOP of a packet marks its slot, puts the address of the slot, and forgets the packet. -/
theorem qpop_takes {s : State} {d a : Fin 32} {p : Nat × Nat} (host : s.cc.mode = true) (found : s.popPick (s.g a) = some p) :
    Yields (.qpop d a) s (fun t => OnlyCore s t ∧ t.g d = (if d = 0 then 0 else BitVec.ofNat 64 (0xC000 + 64 * p.2)) ∧
      (∀ r, r ≠ d → t.g r = s.g r) ∧ t.cc.pc = s.cc.pc + 4 ∧ t.cc.lm = s.cc.lm ∧ (∀ q, q ∈ t.cc.pktq ↔ q ∈ s.cc.pktq ∧ q.2 ≠ p.2) ∧
      ∀ k e, Map.find s.cc.slots k = some e →
        Map.find t.cc.slots k = some (if k = p.2 then { e with popped := true } else e)) := by
  obtain ⟨value, regs, core, rest⟩ := put_writesReg (s.modCc (fun k => { k with
    pktq := k.pktq.filter (fun q => decide (q.2 ≠ p.2)),
    slots := k.slots.map (fun q => if q.1 = p.2 then (q.1, { q.2 with popped := true }) else q) })) d (slotAddr p.2)
  rw [cc_modCc] at core
  refine ⟨_, ?_, onlyCore_trans (onlyCore_modCc s _) rest, value, fun r hr => ?_, by rw [core], by rw [core], fun q => ?_, fun k e slot => ?_⟩
  · change execQpop d a s = _
    rw [execQpop, host, found]
    rfl
  · rw [regs r hr, State.g, cc_modCc]
    rfl
  · rw [core]
    simp
  · rw [core]
    exact (find_markPopped s.cc.slots p.2 k).trans (by rw [slot]; rfl)

/-! ### QDONE (R203, R212) -/

/-- A freed slot is kept for a stopped queue interface: nothing else of one changes. -/
theorem passGrant_qi (s : State) (c : Fin 4) (q : Nat) :
    (s.passGrant c).qi q = { s.qi q with stopped := ((s.passGrant c).qi q).stopped, granted := ((s.passGrant c).qi q).granted } := by
  unfold State.passGrant
  split
  · next p _ =>
    by_cases h : q = p
    · rw [h, qi_modQi_same]
    · rw [qi_modQi_other _ _ h]
  · rfl

theorem passGrant_leaves (s : State) (c : Fin 4) : (s.passGrant c).mm = s.mm ∧ (s.passGrant c).cc = s.cc ∧
    (s.passGrant c).host = { s.host with qis := (s.passGrant c).host.qis } := by
  unfold State.passGrant
  split <;> exact ⟨rfl, rfl, rfl⟩

/-- What a program sees once its slot is free: the slot is gone, and the core goes on. -/
theorem slotFreed_leaves (s : State) (n : Nat) : (s.slotFreed n).mm = s.mm ∧
    (s.slotFreed n).cc = { s.cc with slots := Map.drop s.cc.slots n } ∧
    ∀ q, (s.slotFreed n).qi q = { s.qi q with stopped := ((s.slotFreed n).qi q).stopped, granted := ((s.slotFreed n).qi q).granted } := by
  obtain ⟨mm, cc, -⟩ := passGrant_leaves (s.modCc (fun k => { k with slots := Map.drop k.slots n })) s.sched.curCore
  exact ⟨mm, cc.trans (cc_modCc s _), passGrant_qi _ _⟩

/-- The core of a freed slot goes on, in a state that differs from s beside its cores. -/
theorem freed_cnext {s t u : State} {n : Nat} (before : Aside s u) (after : Aside (u.slotFreed n) t) :
    t.cnext.cc.slots = Map.drop s.cc.slots n ∧ t.cnext.cc.pc = s.cc.pc + 4 ∧ ∀ r, t.cnext.g r = s.g r := by
  obtain ⟨-, cc, -⟩ := slotFreed_leaves u n
  have core : t.cc = { s.cc with slots := Map.drop s.cc.slots n, events := t.cc.events } := by
    rw [aside_cc after, cc, aside_cc before]
  refine ⟨by rw [cc_cnext, core], by rw [cc_cnext, core], fun r => ?_⟩
  rw [State.g, cc_cnext, core]
  rfl

theorem qdone_traps {s : State} {a b : Fin 32} (none : s.cc.popped (s.g a) = .none) :
    exec (.qdone a b) s = .next (s.coreTrap .qstate 0 (s.g a)) := by
  change execQdone a b s = _
  rw [execQdone, none]

theorem qdone_eq {s : State} {a : Fin 32} {n : Nat} {e : IntakeSlot} (b : Fin 32) (found : s.cc.popped (s.g a) = some (n, e)) :
    exec (.qdone a b) s = .next (
      if ¬ (s.cc.mode = true ∨ some (s.qi e.qi).owner = s.cc.curVf) then s.coreTrap .priv 0 0
      else if s.coreDone s.sched.curCore .system = false then s
      else s.finish n e ((s.g b).toNat % 2 ^ 15)) := by
  have low : bits (s.g b) 0 15 = (s.g b).toNat % 2 ^ 15 := by rw [bits_eq_toNat, pow_zero, Nat.div_one]
  change execQdone a b s = _
  rw [execQdone, found]
  dsimp only
  rw [low, apply_ite Host.Outcome.next, apply_ite Host.Outcome.next]
  exact if_congr (by simp) rfl (if_congr (by simp) rfl rfl)

/-- The interrupt of a completion is that of its queue interface as the packet was done. -/
theorem cplIrq_slotFreed {s u : State} (n : Nat) {q : Nat} (cfg : (u.qi q).cfg = (s.qi q).cfg) (irq : (u.qi q).irq = (s.qi q).irq) :
    (u.slotFreed n).cplIrq q =
      if (s.qi q).irqen then (u.slotFreed n).sendIrq (coreDie (s.qi q).core) (s.qi q).irq.toNat (some (s.qi q).owner) else u.slotFreed n := by
  obtain ⟨-, -, qi⟩ := slotFreed_leaves u n
  have cfg' : ((u.slotFreed n).qi q).cfg = (s.qi q).cfg := by rw [qi q, cfg]
  have irq' : ((u.slotFreed n).qi q).irq = (s.qi q).irq := by rw [qi q, irq]
  simp only [State.cplIrq, Qi.irqen, Qi.core, Qi.owner, cfg', irq']
  rfl

theorem aside_cplIrq (s : State) (q : Nat) : Aside s (s.cplIrq q) := by
  unfold State.cplIrq
  dsimp only
  split
  · exact aside_sendIrq _ _ _ _
  · exact aside_refl s

/-- The access that writes the record of a packet (R212). -/
def State.recordAccess (s : State) (e : IntakeSlot) : UOut :=
  s.unitAccess (coreDie (s.qi e.qi).core) (s.qi e.qi).owner ((s.qi e.qi).cplbase.toNat + 16 * (e.number % (s.qi e.qi).ring)) true
    (some (s.qi e.qi).pasid) (.completion e.qi)

theorem finish_ok {s u : State} {e : IntakeSlot} {pa : Nat} (n status : Nat) (held : e.gen = (s.vf e.vf).gen)
    (record : s.recordAccess e = .ok pa u) : s.finish n e status =
      (((u.engineWrite (s.qi e.qi).owner pa 16 (cplRecord e.qi e.number status (s.qi e.qi).ring)).slotFreed n).cplIrq e.qi).cnext := by
  unfold State.recordAccess at record
  rw [State.finish, if_neg (not_not.2 held), State.complete]
  dsimp only
  rw [record]
  rfl

theorem finish_fail {s u : State} {e : IntakeSlot} {c i : Nat} (n status : Nat) (held : e.gen = (s.vf e.vf).gen)
    (record : s.recordAccess e = .fail c i u) : s.finish n e status =
      (((u.modQi e.qi (fun y => { y with cplLost := y.cplLost + 1 })).slotFreed n).cplIrq e.qi).cnext := by
  unfold State.recordAccess at record
  rw [State.finish, if_neg (not_not.2 held), State.complete]
  dsimp only
  rw [record]
  rfl

theorem finish_wait {s u : State} {e : IntakeSlot} (n status : Nat) (held : e.gen = (s.vf e.vf).gen)
    (record : s.recordAccess e = .wait u) : s.finish n e status = u := by
  unfold State.recordAccess at record
  rw [State.finish, if_neg (not_not.2 held), State.complete]
  dsimp only
  rw [record]
  rfl

/-- A completed packet frees its slot, whether its record was written or lost. -/
theorem finish_frees {s : State} {e : IntakeSlot} (n status : Nat) (held : e.gen = (s.vf e.vf).gen)
    (answered : ∀ u, s.recordAccess e ≠ .wait u) :
    (s.finish n e status).cc.slots = Map.drop s.cc.slots n ∧ (s.finish n e status).cc.pc = s.cc.pc + 4 ∧
      ∀ r, (s.finish n e status).g r = s.g r := by
  cases record : s.recordAccess e with
  | ok pa u =>
    rw [finish_ok n status held record]
    exact freed_cnext (aside_trans (aside_unit record rfl) (aside_engineWrite _ _ _ _ _)) (aside_cplIrq _ _)
  | fail c i u =>
    rw [finish_fail n status held record]
    exact freed_cnext (aside_trans (aside_unit record rfl) (aside_modQi _ _ _)) (aside_cplIrq _ _)
  | wait u => exact absurd record (answered u)

/-- A record that cannot be written is counted (R212). -/
theorem finish_lost {s u : State} {e : IntakeSlot} {c i : Nat} (n status : Nat) (held : e.gen = (s.vf e.vf).gen)
    (record : s.recordAccess e = .fail c i u) (quiet : (s.qi e.qi).irqen = false) :
    (s.finish n e status).mm = u.mm ∧ ((s.finish n e status).qi e.qi).cplLost = (u.qi e.qi).cplLost + 1 := by
  have same : u.qi e.qi = s.qi e.qi := by rw [State.qi, unitAccess_fail record]; rfl
  have lost := qi_modQi_same u e.qi (fun y => { y with cplLost := y.cplLost + 1 })
  obtain ⟨mm, -, qi⟩ := slotFreed_leaves (u.modQi e.qi (fun y => { y with cplLost := y.cplLost + 1 })) n
  have freed := cplIrq_slotFreed (s := s) n (u := u.modQi e.qi (fun y => { y with cplLost := y.cplLost + 1 })) (q := e.qi)
    (by rw [lost, same]) (by rw [lost, same])
  rw [quiet, if_neg Bool.false_ne_true] at freed
  rw [finish_fail n status held record, freed]
  refine ⟨mm, ?_⟩
  change ((State.slotFreed _ n).qi e.qi).cplLost = _
  rw [qi, lost]

/-- The state in which the record of a packet is written and its slot free. -/
theorem finish_written {s u : State} {e : IntakeSlot} {pa : Nat} (n status : Nat) (held : e.gen = (s.vf e.vf).gen)
    (record : s.recordAccess e = .ok pa u) : s.finish n e status =
      (let w := (u.engineWrite (s.qi e.qi).owner pa 16 (cplRecord e.qi e.number status (s.qi e.qi).ring)).slotFreed n
       if (s.qi e.qi).irqen then w.sendIrq (coreDie (s.qi e.qi).core) (s.qi e.qi).irq.toNat (some (s.qi e.qi).owner) else w).cnext := by
  have same : (u.engineWrite (s.qi e.qi).owner pa 16 (cplRecord e.qi e.number status (s.qi e.qi).ring)).qi e.qi = s.qi e.qi := by
    rw [State.qi, engineWrite_host, cacheOnly_read (unitAccess_ok record) State.host]
    rfl
  rw [finish_ok n status held record, cplIrq_slotFreed (s := s) n (by rw [same]) (by rw [same])]

/-- The bytes of memory once a record without an interrupt is written. -/
theorem finish_memory {s u : State} {e : IntakeSlot} {pa : Nat} (n status : Nat) (held : e.gen = (s.vf e.vf).gen)
    (record : s.recordAccess e = .ok pa u) (memory : u.physOk pa = true) (quiet : (s.qi e.qi).irqen = false) :
    (s.finish n e status).mm.mem = Mem.write s.mm.mem pa 16 (cplRecord e.qi e.number status (s.qi e.qi).ring) := by
  obtain ⟨mm, -⟩ := slotFreed_leaves (u.engineWrite (s.qi e.qi).owner pa 16 (cplRecord e.qi e.number status (s.qi e.qi).ring)) n
  rw [finish_written n status held record, quiet]
  change (State.slotFreed _ n).mm.mem = _
  rw [mm, engineWrite_mem _ _ _ memory, cacheOnly_mem (unitAccess_ok record)]

/-! ### IRQ (R204, R215) -/

/-- The row of the remap table that a handle names (R215). -/
def State.irqRow (s : State) (handle : Nat) : Nat := 2 ^ 51 + s.host.irqremap.toNat / 2 ^ 20 % 2 ^ 31 * 2 ^ 20 + 16 * handle

/-- A remap entry is valid, and names its sender. -/
def irqNames (w : Nat) (sender : Option Nat) : Bool :=
  (match sender with
    | some v => decide (fld w 0 1 = 1) && decide (fld w 23 1 = 0) && decide (fld w 16 7 = v)
    | none => decide (fld w 0 1 = 1) && decide (fld w 23 1 = 1)) && decide (fld w 64 2 = 0)

theorem irqNames_iff (w : Nat) (sender : Option Nat) : irqNames w sender = true ↔
    fld w 0 1 = 1 ∧ fld w 64 2 = 0 ∧ match sender with | some v => fld w 23 1 = 0 ∧ fld w 16 7 = v | none => fld w 23 1 = 1 := by
  cases sender with
  | none =>
    simp only [irqNames, Bool.and_eq_true, decide_eq_true_eq]
    tauto
  | some v =>
    simp only [irqNames, Bool.and_eq_true, decide_eq_true_eq]
    tauto

/-- An interrupt message is dropped, held or written (R215, R469). -/
theorem sendIrq_eq (s : State) (die : Fin 2) (handle : Nat) (sender : Option Nat) : s.sendIrq die handle sender =
    if s.host.irqremap.getLsbD 63 = false then s.modHost (fun h => { h with irqdrop := h.irqdrop + 1 })
    else if s.portWaits (s.irqRow handle) = true then s.modHost (fun h => { h with irqHeld := h.irqHeld ++ [⟨handle, sender, die⟩] })
    else if irqNames (Mem.read s.mm.mem (s.irqRow handle) 16) sender = false then s.modHost (fun h => { h with irqdrop := h.irqdrop + 1 })
    else if s.portDown die = true then s.modHost (fun h => { h with irqHeld := h.irqHeld ++ [⟨handle, sender, die⟩] })
    else if 2 ^ 51 ≤ fld (Mem.read s.mm.mem (s.irqRow handle) 16) 64 64 then s
    else s.engineWrite hostId (2 ^ 51 + fld (Mem.read s.mm.mem (s.irqRow handle) 16) 64 64) 4
      (fld (Mem.read s.mm.mem (s.irqRow handle) 16) 32 32) := by
  unfold State.sendIrq
  dsimp only
  rw [bits_eq_toNat, ← State.irqRow]
  refine if_congr (by rw [bit, Bool.not_eq_true']) rfl (if_congr Iff.rfl rfl (if_congr ?_ rfl rfl))
  have split (ok : Bool) (x : Nat) : (!ok || decide (x ≠ 0)) = true ↔ (ok && decide (x = 0)) = false := by
    simp [imp_iff_not_or]
  cases sender with
  | none => exact split _ _
  | some v => exact split _ _

theorem sendIrq_drops {s : State} (die : Fin 2) {handle : Nat} {sender : Option Nat} (h : s.host.irqremap.getLsbD 63 = false ∨
    s.portWaits (s.irqRow handle) = false ∧ irqNames (Mem.read s.mm.mem (s.irqRow handle) 16) sender = false) :
    s.sendIrq die handle sender = s.modHost (fun h => { h with irqdrop := h.irqdrop + 1 }) := by
  rw [sendIrq_eq]
  by_cases off : s.host.irqremap.getLsbD 63 = false
  · exact if_pos off
  · obtain ⟨up, other⟩ := h.resolve_left off
    rw [if_neg off, up, if_neg Bool.false_ne_true, if_pos other]

theorem sendIrq_holds {s : State} {die : Fin 2} {handle : Nat} {sender : Option Nat} (on : s.host.irqremap.getLsbD 63 = true)
    (h : s.portWaits (s.irqRow handle) = true ∨
      irqNames (Mem.read s.mm.mem (s.irqRow handle) 16) sender = true ∧ s.portDown die = true) :
    s.sendIrq die handle sender = s.modHost (fun h => { h with irqHeld := h.irqHeld ++ [⟨handle, sender, die⟩] }) := by
  rw [sendIrq_eq, on, if_neg Bool.true_eq_false.mp]
  by_cases down : s.portWaits (s.irqRow handle) = true
  · exact if_pos down
  · obtain ⟨names, down'⟩ := h.resolve_left down
    rw [if_neg down, names, if_neg Bool.true_eq_false.mp, if_pos down']

theorem sendIrq_writes {s : State} {die : Fin 2} {handle : Nat} {sender : Option Nat} (on : s.host.irqremap.getLsbD 63 = true)
    (up : s.portWaits (s.irqRow handle) = false) (names : irqNames (Mem.read s.mm.mem (s.irqRow handle) 16) sender = true)
    (port : s.portDown die = false) (range : fld (Mem.read s.mm.mem (s.irqRow handle) 16) 64 64 < 2 ^ 51) :
    s.sendIrq die handle sender = s.engineWrite hostId (2 ^ 51 + fld (Mem.read s.mm.mem (s.irqRow handle) 16) 64 64) 4
      (fld (Mem.read s.mm.mem (s.irqRow handle) 16) 32 32) := by
  rw [sendIrq_eq, on, if_neg Bool.true_eq_false.mp, up, if_neg Bool.false_ne_true, names, if_neg Bool.true_eq_false.mp, port,
    if_neg Bool.false_ne_true, if_neg (not_le.2 range)]

/-- The function that an IRQ names as its sender. -/
def State.irqSender (s : State) : Option Nat := if s.cc.mode = true then none else s.cc.curVf

theorem irq_eq {s : State} (a : Fin 32) (done : s.coreDone s.sched.curCore .system = true) : exec (.irq a) s = .next (
    if (s.g a).toNat < 2 ^ 16 ∧ (s.cc.mode = true ∨ s.cc.curVf ≠ none) then
      (s.sendIrq (coreDie s.sched.curCore) (s.g a).toNat s.irqSender).cnext
    else (s.modHost (fun h => { h with irqdrop := h.irqdrop + 1 })).cnext) := by
  have range : (s.g a).toNat < 2 ^ 64 := (s.g a).isLt
  have low : bits (s.g a) 0 16 = (s.g a).toNat % 2 ^ 16 := by rw [bits_eq_toNat, pow_zero, Nat.div_one]
  have high : bits (s.g a) 16 48 ≠ 0 ↔ ¬ (s.g a).toNat < 2 ^ 16 := by
    rw [bits_eq_toNat]
    omega
  have unnamed : bits (s.g a) 16 48 ≠ 0 ∨ s.cc.mode = false ∧ s.cc.curVf = none ↔
      ¬ ((s.g a).toNat < 2 ^ 16 ∧ (s.cc.mode = true ∨ s.cc.curVf ≠ none)) := by
    rw [high, not_and_or, not_or, Bool.not_eq_true, not_not]
  change execIrq a s = _
  rw [execIrq, done, Bool.not_true, if_neg Bool.false_ne_true]
  by_cases named : (s.g a).toNat < 2 ^ 16 ∧ (s.cc.mode = true ∨ s.cc.curVf ≠ none)
  · rw [if_neg (fun h => unnamed.1 h named), if_pos named, low, Nat.mod_eq_of_lt named.1]
    rfl
  · rw [if_pos (unnamed.2 named), if_neg named]

/-- IRQ goes on, whatever becomes of its message. -/
theorem irq_goesOn (s : State) (a : Fin 32) (done : s.coreDone s.sched.curCore .system = true) :
    Yields (.irq a) s (fun t => t.cc.pc = s.cc.pc + 4 ∧ ∀ r, t.g r = s.g r) := by
  have step := irq_eq a done
  have goes {t : State} (h : Aside s t) : t.cnext.cc.pc = s.cc.pc + 4 ∧ ∀ r, t.cnext.g r = s.g r := by
    have core := aside_cc h
    refine ⟨by rw [cc_cnext, core], fun r => ?_⟩
    rw [State.g, cc_cnext, core]
    rfl
  split at step
  · exact ⟨_, step, goes (aside_sendIrq _ _ _ _)⟩
  · exact ⟨_, step, goes (aside_modHost s _)⟩

/-- Settles O19: QPOP by what it finds, QDONE by its packet and its record, IRQ by its row of the remap table. -/
theorem packetsAreTakenAndCompleted : Obligations.PacketsAreTakenAndCompleted := by
  unfold Obligations.PacketsAreTakenAndCompleted
  intro s d a b
  refine ⟨?_, fun none => yields_coreTrap (qdone_traps none), ?_, fun undone => ?_, ?_⟩
  · intro host takes named
    refine ⟨?_, fun one other => ?_, fun none => ?_, fun mine older q n younger queue first found => ?_⟩
    · cases found : s.popPick (s.g a) with
      | none => exact ⟨_, qpop_none host found⟩
      | some p =>
        obtain ⟨t, step, -⟩ := qpop_takes (d := d) host found
        exact ⟨t, step⟩
    · have none : s.popPick (s.g a) = .none := by
        have low : bits (s.g a) 0 8 = (s.g a).toNat % 256 := by rw [bits_eq_toNat, pow_zero, Nat.div_one]; rfl
        rw [State.popPick, bit, one, if_neg Bool.false_ne_true, low, if_pos other]
      exact yields_put (qpop_none host none) rfl
    · exact yields_put (qpop_none host (popPick_none none)) rfl
    · exact qpop_takes host (popPick_first mine queue first found)
  · intro n e found x mine freed record
    have step := qdone_eq b found
    refine ⟨fun other => ?_, fun own undone => ?_, fun own done => ?_⟩
    · exact yields_coreTrap (step.trans (congrArg _ (if_pos other)))
    · exact step.trans (congrArg _ ((if_neg (not_not.2 own)).trans (if_pos undone)))
    · replace step := step.trans (congrArg _ ((if_neg (not_not.2 own)).trans (if_neg (by simp [done]))))
      refine ⟨fun reset => ?_, fun held => ⟨fun answered => ?_, fun u waits => ?_, fun c i u fails quiet => ?_,
        fun pa u written memory => ⟨fun quiet => ?_, fun loud => ?_⟩⟩⟩
      · refine ⟨_, step.trans (congrArg _ (if_pos reset)), freed_cnext (aside_refl s) (aside_refl _), ?_⟩
        exact (slotFreed_leaves s n).1
      · exact ⟨_, step, finish_frees n _ held answered⟩
      · exact step.trans (congrArg _ (finish_wait n _ held waits))
      · have answered (w : State) : s.recordAccess e ≠ .wait w := fun h => nomatch h.symm.trans fails
        obtain ⟨mm, lost⟩ := finish_lost n ((s.g b).toNat % 2 ^ 15) held fails quiet
        exact ⟨_, step, finish_frees n _ held answered, mm, lost⟩
      · have answered (w : State) : s.recordAccess e ≠ .wait w := fun h => nomatch h.symm.trans written
        have bytes := finish_memory n ((s.g b).toNat % 2 ^ 15) held written memory quiet
        refine ⟨_, step, finish_frees n _ held answered, fun p hp => ?_, fun _ => ?_⟩
        · rw [bytes, Mem.get_write_outside _ _ _ hp]
        · rw [bytes, Mem.read_write_same, cplRecord, Nat.mod_eq_of_lt (a := (s.g b).toNat % 2 ^ 15) (b := 65536) (by omega)]
      · have answered (w : State) : s.recordAccess e ≠ .wait w := fun h => nomatch h.symm.trans written
        refine ⟨_, step, finish_frees n _ held answered, ?_⟩
        rw [finish_written n _ held written]
        exact congrArg State.cnext (if_pos loud)
  · change execIrq a s = _
    rw [execIrq, undone]
    rfl
  · intro done sender row w mine die named
    have step := irq_eq a done
    have names : irqNames w sender = true ↔ mine := irqNames_iff w sender
    refine ⟨irq_goesOn s a done, fun dropped => ?_, fun name enabled held => ?_, fun name enabled up own range port memory => ?_⟩
    · refine ⟨(s.modHost (fun h => { h with irqdrop := h.irqdrop + 1 })).cnext, ?_, rfl, by rw [cc_cnext]; rfl, rfl⟩
      by_cases name : named
      · refine step.trans (congrArg _ ((if_pos name).trans (congrArg State.cnext (sendIrq_drops die ?_))))
        obtain off | ⟨up, other⟩ := dropped.resolve_left (not_not.2 name)
        · exact .inl off
        · exact .inr ⟨up, by rw [← Bool.not_eq_true]; exact other ∘ names.1⟩
      · exact step.trans (congrArg _ (if_neg name))
    · exact ⟨_, step.trans (congrArg _ ((if_pos name).trans (congrArg State.cnext
        (sendIrq_holds enabled (held.imp_right (fun h => ⟨names.2 h.1, h.2⟩)))))), rfl, rfl⟩
    · have written := sendIrq_writes enabled up (names.2 own) port range
      have bytes := engineWrite_mem hostId 4 (fld w 32 32) memory
      have host := engineWrite_host s hostId (2 ^ 51 + fld w 64 64) 4 (fld w 32 32)
      have pc : (s.engineWrite hostId (2 ^ 51 + fld w 64 64) 4 (fld w 32 32)).cc.pc = s.cc.pc := by
        rw [aside_cc (aside_engineWrite s hostId (2 ^ 51 + fld w 64 64) 4 (fld w 32 32))]
      refine ⟨_, step.trans (congrArg _ ((if_pos name).trans (congrArg State.cnext written))), congrArg (·.irqdrop) host, ?_,
        fun p hp => ?_, fun _ => ?_⟩
      · exact (congrArg Core.pc (cc_cnext _)).trans (congrArg (· + 4) pc)
      · exact (congrArg (Mem.get · p) bytes).trans (Mem.get_write_outside _ _ _ hp)
      · refine (congrArg (Mem.read · (2 ^ 51 + fld w 64 64) 4) bytes).trans ((Mem.read_write_same _ _ _ _).trans ?_)
        exact Nat.mod_eq_of_lt (Nat.mod_lt _ (by decide))

end Sys2Proof.Machine
end

section

/-!
SUPPORT. The state after reset (R183, R186, R208, R209, R223, R243, R354, R401, R406, R435, R463). The statement O58 is settled here.
-/

namespace Sys2Proof.Machine

theorem core_reset (c : Fin 4) : State.reset.core c = {} := by
  simp [State.core, State.reset]

theorem st_reset (l : Loc) : State.reset.st l = {} := rfl

theorem strand_reset (l : Loc) (k : Nat) : (State.reset.st l).strand k = {} := by
  rw [st_reset, Station.strand, vget, Vector.getElem?_replicate]
  split <;> rfl

theorem vf_reset (v : Nat) : State.reset.vf v = {} := rfl

theorem qi_reset (q : Nat) : State.reset.qi q = {} := rfl

theorem col_reset {k : Nat} (h : k < 32) : State.reset.col k = {} := by
  simp [State.col, vget, State.reset, h]

/-- Settles O58: every part of the reset state holds its reset value. -/
theorem resetLeavesTheDeviceEmpty : Obligations.ResetLeavesTheDeviceEmpty := by
  unfold Obligations.ResetLeavesTheDeviceEmpty
  intro s
  refine ⟨rfl, fun d => ?_, fun c => ?_, fun n => rfl, rfl, rfl, fun k hk => ?_, fun v => ?_, fun q => ?_, fun l k => ?_, fun l => ?_,
    rfl, rfl, rfl, rfl, rfl, rfl, memWf_reset, fun a => rfl, rfl, rfl⟩
  · simp [s, State.reset]
  · rw [core_reset]
    refine ⟨rfl, rfl, rfl, rfl, rfl, rfl, rfl, rfl, rfl, rfl, rfl, rfl, fun r => ?_⟩
    simp
  · rw [col_reset hk]
    exact ⟨rfl, rfl, rfl⟩
  · rw [vf_reset]
    exact ⟨rfl, rfl, rfl, rfl, rfl, rfl, rfl⟩
  · rw [qi_reset]
  · rw [strand_reset]
    exact ⟨rfl, rfl⟩
  · rw [st_reset]
    exact ⟨rfl, rfl⟩

end Sys2Proof.Machine
end
section
/-! SUPPORT. HostWritesReachTheirRegister (O55): a window that bring-up left showing BOOTSTAT only (R464) reads zero elsewhere, so
that a write of one byte of a local memory writes the other seven bytes of its double with zeros. -/
namespace Sys2Proof.Machine

/-- Once bring-up stopped in phase 4 the window reads zero except at BOOTSTAT. -/
theorem windowRead_statOnly {s : State} (h : s.boot.statOnly = true) {off : Nat} (ne : off ≠ 0x8030) : s.windowRead off = 0 := by
  simp [State.windowRead, h, ne]

/-- A write of a double of a core's local memory. -/
theorem windowWrite_localMemory (s : State) (w : Double) {off : Nat} (lo : 0x40000 ≤ off) (hi : off < 0x80000) :
    s.windowWrite off w =
      s.modCore (Fin.ofNat 4 ((off - 0x40000) / 0x10000)) (fun k => { k with lm := Mem.write k.lm (off % 0x10000) 8 w.toNat }) := by
  unfold State.windowWrite
  rw [if_neg (by omega), if_neg (by omega), if_neg (by omega), if_neg (by omega), if_pos ⟨lo, hi⟩]

/-- The window is open but shows BOOTSTAT only, byte 1 of core 0's local memory holds one, and the host writes its byte 0. -/
def closedWindow : State :=
  let opened : State := { State.reset with boot := { State.reset.boot with windowOpen := true, statOnly := true } }
  (opened.withArg { addr := 0x40000, size := 0, value := 0 }).modCore 0 (fun k => { k with lm := Mem.put [] 1 1 })

theorem closedWindow_lm : (closedWindow.core 0).lm = Mem.put [] 1 1 := by
  unfold closedWindow
  rw [core_modCore_same]

/-- The write of the one byte has cleared its neighbour. -/
theorem closedWindow_written {t : State} (h : exec .registerWrite closedWindow = .next t) : Mem.get (t.core 0).lm 1 = 0 := by
  have out : exec .registerWrite closedWindow = .next (closedWindow.modCore 0 (fun k => { k with lm := Mem.write k.lm 0 8 0 })) := by
    show closedWindow.hostOut (closedWindow.windowWrite 0x40000 (setBits (closedWindow.windowRead 0x40000) 0 8 0)) = _
    rw [windowRead_statOnly rfl (by decide), windowWrite_localMemory _ _ (by decide) (by decide)]
    rfl
  rw [out] at h
  injection h with h
  rw [← h, core_modCore_same, closedWindow_lm]
  decide

/-- Refutes O55: the window is open but shows BOOTSTAT only (bring-up stopped in phase 4), so the other bytes of the double that a
write of one byte reaches read zero and are written so: byte 1 of core 0's local memory does not keep its value. -/
theorem not_hostWritesReachTheirRegister : ¬ Obligations.HostWritesReachTheirRegister := by
  unfold Obligations.HostWritesReachTheirRegister
  intro h
  obtain ⟨-, opened, -⟩ := h closedWindow
  obtain ⟨-, -, -, store, -⟩ := opened rfl
  obtain ⟨t, next, -, -, -, keeps, -⟩ := store (by decide) (by decide)
  have kept : Mem.get (t.core 0).lm 1 = Mem.get (closedWindow.core 0).lm 1 := keeps 1 (Or.inr (by decide))
  rw [closedWindow_written next, closedWindow_lm] at kept
  exact absurd kept (by decide)

end Sys2Proof.Machine
end
section
/-! SUPPORT. The books of the hub through messages, records and page requests: what the energy debit counts, UECOUNT and the ports are as
before. ErrorsAreCountedAndContained (O51) and HubAndIntakeCountAndDeliver (O53) rest on it. -/
namespace Sys2Proof.Machine

/-- What the energy debit keeps of a function, and the microsecond of its last poll. -/
def Vf.dues (f : Vf) : Int × Int × Int × Nat := (f.quota, f.charged, f.resid, f.polled)

/-- UECOUNT, the Simiow ports, the count of debits, the last poll of the host rings and what the functions owe are as before. -/
structure Books (s t : State) : Prop where
  uecount : t.host.uecount = s.host.uecount
  ports : t.host.ports = s.host.ports
  debits : t.host.debits = s.host.debits
  polled : t.host.polled = s.host.polled
  dues : ∀ v, (t.vf v).dues = (s.vf v).dues

theorem books_host {s t : State} (h : t.host = s.host) : Books s t := by
  have vf (v : Nat) : t.vf v = s.vf v := by
    unfold State.vf
    rw [h]
  exact ⟨by rw [h], by rw [h], by rw [h], by rw [h], fun v => by rw [vf]⟩

theorem books_refl (s : State) : Books s s := books_host rfl

theorem books_trans {s t u : State} (h : Books s t) (k : Books t u) : Books s u where
  uecount := k.uecount.trans h.uecount
  ports := k.ports.trans h.ports
  debits := k.debits.trans h.debits
  polled := k.polled.trans h.polled
  dues v := (k.dues v).trans (h.dues v)

theorem books_cacheOnly {s t : State} (h : CacheOnly s t) : Books s t := books_host (cacheOnly_read h (·.host))

theorem books_modHost (s : State) (f : HostSide → HostSide)
    (h : ∀ x : HostSide, (f x).uecount = x.uecount ∧ (f x).ports = x.ports ∧ (f x).debits = x.debits ∧ (f x).polled = x.polled ∧
      (f x).vfs = x.vfs := by exact fun _ => ⟨rfl, rfl, rfl, rfl, rfl⟩) : Books s (s.modHost f) := by
  obtain ⟨ue, ports, debits, polled, vfs⟩ := h s.host
  refine ⟨ue, ports, debits, polled, fun v => ?_⟩
  unfold State.vf
  rw [show (s.modHost f).host.vfs = s.host.vfs from vfs]

theorem books_modVf (s : State) (v : Nat) (f : Vf → Vf) (h : ∀ x : Vf, (f x).dues = x.dues := by exact fun _ => rfl) :
    Books s (s.modVf v f) := by
  refine ⟨rfl, rfl, rfl, rfl, fun u => ?_⟩
  by_cases same : u = v
  · rw [same, vf_modVf_same, h]
  · rw [vf_modVf_other s f same]

/-! ### Writes at the home, and messages -/

theorem books_engineWrite (s : State) (vf pa n v : Nat) : Books s (s.engineWrite vf pa n v) := books_host (engineWrite_host _ _ _ _ _)

/-- A record into a ring, and the ring's W behind it. -/
theorem books_twoWrites (s : State) (v a k x b l y : Nat) : Books s ((s.engineWrite v a k x).engineWrite v b l y) :=
  books_trans (books_engineWrite _ _ _ _ _) (books_engineWrite _ _ _ _ _)

theorem books_sendIrq (s : State) (d : Fin 2) (h : Nat) (f : Option Nat) : Books s (s.sendIrq d h f) := by
  rw [sendIrq_eq]
  split
  · exact books_modHost _ _
  · split
    · exact books_modHost _ _
    · split
      · exact books_modHost _ _
      · split
        · exact books_modHost _ _
        · split
          · exact books_refl s
          · exact books_engineWrite _ _ _ _ _

/-- A message that a ring's record may send. -/
theorem books_mayIrq (s : State) (b : Bool) (d : Fin 2) (h : Nat) (f : Option Nat) : Books s (if b = true then s.sendIrq d h f else s) := by
  split
  · exact books_sendIrq _ _ _ _
  · exact books_refl s

theorem books_flushIrqs (s : State) : Books s s.flushIrqs :=
  List.foldlRecOn (motive := Books s) _ _ (books_modHost _ _) (fun _ hb _ _ => books_trans hb (books_sendIrq _ _ _ _))

/-! ### The rings of the host, and page requests -/

theorem books_flushHostFaults (s : State) (n : Nat) : Books s (s.flushHostFaults n) := by
  induction n generalizing s with
  | zero => exact books_refl s
  | succ n ih =>
    unfold State.flushHostFaults
    split
    · exact books_refl s
    · dsimp only
      split
      · exact books_refl s
      · exact books_trans (books_trans (books_trans (books_twoWrites _ _ _ _ _ _ _ _) (books_modHost _ _)) (books_mayIrq _ _ _ _ _)) (ih _)

theorem books_hostFault (s : State) (r : BitVec 512) : Books s (s.hostFault r) := by
  unfold State.hostFault
  dsimp only
  have queued := books_modHost s (fun h => { h with fqHeld := h.fqHeld ++ [r] })
  split
  · exact books_modHost _ _
  · split
    · exact books_trans (books_trans (books_trans queued (books_flushHostFaults _ _)) (books_modHost _ _)) (books_modHost _ _)
    · exact books_trans queued (books_flushHostFaults _ _)

theorem books_flushPages (s : State) (n : Nat) : Books s (s.flushPages n) := by
  induction n generalizing s with
  | zero => exact books_refl s
  | succ n ih =>
    unfold State.flushPages
    split
    · exact books_refl s
    · dsimp only
      split
      · exact books_refl s
      · split
        · exact books_refl s
        · exact books_trans (books_trans (books_trans (books_twoWrites _ _ _ _ _ _ _ _) (books_modHost _ _)) (books_mayIrq _ _ _ _ _)) (ih _)

theorem books_pageRequest (s : State) (die : Fin 2) (vf va ia : Nat) (w wr : Bool) (p : Option Nat) (f : PageFor) :
    Books s (s.pageRequest die vf va ia w wr p f).2 := by
  unfold State.pageRequest
  split
  · exact books_refl s
  · dsimp only
    split
    · exact books_refl s
    · refine books_trans ?_ (books_trans (books_cacheOnly (cacheOnly_charge _ _ _ _ _)) (books_flushPages _ _))
      refine books_trans ?_ (books_modHost _ _)
      cases p with
      | none => exact books_host rfl
      | some p => exact books_host rfl

theorem books_unitAccess (s : State) (die : Fin 2) (vf va : Nat) (w : Bool) (p : Option Nat) (f : PageFor) :
    Books s (s.unitAccess die vf va w p f).after := by
  unfold State.unitAccess
  generalize (if w = true then 2 else 1 : Nat) = need
  have h := books_cacheOnly (cacheOnly_translate s ⟨die, die.val * 32, vf, va, need, s.vfRanges die vf⟩)
  dsimp only
  split
  · split
    · exact h
    · split
      · exact h
      · exact h
  · exact h
  · split
    · split
      · exact books_trans h (books_host rfl)
      · exact h
    · exact books_trans h (books_pageRequest _ _ _ _ _ _ _ _ _)
  · exact h
  · exact h

theorem books_unit {s t : State} {die : Fin 2} {vf va : Nat} {w : Bool} {p : Option Nat} {f : PageFor} {o : UOut}
    (h : s.unitAccess die vf va w p f = o) (ht : o.after = t) : Books s t := by
  rw [← ht, ← h]
  exact books_unitAccess _ _ _ _ _ _ _

/-! ### Sampler and fault records -/

theorem books_sampPut (s : State) (v hdr slot : Nat) (next : Option Nat) (n : Nat) (r : BitVec 256) :
    Books s (s.sampPut v hdr slot next n r) := by
  unfold State.sampPut
  dsimp only
  have h := books_trans (books_trans (books_twoWrites s v slot 32 (setBits r 0 24 (s.vf v).sampW).toNat hdr 8 ((s.vf v).sampW + 1))
    (books_modVf _ v (fun f => { f with sampW := f.sampW + 1 }))) (books_cacheOnly (cacheOnly_charge _ v (portCol 0 0) .record 1))
  split
  · exact h
  · split
    · exact books_trans h (books_engineWrite _ _ _ _ _)
    · exact books_trans h (books_twoWrites _ _ _ _ _ _ _ _)

/-- A sample that is dropped from those held, or leaves them for the ring. -/
theorem books_sampTake (s : State) (v : Nat) (l : List (BitVec 256)) : Books s (s.modVf v (fun x => { x with sampHeld := l })) :=
  books_modVf _ _ _

theorem books_flushSamples (s : State) (v n : Nat) : Books s (s.flushSamples v n) := by
  induction n generalizing s with
  | zero => exact books_refl s
  | succ n ih =>
    have put {t : State} (ht : Books s t) (l : List (BitVec 256)) (hdr slot : Nat) (next : Option Nat) (k : Nat) (r : BitVec 256) :
        Books s (((t.modVf v (fun x => { x with sampHeld := l })).sampPut v hdr slot next k r).flushSamples v n) :=
      books_trans (books_trans (books_trans ht (books_sampTake _ _ _)) (books_sampPut _ _ _ _ _ _ _)) (ih _)
    unfold State.flushSamples
    split
    · exact books_refl s
    · dsimp only
      split
      · exact books_sampTake _ _ _
      split
      next h => exact books_trans (books_trans (books_unit h rfl) (books_sampTake _ _ _)) (ih _)
      next h => exact books_unit h rfl
      next h =>
        have h1 := books_unit h rfl
        split
        next k => exact books_trans (books_trans (books_trans h1 (books_unit k rfl)) (books_sampTake _ _ _)) (ih _)
        next k => exact books_trans h1 (books_unit k rfl)
        next k =>
          have h2 := books_trans h1 (books_unit k rfl)
          split
          · exact put h2 _ _ _ _ _ _
          split
          next l => exact put (books_trans h2 (books_unit l rfl)) _ _ _ _ _ _
          next l => exact books_trans h2 (books_unit l rfl)
          next l => exact put (books_trans h2 (books_unit l rfl)) _ _ _ _ _ _

theorem books_sample (s : State) (v : Nat) (die : Fin 2) (code : Nat) (id : SampId) (value tag : BitVec 64) :
    Books s (s.sample v die code id value tag) := by
  unfold State.sample
  dsimp only
  split
  · exact books_refl s
  · split
    · exact books_refl s
    · exact books_trans (books_modVf _ _ _) (books_flushSamples _ _ _)

theorem books_setEvent (s : State) (c : Fin 4) (b : Nat) : Books s (s.setEvent c b) := books_host rfl

theorem books_loseFaults (s : State) (v n : Nat) : Books s (s.loseFaults v n) := books_trans (books_modVf _ _ _) (books_setEvent _ _ _)

theorem books_flushFaults (s : State) (v n : Nat) : Books s (s.flushFaults v n) := by
  induction n generalizing s with
  | zero => exact books_refl s
  | succ n ih =>
    unfold State.flushFaults
    split
    · exact books_refl s
    · dsimp only
      have lose {t : State} (ht : Books s t) (f : Vf → Vf) (k : Nat) (hf : ∀ x : Vf, (f x).dues = x.dues := by exact fun _ => rfl) :
          Books s ((t.modVf v f).loseFaults v k) :=
        books_trans (books_trans ht (books_modVf _ _ _ hf)) (books_loseFaults _ _ _)
      split
      · exact lose (books_refl s) _ _
      split
      next h => exact lose (books_unit h rfl) _ _
      next h => exact books_unit h rfl
      next h =>
        have h0 := books_unit h rfl
        split
        next g => exact lose (books_trans h0 (books_unit g rfl)) _ _
        next g => exact books_trans h0 (books_unit g rfl)
        next g =>
          have h1 := books_trans h0 (books_unit g rfl)
          split
          · exact h1
          split
          next k => exact lose (books_trans h1 (books_unit k rfl)) _ _
          next k => exact books_trans h1 (books_unit k rfl)
          next k =>
            have h2 := books_trans h1 (books_unit k rfl)
            refine books_trans (books_trans (books_trans ?_ (books_cacheOnly (cacheOnly_charge _ _ _ _ _))) (books_setEvent _ _ _)) (ih _)
            exact books_trans (books_trans h2 (books_twoWrites _ _ _ _ _ _ _ _)) (books_modVf _ _ _)

theorem books_partFault (s : State) (v : Nat) (f : FaultInfo) (res : Option FaultFor) : Books s (s.partFault v f res).2 := by
  unfold State.partFault
  dsimp only
  split
  · exact books_loseFaults _ _ _
  · have h := books_trans (books_modVf s v (fun y => { y with heldFaults := y.heldFaults ++
      [f.pack (s.ns f.die) ((s.vf v).faultW + (s.vf v).heldFaults.length)] }))
      (books_flushFaults _ v ((s.vf v).heldFaults.length + 2))
    split
    · exact books_trans (books_trans h (books_modVf _ _ _)) (books_loseFaults _ _ _)
    · split
      · exact h
      · refine books_trans ?_ (books_sample _ _ _ _ _ _ _)
        cases res with
        | none => exact h
        | some r => exact books_trans h (books_modVf _ _ _)

theorem books_report (s : State) (f : FaultInfo) (toHost : Bool) (res : Option FaultFor) : Books s (s.report f toHost res).2 := by
  have told : Books s (s.report f false res).2 := by
    unfold State.report
    cases f.vf with
    | none => exact books_refl s
    | some v => exact books_partFault s v f res
  cases toHost with
  | false => exact told
  | true => exact books_trans told (books_hostFault _ _)

theorem books_reportHost (s : State) (f : FaultInfo) : Books s (s.reportHost f) := books_hostFault _ _

theorem books_partitionFault (s : State) (f : FaultInfo) : Books s (s.partitionFault f) := books_report _ _ _ _

end Sys2Proof.Machine
end
section
/-! SUPPORT. What ends an instance leaves the books, the quads and bring-up as they are, and no ended instance comes back.
ErrorsAreCountedAndContained (O51) rests on it. -/
namespace Sys2Proof.Machine

/-- No record of the instance that has not ended. -/
def State.Ended (s : State) (id : Nat) : Prop := ∀ i ∈ s.prick.insts, i.id = id → i.st.ended = true

/-- The books and the quads are as before, and what has ended stays ended. -/
structure Ends (s t : State) : Prop where
  books : Books s t
  quads : t.fab.quads = s.fab.quads
  ended : ∀ id, s.Ended id → t.Ended id

theorem ends_refl (s : State) : Ends s s := ⟨books_refl s, rfl, fun _ h => h⟩

theorem ends_trans {s t u : State} (h : Ends s t) (k : Ends t u) : Ends s u :=
  ⟨books_trans h.books k.books, k.quads.trans h.quads, fun id e => k.ended id (h.ended id e)⟩

theorem ends_aside {s t : State} (h : Aside s t) (b : Books s t) : Ends s t := by
  refine ⟨b, ?_, fun id e => ?_⟩
  · rw [h.fabric]
  · unfold State.Ended
    rw [h.engines]
    exact e

/-- A step that leaves the host side, the quads and the instance records. -/
theorem ends_same {s t : State} (host : t.host = s.host := by rfl) (quads : t.fab.quads = s.fab.quads := by rfl)
    (insts : t.prick.insts = s.prick.insts := by rfl) : Ends s t := by
  refine ⟨books_host host, quads, fun id e => ?_⟩
  unfold State.Ended
  rw [insts]
  exact e

theorem ends_foldl {α : Type} (f : State → α → State) (h : ∀ s x, Ends s (f s x)) (l : List α) (s : State) : Ends s (l.foldl f s) :=
  List.foldlRecOn (motive := Ends s) _ _ (ends_refl s) (fun _ hb _ _ => ends_trans hb (h _ _))

/-! ### Changes of one record -/

theorem mem_modFirst {α : Type} {p : α → Bool} {f : α → α} {l : List α} {y : α} (h : y ∈ modFirst p f l) :
    y ∈ l ∨ ∃ x ∈ l, y = f x := by
  induction l with
  | nil => exact Or.inl h
  | cons x xs ih =>
    unfold modFirst at h
    split at h
    · rcases List.mem_cons.mp h with rfl | tail
      · exact Or.inr ⟨x, List.mem_cons_self, rfl⟩
      · exact Or.inl (List.mem_cons_of_mem _ tail)
    · rcases List.mem_cons.mp h with rfl | tail
      · exact Or.inl List.mem_cons_self
      · rcases ih tail with old | ⟨z, hz, rfl⟩
        · exact Or.inl (List.mem_cons_of_mem _ old)
        · exact Or.inr ⟨z, List.mem_cons_of_mem _ hz, rfl⟩

/-- Where one element satisfies a test, what satisfies it behind a change of the first is changed. -/
theorem mem_modFirst_unique {α : Type} {p : α → Bool} {f : α → α} {l : List α} {y : α} (one : (l.filter p).length ≤ 1)
    (h : y ∈ modFirst p f l) (hy : p y = true) : ∃ x ∈ l, y = f x := by
  induction l with
  | nil => cases h
  | cons x xs ih =>
    unfold modFirst at h
    split at h
    next hx =>
      rcases List.mem_cons.mp h with rfl | tail
      · exact ⟨x, List.mem_cons_self, rfl⟩
      · have : 0 < (xs.filter p).length := List.length_pos_of_mem (List.mem_filter.mpr ⟨tail, hy⟩)
        rw [List.filter_cons_of_pos hx, List.length_cons] at one
        omega
    next hx =>
      rcases List.mem_cons.mp h with rfl | tail
      · exact absurd hy hx
      · rw [List.filter_cons_of_neg hx] at one
        obtain ⟨z, hz, rfl⟩ := ih one tail
        exact ⟨z, List.mem_cons_of_mem _ hz, rfl⟩

/-- A change of an instance record that keeps its state, or ends it. -/
theorem ends_modInst (s : State) (id : Nat) (f : Inst → Inst) (hid : ∀ i, (f i).id = i.id)
    (hst : ∀ i, (f i).st = i.st ∨ (f i).st.ended = true) : Ends s (s.modInst id f) := by
  refine ⟨books_host rfl, rfl, fun k e i hi same => ?_⟩
  rcases mem_modFirst hi with old | ⟨j, hj, rfl⟩
  · exact e i old same
  · rcases hst j with st | ended
    · rw [st]
      exact e j hj ((hid j).symm.trans same)
    · exact ended

/-- A change of an instance record beside its state. -/
theorem ends_modInst_keeps (s : State) (id : Nat) (f : Inst → Inst) (hid : ∀ i, (f i).id = i.id := by exact fun _ => rfl)
    (hst : ∀ i, (f i).st = i.st := by exact fun _ => rfl) : Ends s (s.modInst id f) :=
  ends_modInst s id f hid (fun i => Or.inl (hst i))

/-- A change that ends the only record of an instance. -/
theorem ended_modInst {s : State} {id : Nat} {f : Inst → Inst} (one : (s.prick.insts.filter (fun j => decide (j.id = id))).length ≤ 1)
    (ends : ∀ i, (f i).st.ended = true) : (s.modInst id f).Ended id := by
  intro i hi same
  obtain ⟨j, -, rfl⟩ := mem_modFirst_unique one hi (by simpa using same)
  exact ends j

/-! ### The steps of an end -/

theorem ends_sample (s : State) (v : Nat) (die : Fin 2) (code : Nat) (id : SampId) (value tag : BitVec 64) :
    Ends s (s.sample v die code id value tag) := ends_aside (aside_sample _ _ _ _ _ _ _) (books_sample _ _ _ _ _ _ _)

theorem ends_report (s : State) (f : FaultInfo) (toHost : Bool) (res : Option FaultFor) : Ends s (s.report f toHost res).2 :=
  ends_aside (aside_report _ _ _ _) (books_report _ _ _ _)

theorem ends_reportHost (s : State) (f : FaultInfo) : Ends s (s.reportHost f) :=
  ends_aside (aside_reportHost _ _) (books_reportHost _ _)

theorem ends_partitionFault (s : State) (f : FaultInfo) : Ends s (s.partitionFault f) := ends_report _ _ _ _

theorem ends_launchTok (s : State) (f : Flight) : Ends s (s.launchTok f) := by
  obtain ⟨g, -, launched⟩ := launchTok_launches s f
  rw [launched]
  exact ends_same

theorem ends_sweepFences (s : State) (id : Nat) : Ends s (s.sweepFences id) :=
  ends_foldl _ (fun _ _ => ends_foldl _ (fun _ _ => ends_same) _ _) _ _

/-- The state of an end before the record changes: the slots are free behind a fence, and what waits for the instance is dropped. -/
def State.unhooked (s : State) (i : Inst) : State :=
  ((((if i.st.holds then s.raiseFence i else s).freeSlots i).dropEntries i).dropResting i.id).dropGateMessages i.id

/-- A step that leaves the host side, the quads and the instance records. -/
structure Unhooks (s t : State) : Prop where
  host : t.host = s.host
  quads : t.fab.quads = s.fab.quads
  insts : t.prick.insts = s.prick.insts

theorem unhooks_trans {s t u : State} (h : Unhooks s t) (k : Unhooks t u) : Unhooks s u :=
  ⟨k.host.trans h.host, k.quads.trans h.quads, k.insts.trans h.insts⟩

theorem unhooks_ends {s t : State} (h : Unhooks s t) : Ends s t := ends_same h.host h.quads h.insts

theorem unhooks_freeSlots (s : State) (i : Inst) : Unhooks s (s.freeSlots i) :=
  List.foldlRecOn (motive := Unhooks s) _ _ ⟨rfl, rfl, rfl⟩ (fun _ hb _ _ => unhooks_trans hb ⟨rfl, rfl, rfl⟩)

theorem unhooks_dropEntries (s : State) (i : Inst) : Unhooks s (s.dropEntries i) := by
  unfold State.dropEntries
  dsimp only
  exact ⟨rfl, rfl, rfl⟩

theorem unhooks_unhooked (s : State) (i : Inst) : Unhooks s (s.unhooked i) := by
  have fence : Unhooks s (if i.st.holds then s.raiseFence i else s) := by
    split <;> exact ⟨rfl, rfl, rfl⟩
  have dropped (u : State) : Unhooks u ((u.dropResting i.id).dropGateMessages i.id) := ⟨rfl, rfl, rfl⟩
  exact unhooks_trans (unhooks_trans (unhooks_trans fence (unhooks_freeSlots _ i)) (unhooks_dropEntries _ i)) (dropped _)

theorem ends_reapInst (s : State) (id : Nat) : Ends s (s.reapInst id) := by
  unfold State.reapInst
  split
  · exact ends_refl s
  · refine ⟨books_host rfl, rfl, fun k e i hi same => e i ?_ same⟩
    exact (List.mem_filter.mp hi).1

/-- What an end does behind the change of the record. -/
theorem endInst_behind (s : State) (i : Inst) (code : Nat) :
    Ends s (((((s.sweepFences i.id).sampleInst i 0x0006 code).roomFreed 0).roomFreed 1).reapInst i.id) :=
  ends_trans (ends_trans (ends_trans (ends_sweepFences s i.id) (ends_sample _ _ _ _ _ _ _)) ends_same) (ends_reapInst _ _)

/-- The change of the record that an end makes. -/
def Inst.endedAs (st : IState) (j : Inst) : Inst :=
  { j with st := st, held := [], save := none, argRes := 0, resRes := [], entRes := [], pages := [], inPage := 0, unmapped := [] }

theorem endInst_eq (s : State) (i : Inst) (st : IState) (code : Nat) : s.endInst i st code =
    ((((((s.unhooked i).modInst i.id (Inst.endedAs st)).sweepFences i.id).sampleInst i 0x0006 code).roomFreed 0).roomFreed 1).reapInst
      i.id := rfl

theorem ends_endInst (s : State) (i : Inst) {st : IState} (code : Nat) (ended : st.ended = true) : Ends s (s.endInst i st code) := by
  have record (u : State) : Ends u (u.modInst i.id (Inst.endedAs st)) := ends_modInst u i.id _ (fun _ => rfl) (fun _ => Or.inr ended)
  rw [endInst_eq]
  exact ends_trans (ends_trans (unhooks_ends (unhooks_unhooked s i)) (record _)) (endInst_behind _ i code)

/-- The instance has ended behind its end. -/
theorem endInst_ended {s : State} {i : Inst} {st : IState} (code : Nat) (ended : st.ended = true)
    (one : (s.prick.insts.filter (fun j => decide (j.id = i.id))).length ≤ 1) : (s.endInst i st code).Ended i.id := by
  rw [endInst_eq]
  refine (endInst_behind _ i code).ended _ (ended_modInst ?_ (fun _ => ended))
  rw [(unhooks_unhooked s i).insts]
  exact one

theorem ends_lowerLineage (s : State) (n : Nat) (code : Option Nat) : Ends s (s.lowerLineage n code) := by
  have status : Ends s ((s.rootStatus n code).modRoot n (fun r => { r with lineage := r.lineage - 1 })) := by
    cases code with
    | none => exact ends_same
    | some c => exact ends_same
  unfold State.lowerLineage
  dsimp only
  split
  · exact status
  · split
    · exact ends_trans status ends_same
    · exact status

theorem ends_settle (s : State) (id : Nat) : Ends s (s.settle id) := by
  unfold State.settle
  split
  · exact ends_refl s
  next i found =>
    extract_lets ret s1
    split
    · have ended : Ends s (s.endInst i .retired 0) := ends_endInst s i 0 rfl
      split
      · exact ends_trans ended (ends_modInst_keeps _ _ _)
      · exact ends_trans ended (ends_lowerLineage _ _ _)
      · exact ends_trans ended (ends_lowerLineage _ _ _)
    · exact ends_refl s

/-! ### Kills -/

theorem ends_sendResult (s : State) (i : Inst) (caller site : Nat) (rt : BitVec 64) (k : Nat) (p : Payload) (f : Flight) :
    Ends s (s.sendResult i caller site rt k p f) := by
  have sent : Ends s (s.modInst i.id (fun j => { j with sentRes := nput j.sentRes k })) := ends_modInst_keeps _ _ _
  unfold State.sendResult
  dsimp only
  split
  · exact sent
  · split
    · exact ends_trans sent (ends_modInst_keeps _ _ _)
    · exact ends_trans sent (ends_launchTok _ _)

theorem ends_nullResults (s : State) (i : Inst) : Ends s (s.nullResults i) := by
  unfold State.nullResults
  split
  · exact ends_foldl _ (fun _ _ => ends_sendResult _ _ _ _ _ _ _ _) _ _
  · exact ends_refl s
  · exact ends_refl s

/-- What a kill does behind the end of the instance. -/
theorem killOne_eq {s : State} {id : Nat} {i : Inst} (code : Nat) (found : s.inst? id = some i) (alive : i.st.ended = false) :
    Ends (s.endInst i .killed code) (s.killOne id code) := by
  have dropped (u : State) : Ends u (u.dropMessages id) := ends_same
  unfold State.killOne
  rw [found]
  dsimp only
  rw [alive, if_neg Bool.false_ne_true]
  refine ends_trans (dropped _) ?_
  split
  · exact ends_trans (ends_trans (ends_nullResults _ _) (ends_modInst_keeps _ _ _)) (ends_settle _ _)
  · exact ends_trans ends_same (ends_lowerLineage _ _ _)
  · exact ends_lowerLineage _ _ _

theorem killOne_ended_eq {s : State} {id : Nat} (code : Nat) (gone : ∀ i, s.inst? id = some i → i.st.ended = true) :
    s.killOne id code = s := by
  unfold State.killOne
  cases found : s.inst? id with
  | none => rfl
  | some i =>
    dsimp only
    rw [if_pos (gone i found)]

theorem ends_killOne (s : State) (id code : Nat) : Ends s (s.killOne id code) := by
  by_cases gone : ∀ i, s.inst? id = some i → i.st.ended = true
  · rw [killOne_ended_eq code gone]
    exact ends_refl s
  · obtain ⟨i, alive⟩ := not_forall.mp gone
    obtain ⟨found, alive⟩ := Classical.not_imp.mp alive
    exact ends_trans (ends_endInst s i code rfl) (killOne_eq code found (Bool.eq_false_iff.mpr alive))

theorem ends_kill (n : Nat) (s : State) (code : Nat) (l : List Nat) : Ends s (s.kill code n l) := by
  induction n generalizing s l with
  | zero => exact ends_refl s
  | succ n ih =>
    cases l with
    | nil => exact ends_refl s
    | cons id rest => exact ends_trans (ends_killOne s id code) (ih _ _)

theorem ends_killInst (s : State) (id code : Nat) : Ends s (s.killInst id code) := ends_kill _ _ _ _

theorem killInst_ended {s : State} {id : Nat} {i : Inst} (code : Nat) (found : s.inst? id = some i)
    (one : (s.prick.insts.filter (fun j => decide (j.id = id))).length ≤ 1) : (s.killInst id code).Ended id := by
  have same : i.id = id := inst_id found
  have killed : (s.killOne id code).Ended id := by
    cases alive : i.st.ended with
    | false =>
      refine (killOne_eq code found alive).ended id ?_
      have := endInst_ended (s := s) (i := i) (st := .killed) code rfl (by rw [same]; exact one)
      rwa [same] at this
    | true =>
      rw [killOne_ended_eq code (fun j hj => by rwa [Option.some.inj (hj.symm.trans found)])]
      intro j hj id_j
      obtain ⟨k, hk⟩ : ∃ k, s.prick.insts.filter (fun j => decide (j.id = id)) = [k] := by
        refine List.length_eq_one_iff.mp (le_antisymm one ?_)
        exact List.length_pos_of_mem (List.mem_filter.mpr ⟨hj, by simpa using id_j⟩)
      have only (x : Inst) (hx : x ∈ s.prick.insts) (id_x : x.id = id) : x = k := by
        have : x ∈ s.prick.insts.filter (fun j => decide (j.id = id)) := List.mem_filter.mpr ⟨hx, by simpa using id_x⟩
        rw [hk] at this
        exact List.mem_singleton.mp this
      rw [only j hj id_j, ← only i (List.mem_of_find?_eq_some found) same]
      exact alive
  have first : s.killInst id code = (s.killOne id code).kill code s.prick.insts.length (s.calleesOf id ++ []) := rfl
  rw [first]
  exact (ends_kill _ _ _ _).ended id killed

end Sys2Proof.Machine
end
section
/-! SUPPORT. Errors in protected storage and on the links (R216, R421 to R424, R468): ErrorsAreCountedAndContained (O51). -/
namespace Sys2Proof.Machine

/-! ### Uncorrectable errors in a station -/

theorem killSram_invalid {s : State} {l : Loc} {c : Nat} (free : ((s.st l).ctx c).valid = false) : s.killSram l c = s := by
  unfold State.killSram
  dsimp only
  split
  · rfl
  · rw [free, if_pos (by rfl)]

theorem killSram_kills {s : State} {l : Loc} {c : Nat} {i : Inst} (valid : ((s.st l).ctx c).valid = true)
    (found : s.inst? ((s.st l).ctx c).inst = some i) :
    ∃ f : FaultInfo, s.killSram l c = (s.report f true none).2.killInst i.id codeUncorrectable := by
  unfold State.killSram
  dsimp only
  rw [found]
  dsimp only
  rw [valid, if_neg (by decide)]
  exact ⟨_, rfl⟩

/-- The kill of the instance whose slot the error hit. -/
theorem killSram_ends {s : State} {l : Loc} {c : Nat} {i : Inst} (valid : ((s.st l).ctx c).valid = true)
    (found : s.inst? ((s.st l).ctx c).inst = some i)
    (one : (s.prick.insts.filter (fun j => decide (j.id = i.id))).length = 1) :
    (s.killSram l c).host.uecount = s.host.uecount ∧ (s.killSram l c).Ended i.id := by
  obtain ⟨f, killed⟩ := killSram_kills valid found
  have aside := aside_report s f true none
  have books := books_report s f true none
  rw [killed]
  generalize (s.report f true none).2 = u at aside books
  have same : u.inst? i.id = some i := by
    rw [State.inst?, aside.engines, inst_id found]
    exact found
  refine ⟨(books_trans books (ends_killInst u i.id _).books).uecount, killInst_ended _ same ?_⟩
  rw [aside.engines, one]

theorem aside_loading {s t : State} (h : Aside s t) (d : Fin 2) : t.loading? d = s.loading? d := by
  unfold State.loading? State.eng State.inst?
  rw [h.engines]

/-- The key of a quad gives its die and its coordinates back. -/
theorem quadKey_parts (l : Loc) : quadKey l.die.val (quadX l) (quadY l) / 320 = l.die.val ∧
    quadKey l.die.val (quadX l) (quadY l) % 16 = quadX l ∧ quadKey l.die.val (quadX l) (quadY l) % 320 / 16 = quadY l := by
  have hx := l.x.isLt
  have hy := l.y.isLt
  unfold quadKey quadX quadY
  omega

/-- Under the loading instance lies a quad that has just been mapped out. -/
theorem onWithdrawn_mapOut {s : State} {l : Loc} {i : Inst} (loading : s.loading? l.die = some i)
    (own : i.stations.any (fun y => decide (y.1 = l)) = true) (covers : i.covers l.die.val (quadX l) (quadY l) = true) :
    (s.mapOut (quadKey l.die.val (quadX l) (quadY l))).onWithdrawn l.die = true := by
  set k := quadKey l.die.val (quadX l) (quadY l) with hk
  obtain ⟨die, x, y⟩ := quadKey_parts l
  rw [← hk] at die x y
  have held : i.holdsQuad l.die.val (quadX l) (quadY l) = true := by
    obtain ⟨p, hp, hl⟩ := List.any_eq_true.mp own
    unfold Inst.holdsQuad
    rw [covers, Bool.true_and, Bool.or_eq_true]
    refine Or.inr (List.any_eq_true.mpr ⟨p, hp, ?_⟩)
    rw [of_decide_eq_true hl]
    exact decide_eq_true ⟨rfl, rfl⟩
  have withdrawn : (k, { s.quad k with mappedOut := true }) ∈ (s.mapOut k).fab.quads := mem_of_find (Map.find_put_same _ _ _)
  have loads : (s.mapOut k).loading? l.die = some i := loading
  unfold State.onWithdrawn
  rw [loads]
  refine List.any_eq_true.mpr ⟨_, withdrawn, ?_⟩
  dsimp only
  rw [die, x, y, held]
  simp

/-- An error in a shadow write withdraws the quad and aborts the placement. -/
theorem shadowError_withdraws {s : State} {l : Loc} {i : Inst} {q : Placement} (loading : s.loading? l.die = some i)
    (placing : (s.eng l.die).placing = some q) (own : i.stations.any (fun y => decide (y.1 = l)) = true)
    (covers : i.covers l.die.val (quadX l) (quadY l) = true) :
    let k := quadKey l.die.val (quadX l) (quadY l)
    (s.shadowError l).host.uecount = s.host.uecount ∧ ((s.shadowError l).quad k).mappedOut = true ∧ k ∈ (s.shadowError l).boot.mapOut ∧
      ((s.shadowError l).eng l.die).placing = some (if q.abort.isNone then { q with abort := some codeUncorrectable } else q) := by
  intro k
  obtain ⟨f, told⟩ : ∃ f : FaultInfo, s.shadowError l = (s.reportHost f).withdraw l.die (quadX l) (quadY l) codeUncorrectable := by
    unfold State.shadowError
    rw [loading]
    dsimp only
    rw [own, if_neg (by decide)]
    exact ⟨_, rfl⟩
  have aside := aside_reportHost s f
  have books := books_reportHost s f
  rw [told]
  generalize s.reportHost f = u at aside books
  have engine : ((u.mapOut k).eng l.die).placing = some q := by
    change (u.eng l.die).placing = some q
    rw [State.eng, aside.engines]
    exact placing
  have loads : u.loading? l.die = some i := (aside_loading aside _).trans loading
  have withdrawn : u.withdraw l.die (quadX l) (quadY l) codeUncorrectable = (u.mapOut k).modEng l.die (fun e =>
      { e with placing := e.placing.map (fun p => { p with abort := some (p.abort.getD codeUncorrectable) }) }) := by
    unfold State.withdraw
    rw [if_pos (onWithdrawn_mapOut loads own covers)]
  have mapped : ((u.mapOut k).quad k).mappedOut = true := congrArg Quad.mappedOut (quad_modQuad_same u k (fun q => { q with mappedOut := true }))
  rw [withdrawn]
  refine ⟨books.uecount, mapped, mem_nput.mpr (Or.inl rfl), ?_⟩
  rw [eng_modEng_same, engine]
  dsimp only [Option.map_some]
  cases reason : q.abort with
  | none => rfl
  | some code =>
    rw [if_neg (show ¬ (some code).isNone = true from Bool.false_ne_true), Option.getD_some, ← reason]

/-! ### A lost remap table -/

theorem ends_bankLost (s : State) (l : Loc) : Ends s (s.bankLost l) := by
  refine ends_foldl _ (fun u c => ?_) _ _
  dsimp only
  split
  · exact ends_refl u
  · split
    · exact ends_trans (ends_partitionFault _ _) (ends_killInst _ _ _)
    · exact ends_refl u

/-! ### A lost tag -/

/-- Without a ring of the host, its record is counted as lost. -/
theorem lossToHost_counts {s : State} (d : Fin 2) (pa : Nat) (none : s.host.hostfq = 0) : ∃ f, s.lossToHost d pa = s.modHost f ∧
    ∀ h, (f h).uecount = h.uecount := by
  unfold State.lossToHost State.reportHost State.hostFault
  rw [if_pos none]
  exact ⟨_, rfl, fun _ => rfl⟩

/-- A line of the L2 that is dropped leaves no line of its name. -/
theorem dropped_line {l : List Line} {e y : Line} (h : y ∈ l.filter (fun x => decide (x.addr ≠ e.addr ∨ x.vf ≠ e.vf))) :
    y.addr ≠ e.addr ∨ y.vf ≠ e.vf := of_decide_eq_true (List.mem_filter.mp h).2

/-! ### The Simiow link -/

theorem port_modPort_same (s : State) {n : Nat} (f : Port → Port) (h : n < 2) : (s.modPort n f).port n = f (s.port n) :=
  vget_vset_same _ _ _ h

theorem port_modPort_other (s : State) {n m : Nat} (f : Port → Port) (h : m ≠ n) : (s.modPort n f).port m = s.port m :=
  vget_vset_other _ _ _ h

theorem flushIrqs_nothing {s : State} (h : s.host.irqHeld = []) : s.flushIrqs = s.modHost (fun h => { h with irqHeld := [] }) := by
  unfold State.flushIrqs
  rw [h]
  rfl

theorem flushIrqs_port (s : State) (n : Nat) : s.flushIrqs.port n = s.port n := by
  unfold State.port
  rw [(books_flushIrqs s).ports]

/-! ### The operations -/

section
variable {s : State}

theorem sramUncorrectable_context (powered : s.boot.powered = true) (context : s.sched.arg.m % 3 = 0) :
    exec .sramUncorrectable s = .next (s.uncorrected.killSram s.sched.arg.loc (s.sched.arg.n % 8)) := by
  show execSramUncorrectable s = _
  unfold execSramUncorrectable
  rw [show s.arg.m % 3 = 0 from context, powered]
  rfl

theorem sramUncorrectable_shared (powered : s.boot.powered = true) (shared : s.sched.arg.m % 3 = 1) :
    exec .sramUncorrectable s = .next ((List.range 8).foldl (fun st c => st.killSram s.sched.arg.loc c) s.uncorrected) := by
  show execSramUncorrectable s = _
  unfold execSramUncorrectable
  rw [show s.arg.m % 3 = 1 from shared, powered]
  rfl

theorem sramUncorrectable_shadow (powered : s.boot.powered = true) (shadow : s.sched.arg.m % 3 = 2) :
    exec .sramUncorrectable s = .next (s.uncorrected.shadowError s.sched.arg.loc) := by
  show execSramUncorrectable s = _
  unfold execSramUncorrectable
  rw [show s.arg.m % 3 = 2 from shadow, powered]
  rfl

/-- Contexts that hold no instance lose nothing. -/
theorem killSram_all_invalid {l : Loc} (ctxs : List Nat) (free : ∀ c ∈ ctxs, ((s.st l).ctx c).valid = false) :
    ctxs.foldl (fun st c => st.killSram l c) s = s :=
  List.foldlRecOn (motive := fun t => t = s) ctxs _ rfl (fun t ht c hc => by
    rw [ht]
    exact killSram_invalid (free c hc))

theorem remapTableLoss_retires (powered : s.boot.powered = true) (both : s.sched.arg.ok = false) :
    let k := quadKey s.sched.arg.loc.die.val (quadX s.sched.arg.loc) (quadY s.sched.arg.loc)
    Yields .remapTableLoss s (fun t => t.host.uecount = s.host.uecount + 1 ∧ (t.quad k).retired = true ∧ ∀ j, j ≠ k → t.quad j = s.quad j) := by
  intro k
  obtain ⟨f, next⟩ : ∃ f : FaultInfo, exec .remapTableLoss s = .next ((quadStations s.sched.arg.loc.die.val (quadX s.sched.arg.loc)
      (quadY s.sched.arg.loc)).foldl State.bankLost ((s.uncorrected.reportHost f).modQuad k (fun q => { q with retired := true }))) := by
    refine ⟨{ code := codeUncorrectable, source := 6, vf := none, loc := some s.sched.arg.loc, die := s.sched.arg.loc.die, detail := 4 }, ?_⟩
    show execRemapTableLoss s = _
    unfold execRemapTableLoss
    rw [powered, show s.arg.ok = false from both]
    rfl
  have told := ends_reportHost s.uncorrected f
  generalize s.uncorrected.reportHost f = u at told next
  have lost := ends_foldl State.bankLost ends_bankLost (quadStations s.sched.arg.loc.die.val (quadX s.sched.arg.loc) (quadY s.sched.arg.loc))
    (u.modQuad k (fun q => { q with retired := true }))
  refine ⟨_, next, lost.books.uecount.trans told.books.uecount, ?_, fun j other => ?_⟩
  · rw [State.quad, lost.quads]
    exact congrArg Quad.retired (quad_modQuad_same u k _)
  · have before : u.quad j = s.quad j := by
      rw [State.quad, told.quads]
      rfl
    rw [State.quad, lost.quads, ← before]
    exact quad_modQuad_other u _ other

theorem flitCrcFail_replays (powered : s.boot.powered = true) (up : (s.port (s.sched.arg.n % 2)).training = false) :
    let p := s.port (s.sched.arg.n % 2)
    Yields .flitCrcFail s (fun t => t.host.cecount = s.host.cecount + 1 ∧ t.mm = s.mm ∧ t.fab = s.fab ∧
      t.port (s.sched.arg.n % 2) = (if s.sched.arg.ok = true then { p with replays := 0 }
        else if p.replays + 1 = 8 then { p with replays := 0, training := true } else { p with replays := p.replays + 1 })) := by
  intro p
  obtain ⟨k, counts, next⟩ : ∃ k, k = (if s.sched.arg.ok = true then 0 else p.replays + 1) ∧ exec .flitCrcFail s = .next (s.corrected.modPort
      (s.sched.arg.n % 2) (fun q => if k = 8 then { q with replays := 0, training := true } else { q with replays := k })) := by
    refine ⟨_, rfl, ?_⟩
    show execFlitCrcFail s = _
    unfold execFlitCrcFail
    dsimp only
    rw [powered, show (s.port (s.arg.n % 2)).training = false from up]
    rfl
  refine ⟨_, next, rfl, rfl, rfl, ?_⟩
  rw [port_modPort_same _ _ (Nat.mod_lt _ (by decide)), show s.corrected.port (s.sched.arg.n % 2) = p from rfl, counts]
  cases s.sched.arg.ok with
  | true => rfl
  | false => rfl

theorem portRetrain_comesBack (training : (s.port (s.sched.arg.n % 2)).training = true) :
    Yields .portRetrain s (fun t =>
      t.port (s.sched.arg.n % 2) = { s.port (s.sched.arg.n % 2) with training := false, width := s.sched.arg.m % 4 } ∧
      t.port (1 - s.sched.arg.n % 2) = s.port (1 - s.sched.arg.n % 2) ∧ (s.host.irqHeld = [] → t.mm = s.mm ∧ t.fab = s.fab)) := by
  have next : exec .portRetrain s = .next
      (s.modPort (s.sched.arg.n % 2) (fun q => { q with training := false, width := s.sched.arg.m % 4 })).flushIrqs := by
    show execPortRetrain s = _
    unfold execPortRetrain
    dsimp only
    rw [if_pos (show (s.port (s.arg.n % 2)).training = true from training)]
    rfl
  refine ⟨_, next, ?_, ?_, fun nothing => ?_⟩
  · rw [flushIrqs_port, port_modPort_same _ _ (Nat.mod_lt _ (by decide))]
  · rw [flushIrqs_port, port_modPort_other _ _ (by omega)]
  · rw [flushIrqs_nothing (s := s.modPort _ _) nothing]
    exact ⟨rfl, rfl⟩

theorem tagUncorrectable_rdc (odd : s.sched.arg.m % 2 = 1) : exec .tagUncorrectable s =
    .next (if s.sched.arg.n < s.mm.rdc.length then s.uncorrected.modMm (fun m => { m with rdc := m.rdc.eraseIdx s.sched.arg.n }) else s) := by
  show execTagUncorrectable s = _
  unfold execTagUncorrectable State.arg
  rw [if_pos (show s.sched.arg.m % 2 = 1 from odd)]
  split
  next none =>
    rw [if_neg (Nat.not_lt.mpr (List.getElem?_eq_none_iff.mp none))]
  next l found =>
    rw [if_pos (List.getElem?_eq_some_iff.mp found).1]

theorem tagUncorrectable_l2 (even : s.sched.arg.m % 2 = 0) : exec .tagUncorrectable s =
    .next (match s.mm.l2[s.sched.arg.n]? with | none => s | some l => s.uncorrected.tagError l (!s.sched.arg.ok)) := by
  show execTagUncorrectable s = _
  unfold execTagUncorrectable
  rw [if_neg (show ¬ s.arg.m % 2 = 1 by rw [show s.arg.m % 2 = 0 from even]; decide)]
  show (match s.mm.l2[s.sched.arg.n]? with | none => Host.Outcome.next s | some l => .next (s.uncorrected.tagError l (!s.sched.arg.ok))) = _
  cases s.mm.l2[s.sched.arg.n]? <;> rfl

/-- A clean line is dropped. -/
theorem tagError_clean {e : Line} (address : Bool) (clean : e.dirty = false) : s.tagError e address =
    s.modMm (fun m => { m with l2 := m.l2.filter (fun x => decide (x.addr ≠ e.addr ∨ x.vf ≠ e.vf)) }) := by
  unfold State.tagError
  rw [clean]
  rfl

/-- A dirty line of the host is lost, and memory holds what it last held. -/
theorem tagError_host {e : Line} (address : Bool) (dirty : e.dirty = true) (host : e.vf = hostId) :
    s.tagError e address = (s.loseLine e).lossToHost (homeDie (e.addr * 128)) (e.addr * 128) := by
  unfold State.tagError
  dsimp only
  rw [dirty, if_neg (by decide), if_pos host]

end

/-- Settles O51. A kill leaves the books and the quads, and what it has ended stays ended through the kills below it; a report changes
neither engine nor fabric, so that the placement it finds is the one under way. -/
theorem errorsAreCountedAndContained : Obligations.ErrorsAreCountedAndContained := by
  unfold Obligations.ErrorsAreCountedAndContained
  intro s l n m a x k p
  refine ⟨fun off => ?_, fun powered => ⟨?_, fun context free => ?_, fun i context valid found one => ?_, fun shared free => ?_,
    fun i q shadow loading placing own covers => ?_, fun shadow none => ?_, fun low memory => ?_, fun outside => ?_, fun one => ?_,
    remapTableLoss_retires powered, fun training => ?_, flitCrcFail_replays powered⟩, fun up => ?_, portRetrain_comesBack, fun odd lt => ?_,
    fun odd ge => ?_, fun even ge => ?_, fun e even found => ?_⟩
  · have unpowered (f : State) : (if s.boot.powered then f else s) = s := by rw [off, if_neg Bool.false_ne_true]
    refine ⟨congrArg Host.Outcome.next (unpowered _), ?_, ?_, ?_, ?_⟩
    · show execSramUncorrectable s = _
      unfold execSramUncorrectable
      rw [off]
      rfl
    · show execHbmPoison s = _
      unfold execHbmPoison
      rw [off]
      rfl
    · show execRemapTableLoss s = _
      unfold execRemapTableLoss
      rw [off]
      rfl
    · show execFlitCrcFail s = _
      unfold execFlitCrcFail
      rw [off]
      rfl
  · show Host.Outcome.next (if s.boot.powered then s.corrected else s) = _
    rw [powered]
    rfl
  · rw [sramUncorrectable_context powered context, killSram_invalid (s := s.uncorrected) free]
    rfl
  · obtain ⟨counted, ended⟩ := killSram_ends (s := s.uncorrected) valid found one
    exact ⟨_, sramUncorrectable_context powered context, counted, fun j hj => ended j (List.mem_of_find?_eq_some hj) (inst_id hj)⟩
  · rw [sramUncorrectable_shared powered shared, killSram_all_invalid (s := s.uncorrected) _ (fun c hc => free c (List.mem_range.mp hc))]
    rfl
  · exact ⟨_, sramUncorrectable_shadow powered shadow, shadowError_withdraws (s := s.uncorrected) loading placing own covers⟩
  · have nothing : s.uncorrected.shadowError l = s.uncorrected := by
      unfold State.shadowError
      rw [show s.uncorrected.loading? l.die = .none from none]
    rw [sramUncorrectable_shadow powered shadow, nothing]
    rfl
  · show execHbmPoison s = _
    unfold execHbmPoison
    dsimp only
    rw [powered, show s.physOk s.arg.addr = true from memory, show decide (s.arg.addr < 2 ^ 51) = true from decide_eq_true low]
    rfl
  · have refused : (s.boot.powered && decide (s.arg.addr < 2 ^ 51) && s.physOk s.arg.addr) = false := by
      rcases outside with high | unmapped
      · rw [show decide (s.arg.addr < 2 ^ 51) = false from decide_eq_false (Nat.not_lt.mpr high), Bool.and_false, Bool.false_and]
      · rw [show s.physOk s.arg.addr = false from unmapped, Bool.and_false]
    show execHbmPoison s = _
    unfold execHbmPoison
    dsimp only
    rw [refused, if_neg Bool.false_ne_true]
  · show execRemapTableLoss s = _
    unfold execRemapTableLoss
    rw [powered, show s.arg.ok = true from one]
    rfl
  · show execFlitCrcFail s = _
    unfold execFlitCrcFail
    dsimp only
    rw [show (s.port (s.arg.n % 2)).training = true from training, Bool.or_true, if_pos rfl]
  · show execPortRetrain s = _
    unfold execPortRetrain
    dsimp only
    rw [if_neg (by rw [show (s.port (s.arg.n % 2)).training = false from up]; decide)]
  · rw [tagUncorrectable_rdc odd, if_pos lt]
    rfl
  · rw [tagUncorrectable_rdc odd, if_neg (Nat.not_lt.mpr ge)]
  · rw [tagUncorrectable_l2 even, List.getElem?_eq_none_iff.mpr ge]
  · intro gone
    have next : exec .tagUncorrectable s = .next (s.uncorrected.tagError e (!s.sched.arg.ok)) := by
      rw [tagUncorrectable_l2 even, found]
    refine ⟨fun clean => ?_, fun dirty host none => ?_⟩
    · rw [tagError_clean _ clean] at next
      exact ⟨_, next, ⟨rfl, fun y hy => dropped_line hy, fun _ _ => rfl⟩, rfl, rfl, rfl⟩
    · obtain ⟨f, counted, kept⟩ := lossToHost_counts (s := s.uncorrected.loseLine e) (homeDie (e.addr * 128)) (e.addr * 128) none
      rw [tagError_host _ dirty host, counted] at next
      refine ⟨_, next, ⟨kept _, fun y hy => dropped_line hy, fun y hy => ?_⟩, rfl, fun i hi => ?_⟩
      · exact Mem.get_write_outside s.mm.mem 128 e.old.toNat (by omega)
      · rw [Nat.mul_comm 128 e.addr]
        exact Mem.get_write_inside s.mm.mem 128 e.old.toNat i hi

end Sys2Proof.Machine
end
section
/-! SUPPORT. The queue interfaces, the polls, the time messages, the measurements and the grants (R210, R211, R418, R426, R427, R435,
R462): the parts of HubAndIntakeCountAndDeliver (O53) beside the debit. -/
namespace Sys2Proof.Machine

section
variable {s : State}

/-! ### Notify writes (R210) -/

/-- A notify write that its queue interface takes. -/
def State.notifyTakes (s : State) : Prop :=
  s.sched.arg.size = 4 ∧ s.sched.arg.addr % 64 = 0 ∧ s.sched.arg.vf = (s.qi (s.sched.arg.addr / 64)).owner ∧
    (s.qi (s.sched.arg.addr / 64)).enable = true

theorem notifyWrite_ignored (h : s.boot.windowOpen = false ∨ 256 ≤ s.sched.arg.addr / 64) : exec .notifyWrite s = .next s := by
  show execNotifyWrite s = _
  unfold execNotifyWrite State.arg
  refine if_pos ?_
  rw [Bool.or_eq_true, Bool.not_eq_true', decide_eq_true_eq]
  exact h

/-- The test of a notify write is `notifyTakes`. -/
theorem notifyTest_iff : (decide (s.sched.arg.size = 4 ∧ s.sched.arg.addr % 64 = 0 ∧
    s.sched.arg.vf = (s.qi (s.sched.arg.addr / 64)).owner) && (s.qi (s.sched.arg.addr / 64)).enable) = true ↔ s.notifyTakes := by
  rw [Bool.and_eq_true, decide_eq_true_eq, and_assoc, and_assoc]
  rfl

/-- The window is open, and the write names a queue interface. -/
theorem notifyNamed (opened : s.boot.windowOpen = true) (named : s.sched.arg.addr / 64 < 256) :
    ¬ (!s.boot.windowOpen || decide (256 ≤ s.sched.arg.addr / 64)) = true := by
  rw [opened, decide_eq_false (Nat.not_le.mpr named)]
  decide

theorem notifyWrite_takes (opened : s.boot.windowOpen = true) (named : s.sched.arg.addr / 64 < 256) (takes : s.notifyTakes) :
    exec .notifyWrite s = .next (s.notify (s.sched.arg.addr / 64) (s.sched.arg.value % 2 ^ 32)) := by
  show execNotifyWrite s = _
  unfold execNotifyWrite State.arg
  dsimp only
  rw [if_neg (notifyNamed opened named), if_pos (notifyTest_iff.mpr takes)]

theorem notifyWrite_refuses (opened : s.boot.windowOpen = true) (named : s.sched.arg.addr / 64 < 256) (refuses : ¬ s.notifyTakes) :
    exec .notifyWrite s = .next (s.modQi (s.sched.arg.addr / 64) (fun y => { y with dropped := y.dropped + 1 })) := by
  show execNotifyWrite s = _
  unfold execNotifyWrite State.arg
  dsimp only
  rw [if_neg (notifyNamed opened named), if_neg (mt notifyTest_iff.mp refuses)]

/-- The packets that a notify write with a count announces beyond those consumed. -/
def Qi.fresh (x : Qi) (c : Nat) : Nat := (c + 2 ^ 32 - x.consumed.toNat) % 2 ^ 32

theorem notify_none {q c : Nat} (none : (s.qi q).fresh c = 0) : s.notify q c = s := if_pos none

theorem notify_beyond {q c : Nat} (beyond : (s.qi q).ring < (s.qi q).fresh c) :
    s.notify q c = s.modQi q (fun y => { y with dropped := y.dropped + 1 }) := by
  unfold State.notify
  exact (if_neg (Nat.ne_of_gt (Nat.zero_lt_of_lt beyond))).trans (if_pos beyond)

theorem notify_submits {q c : Nat} (some : 0 < (s.qi q).fresh c) (within : (s.qi q).fresh c ≤ (s.qi q).ring) :
    s.notify q c = s.modQi q (fun y => { y with submitted := BitVec.ofNat 32 c }) := by
  unfold State.notify
  exact (if_neg (Nat.pos_iff_ne_zero.mp some)).trans (if_neg (Nat.not_lt.mpr within))

/-- A number modulo 2^w is the number as a field of w bits holds it. -/
theorem ofNat_mod_field (w n : Nat) : BitVec.ofNat w (n % 2 ^ w) = BitVec.ofNat w n := by
  apply BitVec.eq_of_toNat_eq
  rw [BitVec.toNat_ofNat, BitVec.toNat_ofNat, Nat.mod_mod]

/-- Only one queue interface changes. -/
theorem yields_modQi {i : Instr} {q : Nat} {f : Qi → Qi} {y : Qi} (next : exec i s = .next (s.modQi q f)) (hy : f (s.qi q) = y) :
    Yields i s (fun t => t.mm = s.mm ∧ t.fab = s.fab ∧ (∀ j, j ≠ q → t.qi j = s.qi j) ∧ t.qi q = y) :=
  ⟨_, next, rfl, rfl, fun _ other => qi_modQi_other s f other, (qi_modQi_same s q f).trans hy⟩

/-! ### Packets (R211) -/

theorem packetRead_stops (ready : (s.qi (s.sched.arg.n % 256)).enable = true)
    (more : (s.qi (s.sched.arg.n % 256)).submitted ≠ (s.qi (s.sched.arg.n % 256)).consumed)
    (going : (s.qi (s.sched.arg.n % 256)).stopped = none) (ungranted : (s.qi (s.sched.arg.n % 256)).granted = false)
    (full : s.slotsOpen (s.qi (s.sched.arg.n % 256)).core = 0) :
    exec .packetRead s = .next (s.newUid.2.modQi (s.sched.arg.n % 256) (fun y => { y with stopped := some s.newUid.1 })) := by
  show execPacketRead s = _
  unfold execPacketRead State.arg
  dsimp only
  rw [ready, decide_eq_false more, going, ungranted, full]
  rfl

theorem packetRead_nothing (h : (s.qi (s.sched.arg.n % 256)).enable = false ∨
    (s.qi (s.sched.arg.n % 256)).submitted = (s.qi (s.sched.arg.n % 256)).consumed ∨
    (s.qi (s.sched.arg.n % 256)).stopped.isSome = true) : exec .packetRead s = .next s := by
  show execPacketRead s = _
  unfold execPacketRead State.arg
  dsimp only
  refine if_pos ?_
  rw [Bool.or_eq_true, Bool.or_eq_true, Bool.not_eq_true', decide_eq_true_eq, or_assoc]
  exact h

/-- Byte i of a number that is read. -/
theorem Mem.byte_read (m : List Host.Cell) (a : Nat) {i n : Nat} (h : i < n) :
    BitVec.ofNat 8 (Mem.read m a n / 256 ^ i) = Mem.get m (a + i) := by
  have part := Mem.read_part m a i 1 (n - (i + 1))
  rw [Nat.add_sub_cancel' h, pow_one] at part
  apply BitVec.eq_of_toNat_eq
  rw [BitVec.toNat_ofNat, part]
  simp [Mem.read]

/-- A packet lies within one line. -/
theorem pieces_packet {pa : Nat} (aligned : pa % 64 = 0) : pieces pa 64 = [(pa, 64)] := by
  have room : min 64 (128 - pa % 128) = 64 := by omega
  simp [pieces, linePieces, room]

theorem serveRead_packet (s : State) {die : Fin 2} {pa : Nat} (vf : Nat) (aligned : pa % 64 = 0) (home : homeDie pa = die) :
    (s.serveRead die vf pa 64).1 = Mem.read s.mm.mem pa 64 := by
  simp [State.serveRead, pieces_packet aligned, home]

/-- The slot that holds a packet of a queue interface. -/
def State.packetSlot (s : State) (q : Nat) : IntakeSlot :=
  { qi := q, vf := (s.qi q).owner, number := (s.qi q).read, gen := (s.vf (s.qi q).owner).gen, popped := false }

/-- A core with a packet in one of its slots, and its event. -/
def Core.takes (k : Core) (q slot v : Nat) (e : IntakeSlot) : Core :=
  { k with lm := Mem.write k.lm (0xC000 + 64 * slot) 64 v, slots := Map.put k.slots slot e, pktq := k.pktq ++ [(q, slot)],
           events := k.events ||| BitVec.ofNat 5 (2 ^ 0) }

/-- A packet that is counted leaves its core; a slot kept for its interface is not passed on twice. -/
theorem packetCounted_ungranted {q : Nat} (h : (s.qi q).granted = false) :
    s.packetCounted q = s.modQi q (fun y => { y with read := y.read + 1, consumed := y.consumed + 1 }) := by
  have kept : ((s.modQi q (fun y => { y with read := y.read + 1, consumed := y.consumed + 1 })).qi q).granted = false := by
    rw [qi_modQi_same]
    exact h
  unfold State.packetCounted State.dropGrant
  dsimp only
  rw [if_neg (fun on => absurd (kept.symm.trans on) Bool.false_ne_true), ite_self]

/-- What the intake leaves of an accepted packet. -/
theorem accept_takes (s : State) (q slot v : Nat) :
    (s.accept q slot v).core (s.qi q).core = (s.core (s.qi q).core).takes q slot v (s.packetSlot q) ∧
    ((s.accept q slot v).qi q).consumed = (s.qi q).consumed + 1 := by
  have ungranted (c : Fin 4) (f : Core → Core) (b : Nat) :
      (((((s.modQi q (fun y => { y with granted := false })).modCore c f).setEvent c b).qi q).granted = false) := by
    show ((s.modQi q (fun y => { y with granted := false })).qi q).granted = false
    rw [qi_modQi_same]
  unfold State.accept
  dsimp only
  rw [packetCounted_ungranted (ungranted _ _ _)]
  constructor
  · have core (u : State) (f : Qi → Qi) (c : Fin 4) : (u.modQi q f).core c = u.core c := rfl
    unfold State.setEvent
    rw [core, core_modCore_same, core_modCore_same]
    rfl
  · rw [qi_modQi_same]
    show ((s.modQi q (fun y => { y with granted := false })).qi q).consumed + 1 = _
    rw [qi_modQi_same]

/-- The bytes of an accepted packet are those that memory holds, and its slot, its queue and its event are set. -/
theorem accept_delivers {u : State} (same : CacheOnly s u) (q slot pa : Nat) :
    let x := s.qi q
    let t := u.accept q slot (Mem.read s.mm.mem pa 64)
    (∀ i < 64, Mem.get (t.core x.core).lm (0xC000 + 64 * slot + i) = Mem.get s.mm.mem (pa + i)) ∧
    (∀ y, y < 0xC000 + 64 * slot ∨ 0xC000 + 64 * slot + 64 ≤ y → Mem.get (t.core x.core).lm y = Mem.get (s.core x.core).lm y) ∧
    (t.core x.core).pktq = (s.core x.core).pktq ++ [(q, slot)] ∧ Map.find (t.core x.core).slots slot =
      some { qi := q, vf := x.owner, number := x.read, gen := (s.vf x.owner).gen, popped := false } ∧ bit (t.core x.core).events 0 = true ∧
    (t.qi q).consumed = x.consumed + 1 ∧ (t.core x.core).g = (s.core x.core).g := by
  intro x t
  have qi : u.qi q = x := cacheOnly_read same (State.qi · q)
  have vf : u.vf x.owner = s.vf x.owner := cacheOnly_read same (State.vf · x.owner)
  obtain ⟨takes, consumed⟩ : t.core (u.qi q).core = _ ∧ _ := accept_takes u q slot (Mem.read s.mm.mem pa 64)
  rw [qi, cacheOnly_core same] at takes
  rw [qi] at consumed
  rw [takes]
  refine ⟨fun i hi => ?_, fun y hy => Mem.get_write_outside _ _ _ hy, rfl, ?_, ?_, consumed, rfl⟩
  · exact (Mem.get_write_inside _ _ _ _ hi).trans (Mem.byte_read _ _ hi)
  · refine (Map.find_put_same _ _ _).trans ?_
    unfold State.packetSlot
    rw [qi, vf]
  · show bit ((s.core x.core).events ||| BitVec.ofNat 5 (2 ^ 0)) 0 = true
    simp [bit]

theorem packetRead_accepts {pa k : Nat} {t : State} (ready : (s.qi (s.sched.arg.n % 256)).enable = true)
    (more : (s.qi (s.sched.arg.n % 256)).submitted ≠ (s.qi (s.sched.arg.n % 256)).consumed)
    (going : (s.qi (s.sched.arg.n % 256)).stopped = none)
    (room : (s.qi (s.sched.arg.n % 256)).granted = true ∨ s.slotsOpen (s.qi (s.sched.arg.n % 256)).core ≠ 0)
    (access : s.unitAccess (coreDie (s.qi (s.sched.arg.n % 256)).core) (s.qi (s.sched.arg.n % 256)).owner
      ((s.qi (s.sched.arg.n % 256)).subbase.toNat + 64 * ((s.qi (s.sched.arg.n % 256)).read % (s.qi (s.sched.arg.n % 256)).ring)) false
      (some (s.qi (s.sched.arg.n % 256)).pasid) (.packet (s.sched.arg.n % 256)) = .ok pa t)
    (clean : t.poisoned pa 64 = false) (aligned : pa % 64 = 0) (home : homeDie pa = coreDie (s.qi (s.sched.arg.n % 256)).core)
    (valid : (s.qi (s.sched.arg.n % 256)).pvalid = true)
    (own : fld (Mem.read s.mm.mem pa 64) 0 20 = (s.qi (s.sched.arg.n % 256)).pasid)
    (free : (s.core (s.qi (s.sched.arg.n % 256)).core).freeSlot = some k) :
    ∃ u, CacheOnly s u ∧ exec .packetRead s = .next (u.accept (s.sched.arg.n % 256) k (Mem.read s.mm.mem pa 64)) := by
  set q := s.sched.arg.n % 256
  have walked := unitAccess_ok access
  have read := cacheOnly_serveRead t (coreDie (s.qi q).core) (s.qi q).owner pa 64
  have bytes : (t.serveRead (coreDie (s.qi q).core) (s.qi q).owner pa 64).1 = Mem.read s.mm.mem pa 64 := by
    rw [serveRead_packet t _ aligned home, cacheOnly_mem walked]
  have both := cacheOnly_trans walked read
  refine ⟨_, both, ?_⟩
  have notStopped : (!(s.qi q).granted && decide (s.slotsOpen (s.qi q).core = 0)) = false := by
    rcases room with granted | slots
    · rw [granted]
      rfl
    · rw [decide_eq_false slots, Bool.and_false]
  show execPacketRead s = _
  unfold execPacketRead State.arg
  dsimp only
  rw [ready, decide_eq_false more, going, if_neg (by decide), notStopped, if_neg Bool.false_ne_true, access]
  dsimp only
  rw [clean, if_neg Bool.false_ne_true, bytes, valid, decide_eq_false (not_not_intro own), if_neg (by decide), cacheOnly_core both, free]

/-! ### Polls of the rings (R208, R418) -/

theorem hostRingPoll_reads (later : s.host.polled < s.now / 1600) :
    Yields .hostRingPoll s (fun t => t.host.polled = s.now / 1600 ∧ t.fab.stations = s.fab.stations ∧ t.prick = s.prick ∧
      (s.host.fqHeld = [] → s.host.pgHeld = [] → t.mm = s.mm)) := by
  set s1 := s.modHost (fun h => { h with polled := s.now / 1600 }) with polls
  have next : exec .hostRingPoll s = .next ((s1.flushHostFaults s1.host.fqHeld.length).flushPages
      (s1.flushHostFaults s1.host.fqHeld.length).host.pgHeld.length) := by
    show execHostRingPoll s = _
    unfold execHostRingPoll
    dsimp only
    rw [if_neg (Nat.not_le.mpr later)]
  have aside := aside_trans (aside_flushHostFaults s1 s1.host.fqHeld.length)
    (aside_flushPages _ (s1.flushHostFaults s1.host.fqHeld.length).host.pgHeld.length)
  have books := books_trans (books_flushHostFaults s1 s1.host.fqHeld.length)
    (books_flushPages _ (s1.flushHostFaults s1.host.fqHeld.length).host.pgHeld.length)
  refine ⟨_, next, books.polled, ?_, aside.engines, fun faults pages => ?_⟩
  · rw [aside.fabric]
    rfl
  · have nothing : s1.host.fqHeld = [] := faults
    rw [nothing]
    show (s1.flushPages s1.host.pgHeld.length).mm = _
    rw [show s1.host.pgHeld = [] from pages]
    rfl

theorem faultRingPoll_reads (later : (s.vf (s.sched.arg.vf % 128)).polled < s.now / 1600) :
    Yields .faultRingPoll s (fun t => (t.vf (s.sched.arg.vf % 128)).polled = s.now / 1600 ∧ t.fab.stations = s.fab.stations ∧
      t.prick = s.prick ∧ ((s.vf (s.sched.arg.vf % 128)).heldFaults = [] → t.mm = s.mm)) := by
  set v := s.sched.arg.vf % 128
  have next : exec .faultRingPoll s =
      .next ((s.modVf v (fun f => { f with polled := s.now / 1600 })).flushFaults v (s.vf v).heldFaults.length) := by
    show execFaultRingPoll s = _
    unfold execFaultRingPoll State.arg
    dsimp only
    rw [if_neg (Nat.not_le.mpr later)]
  set s1 := s.modVf v (fun f => { f with polled := s.now / 1600 }) with polls
  have aside := aside_flushFaults s1 v (s.vf v).heldFaults.length
  have polled : (s1.vf v).polled = s.now / 1600 := by rw [polls, vf_modVf_same]
  refine ⟨_, next, ?_, ?_, aside.engines, fun nothing => ?_⟩
  · have dues := (books_flushFaults s1 v (s.vf v).heldFaults.length).dues v
    exact (congrArg (fun d => d.2.2.2) dues).trans polled
  · rw [aside.fabric]
    rfl
  · rw [nothing]
    rfl

/-! ### Time messages (R435) -/

theorem message_steps (t : TimeCtr) (ns frac by_ : Nat) :
    let off := timeParts ns frac - timeParts t.ns.toNat t.frac.toNat
    (65536000 < off → (t.message ns frac by_).ns = BitVec.ofNat 64 ns ∧ (t.message ns frac by_).frac = BitVec.ofNat 16 frac ∧
      (t.message ns frac by_).slew = 0) ∧
    (off ≤ 65536000 → (t.message ns frac by_).ns = t.ns ∧ (t.message ns frac by_).frac = t.frac ∧ (t.message ns frac by_).slew = off ∧
      (t.message ns frac by_).slewBy = if -65536000 ≤ off then by_ else 0) := by
  intro off
  constructor
  · intro behind
    unfold TimeCtr.message
    dsimp only
    rw [if_pos behind]
    exact ⟨rfl, rfl, rfl⟩
  · intro near
    unfold TimeCtr.message
    dsimp only
    rw [if_neg (not_lt.mpr near)]
    refine ⟨rfl, rfl, rfl, ?_⟩
    simp only [decide_eq_true_eq]
    rfl

theorem timeMessage_counts (powered : s.boot.powered = true) : Yields .timeMessage s (fun t => t.clk.cycle = s.clk.cycle ∧ t.mm = s.mm ∧
    t.fab = s.fab ∧ ∀ d : Fin 2, t.clk.time[d] =
      s.clk.time[d].message (s.sched.arg.value % 2 ^ 64) (s.sched.arg.size % 2 ^ 16) (s.now + 1600000)) := by
  refine ⟨{ s with clk := { s.clk with time := s.clk.time.map (fun t =>
    t.message (s.sched.arg.value % 2 ^ 64) (s.sched.arg.size % 2 ^ 16) (s.now + 1600000)) } }, ?_, rfl, rfl, rfl, fun d => Vector.getElem_map _ _⟩
  show execTimeMessage s = _
  unfold execTimeMessage
  rw [powered]
  rfl

/-- A device without power hears no message, measures nothing and sets no grant. -/
theorem unpowered (off : s.boot.powered = false) :
    exec .timeMessage s = .next s ∧ exec .columnMeasurement s = .next s ∧ exec .grantUpdate s = .next s := by
  refine ⟨?_, ?_, ?_⟩
  · show execTimeMessage s = _
    unfold execTimeMessage
    rw [off]
    rfl
  · show execColumnMeasurement s = _
    unfold execColumnMeasurement
    dsimp only
    rw [off]
    rfl
  · show execGrantUpdate s = _
    unfold execGrantUpdate
    dsimp only
    rw [off]
    rfl

/-! ### Measurements (R426, R427) -/

/-- Shared costs change the charges, and the meter sites of contexts. -/
structure Costs (s t : State) : Prop where
  mm : t.mm = s.mm
  host : t.host = s.host
  cols : t.fab.cols = s.fab.cols
  stations : ∀ l, t.st l = { s.st l with ctxs := (t.st l).ctxs }

theorem costs_refl (s : State) : Costs s s := ⟨rfl, rfl, rfl, fun _ => rfl⟩

theorem costs_trans {s t u : State} (h : Costs s t) (k : Costs t u) : Costs s u where
  mm := k.mm.trans h.mm
  host := k.host.trans h.host
  cols := k.cols.trans h.cols
  stations l := by rw [k.stations l, h.stations l]

theorem costs_foldl {α : Type} (f : State → α → State) (h : ∀ s x, Costs s (f s x)) (l : List α) (s : State) : Costs s (l.foldl f s) :=
  List.foldlRecOn (motive := Costs s) _ _ (costs_refl s) (fun _ hb _ _ => costs_trans hb (h _ _))

theorem costs_share (s : State) (vf col n : Nat) : Costs s (s.share vf col n) := by
  have charges := charges_charge s vf col .shared n
  unfold State.share
  rw [charges]
  exact ⟨rfl, rfl, rfl, fun _ => rfl⟩

theorem costs_modCtx (s : State) (l : Loc) (c : Nat) (f : Ctx → Ctx) : Costs s (s.modSt l (fun q => q.modCtx c f)) := by
  refine ⟨rfl, rfl, rfl, fun k => ?_⟩
  by_cases same : k = l
  · rw [same, st_modSt_same]
    rfl
  · rw [st_modSt_other s _ same]

theorem costs_leakSlot (s : State) (col n : Nat) (l : Loc) (c : Nat) : Costs s (s.leakSlot col n l c) := by
  unfold State.leakSlot
  split
  · exact costs_trans (costs_share _ _ _ _) (costs_modCtx _ _ _ _)
  · exact costs_refl s

theorem costs_leakSta (s : State) (col rate : Nat) (l : Loc) : Costs s (s.leakSta col rate l) := by
  unfold State.leakSta
  dsimp only
  split
  · split
    · exact costs_share _ _ _ _
    · exact costs_share _ _ _ _
  · exact costs_trans (costs_foldl _ (fun _ _ => costs_leakSlot _ _ _ _ _) _ _) (costs_share _ _ _ _)

theorem costs_leakQuad (s : State) (col die qx qy : Nat) : Costs s (s.leakQuad col die qx qy) := by
  unfold State.leakQuad
  split
  · exact costs_foldl _ (fun _ _ => costs_leakSta _ _ _ _) _ _
  · exact costs_share _ _ _ _

theorem costs_rowsSta (s : State) (col die : Nat) (l : Loc) : Costs s (s.rowsSta col die l) :=
  costs_foldl _ (fun _ _ => costs_share _ _ _ _) _ _

theorem costs_stackCost (s : State) (col stack : Nat) : Costs s (s.stackCost col stack) :=
  costs_trans (costs_foldl _ (fun _ _ => costs_share _ _ _ _) _ _) (costs_share _ _ _ _)

theorem costs_sharedCosts (s : State) (col : Nat) : Costs s (s.sharedCosts col) := by
  unfold State.sharedCosts
  dsimp only
  exact costs_trans (costs_trans (costs_foldl _ (fun _ _ => costs_leakQuad _ _ _ _ _) _ _)
    (costs_foldl _ (fun _ _ => costs_foldl _ (fun _ _ => costs_rowsSta _ _ _ _) _ _) _ _)) (costs_foldl _ (fun _ _ => costs_stackCost _ _ _) _ _)

/-- Before the microsecond has ended, or once the column is measured, a measurement changes nothing. -/
theorem columnMeasurement_ignored (h : s.usOver = false ∨ (s.col (s.sched.arg.n % 32)).measured = true) :
    exec .columnMeasurement s = .next s := by
  show execColumnMeasurement s = _
  unfold execColumnMeasurement State.arg
  refine if_pos ?_
  rw [Bool.or_eq_true, Bool.or_eq_true, Bool.not_eq_true', Bool.not_eq_true', or_assoc]
  exact Or.inr h

theorem columnMeasurement_ends (powered : s.boot.powered = true) (elapsed : s.usOver = true)
    (unmeasured : (s.col (s.sched.arg.n % 32)).measured = false) :
    exec .columnMeasurement s =
      .next (((s.sharedCosts (s.sched.arg.n % 32)).closeCol (s.sched.arg.n % 32)).splitResid (s.sched.arg.n % 32) s.sched.arg.value) := by
  show execColumnMeasurement s = _
  unfold execColumnMeasurement State.arg
  dsimp only
  rw [powered, elapsed, unmeasured]
  rfl

/-- The residual of a column is split over parts, and what they leave goes to the overhead. -/
theorem splitResid_eq (u : State) (n measured : Nat) : ∃ parts : List (Nat × Int), u.splitResid n measured =
    (u.modCol n (fun x => { x with resid := parts, measured := true, readings := (measured :: x.readings).take 64 })).overheadAdd
      ((measured : Int) - energyOf (u.fab.due.filter (fun y => decide (y.col = n))) (fun _ => true) -
        (parts.map (·.2)).foldl (· + ·) 0) := ⟨_, rfl⟩

theorem columnMeasurement_takes (powered : s.boot.powered = true) (elapsed : s.usOver = true)
    (unmeasured : (s.col (s.sched.arg.n % 32)).measured = false) :
    let n := s.sched.arg.n % 32
    Yields .columnMeasurement s (fun t => (t.col n).measured = true ∧
      (t.col n).readings = (s.sched.arg.value :: (s.col n).readings).take 64 ∧ (∀ y ∈ t.fab.charges, y.col ≠ n) ∧
      (∀ l, t.st l = { s.st l with ctxs := (t.st l).ctxs }) ∧ t.mm = s.mm ∧ (∀ j, j ≠ n → t.col j = s.col j) ∧
      t.host.overhead = s.host.overhead + idbl ((s.sched.arg.value : Int) -
        energyOf (t.fab.due.filter (fun y => decide (y.col = n))) (fun _ => true) -
        ((t.col n).resid.map (·.2)).foldl (· + ·) 0)) := by
  intro n
  have costs := costs_sharedCosts s n
  have next := columnMeasurement_ends powered elapsed unmeasured
  have charges : ∀ y ∈ ((s.sharedCosts n).closeCol n).fab.charges, y.col ≠ n := fun y hy => by
    have kept : y ∈ (s.sharedCosts n).fab.charges.filter (fun c => !decide (c.col = n)) := hy
    simpa using (List.mem_filter.mp kept).2
  obtain ⟨u, closed⟩ : ∃ u, u = (s.sharedCosts n).closeCol n := ⟨_, rfl⟩
  have same : Costs s u := by
    rw [closed]
    exact costs_trans costs ⟨rfl, rfl, rfl, fun _ => rfl⟩
  have col (j : Nat) : u.col j = s.col j := by
    unfold State.col
    rw [same.cols]
  rw [← closed] at charges next
  obtain ⟨parts, split⟩ := splitResid_eq u n s.sched.arg.value
  rw [split] at next
  set f : Column → Column := fun x => { x with resid := parts, measured := true, readings := (s.sched.arg.value :: x.readings).take 64 }
  have changed : (u.modCol n f).col n = f (s.col n) := by
    rw [col_modCol_same u f (Nat.mod_lt _ (by decide)), col]
  have column (left : Int) : ((u.modCol n f).overheadAdd left).col n = f (s.col n) := changed
  refine ⟨_, next, ?_, ?_, charges, same.stations, same.mm, fun j other => (col_modCol_other u f other).trans (col j), ?_⟩
  · rw [column]
  · rw [column]
  · rw [column]
    show u.host.overhead + _ = s.host.overhead + _
    rw [same.host]
    rfl

/-! ### Grants (R461, R462) -/

theorem mayGrant_iff (c : Column) (g : Nat) (hot room : Bool) : c.mayGrant g hot room = true ↔
    g < 320 ∧ hot = true ∧ 160 ≤ g ∨ 320 ≤ g ∧ room = true ∧ g ≤ max c.req 320 ∨
      320 ≤ g ∧ room = false ∧ (g ≤ c.grant ∧ (320 < c.grant → g < c.grant ∧ c.grant ≤ g + 64) ∨ g = 320 ∧ c.grant < 320) := by
  unfold Column.mayGrant
  rcases Nat.lt_or_ge g 320 with low | high
  · rw [if_pos low, Bool.and_eq_true, decide_eq_true_eq]
    simp only [low, Nat.not_le.mpr low, true_and, false_and, or_false]
  · rw [if_neg (Nat.not_lt.mpr high)]
    cases room with
    | true => simp only [if_true, decide_eq_true_eq, Nat.not_lt.mpr high, high, true_and, false_and, false_or, or_false, reduceCtorEq]
    | false =>
      simp only [Bool.false_eq_true, if_false, Bool.or_eq_true, decide_eq_true_eq, Nat.not_lt.mpr high, high, true_and, false_and, false_or]

theorem grantUpdate_early (early : s.now / 1600 ≤ (s.col (s.sched.arg.n % 32)).granted) : exec .grantUpdate s = .next s := by
  show execGrantUpdate s = _
  unfold execGrantUpdate State.arg
  dsimp only
  rw [decide_eq_true early, Bool.or_true, if_pos rfl]

theorem grantUpdate_eq (powered : s.boot.powered = true) (later : (s.col (s.sched.arg.n % 32)).granted < s.now / 1600) :
    exec .grantUpdate s = .next (if (s.col (s.sched.arg.n % 32)).mayGrant s.sched.arg.value (decide (s.sched.arg.m % 2 = 1))
      (s.sched.arg.ok && s.budgetRoom) = true then
        s.modCol (s.sched.arg.n % 32) (fun x => { x with grant := s.sched.arg.value, granted := s.now / 1600 }) else s) := by
  show execGrantUpdate s = _
  unfold execGrantUpdate State.arg
  dsimp only
  rw [powered, decide_eq_false (Nat.not_le.mpr later), if_neg (by decide)]
  split <;> rfl

end

end Sys2Proof.Machine
end
section
/-! SUPPORT. The energy debit (R428, R430): what warns, saves or resumes a function leaves what the others owe, so that a debit counts each
debtor once. HubAndIntakeCountAndDeliver (O53) is settled from it. -/
namespace Sys2Proof.Machine

/-- The books, the stations, the columns and the charges that a debit takes are as before. -/
structure OnBooks (s t : State) : Prop where
  books : Books s t
  stations : t.fab.stations = s.fab.stations
  cols : t.fab.cols = s.fab.cols
  due : t.fab.due = s.fab.due

theorem onBooks_refl (s : State) : OnBooks s s := ⟨books_refl s, rfl, rfl, rfl⟩

theorem onBooks_trans {s t u : State} (h : OnBooks s t) (k : OnBooks t u) : OnBooks s u :=
  ⟨books_trans h.books k.books, k.stations.trans h.stations, k.cols.trans h.cols, k.due.trans h.due⟩

theorem onBooks_aside {s t : State} (h : Aside s t) (b : Books s t) : OnBooks s t := by
  refine ⟨b, ?_, ?_, ?_⟩ <;> rw [h.fabric]

/-- A step of the Pricking engines, or of the cores. -/
theorem onBooks_same {s t : State} (host : t.host = s.host := by rfl) (fab : t.fab = s.fab := by rfl) : OnBooks s t :=
  ⟨books_host host, by rw [fab], by rw [fab], by rw [fab]⟩

theorem onBooks_modVf (s : State) (v : Nat) (f : Vf → Vf) (h : ∀ x : Vf, (f x).dues = x.dues := by exact fun _ => rfl) :
    OnBooks s (s.modVf v f) := ⟨books_modVf s v f h, rfl, rfl, rfl⟩

theorem onBooks_foldl {α : Type} (f : State → α → State) (h : ∀ s x, OnBooks s (f s x)) (l : List α) (s : State) :
    OnBooks s (l.foldl f s) :=
  List.foldlRecOn (motive := OnBooks s) _ _ (onBooks_refl s) (fun _ hb _ _ => onBooks_trans hb (h _ _))

theorem onBooks_sample (s : State) (v : Nat) (die : Fin 2) (code : Nat) (id : SampId) (value tag : BitVec 64) :
    OnBooks s (s.sample v die code id value tag) := onBooks_aside (aside_sample _ _ _ _ _ _ _) (books_sample _ _ _ _ _ _ _)

/-! ### Saves and resumes -/

theorem onBooks_abortFor (s : State) (v : Nat) (d : Fin 2) : OnBooks s (s.abortFor v d) := by
  unfold State.abortFor
  split
  · exact onBooks_refl s
  · split
    · exact onBooks_same
    · exact onBooks_refl s

theorem onBooks_staleToken (s : State) (t : Token) (loc : Option Loc) (source stage : Nat) :
    OnBooks s (s.staleToken t loc source stage) := by
  unfold State.staleToken
  split
  · exact onBooks_refl s
  · exact onBooks_aside (aside_partitionFault _ _) (books_partitionFault _ _)

theorem onBooks_heldToImage (s : State) (r : Root) : OnBooks s (s.heldToImage r) := by
  unfold State.heldToImage
  split
  · exact onBooks_refl s
  · split
    · exact onBooks_refl s
    · split
      · exact onBooks_refl s
      · refine onBooks_trans (t := s.modRoot r.handle (fun q => { q with held := [] })) onBooks_same (onBooks_foldl _ (fun u q => ?_) _ _)
        dsimp only
        split
        · exact onBooks_same
        · exact onBooks_staleToken _ _ _ _ _

theorem onBooks_startSave (s : State) (v cause : Nat) : OnBooks s (s.startSave v cause) := by
  unfold State.startSave
  split
  · exact onBooks_refl s
  · exact onBooks_trans (onBooks_trans (onBooks_trans (onBooks_modVf _ _ _) (onBooks_abortFor _ _ _)) (onBooks_abortFor _ _ _))
      (onBooks_foldl _ onBooks_heldToImage _ _)

theorem onBooks_queueRelink (s : State) (id : Nat) : OnBooks s (s.queueRelink id) := by
  unfold State.queueRelink
  split
  · exact onBooks_refl s
  · split
    · exact onBooks_same
    · exact onBooks_refl s

theorem onBooks_resumeInst (s : State) (slice : Bool) (i : Inst) : OnBooks s (s.resumeInst slice i) := by
  unfold State.resumeInst
  dsimp only
  refine onBooks_trans (onBooks_trans ?_ (onBooks_sample _ _ _ _ _ _ _)) (onBooks_queueRelink _ _)
  exact onBooks_same

theorem onBooks_resumeVf (s : State) (v : Nat) (slice : Bool) : OnBooks s (s.resumeVf v slice) := by
  unfold State.resumeVf
  dsimp only
  have running := onBooks_modVf s v (fun f =>
    { f with st := .running, slice := 0, due := 0, resumeAsked := false, quotaOut := false, saveAt := none })
  have resumed (l : List Inst) (u : State) := onBooks_foldl (fun st i => st.resumeInst slice i) (fun _ _ => onBooks_resumeInst _ _ _) l u
  exact onBooks_trans (onBooks_trans running (resumed _ _)) onBooks_same

theorem onBooks_askResume (s : State) (v : Nat) : OnBooks s (s.askResume v) := by
  unfold State.askResume
  split
  · exact onBooks_refl s
  · exact onBooks_modVf _ _ _
  · exact onBooks_resumeVf _ _ _

/-! ### One function -/

theorem onBooks_quotaWarn (s : State) (v : Nat) : OnBooks s (s.quotaWarn v) := by
  unfold State.quotaWarn
  dsimp only
  split
  · have warned := onBooks_modVf s v (fun x => { x with ctl := setBits x.ctl 3 1 0 })
    have event (u : State) (c : Fin 4) (b : Nat) : OnBooks u (u.setEvent c b) := onBooks_same
    exact onBooks_trans (onBooks_trans warned (event _ _ _)) (onBooks_sample _ _ _ _ _ _ _)
  · exact onBooks_refl s

theorem onBooks_quotaOver (s : State) (v : Nat) : OnBooks s (s.quotaOver v) := by
  unfold State.quotaOver
  dsimp only
  split
  · exact onBooks_trans (onBooks_trans (onBooks_modVf _ _ _) (onBooks_sample _ _ _ _ _ _ _)) (onBooks_startSave _ _ _)
  · exact onBooks_refl s

theorem onBooks_autoResume (s : State) (v : Nat) (old : Int) : OnBooks s (s.autoResume v old) := by
  unfold State.autoResume
  split
  · exact onBooks_askResume _ _
  · exact onBooks_refl s

/-- What a function owes behind a debit of charges and a residual. -/
def Vf.debited (f : Vf) (ch : Nat) (r : Int) : Int × Int × Int × Nat :=
  ((idbl (f.quota - ch - r)).toInt, f.charged + ch + r, f.resid + r, f.polled)

/-- What a debit of a function leaves. -/
structure Debits (s t : State) : Prop where
  stations : t.fab.stations = s.fab.stations
  cols : t.fab.cols = s.fab.cols
  due : t.fab.due = s.fab.due
  debits : t.host.debits = s.host.debits

theorem debits_refl (s : State) : Debits s s := ⟨rfl, rfl, rfl, rfl⟩

theorem debits_trans {s t u : State} (h : Debits s t) (k : Debits t u) : Debits s u :=
  ⟨k.stations.trans h.stations, k.cols.trans h.cols, k.due.trans h.due, k.debits.trans h.debits⟩

/-- The charges of a function within a list. -/
def chargesOf (l : List Charge) (v : Nat) : Nat := energyOf l (fun y => decide (y.vf = v))

theorem debitVf_debits (s : State) (l : List Charge) (v : Nat) : Debits s (s.debitVf l v) ∧
    ((s.debitVf l v).vf v).dues = (s.vf v).debited (chargesOf l v) (s.residOwed v) ∧
    ∀ w, w ≠ v → ((s.debitVf l v).vf w).dues = (s.vf w).dues := by
  obtain ⟨f, counted, later⟩ : ∃ f : Vf → Vf, (f (s.vf v)).dues = (s.vf v).debited (chargesOf l v) (s.residOwed v) ∧
      OnBooks (s.modVf v f) (s.debitVf l v) := by
    refine ⟨_, ?_, onBooks_trans (onBooks_trans (onBooks_trans (onBooks_quotaWarn _ v) (onBooks_modVf _ v _)) (onBooks_quotaOver _ v))
      (onBooks_autoResume _ v (s.vf v).quota)⟩
    rfl
  refine ⟨⟨later.stations, later.cols, later.due, later.books.debits⟩, ?_, fun w other => ?_⟩
  · rw [later.books.dues, vf_modVf_same, counted]
  · rw [later.books.dues, vf_modVf_other s f other]

/-- What a function owes of a residual is what the columns say. -/
theorem residOwed_cols {s t : State} (h : t.fab.cols = s.fab.cols) (v : Nat) : t.residOwed v = s.residOwed v := by
  unfold State.residOwed
  rw [h]

/-- A debit of several functions counts each once. -/
theorem debitAll (l : List Charge) {vs : List Nat} (once : vs.Nodup) (s : State) :
    let t := vs.foldl (fun st v => st.debitVf l v) s
    Debits s t ∧ (∀ v ∈ vs, (t.vf v).dues = (s.vf v).debited (chargesOf l v) (s.residOwed v)) ∧
      ∀ w, w ∉ vs → (t.vf w).dues = (s.vf w).dues := by
  induction vs generalizing s with
  | nil => exact ⟨debits_refl s, fun v hv => absurd hv List.not_mem_nil, fun _ _ => rfl⟩
  | cons v vs ih =>
    obtain ⟨fresh, once⟩ := List.nodup_cons.mp once
    obtain ⟨first, counted, others⟩ := debitVf_debits s l v
    obtain ⟨rest, owed, kept⟩ := ih once (s.debitVf l v)
    refine ⟨debits_trans first rest, fun w hw => ?_, fun w hw => ?_⟩
    · rcases List.mem_cons.mp hw with rfl | tail
      · exact (kept w fresh).trans counted
      · have dues := others w (fun same => fresh (same ▸ tail))
        have same : (((s.debitVf l v).vf w).debited (chargesOf l w) (s.residOwed w)) =
            (s.vf w).debited (chargesOf l w) (s.residOwed w) := by
          unfold Vf.dues at dues
          simp only [Prod.mk.injEq] at dues
          obtain ⟨quota, charged, resid, polled⟩ := dues
          unfold Vf.debited
          rw [quota, charged, resid, polled]
        exact (owed w tail).trans (by rw [residOwed_cols first.cols, same])
    · obtain ⟨ne, out⟩ := not_or.mp (mt List.mem_cons.mpr hw)
      exact (kept w out).trans (others w ne)

section
variable {s : State}

theorem energyDebit_waits (h : s.boot.powered = false ∨ s.usOver = false ∨ ∃ y ∈ s.fab.cols.toList, y.measured = false) :
    exec .energyDebit s = .next s := by
  show execEnergyDebit s = _
  unfold execEnergyDebit
  refine if_pos ?_
  rw [Bool.or_eq_true, Bool.or_eq_true, Bool.not_eq_true', Bool.not_eq_true', or_assoc]
  refine h.imp_right (Or.imp_right fun ⟨y, hy, unmeasured⟩ => List.any_eq_true.mpr ⟨y, hy, ?_⟩)
  rw [unmeasured]
  rfl

/-- The state of a debit before its columns begin anew. -/
def State.debitedAll (s : State) : State := s.debtors.foldl (fun st v => st.debitVf s.fab.due v) (s.modFab (fun b => { b with due := [] }))

theorem energyDebit_eq (powered : s.boot.powered = true) (elapsed : s.usOver = true)
    (measured : ∀ y ∈ s.fab.cols.toList, y.measured = true) : ∃ n, exec .energyDebit s = .next (((s.debitedAll.overheadAdd n).modFab
      (fun b => { b with cols := b.cols.map (fun c => { c with residOld := c.resid, resid := [], measured := false }) })).modHost
        (fun h => { h with debits := h.debits + 1 })) := by
  have all : s.fab.cols.toList.any (fun c => !c.measured) = false :=
    List.any_eq_false.mpr (fun y hy => by rw [measured y hy]; decide)
  refine ⟨energyOf s.fab.due (fun c => decide (128 ≤ c.vf)), ?_⟩
  show execEnergyDebit s = _
  unfold execEnergyDebit
  rw [powered, elapsed, all, if_neg (by decide)]
  rfl

theorem debtors_nodup (s : State) : s.debtors.Nodup := List.Nodup.filter _ List.nodup_range

theorem energyDebit_debits (powered : s.boot.powered = true) (elapsed : s.usOver = true)
    (measured : ∀ y ∈ s.fab.cols.toList, y.measured = true) : Yields .energyDebit s (fun t =>
      t.host.debits = s.host.debits + 1 ∧ t.fab.stations = s.fab.stations ∧ t.fab.due = [] ∧
      (∀ j < 32, (t.col j).residOld = (s.col j).resid ∧ (t.col j).resid = [] ∧ (t.col j).measured = false) ∧
      ∀ w, (w ∈ s.debtors → (t.vf w).quota = (idbl ((s.vf w).quota - chargesOf s.fab.due w - s.residOwed w)).toInt ∧
          (t.vf w).charged = (s.vf w).charged + chargesOf s.fab.due w + s.residOwed w ∧
          (t.vf w).resid = (s.vf w).resid + s.residOwed w) ∧
        (w ∉ s.debtors → (t.vf w).quota = (s.vf w).quota ∧ (t.vf w).charged = (s.vf w).charged)) := by
  obtain ⟨n, next⟩ := energyDebit_eq powered elapsed measured
  obtain ⟨debits, owed, kept⟩ := debitAll s.fab.due (debtors_nodup s) (s.modFab (fun b => { b with due := [] }))
  rw [show s.debtors.foldl (fun st v => st.debitVf s.fab.due v) (s.modFab (fun b => { b with due := [] })) = s.debitedAll from rfl]
    at debits owed kept
  generalize s.debitedAll = u at *
  refine ⟨_, next, congrArg (· + 1) debits.debits, debits.stations, debits.due, fun j lt => ?_, fun w => ⟨fun debtor => ?_, fun none => ?_⟩⟩
  · set f : Column → Column := fun c => { c with residOld := c.resid, resid := [], measured := false }
    have col : vget (u.fab.cols.map f) j {} = f (s.col j) := by
      rw [vget_of_lt _ _ lt, Vector.getElem_map, debits.cols, State.col, vget_of_lt _ _ lt]
      rfl
    show (vget (u.fab.cols.map f) j {}).residOld = _ ∧ (vget (u.fab.cols.map f) j {}).resid = _ ∧ (vget (u.fab.cols.map f) j {}).measured = _
    rw [col]
    exact ⟨rfl, rfl, rfl⟩
  · have dues : (u.vf w).dues = (s.vf w).debited (chargesOf s.fab.due w) (s.residOwed w) := owed w debtor
    exact ⟨congrArg Prod.fst dues, congrArg (·.2.1) dues, congrArg (·.2.2.1) dues⟩
  · have dues : (u.vf w).dues = (s.vf w).dues := kept w none
    exact ⟨congrArg Prod.fst dues, congrArg (·.2.1) dues⟩

end

/-- Settles O53. Polls and debits rest on the books that records and messages leave alone (`Books`); the fold of a debit is over the
debtors, of whom none is named twice. -/
theorem hubAndIntakeCountAndDeliver : Obligations.HubAndIntakeCountAndDeliver := by
  unfold Obligations.HubAndIntakeCountAndDeliver
  intro s a q p x us v n c valid fresh
  refine ⟨notifyWrite_ignored, fun opened named => ⟨fun takes none => ?_, fun takes some within => ?_, fun refused => ?_⟩,
    packetRead_nothing, fun ready more going => ⟨fun ungranted full => ?_, fun pa t k room access clean aligned home pvalid own free => ?_⟩,
    fun polled => if_pos polled, hostRingPoll_reads, fun polled => if_pos polled, faultRingPoll_reads, fun off => ?_,
    fun powered => ⟨?_, fun early => ⟨columnMeasurement_ignored (.inl early), energyDebit_waits (.inr (.inl early))⟩,
      fun measured => columnMeasurement_ignored (.inr measured), columnMeasurement_takes powered,
      fun unmeasured => energyDebit_waits (.inr (.inr unmeasured)), energyDebit_debits powered, grantUpdate_early, fun later => ?_⟩⟩
  · exact (notifyWrite_takes opened named takes).trans (congrArg _ (notify_none none))
  · exact yields_modQi ((notifyWrite_takes opened named takes).trans (congrArg _ (notify_submits some within))) (by rw [ofNat_mod_field])
  · by_cases takes : valid
    · have beyond := refused.resolve_left (not_not_intro takes)
      exact yields_modQi ((notifyWrite_takes opened named takes).trans (congrArg _ (notify_beyond beyond))) rfl
    · exact yields_modQi (notifyWrite_refuses opened named takes) rfl
  · exact ⟨_, packetRead_stops ready more going ungranted full, congrArg (fun y : Qi => y.stopped.isSome) (qi_modQi_same _ _ _), rfl, rfl⟩
  · obtain ⟨u, same, next⟩ := packetRead_accepts ready more going room access clean aligned home pvalid own free
    exact ⟨_, next, accept_delivers same p k pa⟩
  · obtain ⟨time, column, grant⟩ := unpowered off
    exact ⟨time, column, energyDebit_waits (.inl off), grant⟩
  · obtain ⟨t, next, cycle, mm, fab, heard⟩ := timeMessage_counts powered
    refine ⟨t, next, cycle, mm, fab, fun d => ?_⟩
    rw [heard, ← ofNat_mod_field 64, ← ofNat_mod_field 16]
    exact message_steps _ _ _ _
  · intro g hot ok
    have may := mayGrant_iff c g (decide hot) (a.ok && s.budgetRoom)
    have next := grantUpdate_eq powered later
    have allowed : c.mayGrant g (decide hot) (a.ok && s.budgetRoom) = true ↔ ok := by
      rw [may, Bool.and_eq_true, decide_eq_true_eq, and_assoc]
    refine ⟨fun refused => next.trans (congrArg _ (if_neg (mt allowed.mp refused))), fun granted => ?_⟩
    rw [if_pos (allowed.mpr granted)] at next
    exact ⟨_, next, col_modCol_same s _ (Nat.mod_lt _ (by decide)), fun j other => col_modCol_other s _ other, rfl, rfl⟩

end Sys2Proof.Machine
end
